-- ==== Sys2Proof/Word.lean ====
section
/-! DEFINITION. The word types of the Nerzel NZ8 and the shape of a sparse table. Values that the
machine shifts, masks or adds are bit vectors; keys, counts and indices are natural numbers. -/

namespace Sys2Proof

/-- One byte of memory. -/
abbrev Byte := BitVec 8

/-- A vector register, a latch or an instruction word: 32 bits (R88, R90). -/
abbrev Word := BitVec 32

/-- A burin register, a system register or a virtual address: 64 bits (R88, R426). -/
abbrev DWord := BitVec 64

/-- An operand code of the fields D, A and B (R88). -/
abbrev Code := BitVec 7

/-- A table with few entries: pairs of a key and a value, keys strictly rising, no entry equal to
what an unlisted key reads as. -/
abbrev SMap (β : Type) := List (Nat × β)

end Sys2Proof
end

