-- ==== Sys2Proof/Syntax.lean ====
section
/-! DEFINITION. The instructions: one constructor for each row of the opcode table. 221
are the 32-bit words of R90 and R91 with the fields of their formats (R87); bit 31, the chain bit, belongs to the
place a word stands in and is no field here (R81). 59 are the steps that no instruction word names: each is one
event of a unit of the device. Words and events without operands stand last; the order of the constructors has no meaning. A number in an event names an entry of a list or table of the state. -/

namespace Sys2Proof

/-- The two numeric windows of a class (R177). -/
inductive WindowKind where
  | vector
  | matrix
  deriving DecidableEq, Repr

/-- A place for a team: die, CORE value and team slot (R14, R57). -/
structure Place where
  die : Nat
  core : Nat
  slot : Nat
  deriving DecidableEq, Repr

/-- A unit as an error record names it: class and number (R418). -/
structure UnitId where
  cls : Nat
  number : Nat
  deriving DecidableEq, Repr

/-- Where a soft error lies (R273, R332, R419). -/
inductive ErrPlace where
  /-- data of one granule, by physical address; `only` when the copy hit is the only current one -/
  | data (address : Nat) (only : Bool)
  /-- a payload word of a latent block, every flipped bit among the low `low` bits of an element (R364) -/
  | payload (address low : Nat)
  /-- a tag or directory entry of one line -/
  | line (address : Nat) (only : Bool)
  /-- a granule of a team's scratchpad -/
  | scratch (team offset : Nat)
  /-- a granule of a thread's private window (stack cache) -/
  | stack (thread offset : Nat)
  /-- an instruction, view or adapter cache: always clean -/
  | clean (address : Nat)
  /-- an accumulator line, by the physical address of its granule -/
  | acc (address : Nat)
  deriving DecidableEq, Repr

/-- A soft error (R273): corrected or not, and where. -/
structure SoftErr where
  corrected : Bool
  place : ErrPlace
  deriving DecidableEq, Repr

/-- One firmware image (R444): security version, public key, signature over the digest of the body,
body, and the digests of keys that the body names for later stages. -/
structure Firmware where
  version : Nat
  key : List Byte
  signature : List Byte
  body : List Byte
  names : List (List Byte)
  deriving DecidableEq, Repr

/-- An access by an agent outside the cores: a load, a store or an atomic of the functions of
major 0x36 (R223, R252, R441). -/
inductive OutsideAccess where
  | load (address : DWord) (size : Nat)
  | store (address : DWord) (data : List Byte)
  | atomic (address : DWord) (fn : BitVec 3) (b c : Word)
  deriving DecidableEq, Repr

/-- The cache of an eviction (R255, R259): a core's L1 or a die's slice. -/
inductive CacheId where
  | l1 (die core : Nat)
  | slice (die : Nat)
  deriving DecidableEq, Repr

/-- The instructions and events of the opcode table. -/
inductive Instr where
  /-- ADD: Writes the 32-bit sum of A and B to D and q0. R127 -/
  | add (n : Bool) (d a b : Code)
  /-- SUB: Writes A minus B modulo 2^32 to D and q0. R127 -/
  | sub (n : Bool) (d a b : Code)
  /-- MUL: Writes the low word of A times B. R127 -/
  | mul (n : Bool) (d a b : Code)
  /-- MULHI_I: Writes the high word of the signed 64-bit product of A and B. R127 -/
  | mulhiI (n : Bool) (d a b : Code)
  /-- MULHI_N: Writes the high word of the unsigned 64-bit product of A and B. R127 -/
  | mulhiN (n : Bool) (d a b : Code)
  /-- MAD: Writes D plus A times B, low word. R127 -/
  | mad (n : Bool) (d a b : Code)
  /-- MIN_I: Writes the signed minimum of A and B. R127 -/
  | minI (n : Bool) (d a b : Code)
  /-- MAX_I: Writes the signed maximum of A and B. R127 -/
  | maxI (n : Bool) (d a b : Code)
  /-- MIN_N: Writes the unsigned minimum of A and B. R128 -/
  | minN (n : Bool) (d a b : Code)
  /-- MAX_N: Writes the unsigned maximum of A and B. R128 -/
  | maxN (n : Bool) (d a b : Code)
  /-- ABS: Writes the magnitude of A modulo 2^32. R128 -/
  | absInt (n : Bool) (d a : Code)
  /-- ADDSAT_I: Writes the signed sum of A and B clamped to the 32-bit range. R128 -/
  | addsatI (n : Bool) (d a b : Code)
  /-- SUBSAT_I: Writes the signed difference of A and B clamped to the 32-bit range. R128 -/
  | subsatI (n : Bool) (d a b : Code)
  /-- CLZ: Writes the count of leading zero bits of A. R128 -/
  | clz (n : Bool) (d a : Code)
  /-- POPC: Writes the count of one bits of A. R128 -/
  | popc (n : Bool) (d a : Code)
  /-- BREV: Writes A with its bit order reversed. R128 -/
  | brev (n : Bool) (d a : Code)
  /-- AND: Writes A AND B. R129 -/
  | andW (n : Bool) (d a b : Code)
  /-- OR: Writes A OR B. R129 -/
  | orW (n : Bool) (d a b : Code)
  /-- XOR: Writes A XOR B. R129 -/
  | xorW (n : Bool) (d a b : Code)
  /-- ANDN: Writes A AND NOT B. R129 -/
  | andn (n : Bool) (d a b : Code)
  /-- ORN: Writes A OR NOT B. R129 -/
  | orn (n : Bool) (d a b : Code)
  /-- XNOR: Writes NOT (A XOR B). R129 -/
  | xnor (n : Bool) (d a b : Code)
  /-- SEL: Writes A where D is nonzero, else B. R129 -/
  | sel (n : Bool) (d a b : Code)
  /-- MOV: Copies A, register or latch, to D. R129 -/
  | mov (n : Bool) (d a : Code)
  /-- SHL: Shifts A left logically by B, giving 0 for B of 32 or more. R130 -/
  | shl (n : Bool) (d a b : Code)
  /-- SHR: Shifts A right logically by B. R130 -/
  | shr (n : Bool) (d a b : Code)
  /-- SAR: Shifts A right arithmetically by B. R130 -/
  | sar (n : Bool) (d a b : Code)
  /-- ROL: Rotates A left by B mod 32. R130 -/
  | rol (n : Bool) (d a b : Code)
  /-- SHL64: Shifts the pair A left by B into the pair D. R130 -/
  | shl64 (n : Bool) (d a b : Code)
  /-- SHR64: Shifts the pair A right logically by B into the pair D. R130 -/
  | shr64 (n : Bool) (d a b : Code)
  /-- BFX: Extracts a bitfield of A under the control word in B. R131 -/
  | bfx (n : Bool) (d a b : Code)
  /-- BFI: Inserts A into a bitfield of D under the control word in B. R131 -/
  | bfi (n : Bool) (d a b : Code)
  /-- EQ: Writes 1 when A equals B, else 0. R132 -/
  | cmpEq (n : Bool) (d a b : Code)
  /-- NE: Writes 1 when A differs from B. R132 -/
  | cmpNe (n : Bool) (d a b : Code)
  /-- LT_I: Writes 1 when A is signed-less than B. R132 -/
  | ltI (n : Bool) (d a b : Code)
  /-- LE_I: Writes 1 when A is signed-less than or equal to B. R132 -/
  | leI (n : Bool) (d a b : Code)
  /-- LT_N: Writes 1 when A is unsigned-less than B. R132 -/
  | ltN (n : Bool) (d a b : Code)
  /-- LE_N: Writes 1 when A is unsigned-less than or equal to B. R132 -/
  | leN (n : Bool) (d a b : Code)
  /-- TST: Writes 1 when A AND B is nonzero. R132 -/
  | tst (n : Bool) (d a b : Code)
  /-- VOTE_ANY: Writes 1 when any voting lane has A nonzero. R133 -/
  | voteAny (n : Bool) (d a : Code)
  /-- VOTE_ALL: Writes 1 when every voting lane has A nonzero. R133 -/
  | voteAll (n : Bool) (d a : Code)
  /-- VOTE_BAL: Writes the mask of voting lanes with A nonzero. R133 -/
  | voteBal (n : Bool) (d a : Code)
  /-- MATCH: Writes the mask of voting lanes whose A equals this lane's. R133 -/
  | matchLanes (n : Bool) (d a : Code)
  /-- ACTMASK: Writes the mask of the voting lanes. R133 -/
  | actmask (n : Bool) (d : Code)
  /-- MOVS: Reads a special register into D, capturing CYCLESHI on a read of CYCLES. R134 -/
  | movs (d : Code) (imm : BitVec 18)
  /-- ADD64: Adds two pairs modulo 2^64. R135 -/
  | add64 (n : Bool) (d a b : Code)
  /-- SUB64: Subtracts two pairs modulo 2^64. R135 -/
  | sub64 (n : Bool) (d a b : Code)
  /-- ADDX_I: Adds a sign-extended 32-bit B to the pair A. R135 -/
  | addxI (n : Bool) (d a b : Code)
  /-- ADDX_N: Adds a zero-extended 32-bit B to the pair A. R135 -/
  | addxN (n : Bool) (d a b : Code)
  /-- CMPLT64: Writes 1 when pair A is unsigned-less than pair B. R135 -/
  | cmplt64 (n : Bool) (d a b : Code)
  /-- CMPEQ64: Writes 1 when pair A equals pair B. R135 -/
  | cmpeq64 (n : Bool) (d a b : Code)
  /-- MOV64: Copies pair A to pair D. R135 -/
  | mov64 (n : Bool) (d a : Code)
  /-- ADDI: Adds a sign-extended 10-bit immediate to A. R136 -/
  | addi (n : Bool) (d a : Code) (imm : BitVec 10)
  /-- ANDI: ANDs A with a zero-extended 10-bit immediate. R136 -/
  | andi (n : Bool) (d a : Code) (imm : BitVec 10)
  /-- ORI: ORs A with a zero-extended 10-bit immediate. R136 -/
  | ori (n : Bool) (d a : Code) (imm : BitVec 10)
  /-- XORI: XORs A with a zero-extended 10-bit immediate. R136 -/
  | xori (n : Bool) (d a : Code) (imm : BitVec 10)
  /-- SHLI: Shifts A left logically by an immediate amount. R137 -/
  | shli (n : Bool) (d a : Code) (imm : BitVec 5)
  /-- SHRI: Shifts A right logically by an immediate amount. R137 -/
  | shri (n : Bool) (d a : Code) (imm : BitVec 5)
  /-- SARI: Shifts A right arithmetically by an immediate amount. R137 -/
  | sari (n : Bool) (d a : Code) (imm : BitVec 5)
  /-- ROLI: Rotates A left by an immediate amount. R137 -/
  | roli (n : Bool) (d a : Code) (imm : BitVec 5)
  /-- CMPI_EQ: Writes 1 when A equals the 7-bit signed immediate. R138 -/
  | cmpiEq (n : Bool) (d a : Code) (imm : BitVec 7)
  /-- CMPI_NE: Writes 1 when A differs from the immediate. R138 -/
  | cmpiNe (n : Bool) (d a : Code) (imm : BitVec 7)
  /-- CMPI_LT_I: Writes 1 when A is signed-less than the immediate. R138 -/
  | cmpiLtI (n : Bool) (d a : Code) (imm : BitVec 7)
  /-- CMPI_LE_I: Writes 1 when A is signed-less than or equal to the immediate. R138 -/
  | cmpiLeI (n : Bool) (d a : Code) (imm : BitVec 7)
  /-- CMPI_LT_N: Writes 1 when A is unsigned-less than the immediate pattern. R138 -/
  | cmpiLtN (n : Bool) (d a : Code) (imm : BitVec 7)
  /-- CMPI_LE_N: Writes 1 when A is unsigned-less than or equal to the immediate pattern. R138 -/
  | cmpiLeN (n : Bool) (d a : Code) (imm : BitVec 7)
  /-- CMPI_GT_I: Writes 1 when A is signed-greater than the immediate. R138 -/
  | cmpiGtI (n : Bool) (d a : Code) (imm : BitVec 7)
  /-- CMPI_GE_I: Writes 1 when A is signed-greater than or equal to the immediate. R138 -/
  | cmpiGeI (n : Bool) (d a : Code) (imm : BitVec 7)
  /-- MOVI: Writes a sign-extended 18-bit immediate to D. R139 -/
  | movi (d : Code) (imm : BitVec 18)
  /-- MOVHI: Keeps the low 14 bits of D and places the immediate above them. R140 -/
  | movhi (d : Code) (imm : BitVec 18)
  /-- BNZ: Branches the lanes whose A is nonzero, splitting the set under the hint. R141 -/
  | bnz (h : BitVec 2) (a : Code) (slot : BitVec 5) (dline : BitVec 11)
  /-- BZ: Branches the lanes whose A is zero, splitting the set under the hint. R141 -/
  | bz (h : BitVec 2) (a : Code) (slot : BitVec 5) (dline : BitVec 11)
  /-- JMP: Transfers every issuing thread to a line-relative target. R142 -/
  | jmp (h : BitVec 2) (slot : BitVec 5) (dline : BitVec 18)
  /-- CALL: Pushes the return address on the private stack and jumps to the target. R143 -/
  | call (h : BitVec 2) (slot : BitVec 5) (dline : BitVec 18)
  /-- JMPI: Jumps to the address held in a pair, splitting by target. R145 -/
  | jmpi (a : Code)
  /-- CALLI: Pushes the return address and jumps to the address held in a pair. R145 -/
  | calli (a : Code)
  /-- RJ_ENROL: Enrols the issuing lanes in rejoin register jmk. R150 -/
  | rjEnrol (k : BitVec 3)
  /-- RJ_WAIT: Marks the issuing lanes arrived on jmk and parks them. R115 -/
  | rjWait (k : BitVec 3)
  /-- RJ_STRIKE: Removes the issuing lanes from the enrolled and arrived masks of jmk. R115 -/
  | rjStrike (k : BitVec 3)
  /-- RJ_QUERY: Writes the enrolled mask of jmk to D. R150 -/
  | rjQuery (d : Code) (k : BitVec 3)
  /-- SPADD: Adds a scaled immediate and A to sp under the stack limits. R151 -/
  | spadd (a : Code) (x : BitVec 6)
  /-- SPGET: Writes sp to D. R151 -/
  | spget (d : Code)
  /-- SPSET: Sets sp to A under the stack limits. R151 -/
  | spset (a : Code)
  /-- BRK: Traps each issuing thread with cause 0x21 carrying a code. R152 -/
  | brk (x : BitVec 6)
  /-- FADD: Writes the f32 sum of A and B rounded RNE. R184 -/
  | fadd (n : Bool) (d a b : Code)
  /-- FSUB: Writes the f32 difference of A and B. R184 -/
  | fsub (n : Bool) (d a b : Code)
  /-- FMUL: Writes the f32 product of A and B. R184 -/
  | fmul (n : Bool) (d a b : Code)
  /-- FFMA: Writes D plus A times B with one rounding. R184 -/
  | ffma (n : Bool) (d a b : Code)
  /-- FFMS: Writes D minus A times B with one rounding. R184 -/
  | ffms (n : Bool) (d a b : Code)
  /-- FMIN: Writes the smaller f32 operand, NaN if either is NaN. R184 -/
  | fmin (n : Bool) (d a b : Code)
  /-- FMAX: Writes the larger f32 operand, NaN if either is NaN. R184 -/
  | fmax (n : Bool) (d a b : Code)
  /-- FCPSGN: Writes the magnitude bits of A with the sign of B. R184 -/
  | fcpsgn (n : Bool) (d a b : Code)
  /-- FEQ: Writes 1 when the f32 operands are equal and ordered. R185 -/
  | feq (n : Bool) (d a b : Code)
  /-- FLT: Writes 1 when A is less than B and ordered. R185 -/
  | flt (n : Bool) (d a b : Code)
  /-- FLE: Writes 1 when A is at most B and ordered. R185 -/
  | fle (n : Bool) (d a b : Code)
  /-- FUNORD: Writes 1 when either operand is NaN. R185 -/
  | funord (n : Bool) (d a b : Code)
  /-- FCLASS: Writes a one-hot class mask of the f32 pattern A. R186 -/
  | fclass (n : Bool) (d a : Code)
  /-- FABS: Clears bit 31 of A. R185 -/
  | fabs (n : Bool) (d a : Code)
  /-- FNEG: Inverts bit 31 of A. R185 -/
  | fneg (n : Bool) (d a : Code)
  /-- FRCP: Writes the correctly rounded reciprocal of A. R187 -/
  | frcp (n : Bool) (d a : Code)
  /-- FRSQ: Writes the correctly rounded reciprocal square root of A. R187 -/
  | frsq (n : Bool) (d a : Code)
  /-- FSQRT: Writes the correctly rounded square root of A. R187 -/
  | fsqrt (n : Bool) (d a : Code)
  /-- FEXP2: Writes the correctly rounded 2^A. R187 -/
  | fexp2 (n : Bool) (d a : Code)
  /-- FLOG2: Writes the correctly rounded log2 of A. R187 -/
  | flog2 (n : Bool) (d a : Code)
  /-- FTANH: Writes the correctly rounded tanh of A. R187 -/
  | ftanh (n : Bool) (d a : Code)
  /-- FSIN: Writes the correctly rounded sine of A. R187 -/
  | fsin (n : Bool) (d a : Code)
  /-- FCOS: Writes the correctly rounded cosine of A. R187 -/
  | fcos (n : Bool) (d a : Code)
  /-- HADD2: Adds two bf16 pairs half by half. R188 -/
  | hadd2 (n : Bool) (d a b : Code)
  /-- HSUB2: Subtracts two bf16 pairs half by half. R188 -/
  | hsub2 (n : Bool) (d a b : Code)
  /-- HMUL2: Multiplies two bf16 pairs half by half. R188 -/
  | hmul2 (n : Bool) (d a b : Code)
  /-- HFMA2: Computes D plus A times B per bf16 half with one rounding. R188 -/
  | hfma2 (n : Bool) (d a b : Code)
  /-- HMIN2: Writes the smaller of each bf16 half. R188 -/
  | hmin2 (n : Bool) (d a b : Code)
  /-- HMAX2: Writes the larger of each bf16 half. R188 -/
  | hmax2 (n : Bool) (d a b : Code)
  /-- HDOT2: Writes the f32 D plus the dot product of two bf16 pairs. R188 -/
  | hdot2 (n : Bool) (d a b : Code)
  /-- CVT_F2I: Converts f32 to a saturated signed 32-bit integer under a rounding mode. R190 -/
  | cvtF2i (n : Bool) (d a : Code) (r : BitVec 2)
  /-- CVT_F2N: Converts f32 to a saturated unsigned 32-bit integer. R190 -/
  | cvtF2n (n : Bool) (d a : Code) (r : BitVec 2)
  /-- CVT_I2F: Converts a signed 32-bit integer to f32. R190 -/
  | cvtI2f (n : Bool) (d a : Code) (r : BitVec 2)
  /-- CVT_N2F: Converts an unsigned 32-bit integer to f32. R190 -/
  | cvtN2f (n : Bool) (d a : Code) (r : BitVec 2)
  /-- CVT_F2BF: Converts f32 to bf16 in the low half. R190 -/
  | cvtF2bf (n : Bool) (d a : Code) (r : BitVec 2)
  /-- CVT_BF2F: Converts bf16 in the low half to f32 exactly. R190 -/
  | cvtBf2f (n : Bool) (d a : Code)
  /-- CVT_F2H: Converts f32 to f16 in the low half. R190 -/
  | cvtF2h (n : Bool) (d a : Code) (r : BitVec 2)
  /-- CVT_H2F: Converts f16 in the low half to f32 exactly. R190 -/
  | cvtH2f (n : Bool) (d a : Code)
  /-- CVT_FRND: Rounds f32 to an integral f32 value. R190 -/
  | cvtFrnd (n : Bool) (d a : Code) (r : BitVec 2)
  /-- CVT_ENC: Encodes f32 into the format of a slot. R190 -/
  | cvtEnc (n : Bool) (d a : Code) (k : BitVec 3) (r : BitVec 2)
  /-- CVT_DEC: Decodes a value of a slot's format into f32. R190 -/
  | cvtDec (n : Bool) (d a : Code) (k : BitVec 3) (r : BitVec 2)
  /-- NARROW_PACK: Encodes f32 A into field p of D in the slot's format. R191 -/
  | narrowPack (n : Bool) (d a : Code) (k : BitVec 3) (p : BitVec 2)
  /-- NARROW_UNPACK: Decodes field p of A into f32. R191 -/
  | narrowUnpack (n : Bool) (d a : Code) (k : BitVec 3) (p : BitVec 2)
  /-- XB_PERM: Moves words between lanes by a pattern table. R195 -/
  | xbPerm (n : Bool) (d a b : Code)
  /-- XB_PERM2: Moves words from A or old D of the lane indexed by B. R195 -/
  | xbPerm2 (n : Bool) (d a b : Code)
  /-- XB_SHFL: Reads A of lane l XOR B. R195 -/
  | xbShfl (n : Bool) (d a b : Code)
  /-- XB_BCAST: Broadcasts A of the lane named by the lowest active lane's B. R195 -/
  | xbBcast (n : Bool) (d a b : Code)
  /-- XB_ROT: Rotates A across lanes by the lowest active lane's B. R195 -/
  | xbRot (n : Bool) (d a b : Code)
  /-- XB_TRN: Moves bytes between lanes by a pattern table. R195 -/
  | xbTrn (n : Bool) (d a b : Code)
  /-- LDG: Issues a global load under the checks of R208. R277 -/
  | ldg (n : Bool) (d a : Code) (r : BitVec 2) (sz : BitVec 3) (off : BitVec 5)
  /-- STG: Enters a global store into the group's store queue. R277 -/
  | stg (d a : Code) (r : BitVec 2) (sz : BitVec 3) (off : BitVec 5)
  /-- LDS: Loads from the team's scratchpad. R277 -/
  | lds (n : Bool) (d a : Code) (sz : BitVec 3) (off : BitVec 5)
  /-- STS: Enters a scratchpad store into the group's store queue. R277 -/
  | sts (d a : Code) (sz : BitVec 3) (off : BitVec 5)
  /-- LDP: Loads from the thread's private window. R277 -/
  | ldp (n : Bool) (d a : Code) (sz : BitVec 3) (off : BitVec 5)
  /-- STP: Stores to the thread's private window. R277 -/
  | stp (d a : Code) (sz : BitVec 3) (off : BitVec 5)
  /-- ATOMG_ADD: Atomically adds B to a global word and returns the old value. R280 -/
  | atomgAdd (n : Bool) (d a b : Code)
  /-- ATOMG_MIN_I: Atomic signed minimum on a global word. R280 -/
  | atomgMinI (n : Bool) (d a b : Code)
  /-- ATOMG_MAX_I: Atomic signed maximum on a global word. R280 -/
  | atomgMaxI (n : Bool) (d a b : Code)
  /-- ATOMG_AND: Atomic AND on a global word. R280 -/
  | atomgAnd (n : Bool) (d a b : Code)
  /-- ATOMG_OR: Atomic OR on a global word. R280 -/
  | atomgOr (n : Bool) (d a b : Code)
  /-- ATOMG_XOR: Atomic XOR on a global word. R280 -/
  | atomgXor (n : Bool) (d a b : Code)
  /-- ATOMG_XCHG: Atomic exchange on a global word. R280 -/
  | atomgXchg (n : Bool) (d a b : Code)
  /-- ATOMG_CAS: Atomic compare-and-swap on a global word with D as comparand. R280 -/
  | atomgCas (n : Bool) (d a b : Code)
  /-- ATOMS_ADD: Atomically adds B to a scratchpad word. R280 -/
  | atomsAdd (n : Bool) (d a b : Code)
  /-- ATOMS_MIN_I: Atomic signed minimum on a scratchpad word. R280 -/
  | atomsMinI (n : Bool) (d a b : Code)
  /-- ATOMS_MAX_I: Atomic signed maximum on a scratchpad word. R280 -/
  | atomsMaxI (n : Bool) (d a b : Code)
  /-- ATOMS_AND: Atomic AND on a scratchpad word. R280 -/
  | atomsAnd (n : Bool) (d a b : Code)
  /-- ATOMS_OR: Atomic OR on a scratchpad word. R280 -/
  | atomsOr (n : Bool) (d a b : Code)
  /-- ATOMS_XOR: Atomic XOR on a scratchpad word. R280 -/
  | atomsXor (n : Bool) (d a b : Code)
  /-- ATOMS_XCHG: Atomic exchange on a scratchpad word. R280 -/
  | atomsXchg (n : Bool) (d a b : Code)
  /-- ATOMS_CAS: Atomic compare-and-swap on a scratchpad word. R280 -/
  | atomsCas (n : Bool) (d a b : Code)
  /-- REDF_FADD: Queues an f32 add reduction performed at the home slice. R281 -/
  | redfFadd (a b : Code)
  /-- REDF_FMIN: Queues an f32 minimum reduction at the home slice. R281 -/
  | redfFmin (a b : Code)
  /-- REDF_FMAX: Queues an f32 maximum reduction at the home slice. R281 -/
  | redfFmax (a b : Code)
  /-- REDF_HADD2: Queues a bf16-pair add reduction at the home slice. R281 -/
  | redfHadd2 (a b : Code)
  /-- REDF_ACCRED: Queues one contribution of B to an element of an accumulator line. R282 -/
  | redfAccred (a b : Code)
  /-- REDF_ADD_I: Queues an integer add reduction at the home slice. R281 -/
  | redfAddI (a b : Code)
  /-- FENCE: Orders memory by kind at a scope, ending privatisations when of release kind at device scope or wider. R283 -/
  | fence (x : BitVec 6)
  /-- PH_INIT: Initialises a phase barrier with a quota and returns a status. R288 -/
  | phInit (d a : Code) (k : BitVec 5)
  /-- PH_ARRIVE: Marks the thread arrived on a barrier and returns the phase. R288 -/
  | phArrive (d : Code) (k : BitVec 5)
  /-- PH_WAIT: Blocks until the awaited phase completes, then acquires. R288 -/
  | phWait (a : Code) (k : BitVec 5)
  /-- PH_TEST: Returns whether a phase has completed, acquiring when it has. R288 -/
  | phTest (d a : Code) (k : BitVec 5)
  /-- PH_END: Arrives on a barrier as a leaving arrival that lowers the quota. R288 -/
  | phEnd (d : Code) (k : BitVec 5)
  /-- PH_STAT: Returns the barrier status word. R289 -/
  | phStat (d : Code) (k : BitVec 5)
  /-- PH_INVAL: Uninitialises an idle barrier and returns a status. R288 -/
  | phInval (d : Code) (k : BitVec 5)
  /-- CP_ISSUE: Issues a copy request to the streamer, registering its bytes on a barrier. R291 -/
  | cpIssue (d a : Code) (x : BitVec 6)
  /-- CP_MCAST: Issues a multicast copy to cluster members. R291 -/
  | cpMcast (d a : Code) (x : BitVec 6)
  /-- CP_CANCEL: Cancels a queued request or reports that it runs or is gone. R298 -/
  | cpCancel (d a : Code)
  /-- PREF: Hints a line to L2 or L1; never faults. R299 -/
  | pref (a : Code) (x : BitVec 1)
  /-- PIN: Pins up to 64 lines for the context and returns count and status. R300 -/
  | pin (d a : Code) (x : BitVec 6)
  /-- UNPIN: Ends the context's pins on a run of lines. R300 -/
  | unpin (a : Code) (x : BitVec 6)
  /-- CWB: Queues a write-back of the core's dirty copies of a range at a scope. R301 -/
  | cwb (d a : Code) (x : BitVec 3)
  /-- CINV: Queues dropping of the core's L1 copies of a range. R301 -/
  | cinv (d a : Code)
  /-- IINV: Queues dropping of the core's instruction-cache copies of a range. R301 -/
  | iinv (d a : Code)
  /-- XB_TLOAD: Replaces a pattern table with 128 scratchpad bytes in one step. R303 -/
  | xbTload (a : Code) (k : BitVec 4)
  /-- SH_WIN: Forms a member's window address from a CLWIN base. R305 -/
  | shWin (d a : Code) (r : BitVec 4)
  /-- LAUNCH: Appends a launch record to a queue through the device feed and releases. R306 -/
  | launch (d a : Code)
  /-- DG_SIGNAL: Finishes a running event node of the dependence graph. R307 -/
  | dgSignal (d a : Code)
  /-- SPMAP: Binds a scratchpad run to a global range, optionally filling it. R308 -/
  | spmap (d a : Code)
  /-- SPUNMAP: Writes back and ends a scratchpad binding. R309 -/
  | spunmap (d : Code)
  /-- SPWB: Writes back a scratchpad binding and keeps it. R309 -/
  | spwb (d : Code)
  /-- MX_LOAD: Marks the shadow plate loaded and queues loading of a tile into it. R344 -/
  | mxLoad (a : Code)
  /-- MX_STREAM: Queues a stream of activation rows through the active plate. R347 -/
  | mxStream (a : Code)
  /-- MX_ADAPT: Queues rebinding of the team's adapter table. R349 -/
  | mxAdapt (a : Code)
  /-- ACC_ARM: Queues arming of a run of accumulator lines with kind and quantum. R351 -/
  | accArm (d a : Code)
  /-- ACC_DRAIN: Queues conversion and write-out of a run of accumulator lines. R353 -/
  | accDrain (a : Code) (x : BitVec 5)
  /-- ACC_CLEAR: Queues clearing of a run of accumulator lines. R354 -/
  | accClear (d a : Code)
  /-- ACC_STAT: Returns an accumulator line's state word after earlier entries complete. R355 -/
  | accStat (d a : Code)
  /-- VW_SET: Binds a view register from a descriptor and reads its matrix. R383 -/
  | vwSet (d a : Code) (k : BitVec 3)
  /-- VW_REFRESH: Rereads a bound view's matrix into its units. R384 -/
  | vwRefresh (d : Code) (k : BitVec 3)
  /-- VW_GET: Returns a selected field of a view binding. R385 -/
  | vwGet (d : Code) (fsel k : BitVec 3)
  /-- VW_CLEAR: Unbinds a view register. R386 -/
  | vwClear (d : Code) (k : BitVec 3)
  /-- GA_WALK: Issues a gather walk of a token range, writing the tier-miss mask and near bytes. R389 -/
  | gaWalk (d a : Code) (x : BitVec 6)
  /-- GA_STAT: Returns whether a request is queued, running or gone. R390 -/
  | gaStat (d a : Code)
  /-- BT_BIND: Binds a table slot to a block-table version, counting a user. R391 -/
  | btBind (d a : Code) (slot : BitVec 3)
  /-- BT_RETIRE: Ends a table slot's binding and counts down the users. R392 -/
  | btRetire (d : Code) (slot : BitVec 3)
  /-- TRAP: Traps each issuing thread with cause 0x21 carrying a code and a value. R423 -/
  | trap (a : Code) (x : BitVec 6)
  /-- MOVSYS: Reads a system register into a pair, as a fence on both sides. R425 -/
  | movsys (d a : Code)
  /-- MOVSYS_W: Writes a pair to a system register with the register's own effect. R425 -/
  | movsysW (d a : Code)
  /-- MOVTSYS_SLIM: Writes the team's stack limit SLIM. R429 -/
  | movtsysSlim (a : Code)
  /-- SYSCALL: Writes a syscall entry to the context's queue and blocks for the answer. R431 -/
  | syscall (d a : Code) (x : BitVec 6)
  /-- WAITEV: Blocks until an event ring holds entries. R432 -/
  | waitev (d a : Code)
  /-- TLBINV: Drops named translations device-wide and waits for accesses using them. R433 -/
  | tlbinv (d a : Code)
  /-- HALT: Stops placement on a core and returns its resident team count. R434 -/
  | halt (d a : Code)
  /-- HALT_RES: Restores placement on a halted core. R434 -/
  | haltRes (d a : Code)
  /-- PROOF: Runs a proof run on a unit and returns its status. R435 -/
  | proof (d a : Code)
  /-- TAKE_LAUNCH_SLOT: A placement unit takes the next launch slot of a served queue and validates it. R51 -/
  | takeLaunchSlot (die q : Nat)
  /-- AGEING_EXPIRY: The cluster's age reaches AGETHR and the target becomes fixed. R65 -/
  | ageingExpiry (grid : Nat)
  /-- CLUSTER_START: Starts all teams of a cluster in one cycle once its claims are held. R61 -/
  | clusterStart (die grid : Nat)
  /-- RUN_LIMIT_KILL: A team's run counter reaches its nonzero run limit and the team is killed with cause 0x22. R44 -/
  | runLimitKill (team : Nat)
  /-- COMPLETION_ENTRY_WRITE: Writes a completion entry once its ring has room and advances the write index. R53 -/
  | completionEntryWrite (q : Nat)
  /-- GRAPH_SLOT_TAKE: Takes a graph queue slot and starts its node. R73 -/
  | graphSlotTake (die q : Nat)
  /-- NODE_FINISH: Finishes a node, releases, and decrements its successors. R74 -/
  | nodeFinish (ctx : Nat) (node : DWord)
  /-- LOAD_DATA_RETURN: Load or atomic data returns to its destination and q3. R111 -/
  | loadDataReturn (load : Nat)
  /-- STORE_QUEUE_LEAVE: The oldest entry leaves a group's store queue and becomes visible in the core. R228 -/
  | storeQueueLeave (queue : Nat)
  /-- ARRIVAL_COUNTED: An arrival is counted on a barrier once the arriving agent's earlier queue entries have left. R288 -/
  | arrivalCounted (queue : Nat)
  /-- STREAMER_BEAT: A streamer or walk beat lands and its bytes are subtracted from pending. R241 -/
  | streamerBeat (req beat : Nat)
  /-- COPY_COMPLETE: A streamer request ends and releases when its flag is set. R240 -/
  | copyComplete (req : Nat)
  /-- MATRIX_ENTRY_START: A matrix queue entry starts once its start condition holds. R315 -/
  | matrixEntryStart (entry : Nat)
  /-- MATRIX_ENTRY_COMPLETE: A matrix queue entry completes and leaves the queue. R315 -/
  | matrixEntryComplete (entry : Nat)
  /-- MAIN_ROW_ISSUE: The array issues one main row and sends its partial sums. R321 -/
  | mainRowIssue (entry : Nat)
  /-- GOVERNOR_WINDOW: A 256-cycle governor window ends and the next allowance is set. R333 -/
  | governorWindow (die core : Nat)
  /-- ACC_CONTRIBUTION: A contribution reaches an accumulator line at its home slice and is applied. R172 -/
  | accContribution (contribution : Nat)
  /-- ADAPTER_SLICE_ARRIVAL: A missing adapter slice arrives and a held row's adapter part is computed. R326 -/
  | adapterSliceArrival (team slice : Nat)
  /-- ACC_LINE_EVICT: A resident accumulator line is written to its page and record and dropped. R332 -/
  | accLineEvict (line : Nat)
  /-- NUMERIC_WINDOW_CLOSE: A window's unit count reaches its length and both counts return to zero. R177 -/
  | numericWindowClose (team : Nat) (window : WindowKind) (cls : Fin 4)
  /-- AFTER_ISSUE_FAULT_DELIVERY: A pending after-issue fault is delivered at the thread's next boundary. R401 -/
  | afterIssueFaultDelivery (unit : Nat)
  /-- KILL_COMPLETE: Frees a killed team's claims once its started work has ended. R411 -/
  | killComplete (team : Nat)
  /-- TEAM_RETIRE: Retires a team whose threads and burin stream have all ended. R438 -/
  | teamRetire (team : Nat)
  /-- EVICTION: Evicts a team at a pre-emptible point, saving its state. R416 -/
  | eviction (team : Nat)
  /-- TEAM_RESUME: Places and restores a resumable evicted team. R417 -/
  | teamResume (team : Nat) (places : List Place)
  /-- MOVE_REHOME: The rehoming engine moves a page to a new HBM5 location line by line. R263 -/
  | moveRehome (die : Nat)
  /-- VERSION_FREED: A block-table version with no users and no running walks is freed. R368 -/
  | versionFreed (ctx : Nat) (base : DWord) (version : Word)
  /-- SYSCALL_ANSWERED: A blocked SYSCALL sees status 1, acquires and writes the reply. R431 -/
  | syscallAnswered (unit : Nat)
  /-- WAITEV_WAKE: A write to an event ring's write index wakes its waiters. R432 -/
  | waitevWake (unit : Nat)
  /-- ILLEGAL_INSTRUCTION: A word that the opcode map does not define issues and traps with cause 0x01. R90 -/
  | illegalInstruction (w : Word)
  /-- QAPP_APPEND: A system core's write to a queue's append register copies a record into the ring and returns an outcome. R49 -/
  | qappAppend (q : Nat) (record : DWord)
  /-- QUEUE_ENABLE: Writing enable 1 in QD1 enables the queue unless a field is reserved or out of range. R48 -/
  | queueEnable (q : Nat) (value : DWord)
  /-- QUEUE_DISABLE: Writing enable 0 in QD1 stops the queue and discards pending records with status 0x11. R48 -/
  | queueDisable (q : Nat) (value : DWord)
  /-- SYSTEM_REGISTER_WRITE: Writes a system register without behaviour of its own. R425 -/
  | systemRegisterWrite (number : Nat) (value : DWord)
  /-- DGEV_REQUEST: A write to DGEVd asks the walker to finish an event node. R75 -/
  | dgevRequest (die : Nat) (value : DWord)
  /-- EVICTREQ_WRITE: A write of go 1 to EVICTREQ asks for eviction of a team slot. R428 -/
  | evictreqWrite (value : DWord)
  /-- REPLAY_ANSWER: A write to REPLAYd reruns or fails every request held on a page. R410 -/
  | replayAnswer (die : Nat) (value : DWord)
  /-- REPACK: The re-pack engine lays out a compressed page again under a page lock. R270 -/
  | repack (ctx : Nat) (page : DWord)
  /-- AGENT_DEAD_SCRUB: Scrubs a dead agent's directory entries, poisoning lines it alone held. R272 -/
  | agentDeadScrub (unit : UnitId)
  /-- SOFT_ERROR: A structure meets a corrected or uncorrectable error and starts a proof run. R273 -/
  | softError (unit : UnitId) (err : SoftErr)
  /-- PROOF_RUN_COMPLETE: A proof run ends and the unit returns to service or is retired. R419 -/
  | proofRunComplete (unit : UnitId) (pass : Bool)
  /-- SEND: A RoCEv2 send arrives and is taken as a work capsule or dropped. R442 -/
  | sendEvent (conn : Nat) (payload : List Byte)
  /-- RDMA_WRITE: An RDMA write lands as system-scope writes in the connection's context. R442 -/
  | rdmaWrite (conn : Nat) (addr : DWord) (data : List Byte)
  /-- RDMA_READ: An RDMA read is served from the connection's context. R442 -/
  | rdmaRead (conn : Nat) (addr : DWord) (size : Nat)
  /-- RDMA_ATOMIC: An RDMA atomic is answered with a negative acknowledgement. R442 -/
  | rdmaAtomic (conn : Nat)
  /-- RESET: Reset runs the boot ROM and verifies and measures each firmware stage. R444 -/
  | resetEvent (images : List Firmware)
  /-- QUOTE: Signs a requester's nonce with the measurements and inventory. R445 -/
  | quote (nonce : List Byte)
  /-- THERMAL_THRESHOLD: A die above the thermal threshold lowers its arithmetic clock and interrupts the system cores. R447 -/
  | thermalThreshold (die : Nat)
  /-- SYSTEM_CORE_ACCESS: A system core loads, stores or performs an atomic on device memory in a context. R223 -/
  | systemCoreAccess (ctx : Nat) (acc : OutsideAccess)
  /-- HOST_ACCESS: A host request arrives over CXL.mem for a system-domain page held as device memory. R267 -/
  | hostAccess (acc : OutsideAccess)
  /-- PEER_ACCESS: A peer device's load, store or atomic arrives over the scale-up fabric at a home slice. R441 -/
  | peerAccess (peer : Nat) (acc : OutsideAccess)
  /-- PEER_LINK_LOSS: No port any longer reaches a peer, so its loads return poison and its writes are dropped. R441 -/
  | peerLinkLoss (peer : Nat)
  /-- CACHE_LINE_EVICTION: A cache evicts a line, writing back M or O copies and merging privatised copies. R255 -/
  | cacheLineEviction (cache : CacheId) (line : Nat)
  /-- CONTEXT_VALID_CLEAR: Clearing a context's valid bit ends its pins and leaves its queues unrunnable. R268 -/
  | contextValidClear (ctx : Nat)
  /-- STALE_INCARNATION: A message or write-back tagged with an old incarnation arrives, is dropped, and is logged. R271 -/
  | staleIncarnation (unit : UnitId) (inc : BitVec 16) (addr : DWord)
  /-- RET: Pops the return address from the private stack and transfers to it. R146 -/
  | ret
  /-- EXIT: Ends each issuing thread, striking it from every rejoin register. R147 -/
  | exit
  /-- YIELD: Gives the issuing set the newest stamp and may exchange the group. R148 -/
  | yield
  /-- NOP: Has no effect. R149 -/
  | nop
  /-- FETCHB: Waits for earlier CWB and IINV and discards words fetched ahead. R302 -/
  | fetchb
  /-- SH_JOIN: Makes the team a member of its cluster's sharing group. R304 -/
  | shJoin
  /-- SH_LEAVE: Removes the team from the sharing group after passed window accesses complete. R219 -/
  | shLeave
  /-- MX_SWAP: Exchanges the plate marks and queues exchange of the plates' roles. R345 -/
  | mxSwap
  /-- MX_WAIT: Holds the burin core until every earlier matrix queue entry completes. R350 -/
  | mxWait
  /-- ERET: Returns each trapping thread from its frame. R406 -/
  | eret
  /-- MOVTSYS_RUNCLR: Returns the team's run counter to zero. R429 -/
  | movtsysRunclr
  /-- HBM_WINDOW: A 1,024-cycle HBM allowance window closes and delayed requests are served. R56 -/
  | hbmWindow
  /-- MOVE_TO_POOL: The tier engine moves a page from HBM5 to the CXL pool. R263 -/
  | moveToPool
  /-- MOVE_FROM_POOL: The tier engine moves a page from the CXL pool to HBM5. R263 -/
  | moveFromPool
  /-- CRITICAL_TEMPERATURE: At the critical temperature the module powers off. R447 -/
  | criticalTemperature
  deriving DecidableEq, Repr

end Sys2Proof
end

