-- ==== Sys2Proof/WellFormed.lean ====
section
/-! DEFINITION. Which terms of the instruction type stand for words and steps of the device: the sub-field values that an entry marks
reserved are out (R8, R87, R92, R119, R193, R283, R291, R341, R385), and a unit number names a unit. The operand codes are no matter of
form: an illegal one is a legal word that traps with cause 0x02 (R88). -/

namespace Sys2Proof

/-- The form of one instruction, as a test. -/
def Instr.wellFormed : Instr → Bool
  | .movs _ imm => decide (imm.toNat ≤ 0x11)
  | .xbPerm _ _ _ b => decide (b.toNat < 16)
  | .xbTrn _ _ _ b => decide (b.toNat < 16)
  | .ldg _ _ _ _ sz _ => decide (sz ≠ 7)
  | .stg _ _ _ sz _ => decide (sz ≠ 1 ∧ sz ≠ 3 ∧ sz ≠ 7)
  | .lds _ _ _ sz _ => decide (sz ≠ 7)
  | .sts _ _ sz _ => decide (sz ≠ 1 ∧ sz ≠ 3 ∧ sz ≠ 7)
  | .ldp _ _ _ sz _ => decide (sz ≠ 7)
  | .stp _ _ sz _ => decide (sz ≠ 1 ∧ sz ≠ 3 ∧ sz ≠ 7)
  | .fence x => decide (x.toNat / 8 < 4 ∧ x.toNat % 8 < 5)
  | .cpIssue _ _ x => decide (x.toNat < 1 ∨ 32 ≤ x.toNat)
  | .cpMcast _ _ x => decide (x.toNat < 1 ∨ 32 ≤ x.toNat)
  | .cwb _ _ x => decide (x.toNat < 5)
  | .accDrain _ x => decide (x.toNat % 8 < 5 ∧ (x.toNat < 8 → x = 0))
  | .vwGet _ fsel _ => decide (fsel.toNat < 5)
  | .gaWalk _ _ x => decide (x.toNat < 1 ∨ 32 ≤ x.toNat)
  | .qappAppend q _ => decide (q < 1024)
  | .queueEnable q value => decide (q < 1024 ∧ value.getLsbD 13 = true)
  | .queueDisable q value => decide (q < 1024 ∧ value.getLsbD 13 = false)
  | .takeLaunchSlot die q => decide (die < 2 ∧ q < 1024)
  | .clusterStart die _ => decide (die < 2)
  | .completionEntryWrite q => decide (q < 1024)
  | .graphSlotTake die q => decide (die < 2 ∧ q < 1024)
  | .nodeFinish ctx node => decide (ctx < 64 ∧ node.toNat % 64 = 0)
  | .dgevRequest die _ => decide (die < 2)
  | .governorWindow die core => decide (die < 2 ∧ core < 144)
  | .replayAnswer die _ => decide (die < 2)
  | .moveRehome die => decide (die < 2)
  | .repack ctx _ => decide (ctx < 64)
  | .versionFreed ctx base _ => decide (ctx < 64 ∧ base.toNat % 64 = 0)
  | .sendEvent conn _ => decide (conn < 4096)
  | .rdmaWrite conn _ _ => decide (conn < 4096)
  | .rdmaRead conn _ _ => decide (conn < 4096)
  | .rdmaAtomic conn => decide (conn < 4096)
  | .thermalThreshold die => decide (die < 2)
  | .systemCoreAccess ctx _ => decide (ctx < 64)
  | .peerAccess peer _ => decide (peer < 256)
  | .peerLinkLoss peer => decide (peer < 256)
  | .contextValidClear ctx => decide (ctx < 64)
  | .quote nonce => decide (nonce.length = 32)
  | .systemRegisterWrite number _ => decide (number < 0x10000)
  | .add _ _ _ _
  | .sub _ _ _ _
  | .mul _ _ _ _
  | .mulhiI _ _ _ _
  | .mulhiN _ _ _ _
  | .mad _ _ _ _
  | .minI _ _ _ _
  | .maxI _ _ _ _
  | .minN _ _ _ _
  | .maxN _ _ _ _
  | .absInt _ _ _
  | .addsatI _ _ _ _
  | .subsatI _ _ _ _
  | .clz _ _ _
  | .popc _ _ _
  | .brev _ _ _
  | .andW _ _ _ _
  | .orW _ _ _ _
  | .xorW _ _ _ _
  | .andn _ _ _ _
  | .orn _ _ _ _
  | .xnor _ _ _ _
  | .sel _ _ _ _
  | .mov _ _ _
  | .shl _ _ _ _
  | .shr _ _ _ _
  | .sar _ _ _ _
  | .rol _ _ _ _
  | .shl64 _ _ _ _
  | .shr64 _ _ _ _
  | .bfx _ _ _ _
  | .bfi _ _ _ _
  | .cmpEq _ _ _ _
  | .cmpNe _ _ _ _
  | .ltI _ _ _ _
  | .leI _ _ _ _
  | .ltN _ _ _ _
  | .leN _ _ _ _
  | .tst _ _ _ _
  | .voteAny _ _ _
  | .voteAll _ _ _
  | .voteBal _ _ _
  | .matchLanes _ _ _
  | .actmask _ _
  | .add64 _ _ _ _
  | .sub64 _ _ _ _
  | .addxI _ _ _ _
  | .addxN _ _ _ _
  | .cmplt64 _ _ _ _
  | .cmpeq64 _ _ _ _
  | .mov64 _ _ _
  | .addi _ _ _ _
  | .andi _ _ _ _
  | .ori _ _ _ _
  | .xori _ _ _ _
  | .shli _ _ _ _
  | .shri _ _ _ _
  | .sari _ _ _ _
  | .roli _ _ _ _
  | .cmpiEq _ _ _ _
  | .cmpiNe _ _ _ _
  | .cmpiLtI _ _ _ _
  | .cmpiLeI _ _ _ _
  | .cmpiLtN _ _ _ _
  | .cmpiLeN _ _ _ _
  | .cmpiGtI _ _ _ _
  | .cmpiGeI _ _ _ _
  | .movi _ _
  | .movhi _ _
  | .bnz _ _ _ _
  | .bz _ _ _ _
  | .jmp _ _ _
  | .call _ _ _
  | .jmpi _
  | .calli _
  | .ret
  | .exit
  | .yield
  | .nop
  | .rjEnrol _
  | .rjWait _
  | .rjStrike _
  | .rjQuery _ _
  | .spadd _ _
  | .spget _
  | .spset _
  | .brk _
  | .fadd _ _ _ _
  | .fsub _ _ _ _
  | .fmul _ _ _ _
  | .ffma _ _ _ _
  | .ffms _ _ _ _
  | .fmin _ _ _ _
  | .fmax _ _ _ _
  | .fcpsgn _ _ _ _
  | .feq _ _ _ _
  | .flt _ _ _ _
  | .fle _ _ _ _
  | .funord _ _ _ _
  | .fclass _ _ _
  | .fabs _ _ _
  | .fneg _ _ _
  | .frcp _ _ _
  | .frsq _ _ _
  | .fsqrt _ _ _
  | .fexp2 _ _ _
  | .flog2 _ _ _
  | .ftanh _ _ _
  | .fsin _ _ _
  | .fcos _ _ _
  | .hadd2 _ _ _ _
  | .hsub2 _ _ _ _
  | .hmul2 _ _ _ _
  | .hfma2 _ _ _ _
  | .hmin2 _ _ _ _
  | .hmax2 _ _ _ _
  | .hdot2 _ _ _ _
  | .cvtF2i _ _ _ _
  | .cvtF2n _ _ _ _
  | .cvtI2f _ _ _ _
  | .cvtN2f _ _ _ _
  | .cvtF2bf _ _ _ _
  | .cvtBf2f _ _ _
  | .cvtF2h _ _ _ _
  | .cvtH2f _ _ _
  | .cvtFrnd _ _ _ _
  | .cvtEnc _ _ _ _ _
  | .cvtDec _ _ _ _ _
  | .narrowPack _ _ _ _ _
  | .narrowUnpack _ _ _ _ _
  | .xbPerm2 _ _ _ _
  | .xbShfl _ _ _ _
  | .xbBcast _ _ _ _
  | .xbRot _ _ _ _
  | .atomgAdd _ _ _ _
  | .atomgMinI _ _ _ _
  | .atomgMaxI _ _ _ _
  | .atomgAnd _ _ _ _
  | .atomgOr _ _ _ _
  | .atomgXor _ _ _ _
  | .atomgXchg _ _ _ _
  | .atomgCas _ _ _ _
  | .atomsAdd _ _ _ _
  | .atomsMinI _ _ _ _
  | .atomsMaxI _ _ _ _
  | .atomsAnd _ _ _ _
  | .atomsOr _ _ _ _
  | .atomsXor _ _ _ _
  | .atomsXchg _ _ _ _
  | .atomsCas _ _ _ _
  | .redfFadd _ _
  | .redfFmin _ _
  | .redfFmax _ _
  | .redfHadd2 _ _
  | .redfAccred _ _
  | .redfAddI _ _
  | .phInit _ _ _
  | .phArrive _ _
  | .phWait _ _
  | .phTest _ _ _
  | .phEnd _ _
  | .phStat _ _
  | .phInval _ _
  | .cpCancel _ _
  | .pref _ _
  | .pin _ _ _
  | .unpin _ _
  | .cinv _ _
  | .iinv _ _
  | .fetchb
  | .xbTload _ _
  | .shJoin
  | .shLeave
  | .shWin _ _ _
  | .launch _ _
  | .dgSignal _ _
  | .spmap _ _
  | .spunmap _
  | .spwb _
  | .mxLoad _
  | .mxSwap
  | .mxStream _
  | .mxAdapt _
  | .mxWait
  | .accArm _ _
  | .accClear _ _
  | .accStat _ _
  | .vwSet _ _ _
  | .vwRefresh _ _
  | .vwClear _ _
  | .gaStat _ _
  | .btBind _ _ _
  | .btRetire _ _
  | .trap _ _
  | .eret
  | .movsys _ _
  | .movsysW _ _
  | .movtsysSlim _
  | .movtsysRunclr
  | .syscall _ _ _
  | .waitev _ _
  | .tlbinv _ _
  | .halt _ _
  | .haltRes _ _
  | .proof _ _
  | .ageingExpiry _
  | .hbmWindow
  | .runLimitKill _
  | .loadDataReturn _
  | .storeQueueLeave _
  | .arrivalCounted _
  | .streamerBeat _ _
  | .copyComplete _
  | .matrixEntryStart _
  | .matrixEntryComplete _
  | .mainRowIssue _
  | .accContribution _
  | .adapterSliceArrival _ _
  | .accLineEvict _
  | .numericWindowClose _ _ _
  | .afterIssueFaultDelivery _
  | .killComplete _
  | .teamRetire _
  | .eviction _
  | .teamResume _ _
  | .evictreqWrite _
  | .moveToPool
  | .moveFromPool
  | .agentDeadScrub _
  | .softError _ _
  | .proofRunComplete _ _
  | .syscallAnswered _
  | .waitevWake _
  | .resetEvent _
  | .criticalTemperature
  | .illegalInstruction _
  | .hostAccess _
  | .cacheLineEviction _ _
  | .staleIncarnation _ _ _ => true

/-- The form of one instruction. -/
abbrev Instr.WellFormed (i : Instr) : Prop := i.wellFormed = true

end Sys2Proof
end

