-- ==== Sys2Proof/Decode.lean ====
section
/-! DEFINITION. The decoder and the encoder of the 32-bit words (R81, R87, R90 to R92), and the helpers
on bit fields. Decoding is total: a word that the opcode map does not define is rejected by name, and every rejected
word is one that traps with cause 0x01. -/

namespace Sys2Proof

/-! ### Fields of a word (R87) -/

/-- C, bit 31: the chain bit (R81). -/
def chainBit (w : Word) : Bool := w.getLsbD 31
/-- The major opcode, bits [30:25]. -/
def major (w : Word) : BitVec 6 := w.extractLsb' 25 6
/-- N of TRI, IMM and MEM, bit 24. -/
def fN (w : Word) : Bool := w.getLsbD 24
/-- D of TRI, IMM and MEM. -/
def fD (w : Word) : Code := w.extractLsb' 17 7
/-- A of TRI, IMM and MEM. -/
def fA (w : Word) : Code := w.extractLsb' 10 7
/-- B of TRI. -/
def fB (w : Word) : Code := w.extractLsb' 3 7
/-- D of EXT. -/
def xD (w : Word) : Code := w.extractLsb' 13 7
/-- A of EXT. -/
def xA (w : Word) : Code := w.extractLsb' 6 7

/-- A signed field of `v` bits, extended to `w` bits (R98). -/
def sext {v : Nat} (w : Nat) (x : BitVec v) : BitVec w := x.signExtend w
/-- An unsigned field, extended (R98). -/
def zext {v : Nat} (w : Nat) (x : BitVec v) : BitVec w := x.setWidth w

/-- The value of `n` little-endian bytes (R3). -/
def leNat : List Byte → Nat
  | [] => 0
  | b :: bs => b.toNat + 256 * leNat bs

/-- The `n` little-endian bytes of a number (R3). -/
def leBytes : Nat → Nat → List Byte
  | 0, _ => []
  | n + 1, x => BitVec.ofNat 8 x :: leBytes n (x / 256)

/-! ### The decoder -/

/-- Why a word is no instruction: each is cause 0x01 (R90). -/
inductive Reject where
  /-- a major that the map marks illegal -/
  | illegalMajor
  /-- a function marked reserved -/
  | reservedFunction
  /-- a nonzero field that must be zero -/
  | mustBeZero
  /-- a value of a sub-field that an entry marks reserved -/
  | reservedField
  deriving DecidableEq, Repr

/-- Words of major 0x01 (R90, R91). -/
def decodeIArith (w : Word) : Except Reject Instr :=
  match (w.extractLsb' 0 3).toNat with
  | 0 => .ok (.add (fN w) (fD w) (fA w) (fB w))
  | 1 => .ok (.sub (fN w) (fD w) (fA w) (fB w))
  | 2 => .ok (.mul (fN w) (fD w) (fA w) (fB w))
  | 3 => .ok (.mulhiI (fN w) (fD w) (fA w) (fB w))
  | 4 => .ok (.mulhiN (fN w) (fD w) (fA w) (fB w))
  | 5 => .ok (.mad (fN w) (fD w) (fA w) (fB w))
  | 6 => .ok (.minI (fN w) (fD w) (fA w) (fB w))
  | 7 => .ok (.maxI (fN w) (fD w) (fA w) (fB w))
  | _ => .error .reservedFunction

/-- Words of major 0x02 (R90, R91). -/
def decodeIMisc (w : Word) : Except Reject Instr :=
  match (w.extractLsb' 0 3).toNat with
  | 0 => .ok (.minN (fN w) (fD w) (fA w) (fB w))
  | 1 => .ok (.maxN (fN w) (fD w) (fA w) (fB w))
  | 2 => if fB w = 0 then .ok (.absInt (fN w) (fD w) (fA w)) else .error .mustBeZero
  | 3 => .ok (.addsatI (fN w) (fD w) (fA w) (fB w))
  | 4 => .ok (.subsatI (fN w) (fD w) (fA w) (fB w))
  | 5 => if fB w = 0 then .ok (.clz (fN w) (fD w) (fA w)) else .error .mustBeZero
  | 6 => if fB w = 0 then .ok (.popc (fN w) (fD w) (fA w)) else .error .mustBeZero
  | 7 => if fB w = 0 then .ok (.brev (fN w) (fD w) (fA w)) else .error .mustBeZero
  | _ => .error .reservedFunction

/-- Words of major 0x03 (R90, R91). -/
def decodeLogic (w : Word) : Except Reject Instr :=
  match (w.extractLsb' 0 3).toNat with
  | 0 => .ok (.andW (fN w) (fD w) (fA w) (fB w))
  | 1 => .ok (.orW (fN w) (fD w) (fA w) (fB w))
  | 2 => .ok (.xorW (fN w) (fD w) (fA w) (fB w))
  | 3 => .ok (.andn (fN w) (fD w) (fA w) (fB w))
  | 4 => .ok (.orn (fN w) (fD w) (fA w) (fB w))
  | 5 => .ok (.xnor (fN w) (fD w) (fA w) (fB w))
  | 6 => .ok (.sel (fN w) (fD w) (fA w) (fB w))
  | 7 => if fB w = 0 then .ok (.mov (fN w) (fD w) (fA w)) else .error .mustBeZero
  | _ => .error .reservedFunction

/-- Words of major 0x04 (R90, R91). -/
def decodeShift (w : Word) : Except Reject Instr :=
  match (w.extractLsb' 0 3).toNat with
  | 0 => .ok (.shl (fN w) (fD w) (fA w) (fB w))
  | 1 => .ok (.shr (fN w) (fD w) (fA w) (fB w))
  | 2 => .ok (.sar (fN w) (fD w) (fA w) (fB w))
  | 3 => .ok (.rol (fN w) (fD w) (fA w) (fB w))
  | 4 => .ok (.shl64 (fN w) (fD w) (fA w) (fB w))
  | 5 => .ok (.shr64 (fN w) (fD w) (fA w) (fB w))
  | 6 => .ok (.bfx (fN w) (fD w) (fA w) (fB w))
  | 7 => .ok (.bfi (fN w) (fD w) (fA w) (fB w))
  | _ => .error .reservedFunction

/-- Words of major 0x05 (R90, R91). -/
def decodeICmp (w : Word) : Except Reject Instr :=
  match (w.extractLsb' 0 3).toNat with
  | 0 => .ok (.cmpEq (fN w) (fD w) (fA w) (fB w))
  | 1 => .ok (.cmpNe (fN w) (fD w) (fA w) (fB w))
  | 2 => .ok (.ltI (fN w) (fD w) (fA w) (fB w))
  | 3 => .ok (.leI (fN w) (fD w) (fA w) (fB w))
  | 4 => .ok (.ltN (fN w) (fD w) (fA w) (fB w))
  | 5 => .ok (.leN (fN w) (fD w) (fA w) (fB w))
  | 6 => .ok (.tst (fN w) (fD w) (fA w) (fB w))
  | _ => .error .reservedFunction

/-- Words of major 0x06 (R90, R91). -/
def decodeGroup (w : Word) : Except Reject Instr :=
  match (w.extractLsb' 0 3).toNat with
  | 0 => if fB w = 0 then .ok (.voteAny (fN w) (fD w) (fA w)) else .error .mustBeZero
  | 1 => if fB w = 0 then .ok (.voteAll (fN w) (fD w) (fA w)) else .error .mustBeZero
  | 2 => if fB w = 0 then .ok (.voteBal (fN w) (fD w) (fA w)) else .error .mustBeZero
  | 3 => if fB w = 0 then .ok (.matchLanes (fN w) (fD w) (fA w)) else .error .mustBeZero
  | 4 => if fB w = 0 ∧ fA w = 0 then .ok (.actmask (fN w) (fD w)) else .error .mustBeZero
  | _ => .error .reservedFunction

/-- Words of major 0x08 (R90, R91). -/
def decodeAddr64 (w : Word) : Except Reject Instr :=
  match (w.extractLsb' 0 3).toNat with
  | 0 => .ok (.add64 (fN w) (fD w) (fA w) (fB w))
  | 1 => .ok (.sub64 (fN w) (fD w) (fA w) (fB w))
  | 2 => .ok (.addxI (fN w) (fD w) (fA w) (fB w))
  | 3 => .ok (.addxN (fN w) (fD w) (fA w) (fB w))
  | 4 => .ok (.cmplt64 (fN w) (fD w) (fA w) (fB w))
  | 5 => .ok (.cmpeq64 (fN w) (fD w) (fA w) (fB w))
  | 6 => if fB w = 0 then .ok (.mov64 (fN w) (fD w) (fA w)) else .error .mustBeZero
  | _ => .error .reservedFunction

/-- Words of major 0x14 (R90, R91). -/
def decodeShiftI (w : Word) : Except Reject Instr :=
  match (w.extractLsb' 8 2).toNat with
  | 0 => if w.extractLsb' 5 3 = 0 then .ok (.shli (fN w) (fD w) (fA w) (w.extractLsb' 0 5)) else .error .mustBeZero
  | 1 => if w.extractLsb' 5 3 = 0 then .ok (.shri (fN w) (fD w) (fA w) (w.extractLsb' 0 5)) else .error .mustBeZero
  | 2 => if w.extractLsb' 5 3 = 0 then .ok (.sari (fN w) (fD w) (fA w) (w.extractLsb' 0 5)) else .error .mustBeZero
  | 3 => if w.extractLsb' 5 3 = 0 then .ok (.roli (fN w) (fD w) (fA w) (w.extractLsb' 0 5)) else .error .mustBeZero
  | _ => .error .reservedFunction

/-- Words of major 0x15 (R90, R91). -/
def decodeCmpI (w : Word) : Except Reject Instr :=
  match (w.extractLsb' 7 3).toNat with
  | 0 => .ok (.cmpiEq (fN w) (fD w) (fA w) (w.extractLsb' 0 7))
  | 1 => .ok (.cmpiNe (fN w) (fD w) (fA w) (w.extractLsb' 0 7))
  | 2 => .ok (.cmpiLtI (fN w) (fD w) (fA w) (w.extractLsb' 0 7))
  | 3 => .ok (.cmpiLeI (fN w) (fD w) (fA w) (w.extractLsb' 0 7))
  | 4 => .ok (.cmpiLtN (fN w) (fD w) (fA w) (w.extractLsb' 0 7))
  | 5 => .ok (.cmpiLeN (fN w) (fD w) (fA w) (w.extractLsb' 0 7))
  | 6 => .ok (.cmpiGtI (fN w) (fD w) (fA w) (w.extractLsb' 0 7))
  | 7 => .ok (.cmpiGeI (fN w) (fD w) (fA w) (w.extractLsb' 0 7))
  | _ => .error .reservedFunction

/-- Words of major 0x1c (R90, R91). -/
def decodeCtrl (w : Word) : Except Reject Instr :=
  match (w.extractLsb' 20 5).toNat with
  | 0 => if w.extractLsb' 0 3 = 0 ∧ w.extractLsb' 3 3 = 0 ∧ xD w = 0 then .ok (.jmpi (xA w)) else .error .mustBeZero
  | 1 => if w.extractLsb' 0 3 = 0 ∧ w.extractLsb' 3 3 = 0 ∧ xD w = 0 then .ok (.calli (xA w)) else .error .mustBeZero
  | 2 => if w.extractLsb' 0 3 = 0 ∧ w.extractLsb' 3 3 = 0 ∧ xA w = 0 ∧ xD w = 0 then .ok .ret else .error .mustBeZero
  | 3 => if w.extractLsb' 0 3 = 0 ∧ w.extractLsb' 3 3 = 0 ∧ xA w = 0 ∧ xD w = 0 then .ok .exit else .error .mustBeZero
  | 4 => if w.extractLsb' 0 3 = 0 ∧ w.extractLsb' 3 3 = 0 ∧ xA w = 0 ∧ xD w = 0 then .ok .yield else .error .mustBeZero
  | 5 => if w.extractLsb' 0 3 = 0 ∧ w.extractLsb' 3 3 = 0 ∧ xA w = 0 ∧ xD w = 0 then .ok .nop else .error .mustBeZero
  | 6 => if w.extractLsb' 3 3 = 0 ∧ xA w = 0 ∧ xD w = 0 then .ok (.rjEnrol (w.extractLsb' 0 3)) else .error .mustBeZero
  | 7 => if w.extractLsb' 3 3 = 0 ∧ xA w = 0 ∧ xD w = 0 then .ok (.rjWait (w.extractLsb' 0 3)) else .error .mustBeZero
  | 8 => if w.extractLsb' 3 3 = 0 ∧ xA w = 0 ∧ xD w = 0 then .ok (.rjStrike (w.extractLsb' 0 3)) else .error .mustBeZero
  | 9 => if w.extractLsb' 3 3 = 0 ∧ xA w = 0 then .ok (.rjQuery (xD w) (w.extractLsb' 0 3)) else .error .mustBeZero
  | 10 => if xD w = 0 then .ok (.spadd (xA w) (w.extractLsb' 0 6)) else .error .mustBeZero
  | 11 => if w.extractLsb' 0 3 = 0 ∧ w.extractLsb' 3 3 = 0 ∧ xA w = 0 then .ok (.spget (xD w)) else .error .mustBeZero
  | 12 => if w.extractLsb' 0 3 = 0 ∧ w.extractLsb' 3 3 = 0 ∧ xD w = 0 then .ok (.spset (xA w)) else .error .mustBeZero
  | 13 => if xA w = 0 ∧ xD w = 0 then .ok (.brk (w.extractLsb' 0 6)) else .error .mustBeZero
  | _ => .error .reservedFunction

/-- Words of major 0x20 (R90, R91). -/
def decodeFArith (w : Word) : Except Reject Instr :=
  match (w.extractLsb' 0 3).toNat with
  | 0 => .ok (.fadd (fN w) (fD w) (fA w) (fB w))
  | 1 => .ok (.fsub (fN w) (fD w) (fA w) (fB w))
  | 2 => .ok (.fmul (fN w) (fD w) (fA w) (fB w))
  | 3 => .ok (.ffma (fN w) (fD w) (fA w) (fB w))
  | 4 => .ok (.ffms (fN w) (fD w) (fA w) (fB w))
  | 5 => .ok (.fmin (fN w) (fD w) (fA w) (fB w))
  | 6 => .ok (.fmax (fN w) (fD w) (fA w) (fB w))
  | 7 => .ok (.fcpsgn (fN w) (fD w) (fA w) (fB w))
  | _ => .error .reservedFunction

/-- Words of major 0x21 (R90, R91). -/
def decodeFCmp (w : Word) : Except Reject Instr :=
  match (w.extractLsb' 0 3).toNat with
  | 0 => .ok (.feq (fN w) (fD w) (fA w) (fB w))
  | 1 => .ok (.flt (fN w) (fD w) (fA w) (fB w))
  | 2 => .ok (.fle (fN w) (fD w) (fA w) (fB w))
  | 3 => .ok (.funord (fN w) (fD w) (fA w) (fB w))
  | 4 => if fB w = 0 then .ok (.fclass (fN w) (fD w) (fA w)) else .error .mustBeZero
  | 5 => if fB w = 0 then .ok (.fabs (fN w) (fD w) (fA w)) else .error .mustBeZero
  | 6 => if fB w = 0 then .ok (.fneg (fN w) (fD w) (fA w)) else .error .mustBeZero
  | _ => .error .reservedFunction

/-- Words of major 0x22 (R90, R91). -/
def decodeFSpec (w : Word) : Except Reject Instr :=
  match (w.extractLsb' 0 3).toNat with
  | 0 => if fB w = 124 then .ok (.frcp (fN w) (fD w) (fA w)) else .error .mustBeZero
  | 1 => if fB w = 124 then .ok (.frsq (fN w) (fD w) (fA w)) else .error .mustBeZero
  | 2 => if fB w = 124 then .ok (.fsqrt (fN w) (fD w) (fA w)) else .error .mustBeZero
  | 3 => if fB w = 124 then .ok (.fexp2 (fN w) (fD w) (fA w)) else .error .mustBeZero
  | 4 => if fB w = 124 then .ok (.flog2 (fN w) (fD w) (fA w)) else .error .mustBeZero
  | 5 => if fB w = 124 then .ok (.ftanh (fN w) (fD w) (fA w)) else .error .mustBeZero
  | 6 => if fB w = 124 then .ok (.fsin (fN w) (fD w) (fA w)) else .error .mustBeZero
  | 7 => if fB w = 124 then .ok (.fcos (fN w) (fD w) (fA w)) else .error .mustBeZero
  | _ => .error .reservedFunction

/-- Words of major 0x23 (R90, R91). -/
def decodeHPair (w : Word) : Except Reject Instr :=
  match (w.extractLsb' 0 3).toNat with
  | 0 => .ok (.hadd2 (fN w) (fD w) (fA w) (fB w))
  | 1 => .ok (.hsub2 (fN w) (fD w) (fA w) (fB w))
  | 2 => .ok (.hmul2 (fN w) (fD w) (fA w) (fB w))
  | 3 => .ok (.hfma2 (fN w) (fD w) (fA w) (fB w))
  | 4 => .ok (.hmin2 (fN w) (fD w) (fA w) (fB w))
  | 5 => .ok (.hmax2 (fN w) (fD w) (fA w) (fB w))
  | 6 => .ok (.hdot2 (fN w) (fD w) (fA w) (fB w))
  | _ => .error .reservedFunction

/-- Words of major 0x24 (R90, R91). -/
def decodeCvt (w : Word) : Except Reject Instr :=
  match (w.extractLsb' 5 5).toNat with
  | 0 => if w.extractLsb' 2 3 = 0 then .ok (.cvtF2i (fN w) (fD w) (fA w) (w.extractLsb' 0 2)) else .error .mustBeZero
  | 1 => if w.extractLsb' 2 3 = 0 then .ok (.cvtF2n (fN w) (fD w) (fA w) (w.extractLsb' 0 2)) else .error .mustBeZero
  | 2 => if w.extractLsb' 2 3 = 0 then .ok (.cvtI2f (fN w) (fD w) (fA w) (w.extractLsb' 0 2)) else .error .mustBeZero
  | 3 => if w.extractLsb' 2 3 = 0 then .ok (.cvtN2f (fN w) (fD w) (fA w) (w.extractLsb' 0 2)) else .error .mustBeZero
  | 4 => if w.extractLsb' 2 3 = 0 then .ok (.cvtF2bf (fN w) (fD w) (fA w) (w.extractLsb' 0 2)) else .error .mustBeZero
  | 5 => if w.extractLsb' 0 5 = 0 then .ok (.cvtBf2f (fN w) (fD w) (fA w)) else .error .mustBeZero
  | 6 => if w.extractLsb' 2 3 = 0 then .ok (.cvtF2h (fN w) (fD w) (fA w) (w.extractLsb' 0 2)) else .error .mustBeZero
  | 7 => if w.extractLsb' 0 5 = 0 then .ok (.cvtH2f (fN w) (fD w) (fA w)) else .error .mustBeZero
  | 8 => if w.extractLsb' 2 3 = 0 then .ok (.cvtFrnd (fN w) (fD w) (fA w) (w.extractLsb' 0 2)) else .error .mustBeZero
  | 9 => .ok (.cvtEnc (fN w) (fD w) (fA w) (w.extractLsb' 2 3) (w.extractLsb' 0 2))
  | 10 => .ok (.cvtDec (fN w) (fD w) (fA w) (w.extractLsb' 2 3) (w.extractLsb' 0 2))
  | _ => .error .reservedFunction

/-- Words of major 0x25 (R90, R91). -/
def decodeNarrow (w : Word) : Except Reject Instr :=
  match (w.extractLsb' 9 1).toNat with
  | 0 => if w.extractLsb' 0 4 = 0 then .ok (.narrowPack (fN w) (fD w) (fA w) (w.extractLsb' 6 3) (w.extractLsb' 4 2)) else .error .mustBeZero
  | 1 => if w.extractLsb' 0 4 = 0 then .ok (.narrowUnpack (fN w) (fD w) (fA w) (w.extractLsb' 6 3) (w.extractLsb' 4 2)) else .error .mustBeZero
  | _ => .error .reservedFunction

/-- Words of major 0x28 (R90, R91). -/
def decodeXBar (w : Word) : Except Reject Instr :=
  match (w.extractLsb' 0 3).toNat with
  | 0 => if (fB w).toNat < 16 then .ok (.xbPerm (fN w) (fD w) (fA w) (fB w)) else .error .reservedField
  | 1 => .ok (.xbPerm2 (fN w) (fD w) (fA w) (fB w))
  | 2 => .ok (.xbShfl (fN w) (fD w) (fA w) (fB w))
  | 3 => .ok (.xbBcast (fN w) (fD w) (fA w) (fB w))
  | 4 => .ok (.xbRot (fN w) (fD w) (fA w) (fB w))
  | 5 => if (fB w).toNat < 16 then .ok (.xbTrn (fN w) (fD w) (fA w) (fB w)) else .error .reservedField
  | _ => .error .reservedFunction

/-- Words of major 0x36 (R90, R91). -/
def decodeAtomG (w : Word) : Except Reject Instr :=
  match (w.extractLsb' 0 3).toNat with
  | 0 => .ok (.atomgAdd (fN w) (fD w) (fA w) (fB w))
  | 1 => .ok (.atomgMinI (fN w) (fD w) (fA w) (fB w))
  | 2 => .ok (.atomgMaxI (fN w) (fD w) (fA w) (fB w))
  | 3 => .ok (.atomgAnd (fN w) (fD w) (fA w) (fB w))
  | 4 => .ok (.atomgOr (fN w) (fD w) (fA w) (fB w))
  | 5 => .ok (.atomgXor (fN w) (fD w) (fA w) (fB w))
  | 6 => .ok (.atomgXchg (fN w) (fD w) (fA w) (fB w))
  | 7 => .ok (.atomgCas (fN w) (fD w) (fA w) (fB w))
  | _ => .error .reservedFunction

/-- Words of major 0x37 (R90, R91). -/
def decodeAtomS (w : Word) : Except Reject Instr :=
  match (w.extractLsb' 0 3).toNat with
  | 0 => .ok (.atomsAdd (fN w) (fD w) (fA w) (fB w))
  | 1 => .ok (.atomsMinI (fN w) (fD w) (fA w) (fB w))
  | 2 => .ok (.atomsMaxI (fN w) (fD w) (fA w) (fB w))
  | 3 => .ok (.atomsAnd (fN w) (fD w) (fA w) (fB w))
  | 4 => .ok (.atomsOr (fN w) (fD w) (fA w) (fB w))
  | 5 => .ok (.atomsXor (fN w) (fD w) (fA w) (fB w))
  | 6 => .ok (.atomsXchg (fN w) (fD w) (fA w) (fB w))
  | 7 => .ok (.atomsCas (fN w) (fD w) (fA w) (fB w))
  | _ => .error .reservedFunction

/-- Words of major 0x38 (R90, R91). -/
def decodeRedF (w : Word) : Except Reject Instr :=
  match (w.extractLsb' 0 3).toNat with
  | 0 => if fD w = 0 ∧ w.extractLsb' 24 1 = 0 then .ok (.redfFadd (fA w) (fB w)) else .error .mustBeZero
  | 1 => if fD w = 0 ∧ w.extractLsb' 24 1 = 0 then .ok (.redfFmin (fA w) (fB w)) else .error .mustBeZero
  | 2 => if fD w = 0 ∧ w.extractLsb' 24 1 = 0 then .ok (.redfFmax (fA w) (fB w)) else .error .mustBeZero
  | 3 => if fD w = 0 ∧ w.extractLsb' 24 1 = 0 then .ok (.redfHadd2 (fA w) (fB w)) else .error .mustBeZero
  | 4 => if fD w = 0 ∧ w.extractLsb' 24 1 = 0 then .ok (.redfAccred (fA w) (fB w)) else .error .mustBeZero
  | 5 => if fD w = 0 ∧ w.extractLsb' 24 1 = 0 then .ok (.redfAddI (fA w) (fB w)) else .error .mustBeZero
  | _ => .error .reservedFunction

/-- Words of major 0x39 (R90, R91). -/
def decodeSync (w : Word) : Except Reject Instr :=
  match (w.extractLsb' 20 5).toNat with
  | 0 => if xA w = 0 ∧ xD w = 0 then if (w.extractLsb' 0 6).toNat / 8 < 4 ∧ (w.extractLsb' 0 6).toNat % 8 < 5 then .ok (.fence (w.extractLsb' 0 6)) else .error .reservedField else .error .mustBeZero
  | 1 => if w.extractLsb' 5 1 = 0 then .ok (.phInit (xD w) (xA w) (w.extractLsb' 0 5)) else .error .mustBeZero
  | 2 => if w.extractLsb' 5 1 = 0 ∧ xA w = 0 then .ok (.phArrive (xD w) (w.extractLsb' 0 5)) else .error .mustBeZero
  | 3 => if w.extractLsb' 5 1 = 0 ∧ xD w = 0 then .ok (.phWait (xA w) (w.extractLsb' 0 5)) else .error .mustBeZero
  | 4 => if w.extractLsb' 5 1 = 0 then .ok (.phTest (xD w) (xA w) (w.extractLsb' 0 5)) else .error .mustBeZero
  | 5 => if w.extractLsb' 5 1 = 0 ∧ xA w = 0 then .ok (.phEnd (xD w) (w.extractLsb' 0 5)) else .error .mustBeZero
  | 6 => if w.extractLsb' 5 1 = 0 ∧ xA w = 0 then .ok (.phStat (xD w) (w.extractLsb' 0 5)) else .error .mustBeZero
  | 7 => if w.extractLsb' 5 1 = 0 ∧ xA w = 0 then .ok (.phInval (xD w) (w.extractLsb' 0 5)) else .error .mustBeZero
  | _ => .error .reservedFunction

/-- Words of major 0x3a (R90, R91). -/
def decodeStream (w : Word) : Except Reject Instr :=
  match (w.extractLsb' 20 5).toNat with
  | 0 => if (w.extractLsb' 0 6).toNat < 1 ∨ 32 ≤ (w.extractLsb' 0 6).toNat then .ok (.cpIssue (xD w) (xA w) (w.extractLsb' 0 6)) else .error .reservedField
  | 1 => if (w.extractLsb' 0 6).toNat < 1 ∨ 32 ≤ (w.extractLsb' 0 6).toNat then .ok (.cpMcast (xD w) (xA w) (w.extractLsb' 0 6)) else .error .reservedField
  | 2 => if w.extractLsb' 0 3 = 0 ∧ w.extractLsb' 3 3 = 0 then .ok (.cpCancel (xD w) (xA w)) else .error .mustBeZero
  | 3 => if w.extractLsb' 1 2 = 0 ∧ w.extractLsb' 3 3 = 0 ∧ xD w = 0 then .ok (.pref (xA w) (w.extractLsb' 0 1)) else .error .mustBeZero
  | 4 => .ok (.pin (xD w) (xA w) (w.extractLsb' 0 6))
  | 5 => if xD w = 0 then .ok (.unpin (xA w) (w.extractLsb' 0 6)) else .error .mustBeZero
  | 6 => if w.extractLsb' 3 3 = 0 then if (w.extractLsb' 0 3).toNat < 5 then .ok (.cwb (xD w) (xA w) (w.extractLsb' 0 3)) else .error .reservedField else .error .mustBeZero
  | 7 => if w.extractLsb' 0 3 = 0 ∧ w.extractLsb' 3 3 = 0 then .ok (.cinv (xD w) (xA w)) else .error .mustBeZero
  | 8 => if w.extractLsb' 0 3 = 0 ∧ w.extractLsb' 3 3 = 0 then .ok (.iinv (xD w) (xA w)) else .error .mustBeZero
  | 9 => if w.extractLsb' 0 3 = 0 ∧ w.extractLsb' 3 3 = 0 ∧ xA w = 0 ∧ xD w = 0 then .ok .fetchb else .error .mustBeZero
  | 10 => if w.extractLsb' 4 2 = 0 ∧ xD w = 0 then .ok (.xbTload (xA w) (w.extractLsb' 0 4)) else .error .mustBeZero
  | _ => .error .reservedFunction

/-- Words of major 0x3b (R90, R91). -/
def decodeShare (w : Word) : Except Reject Instr :=
  match (w.extractLsb' 20 5).toNat with
  | 0 => if w.extractLsb' 0 3 = 0 ∧ w.extractLsb' 3 3 = 0 ∧ xA w = 0 ∧ xD w = 0 then .ok .shJoin else .error .mustBeZero
  | 1 => if w.extractLsb' 0 3 = 0 ∧ w.extractLsb' 3 3 = 0 ∧ xA w = 0 ∧ xD w = 0 then .ok .shLeave else .error .mustBeZero
  | 2 => if w.extractLsb' 4 2 = 0 then .ok (.shWin (xD w) (xA w) (w.extractLsb' 0 4)) else .error .mustBeZero
  | 3 => if w.extractLsb' 0 3 = 0 ∧ w.extractLsb' 3 3 = 0 then .ok (.launch (xD w) (xA w)) else .error .mustBeZero
  | 4 => if w.extractLsb' 0 3 = 0 ∧ w.extractLsb' 3 3 = 0 then .ok (.dgSignal (xD w) (xA w)) else .error .mustBeZero
  | 5 => if w.extractLsb' 0 3 = 0 ∧ w.extractLsb' 3 3 = 0 then .ok (.spmap (xD w) (xA w)) else .error .mustBeZero
  | 6 => if w.extractLsb' 0 3 = 0 ∧ w.extractLsb' 3 3 = 0 ∧ xA w = 0 then .ok (.spunmap (xD w)) else .error .mustBeZero
  | 7 => if w.extractLsb' 0 3 = 0 ∧ w.extractLsb' 3 3 = 0 ∧ xA w = 0 then .ok (.spwb (xD w)) else .error .mustBeZero
  | _ => .error .reservedFunction

/-- Words of major 0x3c (R90, R91). -/
def decodeMatrix (w : Word) : Except Reject Instr :=
  match (w.extractLsb' 20 5).toNat with
  | 0 => if w.extractLsb' 0 3 = 0 ∧ w.extractLsb' 3 3 = 0 ∧ xD w = 0 then .ok (.mxLoad (xA w)) else .error .mustBeZero
  | 1 => if w.extractLsb' 0 3 = 0 ∧ w.extractLsb' 3 3 = 0 ∧ xA w = 0 ∧ xD w = 0 then .ok .mxSwap else .error .mustBeZero
  | 2 => if w.extractLsb' 0 3 = 0 ∧ w.extractLsb' 3 3 = 0 ∧ xD w = 0 then .ok (.mxStream (xA w)) else .error .mustBeZero
  | 3 => if w.extractLsb' 0 3 = 0 ∧ w.extractLsb' 3 3 = 0 ∧ xD w = 0 then .ok (.mxAdapt (xA w)) else .error .mustBeZero
  | 4 => if w.extractLsb' 0 3 = 0 ∧ w.extractLsb' 3 3 = 0 ∧ xA w = 0 ∧ xD w = 0 then .ok .mxWait else .error .mustBeZero
  | 5 => if w.extractLsb' 0 3 = 0 ∧ w.extractLsb' 3 3 = 0 then .ok (.accArm (xD w) (xA w)) else .error .mustBeZero
  | 6 => if w.extractLsb' 5 1 = 0 ∧ xD w = 0 then if (w.extractLsb' 0 5).toNat % 8 < 5 ∧ ((w.extractLsb' 0 5).toNat < 8 → (w.extractLsb' 0 5) = 0) then .ok (.accDrain (xA w) (w.extractLsb' 0 5)) else .error .reservedField else .error .mustBeZero
  | 7 => if w.extractLsb' 0 3 = 0 ∧ w.extractLsb' 3 3 = 0 then .ok (.accClear (xD w) (xA w)) else .error .mustBeZero
  | 8 => if w.extractLsb' 0 3 = 0 ∧ w.extractLsb' 3 3 = 0 then .ok (.accStat (xD w) (xA w)) else .error .mustBeZero
  | _ => .error .reservedFunction

/-- Words of major 0x3d (R90, R91). -/
def decodeView (w : Word) : Except Reject Instr :=
  match (w.extractLsb' 20 5).toNat with
  | 0 => if w.extractLsb' 3 3 = 0 then .ok (.vwSet (xD w) (xA w) (w.extractLsb' 0 3)) else .error .mustBeZero
  | 1 => if w.extractLsb' 3 3 = 0 ∧ xA w = 0 then .ok (.vwRefresh (xD w) (w.extractLsb' 0 3)) else .error .mustBeZero
  | 2 => if xA w = 0 then if (w.extractLsb' 3 3).toNat < 5 then .ok (.vwGet (xD w) (w.extractLsb' 3 3) (w.extractLsb' 0 3)) else .error .reservedField else .error .mustBeZero
  | 3 => if w.extractLsb' 3 3 = 0 ∧ xA w = 0 then .ok (.vwClear (xD w) (w.extractLsb' 0 3)) else .error .mustBeZero
  | 4 => if (w.extractLsb' 0 6).toNat < 1 ∨ 32 ≤ (w.extractLsb' 0 6).toNat then .ok (.gaWalk (xD w) (xA w) (w.extractLsb' 0 6)) else .error .reservedField
  | 5 => if w.extractLsb' 0 3 = 0 ∧ w.extractLsb' 3 3 = 0 then .ok (.gaStat (xD w) (xA w)) else .error .mustBeZero
  | 6 => if w.extractLsb' 3 3 = 0 then .ok (.btBind (xD w) (xA w) (w.extractLsb' 0 3)) else .error .mustBeZero
  | 7 => if w.extractLsb' 3 3 = 0 ∧ xA w = 0 then .ok (.btRetire (xD w) (w.extractLsb' 0 3)) else .error .mustBeZero
  | _ => .error .reservedFunction

/-- Words of major 0x3e (R90, R91). -/
def decodeSystem (w : Word) : Except Reject Instr :=
  match (w.extractLsb' 20 5).toNat with
  | 0 => if xD w = 0 then .ok (.trap (xA w) (w.extractLsb' 0 6)) else .error .mustBeZero
  | 1 => if w.extractLsb' 0 3 = 0 ∧ w.extractLsb' 3 3 = 0 ∧ xA w = 0 ∧ xD w = 0 then .ok .eret else .error .mustBeZero
  | 2 => if w.extractLsb' 0 6 = 0 then (.ok (.movsys (xD w) (xA w))) else if w.extractLsb' 0 6 = 1 then (.ok (.movsysW (xD w) (xA w))) else .error .reservedField
  | 3 => if w.extractLsb' 0 6 = 0 then (if xD w = 0 then .ok (.movtsysSlim (xA w)) else .error .mustBeZero) else if w.extractLsb' 0 6 = 1 then (if xA w = 0 ∧ xD w = 0 then .ok .movtsysRunclr else .error .mustBeZero) else .error .reservedField
  | 4 => .ok (.syscall (xD w) (xA w) (w.extractLsb' 0 6))
  | 5 => if w.extractLsb' 0 3 = 0 ∧ w.extractLsb' 3 3 = 0 then .ok (.waitev (xD w) (xA w)) else .error .mustBeZero
  | 6 => if w.extractLsb' 0 3 = 0 ∧ w.extractLsb' 3 3 = 0 then .ok (.tlbinv (xD w) (xA w)) else .error .mustBeZero
  | 7 => if w.extractLsb' 0 6 = 0 then (.ok (.halt (xD w) (xA w))) else if w.extractLsb' 0 6 = 1 then (.ok (.haltRes (xD w) (xA w))) else .error .reservedField
  | 8 => if w.extractLsb' 0 3 = 0 ∧ w.extractLsb' 3 3 = 0 then .ok (.proof (xD w) (xA w)) else .error .mustBeZero
  | _ => .error .reservedFunction

/-- The instruction of a word, bit 31 apart (R90). -/
def decode (w : Word) : Except Reject Instr :=
  match (major w).toNat with
  | 0x01 => decodeIArith w
  | 0x02 => decodeIMisc w
  | 0x03 => decodeLogic w
  | 0x04 => decodeShift w
  | 0x05 => decodeICmp w
  | 0x06 => decodeGroup w
  | 0x07 => if (w.extractLsb' 0 18).toNat ≤ 0x11 then .ok (.movs (w.extractLsb' 18 7) (w.extractLsb' 0 18)) else .error .reservedField
  | 0x08 => decodeAddr64 w
  | 0x10 => .ok (.addi (fN w) (fD w) (fA w) (w.extractLsb' 0 10))
  | 0x11 => .ok (.andi (fN w) (fD w) (fA w) (w.extractLsb' 0 10))
  | 0x12 => .ok (.ori (fN w) (fD w) (fA w) (w.extractLsb' 0 10))
  | 0x13 => .ok (.xori (fN w) (fD w) (fA w) (w.extractLsb' 0 10))
  | 0x14 => decodeShiftI w
  | 0x15 => decodeCmpI w
  | 0x16 => .ok (.movi (w.extractLsb' 18 7) (w.extractLsb' 0 18))
  | 0x17 => .ok (.movhi (w.extractLsb' 18 7) (w.extractLsb' 0 18))
  | 0x18 => .ok (.bnz (w.extractLsb' 23 2) (w.extractLsb' 16 7) (w.extractLsb' 11 5) (w.extractLsb' 0 11))
  | 0x19 => .ok (.bz (w.extractLsb' 23 2) (w.extractLsb' 16 7) (w.extractLsb' 11 5) (w.extractLsb' 0 11))
  | 0x1a => .ok (.jmp (w.extractLsb' 23 2) (w.extractLsb' 18 5) (w.extractLsb' 0 18))
  | 0x1b => .ok (.call (w.extractLsb' 23 2) (w.extractLsb' 18 5) (w.extractLsb' 0 18))
  | 0x1c => decodeCtrl w
  | 0x20 => decodeFArith w
  | 0x21 => decodeFCmp w
  | 0x22 => decodeFSpec w
  | 0x23 => decodeHPair w
  | 0x24 => decodeCvt w
  | 0x25 => decodeNarrow w
  | 0x28 => decodeXBar w
  | 0x30 => if (w.extractLsb' 5 3) ≠ 7 then .ok (.ldg (fN w) (fD w) (fA w) (w.extractLsb' 8 2) (w.extractLsb' 5 3) (w.extractLsb' 0 5)) else .error .reservedField
  | 0x31 => if w.extractLsb' 24 1 = 0 then if (w.extractLsb' 5 3) ≠ 1 ∧ (w.extractLsb' 5 3) ≠ 3 ∧ (w.extractLsb' 5 3) ≠ 7 then .ok (.stg (fD w) (fA w) (w.extractLsb' 8 2) (w.extractLsb' 5 3) (w.extractLsb' 0 5)) else .error .reservedField else .error .mustBeZero
  | 0x32 => if w.extractLsb' 8 2 = 0 then if (w.extractLsb' 5 3) ≠ 7 then .ok (.lds (fN w) (fD w) (fA w) (w.extractLsb' 5 3) (w.extractLsb' 0 5)) else .error .reservedField else .error .mustBeZero
  | 0x33 => if w.extractLsb' 8 2 = 0 ∧ w.extractLsb' 24 1 = 0 then if (w.extractLsb' 5 3) ≠ 1 ∧ (w.extractLsb' 5 3) ≠ 3 ∧ (w.extractLsb' 5 3) ≠ 7 then .ok (.sts (fD w) (fA w) (w.extractLsb' 5 3) (w.extractLsb' 0 5)) else .error .reservedField else .error .mustBeZero
  | 0x34 => if w.extractLsb' 8 2 = 0 then if (w.extractLsb' 5 3) ≠ 7 then .ok (.ldp (fN w) (fD w) (fA w) (w.extractLsb' 5 3) (w.extractLsb' 0 5)) else .error .reservedField else .error .mustBeZero
  | 0x35 => if w.extractLsb' 8 2 = 0 ∧ w.extractLsb' 24 1 = 0 then if (w.extractLsb' 5 3) ≠ 1 ∧ (w.extractLsb' 5 3) ≠ 3 ∧ (w.extractLsb' 5 3) ≠ 7 then .ok (.stp (fD w) (fA w) (w.extractLsb' 5 3) (w.extractLsb' 0 5)) else .error .reservedField else .error .mustBeZero
  | 0x36 => decodeAtomG w
  | 0x37 => decodeAtomS w
  | 0x38 => decodeRedF w
  | 0x39 => decodeSync w
  | 0x3a => decodeStream w
  | 0x3b => decodeShare w
  | 0x3c => decodeMatrix w
  | 0x3d => decodeView w
  | 0x3e => decodeSystem w
  | _ => .error .illegalMajor

/-- The step a fetched word stands for: its instruction, or the illegal-instruction step. -/
def decodeWord (w : Word) : Instr :=
  match decode w with
  | .ok i => i
  | .error _ => .illegalInstruction w

/-- What the decoder reads from a table word: the row's bits are the 32 bits of one word. -/
def decodeTableWord (nbits w : Nat) : Option Instr :=
  match decode (BitVec.ofNat 32 (w % 2 ^ nbits)) with
  | .ok i => some i
  | .error _ => none

/-! ### The encoder: the seven formats (R87), chain bit 0 -/

def triW (maj : BitVec 6) (n : Bool) (d a b : Code) (fn : BitVec 3) : Word :=
  0#1 ++ maj ++ BitVec.ofBool n ++ d ++ a ++ b ++ fn
def immW (maj : BitVec 6) (n : Bool) (d a : Code) (imm : BitVec 10) : Word :=
  0#1 ++ maj ++ BitVec.ofBool n ++ d ++ a ++ imm
def uprW (maj : BitVec 6) (d : Code) (imm : BitVec 18) : Word :=
  0#1 ++ maj ++ d ++ imm
def braW (maj : BitVec 6) (h : BitVec 2) (a : Code) (slot : BitVec 5) (dline : BitVec 11) : Word :=
  0#1 ++ maj ++ h ++ a ++ slot ++ dline
def jmpW (maj : BitVec 6) (h : BitVec 2) (slot : BitVec 5) (dline : BitVec 18) : Word :=
  0#1 ++ maj ++ h ++ slot ++ dline
def memW (maj : BitVec 6) (n : Bool) (d a : Code) (rt : BitVec 2) (sz : BitVec 3) (off : BitVec 5) : Word :=
  0#1 ++ maj ++ BitVec.ofBool n ++ d ++ a ++ rt ++ sz ++ off
def extW (maj : BitVec 6) (fn : BitVec 5) (d a : Code) (x : BitVec 6) : Word :=
  0#1 ++ maj ++ fn ++ d ++ a ++ x

/-- The word of an instruction; an event has none. -/
def encode : Instr → Option Word
  | .add n d a b => some (triW 0x01 n d a b 0)
  | .sub n d a b => some (triW 0x01 n d a b 1)
  | .mul n d a b => some (triW 0x01 n d a b 2)
  | .mulhiI n d a b => some (triW 0x01 n d a b 3)
  | .mulhiN n d a b => some (triW 0x01 n d a b 4)
  | .mad n d a b => some (triW 0x01 n d a b 5)
  | .minI n d a b => some (triW 0x01 n d a b 6)
  | .maxI n d a b => some (triW 0x01 n d a b 7)
  | .minN n d a b => some (triW 0x02 n d a b 0)
  | .maxN n d a b => some (triW 0x02 n d a b 1)
  | .absInt n d a => some (triW 0x02 n d a 0#7 2)
  | .addsatI n d a b => some (triW 0x02 n d a b 3)
  | .subsatI n d a b => some (triW 0x02 n d a b 4)
  | .clz n d a => some (triW 0x02 n d a 0#7 5)
  | .popc n d a => some (triW 0x02 n d a 0#7 6)
  | .brev n d a => some (triW 0x02 n d a 0#7 7)
  | .andW n d a b => some (triW 0x03 n d a b 0)
  | .orW n d a b => some (triW 0x03 n d a b 1)
  | .xorW n d a b => some (triW 0x03 n d a b 2)
  | .andn n d a b => some (triW 0x03 n d a b 3)
  | .orn n d a b => some (triW 0x03 n d a b 4)
  | .xnor n d a b => some (triW 0x03 n d a b 5)
  | .sel n d a b => some (triW 0x03 n d a b 6)
  | .mov n d a => some (triW 0x03 n d a 0#7 7)
  | .shl n d a b => some (triW 0x04 n d a b 0)
  | .shr n d a b => some (triW 0x04 n d a b 1)
  | .sar n d a b => some (triW 0x04 n d a b 2)
  | .rol n d a b => some (triW 0x04 n d a b 3)
  | .shl64 n d a b => some (triW 0x04 n d a b 4)
  | .shr64 n d a b => some (triW 0x04 n d a b 5)
  | .bfx n d a b => some (triW 0x04 n d a b 6)
  | .bfi n d a b => some (triW 0x04 n d a b 7)
  | .cmpEq n d a b => some (triW 0x05 n d a b 0)
  | .cmpNe n d a b => some (triW 0x05 n d a b 1)
  | .ltI n d a b => some (triW 0x05 n d a b 2)
  | .leI n d a b => some (triW 0x05 n d a b 3)
  | .ltN n d a b => some (triW 0x05 n d a b 4)
  | .leN n d a b => some (triW 0x05 n d a b 5)
  | .tst n d a b => some (triW 0x05 n d a b 6)
  | .voteAny n d a => some (triW 0x06 n d a 0#7 0)
  | .voteAll n d a => some (triW 0x06 n d a 0#7 1)
  | .voteBal n d a => some (triW 0x06 n d a 0#7 2)
  | .matchLanes n d a => some (triW 0x06 n d a 0#7 3)
  | .actmask n d => some (triW 0x06 n d 0#7 0#7 4)
  | .movs d imm => some (uprW 0x07 d imm)
  | .add64 n d a b => some (triW 0x08 n d a b 0)
  | .sub64 n d a b => some (triW 0x08 n d a b 1)
  | .addxI n d a b => some (triW 0x08 n d a b 2)
  | .addxN n d a b => some (triW 0x08 n d a b 3)
  | .cmplt64 n d a b => some (triW 0x08 n d a b 4)
  | .cmpeq64 n d a b => some (triW 0x08 n d a b 5)
  | .mov64 n d a => some (triW 0x08 n d a 0#7 6)
  | .addi n d a imm => some (immW 0x10 n d a imm)
  | .andi n d a imm => some (immW 0x11 n d a imm)
  | .ori n d a imm => some (immW 0x12 n d a imm)
  | .xori n d a imm => some (immW 0x13 n d a imm)
  | .shli n d a imm => some (immW 0x14 n d a (0#5 ++ imm))
  | .shri n d a imm => some (immW 0x14 n d a (8#5 ++ imm))
  | .sari n d a imm => some (immW 0x14 n d a (16#5 ++ imm))
  | .roli n d a imm => some (immW 0x14 n d a (24#5 ++ imm))
  | .cmpiEq n d a imm => some (immW 0x15 n d a (0#3 ++ imm))
  | .cmpiNe n d a imm => some (immW 0x15 n d a (1#3 ++ imm))
  | .cmpiLtI n d a imm => some (immW 0x15 n d a (2#3 ++ imm))
  | .cmpiLeI n d a imm => some (immW 0x15 n d a (3#3 ++ imm))
  | .cmpiLtN n d a imm => some (immW 0x15 n d a (4#3 ++ imm))
  | .cmpiLeN n d a imm => some (immW 0x15 n d a (5#3 ++ imm))
  | .cmpiGtI n d a imm => some (immW 0x15 n d a (6#3 ++ imm))
  | .cmpiGeI n d a imm => some (immW 0x15 n d a (7#3 ++ imm))
  | .movi d imm => some (uprW 0x16 d imm)
  | .movhi d imm => some (uprW 0x17 d imm)
  | .bnz h a slot dline => some (braW 0x18 h a slot dline)
  | .bz h a slot dline => some (braW 0x19 h a slot dline)
  | .jmp h slot dline => some (jmpW 0x1a h slot dline)
  | .call h slot dline => some (jmpW 0x1b h slot dline)
  | .jmpi a => some (extW 0x1c 0 0#7 a 0#6)
  | .calli a => some (extW 0x1c 1 0#7 a 0#6)
  | .ret => some (extW 0x1c 2 0#7 0#7 0#6)
  | .exit => some (extW 0x1c 3 0#7 0#7 0#6)
  | .yield => some (extW 0x1c 4 0#7 0#7 0#6)
  | .nop => some (extW 0x1c 5 0#7 0#7 0#6)
  | .rjEnrol k => some (extW 0x1c 6 0#7 0#7 (0#3 ++ k))
  | .rjWait k => some (extW 0x1c 7 0#7 0#7 (0#3 ++ k))
  | .rjStrike k => some (extW 0x1c 8 0#7 0#7 (0#3 ++ k))
  | .rjQuery d k => some (extW 0x1c 9 d 0#7 (0#3 ++ k))
  | .spadd a x => some (extW 0x1c 10 0#7 a x)
  | .spget d => some (extW 0x1c 11 d 0#7 0#6)
  | .spset a => some (extW 0x1c 12 0#7 a 0#6)
  | .brk x => some (extW 0x1c 13 0#7 0#7 x)
  | .fadd n d a b => some (triW 0x20 n d a b 0)
  | .fsub n d a b => some (triW 0x20 n d a b 1)
  | .fmul n d a b => some (triW 0x20 n d a b 2)
  | .ffma n d a b => some (triW 0x20 n d a b 3)
  | .ffms n d a b => some (triW 0x20 n d a b 4)
  | .fmin n d a b => some (triW 0x20 n d a b 5)
  | .fmax n d a b => some (triW 0x20 n d a b 6)
  | .fcpsgn n d a b => some (triW 0x20 n d a b 7)
  | .feq n d a b => some (triW 0x21 n d a b 0)
  | .flt n d a b => some (triW 0x21 n d a b 1)
  | .fle n d a b => some (triW 0x21 n d a b 2)
  | .funord n d a b => some (triW 0x21 n d a b 3)
  | .fclass n d a => some (triW 0x21 n d a 0#7 4)
  | .fabs n d a => some (triW 0x21 n d a 0#7 5)
  | .fneg n d a => some (triW 0x21 n d a 0#7 6)
  | .frcp n d a => some (triW 0x22 n d a 124#7 0)
  | .frsq n d a => some (triW 0x22 n d a 124#7 1)
  | .fsqrt n d a => some (triW 0x22 n d a 124#7 2)
  | .fexp2 n d a => some (triW 0x22 n d a 124#7 3)
  | .flog2 n d a => some (triW 0x22 n d a 124#7 4)
  | .ftanh n d a => some (triW 0x22 n d a 124#7 5)
  | .fsin n d a => some (triW 0x22 n d a 124#7 6)
  | .fcos n d a => some (triW 0x22 n d a 124#7 7)
  | .hadd2 n d a b => some (triW 0x23 n d a b 0)
  | .hsub2 n d a b => some (triW 0x23 n d a b 1)
  | .hmul2 n d a b => some (triW 0x23 n d a b 2)
  | .hfma2 n d a b => some (triW 0x23 n d a b 3)
  | .hmin2 n d a b => some (triW 0x23 n d a b 4)
  | .hmax2 n d a b => some (triW 0x23 n d a b 5)
  | .hdot2 n d a b => some (triW 0x23 n d a b 6)
  | .cvtF2i n d a r => some (immW 0x24 n d a (0#8 ++ r))
  | .cvtF2n n d a r => some (immW 0x24 n d a (8#8 ++ r))
  | .cvtI2f n d a r => some (immW 0x24 n d a (16#8 ++ r))
  | .cvtN2f n d a r => some (immW 0x24 n d a (24#8 ++ r))
  | .cvtF2bf n d a r => some (immW 0x24 n d a (32#8 ++ r))
  | .cvtBf2f n d a => some (immW 0x24 n d a 160#10)
  | .cvtF2h n d a r => some (immW 0x24 n d a (48#8 ++ r))
  | .cvtH2f n d a => some (immW 0x24 n d a 224#10)
  | .cvtFrnd n d a r => some (immW 0x24 n d a (64#8 ++ r))
  | .cvtEnc n d a k r => some (immW 0x24 n d a (9#5 ++ k ++ r))
  | .cvtDec n d a k r => some (immW 0x24 n d a (10#5 ++ k ++ r))
  | .narrowPack n d a k p => some (immW 0x25 n d a (0#1 ++ k ++ p ++ 0#4))
  | .narrowUnpack n d a k p => some (immW 0x25 n d a (1#1 ++ k ++ p ++ 0#4))
  | .xbPerm n d a b => some (triW 0x28 n d a b 0)
  | .xbPerm2 n d a b => some (triW 0x28 n d a b 1)
  | .xbShfl n d a b => some (triW 0x28 n d a b 2)
  | .xbBcast n d a b => some (triW 0x28 n d a b 3)
  | .xbRot n d a b => some (triW 0x28 n d a b 4)
  | .xbTrn n d a b => some (triW 0x28 n d a b 5)
  | .ldg n d a r sz off => some (memW 0x30 n d a r sz off)
  | .stg d a r sz off => some (memW 0x31 false d a r sz off)
  | .lds n d a sz off => some (memW 0x32 n d a 0#2 sz off)
  | .sts d a sz off => some (memW 0x33 false d a 0#2 sz off)
  | .ldp n d a sz off => some (memW 0x34 n d a 0#2 sz off)
  | .stp d a sz off => some (memW 0x35 false d a 0#2 sz off)
  | .atomgAdd n d a b => some (triW 0x36 n d a b 0)
  | .atomgMinI n d a b => some (triW 0x36 n d a b 1)
  | .atomgMaxI n d a b => some (triW 0x36 n d a b 2)
  | .atomgAnd n d a b => some (triW 0x36 n d a b 3)
  | .atomgOr n d a b => some (triW 0x36 n d a b 4)
  | .atomgXor n d a b => some (triW 0x36 n d a b 5)
  | .atomgXchg n d a b => some (triW 0x36 n d a b 6)
  | .atomgCas n d a b => some (triW 0x36 n d a b 7)
  | .atomsAdd n d a b => some (triW 0x37 n d a b 0)
  | .atomsMinI n d a b => some (triW 0x37 n d a b 1)
  | .atomsMaxI n d a b => some (triW 0x37 n d a b 2)
  | .atomsAnd n d a b => some (triW 0x37 n d a b 3)
  | .atomsOr n d a b => some (triW 0x37 n d a b 4)
  | .atomsXor n d a b => some (triW 0x37 n d a b 5)
  | .atomsXchg n d a b => some (triW 0x37 n d a b 6)
  | .atomsCas n d a b => some (triW 0x37 n d a b 7)
  | .redfFadd a b => some (triW 0x38 false 0#7 a b 0)
  | .redfFmin a b => some (triW 0x38 false 0#7 a b 1)
  | .redfFmax a b => some (triW 0x38 false 0#7 a b 2)
  | .redfHadd2 a b => some (triW 0x38 false 0#7 a b 3)
  | .redfAccred a b => some (triW 0x38 false 0#7 a b 4)
  | .redfAddI a b => some (triW 0x38 false 0#7 a b 5)
  | .fence x => some (extW 0x39 0 0#7 0#7 x)
  | .phInit d a k => some (extW 0x39 1 d a (0#1 ++ k))
  | .phArrive d k => some (extW 0x39 2 d 0#7 (0#1 ++ k))
  | .phWait a k => some (extW 0x39 3 0#7 a (0#1 ++ k))
  | .phTest d a k => some (extW 0x39 4 d a (0#1 ++ k))
  | .phEnd d k => some (extW 0x39 5 d 0#7 (0#1 ++ k))
  | .phStat d k => some (extW 0x39 6 d 0#7 (0#1 ++ k))
  | .phInval d k => some (extW 0x39 7 d 0#7 (0#1 ++ k))
  | .cpIssue d a x => some (extW 0x3a 0 d a x)
  | .cpMcast d a x => some (extW 0x3a 1 d a x)
  | .cpCancel d a => some (extW 0x3a 2 d a 0#6)
  | .pref a x => some (extW 0x3a 3 0#7 a (0#5 ++ x))
  | .pin d a x => some (extW 0x3a 4 d a x)
  | .unpin a x => some (extW 0x3a 5 0#7 a x)
  | .cwb d a x => some (extW 0x3a 6 d a (0#3 ++ x))
  | .cinv d a => some (extW 0x3a 7 d a 0#6)
  | .iinv d a => some (extW 0x3a 8 d a 0#6)
  | .fetchb => some (extW 0x3a 9 0#7 0#7 0#6)
  | .xbTload a k => some (extW 0x3a 10 0#7 a (0#2 ++ k))
  | .shJoin => some (extW 0x3b 0 0#7 0#7 0#6)
  | .shLeave => some (extW 0x3b 1 0#7 0#7 0#6)
  | .shWin d a r => some (extW 0x3b 2 d a (0#2 ++ r))
  | .launch d a => some (extW 0x3b 3 d a 0#6)
  | .dgSignal d a => some (extW 0x3b 4 d a 0#6)
  | .spmap d a => some (extW 0x3b 5 d a 0#6)
  | .spunmap d => some (extW 0x3b 6 d 0#7 0#6)
  | .spwb d => some (extW 0x3b 7 d 0#7 0#6)
  | .mxLoad a => some (extW 0x3c 0 0#7 a 0#6)
  | .mxSwap => some (extW 0x3c 1 0#7 0#7 0#6)
  | .mxStream a => some (extW 0x3c 2 0#7 a 0#6)
  | .mxAdapt a => some (extW 0x3c 3 0#7 a 0#6)
  | .mxWait => some (extW 0x3c 4 0#7 0#7 0#6)
  | .accArm d a => some (extW 0x3c 5 d a 0#6)
  | .accDrain a x => some (extW 0x3c 6 0#7 a (0#1 ++ x))
  | .accClear d a => some (extW 0x3c 7 d a 0#6)
  | .accStat d a => some (extW 0x3c 8 d a 0#6)
  | .vwSet d a k => some (extW 0x3d 0 d a (0#3 ++ k))
  | .vwRefresh d k => some (extW 0x3d 1 d 0#7 (0#3 ++ k))
  | .vwGet d fsel k => some (extW 0x3d 2 d 0#7 (fsel ++ k))
  | .vwClear d k => some (extW 0x3d 3 d 0#7 (0#3 ++ k))
  | .gaWalk d a x => some (extW 0x3d 4 d a x)
  | .gaStat d a => some (extW 0x3d 5 d a 0#6)
  | .btBind d a slot => some (extW 0x3d 6 d a (0#3 ++ slot))
  | .btRetire d slot => some (extW 0x3d 7 d 0#7 (0#3 ++ slot))
  | .trap a x => some (extW 0x3e 0 0#7 a x)
  | .eret => some (extW 0x3e 1 0#7 0#7 0#6)
  | .movsys d a => some (extW 0x3e 2 d a 0#6)
  | .movsysW d a => some (extW 0x3e 2 d a 1#6)
  | .movtsysSlim a => some (extW 0x3e 3 0#7 a 0#6)
  | .movtsysRunclr => some (extW 0x3e 3 0#7 0#7 1#6)
  | .syscall d a x => some (extW 0x3e 4 d a x)
  | .waitev d a => some (extW 0x3e 5 d a 0#6)
  | .tlbinv d a => some (extW 0x3e 6 d a 0#6)
  | .halt d a => some (extW 0x3e 7 d a 0#6)
  | .haltRes d a => some (extW 0x3e 7 d a 1#6)
  | .proof d a => some (extW 0x3e 8 d a 0#6)
  | .qappAppend _ _ => none
  | .queueEnable _ _ => none
  | .queueDisable _ _ => none
  | .systemRegisterWrite _ _ => none
  | .takeLaunchSlot _ _ => none
  | .ageingExpiry _ => none
  | .clusterStart _ _ => none
  | .hbmWindow => none
  | .runLimitKill _ => none
  | .completionEntryWrite _ => none
  | .graphSlotTake _ _ => none
  | .nodeFinish _ _ => none
  | .dgevRequest _ _ => none
  | .loadDataReturn _ => none
  | .storeQueueLeave _ => none
  | .arrivalCounted _ => none
  | .streamerBeat _ _ => none
  | .copyComplete _ => none
  | .matrixEntryStart _ => none
  | .matrixEntryComplete _ => none
  | .mainRowIssue _ => none
  | .governorWindow _ _ => none
  | .accContribution _ => none
  | .adapterSliceArrival _ _ => none
  | .accLineEvict _ => none
  | .numericWindowClose _ _ _ => none
  | .afterIssueFaultDelivery _ => none
  | .killComplete _ => none
  | .teamRetire _ => none
  | .eviction _ => none
  | .teamResume _ _ => none
  | .evictreqWrite _ => none
  | .replayAnswer _ _ => none
  | .moveRehome _ => none
  | .moveToPool => none
  | .moveFromPool => none
  | .repack _ _ => none
  | .agentDeadScrub _ => none
  | .softError _ _ => none
  | .proofRunComplete _ _ => none
  | .versionFreed _ _ _ => none
  | .syscallAnswered _ => none
  | .waitevWake _ => none
  | .sendEvent _ _ => none
  | .rdmaWrite _ _ _ => none
  | .rdmaRead _ _ _ => none
  | .rdmaAtomic _ => none
  | .resetEvent _ => none
  | .quote _ => none
  | .thermalThreshold _ => none
  | .criticalTemperature => none
  | .illegalInstruction _ => none
  | .systemCoreAccess _ _ => none
  | .hostAccess _ => none
  | .peerAccess _ _ => none
  | .peerLinkLoss _ => none
  | .cacheLineEviction _ _ => none
  | .contextValidClear _ => none
  | .staleIncarnation _ _ _ => none

end Sys2Proof
end

