-- ==== Sys2Proof/Config.lean ====
section
/-! DEFINITION. What one implementation fixes, and the free values: constants without a body, of
which no proof can learn anything. -/

namespace Sys2Proof.Config

/-- A value the spec does not state, one for each count of the state's free counter (log 5). -/
opaque freeNat : Nat → Nat

/-- The correctly rounded result of function `fn` of R187 for the f32 pattern `x`, in the single case
that the model's own interval computation does not decide it (log 10). -/
opaque specialResult : Nat → BitVec 32 → BitVec 32

/-- ML-DSA-44 verification (R444): public key, signature, message. The standard is named by the spec
and not repeated there (log 11). -/
opaque mldsaVerify : List Byte → List Byte → List Byte → Bool

/-- The ML-DSA-44 attestation key pair's secret, derived from the device-unique secret and the
measurements (R445, log 11). -/
opaque attestationKey : List Byte → List Byte → List Byte

/-- ML-DSA-44 signing (R445): secret key, message (log 11). -/
opaque mldsaSign : List Byte → List Byte → List Byte

/-- The fuses of R444 that no rule gives a value: the digest of the root key, the least security
version and the device-unique secret (log 11). -/
opaque rootKeyDigest : List Byte
opaque leastVersion : Nat
opaque deviceSecret : List Byte

/-- The rank of a run of 2 MiB of this device's physical addresses among all, one to one: `Machine.spotOf` takes the first 294,912 ranks, 576 GiB, for
HBM5 and the others for what lies outside it. Which addresses are HBM5's is not given; that a page that moves lies wholly in it or wholly outside it is
R262's (log 6). -/
opaque pageSpot : Equiv.Perm (Fin (2 ^ 35))
/-- The place of an HBM5 line among all, one to one. The spread over stacks, channels and their places is not architectural (R13). No value that a program
reads depends on it (log 6). -/
opaque lineSpot : Equiv.Perm (Fin 4831838208)

/-- The number by which a physical line is spread over the enabled slices of a die, and over the sets of its slice: the spread over slices and
sets is not architectural (R13, R20, R268, log 6). -/
opaque lineSpread : Nat → Nat
opaque lineSet : Nat → Nat

/-- Whether a read of a block-table entry that differs between cache and memory returns the older value: for each step, thread and block (R369,
log 50). -/
opaque freeOld : Nat → Nat → Nat → Bool

/-- Which line a full cache sends out for another: a free value for each step and line (R15, R16, log 6). -/
opaque freeVictim : Nat → Nat → Nat

/-- Inventory fuses (R21, R22): the standard part, cores 0 to 131 of each die, every slice, channel
and lane enabled. DESIGN CHOICE, log 3. -/
def invCoreLo : DWord := 0xFFFFFFFFFFFFFFFF
def invCoreHi : DWord := 0xFFFFFFFFFFFFFFFF
def invCoreX : DWord := 0x000F
def invSlice : DWord := 0xFFFFFFFFFFFFFFFF
def invSliceX : DWord := 0xFFFF
def invHbm : DWord := 0xFFFFFFFFFFFFFFFF
def invLane : DWord := 0xFFFFFFFFFFFFFFFF

end Sys2Proof.Config
end

