-- ==== Sys2Proof/Machine/Sparse.lean ====
section
/-! DEFINITION. Reading and writing a sparse table (Word.lean): lists of key and value pairs, keys strictly
rising, no entry equal to what an unlisted key reads as. -/

namespace Sys2Proof.Machine

/-- The entry of a key, if listed. -/
def mfind {β : Type} : SMap β → Nat → Option β
  | [], _ => none
  | (k, v) :: m, j => if k = j then some v else mfind m j

/-- What a key reads as, with `dflt` for an unlisted one. -/
def mget {β : Type} (dflt : β) (m : SMap β) (j : Nat) : β := (mfind m j).getD dflt

/-- The table with the entry of one key set. -/
def mput {β : Type} : SMap β → Nat → β → SMap β
  | [], j, v => [(j, v)]
  | (k, u) :: m, j, v =>
    if j < k then (j, v) :: (k, u) :: m
    else if j = k then (j, v) :: m
    else (k, u) :: mput m j v

/-- The table without the entry of one key. -/
def mdel {β : Type} (m : SMap β) (j : Nat) : SMap β := m.filter (fun p => decide (p.1 ≠ j))

/-- The table in which a key reads as `v`: a value equal to the default is not listed. -/
def mset {β : Type} [DecidableEq β] (dflt : β) (m : SMap β) (j : Nat) (v : β) : SMap β :=
  if v = dflt then mdel m j else mput m j v

/-- Keys strictly rising. -/
def msorted {β : Type} : SMap β → Bool
  | [] => true
  | [_] => true
  | (j, _) :: (k, v) :: m => decide (j < k) && msorted ((k, v) :: m)

/-- The canonical form: keys strictly rising, no listed default. -/
def mwf {β : Type} [DecidableEq β] (dflt : β) (m : SMap β) : Bool :=
  msorted m && m.all (fun p => decide (p.2 ≠ dflt))

/-- The table with one entry changed by a function, if it is listed. -/
def mmod {β : Type} (m : SMap β) (j : Nat) (f : β → β) : SMap β :=
  m.map (fun p => if p.1 = j then (p.1, f p.2) else p)

/-- A set of numbers in rising order, with one more. -/
def sadd : List Nat → Nat → List Nat
  | [], j => [j]
  | k :: m, j => if j < k then j :: k :: m else if j = k then k :: m else k :: sadd m j

/-- A set of numbers without one. -/
def sdel (m : List Nat) (j : Nat) : List Nat := m.filter (fun k => decide (k ≠ j))

end Sys2Proof.Machine
end

