-- ==== Sys2Proof/Machine/State.lean ====
section
/-! DEFINITION. The state of the whole device as plain data, and the state right after reset. Physical memory, registers and the other
large stores are sparse tables (Sparse.lean). Numbers that name things: a core is die × 256 + CORE (R418); a team has an identity that no
other team ever has; group g of team u is u × 64 + g, its burin core counts as group 32; lane l of a group is group × 32 + l. -/

namespace Sys2Proof.Machine

/-- Why the machine stops. -/
inductive Fault where
  /-- raised by `step` when the module is powered off at the critical temperature (R447): all work is lost and nothing
  goes on until a reset. Safe: the part does nothing either. -/
  | unpowered
  deriving DecidableEq, Repr

/-- Why an instruction has no meaning. -/
inductive Refusal where
  /-- raised by `exec` for an instruction without a meaning in this model. Safe: nothing is proved about it. -/
  | notModelled (mnemonic : String)
  deriving DecidableEq, Repr

/-! ### Threads, groups, memory words in flight -/

/-- One trap: cause, fault address, faulting word and flags of its record (R222, R402); `bad` is the
address of a malformed page-table entry that the access met (R201). -/
structure TrapInfo where
  cause : Nat
  addr : DWord
  word : Word
  flags : Word
  bad : Option Nat := none
  /-- a poisoned block-table entry that the access met (R366) -/
  entry : Option Nat := none
  /-- the handler run in which the word issued, 0 outside one (R405) -/
  trapNo : Nat := 0
  /-- the trap PC where it is not the thread's: the address of a transfer word whose target fails (R80, R145), of an ERET (R406) -/
  pc : Option DWord := none
  deriving DecidableEq, Repr

/-- What a blocked thread waits for (R108, R209). -/
inductive Block where
  /-- PH.WAIT on barrier `k` for phase `a` (R288) -/
  | phase (k : Nat) (a : Word)
  /-- held at a replayable fault on the page that holds `page`; the chain issues again when it is answered, or traps with `f` (R209, R410) -/
  | replay (page : DWord) (f : TrapInfo)
  /-- SYSCALL, waiting for room in the queue or for lower lanes: destination, arguments, code, chain address, word (R431) -/
  | room (d : Code) (args : List Word) (code : Nat) (pc : DWord) (word : Word)
  /-- SYSCALL, waiting for the reply in the entry at this virtual address (R431) -/
  | reply (d : Code) (entry : DWord)
  /-- WAITEV on the ring whose header is at this virtual address (R432) -/
  | event (d : Code) (header : DWord)
  deriving DecidableEq, Repr

/-- The condition of a thread (R100). A parked thread's PC is the address of its RJ.WAIT. -/
inductive Cond where
  | ready
  | parked (k : Nat)
  | blocked (why : Block)
  | exited
  deriving DecidableEq, Repr

/-- One thread of a group, or the burin core of a team, which has `gregs` in place of `regs` and no latches. -/
structure Thread where
  /-- v0 to v119 (R88) -/
  regs : SMap Word := []
  /-- g0 to g31 (R335) -/
  gregs : SMap DWord := []
  /-- q0 to q3: a latch is listed when it is valid (R111) -/
  latch : SMap Word := []
  /-- the load or atomic whose data q3 awaits (R112) -/
  q3 : Option Nat := none
  /-- address of the next chain -/
  pc : DWord := 0
  /-- stack pointer (R122) -/
  sp : Word := 0
  /-- private window (R121) -/
  priv : SMap Byte := []
  /-- poisoned granules of the private window, by offset / 32 (R273) -/
  privPoison : List Nat := []
  /-- CYCLESHI captured by the last read of CYCLES (R120) -/
  cycHi : Word := 0
  cond : Cond := .ready
  /-- in the trap handler: the lane mask of the trapping sub-group (R399) -/
  trapping : Option Word := none
  /-- the number of the last handler run that the thread entered: the threads of one sub-group share it (R399) -/
  trapNo : Nat := 0
  /-- where the thread was parked at trap entry (R406) -/
  wasParked : Option (Nat × DWord) := none
  /-- wait stamp and rank (R103) -/
  stamp : Nat := 0
  rank : Nat := 0
  /-- after-issue faults detected and not delivered, oldest first (R401) -/
  faults : List TrapInfo := []
  /-- the code line last entered (R78) -/
  line : Option DWord := none
  /-- words that the thread has fetched ahead and will run as they then stood, by physical address / 4 (R249, R302) -/
  ahead : SMap Word := []
  /-- a phase that an earlier word of the chain still waits for beneath the block of a later one: barrier and phase (R108, R288) -/
  beneath : Option (Nat × Word) := none
  /-- held by a chain that waits for room in the streamer: its fault comes when that chain's word completes (R291, R401) -/
  roomHeld : Bool := false
  deriving DecidableEq, Repr

/-- A place of one byte or more: physical memory, or the scratchpad of a team. -/
inductive Loc where
  | phys (a : Nat)
  | scratch (team off : Nat)
  deriving DecidableEq, Repr

/-- A bound view register: the descriptor of R382 as copied, and the matrix as read (R371). -/
structure ViewReg where
  matrix : DWord
  rows : Nat
  cols : Nat
  mslot : Nat
  lslot : Nat
  bf16 : Bool
  flags : Nat
  aperture : DWord
  latentBase : DWord
  latentStride : Nat
  /-- the table slot, none for 0xFF -/
  tslot : Option Nat
  data : List Byte
  /-- number of this binding, no other has it -/
  binding : Nat
  deriving DecidableEq, Repr

/-- A token's latent: its row bytes, and its block with the row in it when it has one (R360, R366). -/
structure Token where
  token : Nat
  row : DWord
  bytes : Nat
  block : Option (DWord × Nat)
  deriving DecidableEq, Repr

/-- One granule of 32 bytes as it was read: bytes, poison, and where that poison is a confined payload error the 8-byte words that hold one, with
their low bits (R364, R375). -/
structure Granule where
  bytes : List Byte
  bad : Bool
  confined : SMap Nat := []
  deriving DecidableEq, Repr

/-- Granules that a reader has read, by virtual address / 32 (R225, R375). -/
abbrev Granules := SMap Granule

/-- What a load through a view has still to read: view register and binding, tokens, first byte in their rows and size, granules read so
far, the translations of its row pages as it took them at issue, by virtual address / 65536, and whether no thread of its team has acquired since
the first of those granules was read (R207, R247, R374, R375). -/
structure ViewRead where
  k : Nat
  view : ViewReg
  tokens : List Token
  off : Nat
  size : Nat
  got : Granules := []
  pages : SMap (DWord × Nat) := []
  fresh : Bool := true
  deriving DecidableEq, Repr

/-- A load or an atomic whose data has not returned (R102, R111). -/
structure Load where
  id : Nat
  tid : Nat
  d : Code
  n : Bool
  sz : BitVec 3
  /-- the data read; none while an atomic waits in the store queue, or a view load has rows to read -/
  value : Option Nat
  poison : Bool
  addr : DWord
  word : Word
  flags : Word
  /-- the view whose matrix the load still uses: register and binding number (R386) -/
  view : Option (Nat × Nat)
  /-- the versioned table that the load took its entry from, by physical base (R368) -/
  table : Option (Nat × Word)
  /-- an LDG of a CLWIN page or of a page with far 1 (R415) -/
  slow : Bool
  /-- the handler run in which it issued -/
  trapNo : Nat
  /-- what a load through a view has still to read -/
  parts : Option ViewRead := none
  deriving DecidableEq, Repr

/-- What an entry of a store queue does when it leaves (R228). -/
inductive QOp where
  | store (data : List Byte)
  /-- the lanes of one issue that name one word, in ascending order: the load that returns the old value, operand, comparand (R280) -/
  | atomic (fn : BitVec 3) (lanes : List (Nat × Word × Word))
  /-- the lanes of one issue that name one word: thread and operand; `last` in the last entry of the issue (R281) -/
  | redf (fn : BitVec 3) (lanes : List (Nat × Word)) (last : Bool)
  /-- ACCRED to the line at virtual address `line`, record at physical address `record` -/
  | accred (b : Word) (line : DWord) (record : Nat)
  /-- CWB of the scope, on physical lines -/
  | cwb (scope : Nat) (lines : List Nat)
  | cinv (lines : List Nat)
  | iinv (lines : List Nat)
  /-- an arrival of the entry's thread on barrier `k` in phase `phase`, or its EXIT, as if it travelled in the queue (R285, R288) -/
  | arrive (k : Nat) (phase : Word) (leaving : Bool)
  | leave
  deriving DecidableEq, Repr

/-- One entry of a store queue. -/
structure QEntry where
  tid : Nat
  /-- the handler run in which it issued -/
  trapNo : Nat := 0
  word : Word
  loc : Loc
  addr : DWord
  rt : BitVec 2
  flags : Word
  op : QOp
  /-- a store to a normal page (R258) -/
  normal : Bool := false
  /-- a store to a page of domain system, performed at the home slice (R267) -/
  atHome : Bool := false
  /-- the incarnation of the core that sends it (R271) -/
  inc : BitVec 16 := 0
  deriving DecidableEq, Repr

/-- One group of a team, or its burin core as a group of one. -/
structure Group where
  /-- in the active set of its quadrant (R107) -/
  active : Bool := false
  /-- order in which groups became resident (R103) -/
  born : Nat := 0
  /-- for a ready pending group, the order in which it became ready (R109) -/
  readyAt : Option Nat := none
  /-- jm0 to jm7: enrolled and arrived masks (R114) -/
  jm : SMap (Word × Word) := []
  /-- the store queue, oldest first (R228) -/
  queue : List QEntry := []
  /-- how many entries have left it -/
  left : Nat := 0
  /-- the events of the REDF that is leaving: thread and handler run, classes (R180, R281) -/
  events : List ((Nat × Nat) × List Nat) := []
  deriving DecidableEq, Repr

/-- One phase barrier (R284). The masks are by group; `counted` lists the groups whose arrival has been counted in the current phase. -/
structure Barrier where
  init : Bool := false
  phase : Word := 0
  quota : Nat := 0
  arrived : Nat := 0
  leaving : Nat := 0
  pending : Nat := 0
  error : Bool := false
  lastError : Bool := false
  /-- threads that have issued their arrival in this phase -/
  lanes : SMap Word := []
  /-- of these, those that did so with PH.END -/
  ended : SMap Word := []
  /-- of these, those whose earlier store-queue entries have left -/
  landed : SMap Word := []
  counted : List Nat := []
  deriving DecidableEq, Repr

/-! ### Views, tables, streamer and matrix work -/

/-- A bound block-table slot (R367): base, the physical address taken at BT.BIND, which the binding keeps (R392), version. -/
structure TSlot where
  base : DWord
  pa : Nat
  version : Word
  deriving DecidableEq, Repr

/-- A named tensor layout (R296). -/
structure Layout where
  base : DWord
  rank : Nat
  slot : Nat
  swizzle : Nat
  fill : Bool
  dims : List Nat
  strides : List Nat
  box : List Nat
  coords : List Int
  deriving DecidableEq, Repr

/-- A place a copy names: global, own scratchpad, or the windows of the members of a rank list. -/
inductive Space where
  | global (a : DWord)
  | own (off : Nat)
  | window (ranks : List Nat) (off : Nat)
  deriving DecidableEq, Repr

/-- What a streamer request moves: a linear copy, a tensor copy, or a walk of near blocks (R292, R377). -/
inductive ReqOp where
  | linear (count : Nat) (src dst : Space)
  | tensor (toGlobal : Bool) (lay : Layout) (scratch : Space) (own : Nat)
  /-- destination, stride, tokens to write with their block addresses and table entry state, the view as held, through it or not -/
  | walk (dest stride : Nat) (tokens : List (Nat × DWord)) (start : Nat) (view : ViewReg) (k : Nat) (through : Bool)
  deriving DecidableEq, Repr

/-- Bytes registered on a barrier of a team and not yet landed (R290). -/
structure Reg where
  team : Nat
  k : Nat
  left : Nat
  deriving DecidableEq, Repr

/-- One request of a core's streamer (R291), or the copy of a graph node (team 0, `node` its address). -/
structure Request where
  id : Nat
  team : Nat
  ctx : Nat
  tid : Nat
  rid : Word
  die : Nat
  core : Nat
  cls : Nat
  op : ReqOp
  acquire : Bool
  release : Bool
  scope : Nat
  /-- scratchpad offset of the record, for the failed-member mask (R297) -/
  record : Nat
  multicast : Bool
  mask : Nat
  failed : Nat
  regs : List Reg
  /-- how many entries will have left the issuing group's queue once those made before the issue have (R239) -/
  before : Nat
  /-- the acquire has been performed -/
  ready : Bool
  /-- beats landed, rising -/
  done : List Nat
  /-- a beat has written a byte (R298) -/
  wrote : Bool := false
  total : Nat
  /-- rows of a walk formed and not yet wholly landed, by token index, each with the runs of its bytes that are poisoned -/
  rows : SMap (List Byte × List (Nat × Nat))
  /-- granules of latents read for rows that are not yet formed (R375, R378) -/
  got : Granules := []
  /-- 64 KiB pages with the translation taken at issue: leaf entry and page size (R207) -/
  pages : SMap (DWord × Nat)
  /-- held at a replayable fault on this page (R209) -/
  held : Option DWord
  node : Option DWord
  /-- a versioned table in use, by physical base (R368) -/
  table : Option (Nat × Word)
  order : Nat
  /-- the incarnation of the core that sends its beats (R271) -/
  inc : BitVec 16 := 0
  deriving DecidableEq, Repr

/-- The state of an accumulator line (R171, R173, R328). -/
structure AccLine where
  armed : Bool := false
  float : Bool := false
  q : BitVec 8 := 0
  overfull : Bool := false
  poisoned : Bool := false
  count : Nat := 0
  clamps : Nat := 0
  body : SMap (BitVec 72) := []
  special : SMap (BitVec 2) := []
  elems : SMap Word := []
  /-- physical address of the line's metadata record -/
  record : Nat := 0
  deriving DecidableEq, Repr

/-- A run of accumulator lines with what the checks at issue found: virtual address, physical address of the line and of its record. -/
abbrev AccRun := List (DWord × Nat × Nat)

/-- A line that ACC.ARM has pinned: team, virtual line number, physical places of the line and of its record (R207, R329). -/
structure AccPin where
  team : Nat
  line : Nat
  pa : Nat
  record : Nat
  /-- base and size of the pages whose translations it stands for -/
  pages : List (Nat × Nat) := []
  deriving DecidableEq, Repr

/-- A plate as it stands in the array (R318). -/
structure Plate where
  slot : Nat
  k : Nat
  tag : Word
  tile : List Byte
  deriving DecidableEq, Repr

/-- The mark of a plate, set at issue (R318): empty or loaded with slot, K and tag. -/
abbrev Mark := Option (Nat × Nat × Word)

/-- A stream descriptor (R346). -/
structure StreamDesc where
  act : Nat
  stride : Nat
  rows : Nat
  ids : Option Nat
  acc : DWord
  accStride : Nat
  kpass : Nat
  aslot : Nat
  phase : Option Nat
  flags : Nat
  deriving DecidableEq, Repr

/-- A drain descriptor (R352) with the flags of its word and the translations taken at issue. -/
structure DrainDesc where
  slot : Nat
  space : Nat
  dest : DWord
  counter : DWord
  flags : Nat
  /-- 64 KiB pages with the translation taken at issue: leaf entry and page size -/
  pages : SMap (DWord × Nat)
  deriving DecidableEq, Repr

/-- What an entry of the matrix queue does (R315). -/
inductive MOp where
  | load (tile slot k : Nat) (tag : Word)
  | swap
  | stream (desc : StreamDesc) (lines : SMap (Nat × Nat))
  | adapt (table : DWord)
  | arm (run : AccRun) (ctl : DWord)
  | clear (run : AccRun)
  | drain (run : AccRun) (desc : DrainDesc)
  deriving DecidableEq, Repr

/-- One piece of a drain's output: byte offset from the destination, bytes, poison. -/
abbrev Seg := Nat × List Byte × Bool

/-- What a drain has gathered: lines read, output, positions, saturations and clamps, events, the first line without output, and which beats of
the output stand in its destination (R330, R353). -/
structure Drained where
  lines : Nat := 0
  segs : List Seg := []
  pos : Nat := 0
  sats : Nat := 0
  events : List Nat := []
  bad : Option DWord := none
  landed : List Nat := []
  deriving DecidableEq, Repr

/-- One entry of a matrix queue. -/
structure MEntry where
  id : Nat
  team : Nat
  word : Word
  op : MOp
  started : Bool
  /-- the next row of a stream (R321) -/
  row : Nat
  /-- how many entries will have left the burin core's store queue once those made before the issue have (R239) -/
  before : Nat
  /-- an adapter read is held at a replayable fault on this page (R209) -/
  held : Option DWord
  /-- bank rows of the tile, or of the next row and its id, that have been read, each with its poison (R319, R347) -/
  got : SMap (List Byte × Bool) := []
  /-- lines of a run that have been armed or cleared (R244, R329) -/
  armed : Nat := 0
  out : Drained := {}
  /-- the incarnation of the core whose messages they are (R271) -/
  inc : BitVec 16 := 0
  /-- base and size of the pages whose translations the entry took at issue, each for a line that an armed run pinned then or for none (R207, R433) -/
  took : List (Option Nat × Nat × Nat) := []
  deriving DecidableEq, Repr

/-- A row whose adapter part waits for slices (R326). -/
structure Replay where
  /-- matrix queue entry, its word, adapter id -/
  entry : Nat
  word : Word
  id : Nat
  acc : DWord
  pa : Nat
  record : Nat
  next : Nat
  nextRecord : Nat
  x : List Byte
  slot : Nat
  kpass : Nat
  k : Nat
  tag : Word
  /-- the table entry as read, none while its own page holds it -/
  desc : Option (List Byte)
  deriving DecidableEq, Repr

/-- One slice held by the adapter cache (R325): its tag, and the bytes of A and of B. A team's slices stand with the last used first. -/
structure Slice where
  table : DWord
  id : Nat
  tag : Word
  kpass : Nat
  /-- K of the plate that it was fetched for -/
  k : Nat
  index : Nat
  adata : List Byte
  bdata : List Byte
  double : Bool
  deriving DecidableEq, Repr

/-- A contribution on its way to its home slice (R170, R243). -/
structure Contribution where
  id : Nat
  team : Nat
  /-- the thread it is an event of, and the handler run in which that issued -/
  tid : Nat
  trapNo : Nat
  /-- the matrix queue entry it belongs to -/
  entry : Option Nat
  word : Word
  addr : DWord
  pa : Nat
  record : Nat
  /-- the line at a + 128, for the second half of a row (R322) -/
  next : Option (Nat × Nat)
  /-- the f32 patterns sent: 32 of a row, or one with its byte offset in the line -/
  data : List Word
  offset : Nat
  /-- what is left of the event of R243 at the second line of an exact row: the first line has taken its half -/
  second : Bool := false
  /-- the incarnation of the core that sends it (R271) -/
  inc : BitVec 16 := 0
  deriving DecidableEq, Repr

/-! ### Teams -/

/-- The fields of a kernel header (R34). -/
structure Kernel where
  entry : DWord
  burin : DWord
  handler : DWord
  regs : Nat
  bregs : Nat
  groups : Nat
  producer : Option Nat
  phases : Nat
  views : Nat
  hintchk : Bool
  scratch : Nat
  stack : Nat
  deriving DecidableEq, Repr

/-- What a team is doing. -/
inductive Life where
  | running
  | dying
  | evicted
  deriving DecidableEq, Repr

/-- A target rectangle with its reservations (R63). -/
structure Target where
  die : Nat
  x0 : Nat
  y0 : Nat
  age : Nat
  fixed : Bool
  reserved : List Nat
  deriving DecidableEq, Repr

/-- The record of a kill's first trap (R222, R413). -/
structure FaultRec where
  cause : Nat
  lane : Nat
  group : Nat
  pc : DWord
  addr : DWord
  word : Word
  flags : Word
  deriving DecidableEq, Repr

/-- One team, resident or evicted. -/
structure Team where
  ctx : Nat
  /-- the grid it belongs to, by the grid's number -/
  grid : Nat
  teamIx : Word
  teamCnt : Word
  clRank : Nat
  w : Nat
  h : Nat
  arg : DWord
  kern : Kernel
  /-- format slots of the launch (R41) -/
  slots : List Word
  service : Bool
  runLimit : Nat
  runCount : Nat := 0
  /-- base of the team area (R59) -/
  area : DWord
  die : Nat
  core : Nat
  slot : Nat
  life : Life := .running
  slim : Word := 0
  scratch : SMap Byte := []
  /-- poisoned scratchpad granules, by offset / 32 -/
  scratchPoison : List Nat := []
  bars : SMap Barrier := []
  views : SMap ViewReg := []
  /-- view-cache units of replaced or cleared bindings still in use: binding, units (R386) -/
  oldUnits : SMap Nat := []
  tslots : SMap TSlot := []
  /-- pattern tables: entry e of table t at 128 t + e, 0x80 unlisted (R194) -/
  pt : SMap Byte := []
  /-- numeric windows by class: events, units; vector at 0 to 3, matrix at 4 to 7 (R177) -/
  windows : SMap (Nat × Nat) := []
  /-- windows that a unit counted has brought to the window length, by class as in `windows` (R177, R178) -/
  winFull : List Nat := []
  /-- next request identifier (R291) -/
  rid : Word := 1
  /-- member of its cluster's sharing group (R217) -/
  joined : Bool := false
  adapter : DWord
  active : Option Plate := none
  shadow : Option Plate := none
  markActive : Mark := none
  markShadow : Mark := none
  queue : List MEntry := []
  replays : List Replay := []
  slices : List Slice := []
  govStat : Word := 0
  /-- rows of the last governor window, saved by an eviction (R316) -/
  govRows : Nat := 0
  /-- mapping table entries and requests kept while evicted (R416) -/
  savedMaps : SMap DWord := []
  savedReqs : List Request := []
  /-- the target at which an evicted team that can go on waits to be placed again, with its joined members (R63, R417) -/
  target : Option Target := none
  kill : Option FaultRec := none
  /-- what the team held has been given up and the record of its kill written (R411) -/
  closed : Bool := false
  evictAsked : Bool := false
  deriving DecidableEq, Repr

/-! ### Cores, dies, queues -/

/-- A cached translation (R205): tag, base and size of the page, leaf entry. -/
structure Trans where
  tag : BitVec 12
  base : Nat
  size : Nat
  leaf : DWord
  deriving DecidableEq, Repr

/-- A walk that is pending in a die's table: the context and tag that it walks for, the 64 KiB page of the address, and the level and table of the entry
that it reads next (R205, R206). -/
structure PendingWalk where
  ctx : Nat
  tag : BitVec 12
  page : Nat
  level : Nat
  table : Nat
  deriving DecidableEq, Repr

/-- A row held by the press (R375). -/
structure HeldRow where
  team : Nat
  k : Nat
  token : Nat
  row : List Byte
  deriving DecidableEq, Repr

/-- An entry of the block translation cache (R370). -/
structure BtEntry where
  tag : BitVec 12
  base : DWord
  version : Word
  block : Nat
  value : DWord
  deriving DecidableEq, Repr

/-- One core. -/
structure Core where
  /-- cycle count (R120) -/
  cycles : Nat := 0
  /-- halted for placement (R434) -/
  halted : Bool := false
  /-- scratchpad mapping table, a valid entry listed (R213) -/
  spmap : SMap DWord := []
  tlb : List Trans := []
  /-- instruction-cache copies of words, by physical line number and slot (R248, R249) -/
  icache : SMap (SMap Word) := []
  /-- lines whose private bytes stand in the stack cache: thread and line of its window, newest first (R15, R121) -/
  stackLines : List (Nat × Nat) := []
  btc : List BtEntry := []
  press : List HeldRow := []
  /-- main rows issued in this governor window and in the last (R333) -/
  rows : Nat := 0
  lastRows : Nat := 0
  /-- a governor window has ended and the next allowance is not yet set -/
  govDue : Bool := false
  deriving DecidableEq, Repr

/-- One compute die. -/
structure Die where
  tlb : List Trans := []
  /-- the pending-walk table, oldest first: 1,024 entries, of which the first 64 have a walker each (R205, R206) -/
  walks : List PendingWalk := []
  /-- round-robin pointers by priority, and the queues before them that keep their turn, in order (R52) -/
  turn : SMap Nat := []
  kept : SMap (List Nat) := []
  /-- entries written to the replay ring (R409) -/
  replaySeq : Nat := 0
  /-- held faults that found no room in the ring: context, page, requester, access, PC (R409, R427) -/
  unreported : List (Nat × DWord × Nat × Nat × DWord) := []
  /-- arithmetic clock steps taken down (R447) -/
  clock : Nat := 0
  /-- DGEV: pending request, last result (R75) -/
  dgev : Option DWord := none
  dgevResult : Nat := 0
  deriving DecidableEq, Repr

/-- A bound run of 4 KiB scratchpad units (R213): core, table entry, team, first scratchpad byte, and the physical page of each unit,
as translated when the binding was made (R207). -/
structure Bind where
  core : Nat
  entry : Nat
  team : Nat
  off : Nat
  units : List Nat
  deriving DecidableEq, Repr

/-- A grid taken from its queue and not retired. -/
structure Grid where
  q : Nat
  seq : Word
  ctx : Nat
  prio : Nat
  affinity : Nat
  kern : Kernel
  teams : Nat
  w : Nat
  h : Nat
  argBase : DWord
  argStride : Nat
  adapter : DWord
  runLimit : Nat
  slots : List Word
  service : Bool
  next : Nat := 0
  ended : Nat := 0
  killed : Nat := 0
  target : Option Target := none
  /-- the launch node that appended it (R73): context and address -/
  node : Option (Nat × DWord) := none
  deriving DecidableEq, Repr

/-- A running node of a dependence graph: context, address, the die whose walker runs its graph, the root's queue and sequence (R72). -/
structure Node where
  ctx : Nat
  die : Nat
  addr : DWord
  q : Nat
  seq : Word
  root : Bool
  /-- for a launch node, the queue and slot its payload was appended to -/
  slot : Option (Nat × Nat)
  /-- done: finished, or failed with this status (R76) -/
  done : Option Nat
  /-- the successor list's address and length, as read at the start (R72) -/
  list : DWord := 0
  succs : Nat := 0
  deriving DecidableEq, Repr

/-- A completion entry that waits for room (R54). -/
structure Completion where
  q : Nat
  seq : Word
  status : Nat
  killed : Nat
  final : Bool
  /-- the launch node that ends once this entry has been written (R73, R76) -/
  node : Option (Nat × DWord) := none
  deriving DecidableEq, Repr

/-- The inter-die states of one line (R255). -/
inductive Moesi where
  | m | o | e | s | i
  deriving DecidableEq, Repr

/-- The directory's knowledge of one line: the state on each die, the L1 copies with their request type, owner and dirt, the
privatised copies with their byte masks, and the tenures of the last ownership changes (R254 to R258). -/
structure Dir where
  die0 : Moesi := .i
  die1 : Moesi := .i
  /-- core → request type of its copy -/
  copies : SMap (BitVec 2) := []
  owner : Option Nat := none
  dirty : Bool := false
  /-- bytes the owner has written in its tenure -/
  mask : BitVec 128 := 0
  /-- core → mask of a privatised copy -/
  privatised : SMap (BitVec 128) := []
  /-- last tenures, newest first: core and mask -/
  tenures : List (Nat × BitVec 128) := []
  /-- host state of the two sectors: 0 none, 1 shared, 2 exclusive (R267) -/
  host : Nat × Nat := (0, 0)
  deriving DecidableEq, Repr

/-- What the device has told an agent outside it. -/
inductive Reply where
  /-- the outcome in a queue's append register (R50) -/
  | append (q outcome : Nat)
  /-- data of a read by a system core, host, peer or RDMA requester, none for a refused one -/
  | data (who : Nat) (bytes : Option (List Byte)) (poison : Bool)
  /-- an RDMA negative acknowledgement (R442) -/
  | nak (conn : Nat)
  /-- a quote (R445) -/
  | quote (signature : List Byte)
  deriving DecidableEq, Repr

/-- Why the system cores were interrupted. -/
inductive Irq where
  | fault (ctx : Nat)
  | syscall (ctx : Nat)
  /-- context, class and window of a numeric action (R180) -/
  | numeric (ctx cls : Nat) (matrix : Bool)
  | thermal (die : Nat)
  deriving DecidableEq, Repr

/-- How far boot has come (R444). -/
inductive Boot where
  | rom
  | running
  | stopped
  | off
  deriving DecidableEq, Repr

/-! ### The model's own bookkeeping -/

/-- The set that issues now (R101), with its threads as they stood at the start of the chain (R82). -/
structure Issue where
  group : Nat := 0
  lanes : List Nat := []
  snap : SMap Thread := []
  pc : DWord := 0
  /-- the word being executed, and its own address -/
  word : Word := 0
  addr : DWord := 0
  /-- the address after the chain (R80) -/
  next : DWord := 0
  /-- latches that earlier words of the chain have written (R112) -/
  kept : List Nat := []
  /-- the checks of R86 have been made for the whole chain, `lanes` are those that passed them -/
  checked : Bool := false
  /-- the pattern tables of the team as they stood at the start of the chain (R82, R194) -/
  pt : Option (SMap Byte) := none
  deriving DecidableEq, Repr

/-- What moves next. -/
inductive Move where
  /-- the quadrant `quad` of a core selects and issues a chain (R103) -/
  | issue (die core quad : Nat)
  /-- the burin core of a core issues a word -/
  | burin (die core : Nat)
  /-- an event of the opcode table -/
  | event (i : Instr)
  /-- one cycle of every core of a die passes -/
  | tick (die : Nat)
  /-- a core's instruction cache takes the code line at a physical line number, or one word of it (R78, R249) -/
  | fetchAhead (die core line : Nat)
  | fetchWord (die core line slot : Nat)
  /-- a thread fetches the word at a physical address / 4 ahead of use, or gives up what it has fetched ahead (R249) -/
  | aheadWord (tid word : Nat)
  | aheadDrop (tid : Nat)
  /-- one part of a matrix queue entry: a bank row read, a line armed, cleared or read, a beat written (R225, R244, R319, R330) -/
  | entryPart (entry part : Nat)
  /-- one granule read for a load through a view, a walk or a copy (R225, R375, R378) -/
  | latentPart (id granule : Nat)
  /-- one cycle of one core passes: the counts of two cores keep no fixed relation (R120) -/
  | cycle (die core : Nat)
  /-- the host reads or writes a register through the window of BAR 0 (R440) -/
  | barRead (offset : Nat)
  | barWrite (offset : Nat) (v : DWord)
  /-- the exception region of a compressed page is found full (R270) -/
  | pageFull (ctx va : Nat)
  /-- a system core writes a word of the connection table, or reads one (R443) -/
  | connWrite (conn w : Nat) (v : DWord)
  | connRead (conn w : Nat)
  /-- a core or die drops one cached translation (R205) -/
  | dropTrans (die : Nat) (core : Option Nat) (i : Nat)
  /-- a walk begins for a miss in a die's shared TLB, and one of its walkers reads an entry (R205, R206) -/
  | walkStart (die ctx va : Nat)
  | walkStep (die i : Nat)
  deriving DecidableEq, Repr

/-- The model's own question to a move: `off` in every state of the device; else what a walk meets that the question is about, which then differs from
anything that a table can hold, so that the move's outcome tells whether it walks there (R204, R206, R419). -/
inductive Probe where
  | off
  /-- the entries that lie where requests wait for a proof run, or in one of some physical ranges: base and size -/
  | held (ranges : List (Nat × Nat))
  /-- the walks of misses that join no walk pending in the table of a die -/
  | misses (die : Nat)
  deriving DecidableEq, Repr

/-- The state of the device. -/
structure State where
  boot : Boot
  /-- measurement registers (R445) -/
  meas : SMap (List Byte)
  /-- system registers by number (R426): the listed ones differ from their reset values -/
  sys : SMap DWord
  /-- connection table: word w of entry c at 8c + w (R443) -/
  conns : SMap DWord
  /-- physical memory by byte address (R198) -/
  mem : SMap Byte
  /-- poisoned granules of memory, by address / 32 (R274) -/
  poison : List Nat
  /-- confined payload errors: 8-byte words by address / 8, with the number of low bits of an element that hold every flip (R364) -/
  confined : SMap Nat
  dir : SMap Dir
  /-- words that the home of a line still holds under a newer dirty or privatised L1 copy, by line and slot (R248) -/
  homeWords : SMap (SMap Word)
  /-- scratchpad bindings that hold (R214) -/
  binds : List Bind
  /-- pinned lines: context and physical line (R268) -/
  pins : List (Nat × Nat)
  /-- new home die of rehomed pages by physical 64 KiB page (R253, R263) -/
  homes : SMap Nat
  /-- compressed pages whose re-pack is pending: context and page (R270) -/
  repacks : List (Nat × DWord)
  threads : SMap Thread
  groups : SMap Group
  teams : SMap Team
  cores : SMap Core
  dies : SMap Die
  grids : SMap Grid
  /-- slots taken and without final completion, by queue (R51) -/
  taken : SMap Nat
  /-- a queue slot appended by a launch node: queue × 4096 + slot → context and node (R73) -/
  feeds : SMap (Nat × DWord)
  /-- a queue slot appended through the system-core feed: queue × 4096 + slot (R43) -/
  systemFeed : List Nat
  completions : List Completion
  nodes : List Node
  /-- HBM transfers of each context in the last completed window (R55, R56) -/
  hbm : SMap Nat
  /-- HBM allowance of each context in force in the window under way, 0 for no limit (R56) -/
  hbmAllow : SMap Nat
  loads : List Load
  requests : List Request
  /-- resident accumulator lines by physical line (R328) -/
  acc : SMap AccLine
  /-- lines pinned by ACC.ARM, with the translations of line and record (R207, R329) -/
  accPins : List AccPin
  contributions : List Contribution
  /-- versions in use by running walks and view loads are freed when these end (R368): context, base, physical base, version -/
  versions : List (Nat × DWord × Nat × Word)
  /-- incarnation numbers by class × 65536 + unit (R271) -/
  incarnations : SMap (BitVec 16)
  /-- proof runs under way (R419) -/
  proofs : List UnitId
  /-- records written to the error ring (R418) -/
  errSeq : Nat
  irqs : List Irq
  replies : List Reply
  /-- peers that no port reaches (R441) -/
  lost : List Nat
  /-- HBM5 channels that a proof run has retired (R419) -/
  deadChannels : List Nat
  /-- the model's own: issue set, coming moves, moves whose requests wait at their sources in arrival order (R204, R206, R419), question to a move, free
  counter, next identity, order count, whose turn it is -/
  issue : Issue
  agenda : List Move
  waiting : List Move
  probe : Probe
  freeCount : Nat
  nextId : Nat
  clock : Nat
  turn : Nat
  deriving DecidableEq, Repr

/-- The machine right after reset (R444, R445 and the reset columns of the register tables). -/
def State.reset : State where
  boot := .rom
  meas := []
  sys := []
  conns := []
  mem := []
  poison := []
  confined := []
  dir := []
  homeWords := []
  binds := []
  pins := []
  homes := []
  repacks := []
  threads := []
  groups := []
  teams := []
  cores := []
  dies := []
  grids := []
  taken := []
  feeds := []
  systemFeed := []
  completions := []
  nodes := []
  hbm := []
  hbmAllow := []
  loads := []
  requests := []
  acc := []
  accPins := []
  contributions := []
  versions := []
  incarnations := []
  proofs := []
  errSeq := 0
  irqs := []
  replies := []
  lost := []
  deadChannels := []
  issue := ({} : Issue)
  agenda := []
  waiting := []
  probe := .off
  freeCount := 0
  nextId := 1
  clock := 0
  turn := 0

end Sys2Proof.Machine
end

