-- ==== Sys2Proof/Machine/Mem.lean ====
section
/-! DEFINITION. Memory and system registers: bytes by place, poison, bindings, page tables, and the checks of one access
(R198 to R219, R274, R418, R426, R427). -/

namespace Sys2Proof.Machine

/-! ### Small helpers -/

/-- `n` as a bit vector of 64 bits. -/
def dw (n : Nat) : DWord := BitVec.ofNat 64 n
/-- `n` as a word. -/
def wd (n : Nat) : Word := BitVec.ofNat 32 n
/-- Bits [hi:lo] of a number. -/
def bits (n hi lo : Nat) : Nat := n / 2 ^ lo % 2 ^ (hi + 1 - lo)
/-- The quotient rounded up. -/
def ceilDiv (a b : Nat) : Nat := (a + b - 1) / b
/-- 1 for true. -/
def b1 (b : Bool) : Nat := if b then 1 else 0
/-- The base-2 logarithm of an access size (R222). -/
def log2Size : Nat → Nat
  | 1 => 0
  | 2 => 1
  | 4 => 2
  | 8 => 3
  | 16 => 4
  | _ => 0

/-! ### The parts of an identity -/

/-- The group of a thread, its team, its lane (State.lean). -/
def grpOf (tid : Nat) : Nat := tid / 32
def teamOf (tid : Nat) : Nat := tid / 2048
def laneOf (tid : Nat) : Nat := tid % 32
/-- The index of a group in its team; 32 for the burin core. -/
def groupIx (gid : Nat) : Nat := gid % 64
/-- Whether a thread is a burin core. -/
def isBurin (tid : Nat) : Bool := tid / 32 % 64 == 32
/-- Identities of a team's groups and threads. -/
def gidOf (uid g : Nat) : Nat := uid * 64 + g
def tidOf (uid g l : Nat) : Nat := (uid * 64 + g) * 32 + l
def burinOf (uid : Nat) : Nat := (uid * 64 + 32) * 32

/-! ### Tables of the state -/

def State.thread (s : State) (tid : Nat) : Thread := mget ({} : Thread) s.threads tid
def State.setThread (s : State) (tid : Nat) (t : Thread) : State := { s with threads := mput s.threads tid t }
def State.modThread (s : State) (tid : Nat) (f : Thread → Thread) : State := s.setThread tid (f (s.thread tid))
def State.group (s : State) (gid : Nat) : Group := mget ({} : Group) s.groups gid
def State.setGroup (s : State) (gid : Nat) (g : Group) : State := { s with groups := mput s.groups gid g }
def State.modGroup (s : State) (gid : Nat) (f : Group → Group) : State := s.setGroup gid (f (s.group gid))
/-- A team that no entry names stands for an empty one: no caller reads it. -/
def noTeam : Team :=
  { ctx := 0, grid := 0, teamIx := 0, teamCnt := 0, clRank := 0, w := 1, h := 1, arg := 0,
    kern := { entry := 0, burin := 0, handler := 0, regs := 1, bregs := 0, groups := 1, producer := none, phases := 0, views := 0,
              hintchk := false, scratch := 0, stack := 0 },
    slots := [], service := false, runLimit := 0, area := 0, die := 0, core := 0, slot := 0, adapter := 0 }
def State.team (s : State) (uid : Nat) : Team := mget noTeam s.teams uid
def State.setTeam (s : State) (uid : Nat) (t : Team) : State := { s with teams := mput s.teams uid t }
/-- A team is changed only while it stands in the table. -/
def State.modTeam (s : State) (uid : Nat) (f : Team → Team) : State := { s with teams := mmod s.teams uid f }
def State.core (s : State) (c : Nat) : Core := mget ({} : Core) s.cores c
def State.modCore (s : State) (c : Nat) (f : Core → Core) : State :=
  { s with cores := mset ({} : Core) s.cores c (f (s.core c)) }
def State.die (s : State) (d : Nat) : Die := mget ({} : Die) s.dies d
def State.modDie (s : State) (d : Nat) (f : Die → Die) : State :=
  { s with dies := mset ({} : Die) s.dies d (f (s.die d)) }
/-- The core a team stands on, as die × 256 + CORE. -/
def Team.coreId (t : Team) : Nat := t.die * 256 + t.core
/-- The context of a thread. -/
def State.ctxOf (s : State) (tid : Nat) : Nat := (s.team (teamOf tid)).ctx
/-- The core of a thread. -/
def State.coreOf (s : State) (tid : Nat) : Nat := (s.team (teamOf tid)).coreId
/-- A fresh identity. -/
def State.fresh (s : State) : Nat × State := (s.nextId, { s with nextId := s.nextId + 1 })

/-! ### System registers (R426) -/

/-- What a register reads as when nothing has written it: the reset columns of R46, R48, R66, R178, R333 and R426, and the
fuses of R21 and R22 (log 3). -/
def sysReset (n : Nat) : DWord :=
  if 0x1000 ≤ n ∧ n < 0x3000 then (if n % 8 = 1 ∨ n % 8 = 5 then 4 else 0)
  else if 0x4000 ≤ n ∧ n < 0x4400 then (if n % 16 < 4 then 0xFFFFFFFF else 0)
  else if 0x5000 ≤ n ∧ n < 0x5080 then
    (match n % 64 with
     | 0 => 65536
     | 1 => 0x1000100
     | 8 => Config.invCoreLo
     | 9 => Config.invCoreHi
     | 10 => Config.invCoreX
     | 11 => Config.invSlice
     | 12 => Config.invSliceX
     | _ => 0)
  else if 0x6000 ≤ n ∧ n ≤ 0x6005 then Config.invHbm
  else if 0x6006 ≤ n ∧ n ≤ 0x6009 then Config.invLane
  else 0

/-- The content of a system register. -/
def State.sysReg (s : State) (n : Nat) : DWord := (mfind s.sys n).getD (sysReset n)
/-- A register set to a value, whatever its access column says: a write of the device itself. -/
def State.setSys (s : State) (n : Nat) (v : DWord) : State :=
  { s with sys := if v = sysReset n then mdel s.sys n else mput s.sys n v }

/-- Word w of context c, word w of queue q (R46, R48). -/
def State.cx (s : State) (c w : Nat) : DWord := s.sysReg (8 * c + w)
def State.qd (s : State) (q w : Nat) : DWord := s.sysReg (0x1000 + 8 * q + w)

/-- Whether a class and number of R418 name a unit of the part that is enabled: by its inventory bit where it has one (R21, R22). The 32 system cores and the
67 ports have none and are never retired; which number of class 7 names which port is DESIGN CHOICE, log 66: 0 to 63 the scale-up ports, 64 and 65 the
PCIe ports, 66 the Ethernet port (R23). -/
def enabledUnit (s : State) (u : UnitId) : Bool :=
  let d := u.number / 256
  let i := u.number % 256
  match u.cls with
  | 1 => decide (d < 2) && decide (i < 144) && (s.sysReg (0x5000 + 64 * d + 8 + i / 64)).getLsbD (i % 64)
  | 2 => decide (d < 2) && decide (i < 80) && (s.sysReg (0x5000 + 64 * d + 11 + i / 64)).getLsbD (i % 64)
  | 3 => decide (u.number < 384) && (s.sysReg (0x6000 + u.number / 64)).getLsbD (u.number % 64)
  | 4 => decide (u.number < 256) && (s.sysReg (0x6006 + u.number / 64)).getLsbD (u.number % 64)
  | 5 => decide (u.number < 4) || (decide (256 ≤ u.number) && decide (u.number < 260)) || decide (u.number = 512)
  | 6 => decide (u.number < 32)
  | 7 => decide (u.number < 67)
  | _ => false

/-- The inventory bit of an enabled unit cleared (R419): a number that names no unit changes nothing (R21). -/
def clearUnit (s : State) (u : UnitId) : State :=
  let d := u.number / 256
  let i := u.number % 256
  let clr (n b : Nat) : State := s.setSys n (s.sysReg n &&& ~~~ (1#64 <<< b))
  if !enabledUnit s u then s
  else match u.cls with
  | 1 => clr (0x5000 + 64 * d + 8 + i / 64) (i % 64)
  | 2 => clr (0x5000 + 64 * d + 11 + i / 64) (i % 64)
  | 3 => clr (0x6000 + u.number / 64) (u.number % 64)
  | 4 => clr (0x6006 + u.number / 64) (u.number % 64)
  | _ => s

/-! ### Bytes by place -/

/-- The place one step further on. -/
def Loc.plus : Loc → Nat → Loc
  | .phys a, n => .phys (a + n)
  | .scratch t o, n => .scratch t (o + n)

/-- Where a number stands in a list. -/
def indexIn : List Nat → Nat → Option Nat
  | [], _ => none
  | k :: l, j => if k = j then some 0 else (indexIn l j).map (· + 1)

/-- Where a physical byte is while bindings hold: in the scratchpad bound to it (R214). -/
def resolve (s : State) : Loc → Loc
  | .scratch t o => .scratch t o
  | .phys a =>
    match s.binds.findSome? (fun b => (indexIn b.units (a / 4096)).map
        (fun i => Loc.scratch b.team (b.off + i * 4096 + a % 4096))) with
    | some l => l
    | none => .phys a

/-- A physical address of a peer that no port reaches (R441). -/
def lostPeer (s : State) (a : Nat) : Bool := decide (2 ^ 56 ≤ a) && s.lost.contains (a / 2 ^ 48 % 256)

/-- Lines of an HBM5 channel: 48 GiB for each stack of 32 channels (R12, R22). -/
def channelLines : Nat := 48 * 2 ^ 30 / 128 / 32

/-- The HBM5 channel, 0 to 383, of a physical line and its place there; none outside HBM5, as every line of a peer is (R12, R13, R441). No two lines
share a place, so that a channel holds `channelLines` lines, a stack 48 GiB and a die's six stacks 288 GiB. -/
def spotOf (line : Nat) : Option (Nat × Nat) :=
  if h : line < 2 ^ 49 then
    let p := (Config.pageSpot ⟨line / 2 ^ 14, by omega⟩).val
    if hp : p < 294912 then
      let k := (Config.lineSpot ⟨p * 2 ^ 14 + line % 2 ^ 14, by omega⟩).val
      some (k % 384, k / 384)
    else none
  else none
def channelOf (line : Nat) : Option Nat := (spotOf line).map Prod.fst
/-- The compute die to which a channel's stack attaches: stacks 0 to 5 to die 0, 6 to 11 to die 1 (R12). -/
def channelDie (channel : Nat) : Nat := channel / 192

/-- Whether a physical byte lay on an HBM5 channel that has been retired: its line is poisoned for good (R419). -/
def lostChannel (s : State) (a : Nat) : Bool :=
  !s.deadChannels.isEmpty && (match channelOf (a / 128) with
    | some c => s.deadChannels.contains c
    | none => false)

/-- What a byte of physical memory reads as when nothing has written it: 0. DESIGN CHOICE, log 2. -/
def unwritten : Byte := 0

/-- One byte at a resolved place. -/
def rawByte (s : State) : Loc → Byte
  | .phys a => mget unwritten s.mem a
  | .scratch t o => mget 0 (s.team t).scratch o

/-- One byte. -/
def readByte (s : State) (l : Loc) : Byte := rawByte s (resolve s l)

/-- One byte set at a resolved place; a write to an unreachable peer is dropped (R441). -/
def rawSet (s : State) (l : Loc) (v : Byte) : State :=
  match l with
  | .phys a => if lostPeer s a then s else { s with mem := mset unwritten s.mem a v }
  | .scratch t o => s.modTeam t (fun x => { x with scratch := mset 0 x.scratch o v })

/-- One byte set. -/
def writeByte (s : State) (l : Loc) (v : Byte) : State := rawSet s (resolve s l) v

/-- `n` bytes from a place. -/
def readBytes (s : State) (l : Loc) : Nat → List Byte
  | 0 => []
  | n + 1 => readByte s l :: readBytes s (l.plus 1) n

/-- Bytes written from a place on. -/
def writeBytes (s : State) (l : Loc) : List Byte → State
  | [] => s
  | v :: vs => writeBytes (writeByte s l v) (l.plus 1) vs

/-- The little-endian number of `n` bytes at a place (R3). -/
def readNat (s : State) (l : Loc) (n : Nat) : Nat := leNat (readBytes s l n)
/-- A number written as `n` little-endian bytes. -/
def writeNat (s : State) (l : Loc) (n v : Nat) : State := writeBytes s l (leBytes n v)

/-- The word in a slot of a physical line as a load would find it. -/
def memWord (s : State) (line slot : Nat) : Word := wd (readNat s (.phys (line * 128 + 4 * slot)) 4)

/-! ### Poison (R274) -/

/-- Whether the granule of a byte is poisoned. -/
def poisonAt (s : State) (l : Loc) : Bool :=
  match resolve s l with
  | .phys a => lostPeer s a || lostChannel s a || s.poison.contains (a / 32)
  | .scratch t o => (s.team t).scratchPoison.contains (o / 32)

/-- Whether any of `n` bytes lies in a poisoned granule. -/
def poisoned (s : State) (l : Loc) : Nat → Bool
  | 0 => false
  | n + 1 => poisonAt s l || poisoned s (l.plus 1) n

/-- How far the first byte of `n` from a place lies that stands in a poisoned granule, if one does (R449). -/
def firstPoison (s : State) (l : Loc) (n : Nat) : Option Nat := (List.range n).find? (fun i => poisonAt s (l.plus i))

/-- The granule of a byte becomes poisoned as a whole, or loses its poison: either way no error in it is confined any more (R274, R364). -/
def setPoison (s : State) (l : Loc) (on : Bool) : State :=
  match resolve s l with
  | .phys a =>
    { s with poison := if on then sadd s.poison (a / 32) else sdel s.poison (a / 32)
             confined := s.confined.filter (fun p => decide (p.1 / 4 ≠ a / 32)) }
  | .scratch t o =>
    s.modTeam t (fun x => { x with scratchPoison := if on then sadd x.scratchPoison (o / 32) else sdel x.scratchPoison (o / 32) })

/-- A granule of memory, by address / 32, poisoned as a whole (R273, R274). -/
def poisonGranule (s : State) (g : Nat) : State :=
  { s with poison := sadd s.poison g, confined := s.confined.filter (fun p => decide (p.1 / 4 ≠ g)) }

def poisonGranules (s : State) (gs : List Nat) : State := gs.foldl poisonGranule s

/-- The granules of a line. -/
def lineGranules (line : Nat) : List Nat := [4 * line, 4 * line + 1, 4 * line + 2, 4 * line + 3]

/-- The offset of a place in its granule. -/
def Loc.granule : Loc → Nat
  | .phys a => a % 32
  | .scratch _ o => o % 32

/-- An engine beat, a write by the system cores or a copy: bytes written in one granule. A write of the whole granule clears its poison;
poisoned data makes the granule poisoned (R274). -/
def writeBeat (s : State) (l : Loc) (data : List Byte) (bad : Bool) : State :=
  let s1 := writeBytes s l data
  if bad then setPoison s1 l true
  else if data.length = 32 ∧ l.granule = 0 then setPoison s1 l false else s1

/-- Data written beat by beat, `fuel` beats at most. -/
def writeBeats : Nat → State → Loc → List Byte → State
  | 0, s, _, _ => s
  | fuel + 1, s, l, data =>
    let n := 32 - l.granule
    if data.isEmpty then s
    else writeBeats fuel (writeBeat s l (data.take n) false) (l.plus n) (data.drop n)

/-- A write by the system cores, the host, a port or an engine of many bytes. -/
def writeOut (s : State) (l : Loc) (data : List Byte) : State := writeBeats (data.length + 1) s l data

/-! ### Homes, and what a proof run holds (R253, R419) -/

/-- The home die of a physical line: in HBM5 that of its stack, else as software has rehomed its page, else die 0 (R13, R253, R263). -/
def homeOf (s : State) (line : Nat) : Nat :=
  match channelOf line with
  | some c => channelDie c
  | none => (mfind s.homes (line / 512)).getD 0

/-- The enabled slices of a die (R20, R21). -/
def enabledSlices (s : State) (die : Nat) : List Nat := (List.range 80).filter (fun i => enabledUnit s ⟨2, die * 256 + i⟩)

/-- The slice of a die, home or guest, that a physical line falls in: addresses are spread over the enabled slices alone (R20, R255). -/
def sliceOf (s : State) (die line : Nat) : Option Nat :=
  let l := enabledSlices s die
  l[Config.lineSpread line % l.length]?

/-- Whether a scale-up port carries nothing for the moment: it is under test, or every enabled lane of it is (R419, R441). -/
def portHeld (s : State) (p : Nat) : Bool :=
  s.proofs.contains ⟨7, p⟩ ||
    ([0, 1, 2, 3] : List Nat).all (fun j => !enabledUnit s ⟨4, 4 * p + j⟩ || s.proofs.contains ⟨4, 4 * p + j⟩)

/-- Whether no scale-up port, or no PCIe port, carries a request: traffic takes any other port than one under test. -/
def fabricHeld (s : State) : Bool := s.proofs.any (fun u => decide (u.cls = 4 ∨ u.cls = 7)) && (List.range 64).all (portHeld s)
def poolHeld (s : State) : Bool := s.proofs.contains ⟨7, 64⟩ && s.proofs.contains ⟨7, 65⟩

/-- Whether a proof run holds a place: the core of its scratchpad, its home slice, its channel or the ports on the way to it are under test, and requests
to it wait at their sources (R419, log 60). -/
def proofHolds (s : State) (l : Loc) : Bool :=
  !s.proofs.isEmpty && (match resolve s l with
    | .scratch t _ => s.proofs.contains ⟨1, (s.team t).coreId⟩
    | .phys a =>
      let home := homeOf s (a / 128)
      (sliceOf s home (a / 128)).any (fun i => s.proofs.contains ⟨2, home * 256 + i⟩) ||
        (match channelOf (a / 128) with
         | some c => s.proofs.contains ⟨3, c⟩
         | none => if a.testBit 56 then fabricHeld s else poolHeld s))

/-! ### Page tables (R199 to R202) -/

/-- What a walk finds. -/
inductive Walk where
  /-- a valid leaf and the size of its page -/
  | leaf (entry : DWord) (size : Nat)
  /-- an entry with valid 0 and on demand 1 -/
  | demand
  /-- an entry with valid 0, or a malformed one at the given address -/
  | none (bad : Option Nat)
  deriving DecidableEq, Repr

/-- Fields of a leaf (R200). -/
def leafType (e : DWord) : Nat := bits e.toNat 4 2
def leafFar (e : DWord) : Bool := e.getLsbD 7
def leafRead (e : DWord) : Bool := e.getLsbD 5
def leafWrite (e : DWord) : Bool := e.getLsbD 6
def leafDomain (e : DWord) : Nat := bits e.toNat 10 9
def leafCompressed (e : DWord) : Bool := e.getLsbD 8
/-- The physical address of a virtual one under a leaf. -/
def leafPhys (e : DWord) (size va : Nat) : Nat := bits e.toNat 56 16 * 65536 + va % size

/-- Whether a valid leaf at a level is malformed (R201). -/
def badLeaf (e : DWord) (level : Nat) : Bool :=
  let v := e.toNat
  bits v 63 57 ≠ 0 || bits v 15 12 ≠ 0 || 4 < leafType e || 1 < leafDomain e ||
  (level = 1 && bits v 20 16 ≠ 0) || (level = 2 && bits v 29 16 ≠ 0) || 2 < level ||
  (leafWrite e && !leafRead e) || (leafCompressed e && leafType e ≠ 0) ||
  (leafType e = 4 && level ≠ 1) || ((leafType e = 2 || leafType e = 3) && leafFar e)

/-- Whether a valid non-leaf entry at a level is malformed (R201). -/
def badNode (e : DWord) (level : Nat) : Bool :=
  let v := e.toNat
  bits v 63 57 ≠ 0 || bits v 7 2 ≠ 0 || level = 0 || (2 ≤ level && bits v 11 8 ≠ 0)

/-- The index field of a level (R199). -/
def levelIndex (level va : Nat) : Nat :=
  match level with
  | 4 => bits va 56 48
  | 3 => bits va 47 39
  | 2 => bits va 38 30
  | 1 => bits va 29 21
  | _ => bits va 20 16

/-- The size of a page that a leaf at a level maps. -/
def levelSize (level : Nat) : Nat := if level = 2 then 2 ^ 30 else if level = 1 then 2 ^ 21 else 2 ^ 16

/-- Where no page-table entry can stand, for a walk that a question to a move is about. -/
def nowhere : Nat := 2 ^ 57

/-- The page-table entry at a physical address. A question about the places where requests wait has one there that is malformed. -/
def entryAt (s : State) (a : Nat) : DWord :=
  match s.probe with
  | .held ranges => if proofHolds s (.phys a) || ranges.any (fun r => decide (r.1 ≤ a) && decide (a < r.1 + r.2)) then dw (nowhere + 3) else dw (readNat s (.phys a) 8)
  | _ => dw (readNat s (.phys a) 8)

/-- The walk from a table at a level down (R199). -/
def walkFrom (s : State) (va : Nat) : Nat → Nat → Walk
  | table, 0 => step0 s va table
  | table, level + 1 =>
    let a := table + 8 * levelIndex (level + 1) va
    let e := entryAt s a
    if !e.getLsbD 0 then (if e.getLsbD 11 then .demand else .none none)
    else if e.getLsbD 1 then
      (if badLeaf e (level + 1) then .none (some a) else .leaf e (levelSize (level + 1)))
    else if badNode e (level + 1) then .none (some a)
    else walkFrom s va (bits e.toNat 56 8 * 256) level
where
  step0 (s : State) (va table : Nat) : Walk :=
    let a := table + 8 * levelIndex 0 va
    let e := entryAt s a
    if !e.getLsbD 0 then (if e.getLsbD 11 then .demand else .none none)
    else if e.getLsbD 1 then (if badLeaf e 0 then .none (some a) else .leaf e (levelSize 0))
    else .none (some a)

/-- The table that a valid entry of a table at a level names, if it names one. -/
def nextTable (s : State) (va table level : Nat) : Option Nat :=
  let e := entryAt s (table + 8 * levelIndex level va)
  if e.getLsbD 0 && !e.getLsbD 1 && !badNode e level then some (bits e.toNat 56 8 * 256) else none

/-- The address of the last entry that the walk of an address reads from a table at a level down: its leaf, where it finds one. -/
def lastEntry (s : State) (va : Nat) : Nat → Nat → Nat
  | table, 0 => table + 8 * levelIndex 0 va
  | table, level + 1 =>
    match nextTable s va table (level + 1) with
    | some t => lastEntry s va t level
    | none => table + 8 * levelIndex (level + 1) va

/-- The root table of a context (R46, R199). -/
def rootTable (s : State) (ctx : Nat) : Nat := bits (s.cx ctx 0).toNat 56 12 * 4096

/-- The address-space tag of a context (R46). -/
def ctxTag (s : State) (ctx : Nat) : BitVec 12 := (s.cx ctx 1).extractLsb' 0 12

/-- A cached translation of an address (R205). -/
def findTrans (l : List Trans) (tag : BitVec 12) (va : Nat) : Option Trans :=
  l.find? (fun t => t.tag = tag && decide (t.base ≤ va) && decide (va < t.base + t.size))

/-- The walk of a 64 KiB page that is pending at a die, which a miss there joins (R206). -/
def pendingWalk (s : State) (die : Nat) (tag : BitVec 12) (va : Nat) : Option PendingWalk :=
  (s.die die).walks.find? (fun w => decide (w.tag = tag ∧ w.page = va / 65536))

/-- A walk from the root. A question about the misses of a die has it end nowhere. -/
def rootWalk (s : State) (dies : List Nat) (ctx va : Nat) : Walk :=
  match s.probe with
  | .misses d => if dies.contains d then .none (some nowhere) else walkFrom s va (rootTable s ctx) 4
  | _ => walkFrom s va (rootTable s ctx) 4

/-- The walk of an address that misses in the shared TLB of a die: one that is pending there goes on from where it stands, else it starts at the root. -/
def joinWalk (s : State) (die ctx va : Nat) : Walk :=
  match pendingWalk s die (ctxTag s ctx) va with
  | some w => walkFrom s va w.table w.level
  | none => rootWalk s [die] ctx va

/-- The walk that is pending for a page in the table of either die. -/
def eitherWalk (s : State) (ctx va : Nat) : Option PendingWalk := (pendingWalk s 0 (ctxTag s ctx) va).or (pendingWalk s 1 (ctxTag s ctx) va)

/-- The walk of an address for a unit that stands on no core: a queue's, a walker's, an engine's of the device. It is looked up in the tables of pending
walks first (R206). DESIGN CHOICE, log 85: in both dies' tables, die 0's first. -/
def unitWalk (s : State) (ctx va : Nat) : Walk :=
  match eitherWalk s ctx va with
  | some w => walkFrom s va w.table w.level
  | none => rootWalk s [0, 1] ctx va

/-- The address of the last entry that such a walk reads. -/
def unitLast (s : State) (ctx va : Nat) : Nat :=
  match eitherWalk s ctx va with
  | some w => lastEntry s va w.table w.level
  | none => lastEntry s va (rootTable s ctx) 4

/-- The translation of an address below 2^57 for a core: its TLB, the die's, then a walk (R205). -/
def translate (s : State) (core ctx : Nat) (va : Nat) : Walk :=
  let tag := ctxTag s ctx
  match findTrans (s.core core).tlb tag va with
  | some t => .leaf t.leaf t.size
  | none =>
    match findTrans (s.die (core / 256)).tlb tag va with
    | some t => .leaf t.leaf t.size
    | none => joinWalk s (core / 256) ctx va

/-- A translation held in a die's TLB of 16,384 entries, the oldest leaving a full one (R205). -/
def cacheTrans (s : State) (die : Nat) (t : Trans) : State :=
  if (findTrans (s.die die).tlb t.tag t.base).isSome then s else s.modDie die (fun d => { d with tlb := (t :: d.tlb).take 16384 })

/-- A pending walk leaves its die's table. -/
def dropWalk (s : State) (die : Nat) (w : PendingWalk) : State := s.modDie die (fun d => { d with walks := d.walks.erase w })

/-- A pending walk runs to its end: a leaf that it finds is cached, nothing else is (R205). -/
def endWalk (s : State) (die : Nat) (w : PendingWalk) : State :=
  match walkFrom s (65536 * w.page) w.table w.level with
  | .leaf e size => cacheTrans (dropWalk s die w) die { tag := w.tag, base := 65536 * w.page / size * size, size := size, leaf := e }
  | _ => dropWalk s die w

/-- Whether a die's table of pending walks has no free entry: a miss that joins none of its walks waits at its source (R206, `moveWaits`). -/
def tableFull (s : State) (die : Nat) : Bool := decide (1024 ≤ (s.die die).walks.length)

/-- A miss in a die's shared TLB: it takes the result of the walk that it joins (R206). DESIGN CHOICE, log 85. -/
def missWalk (s : State) (die : Nat) (tag : BitVec 12) (va : Nat) : State :=
  match pendingWalk s die tag va with
  | some w => dropWalk s die w
  | none => s

/-- The translation taken is held in the core's TLB of 256 and the die's of 16,384 entries (R205), the oldest leaving a full one. -/
def fillTrans (s : State) (core ctx va : Nat) : State :=
  match translate s core ctx va with
  | .leaf e size =>
    let t : Trans := { tag := ctxTag s ctx, base := va / size * size, size := size, leaf := e }
    if (findTrans (s.core core).tlb t.tag va).isSome then s
    else
      let s1 := s.modCore core (fun c => { c with tlb := (t :: c.tlb).take 256 })
      if (findTrans (s1.die (core / 256)).tlb t.tag va).isSome then s1 else cacheTrans (missWalk s1 (core / 256) t.tag va) (core / 256) t
  | _ => s

/-- A walk begins at a die for a miss of a context there; what misses on its page while it is pending joins it (R206). DESIGN CHOICE, log 85: the model lets
it begin before the step of the access that has missed. -/
def walkStart (s : State) (die ctx va : Nat) : State :=
  let tag := ctxTag s ctx
  if 2 ≤ die ∨ 64 ≤ ctx ∨ bits va 63 57 ≠ 0 ∨ 2 ^ 64 ≤ va ∨ (findTrans (s.die die).tlb tag va).isSome ∨ (pendingWalk s die tag va).isSome ∨
      tableFull s die then s
  else s.modDie die (fun d => { d with walks := d.walks ++ [{ ctx := ctx, tag := tag, page := va / 65536, level := 4, table := rootTable s ctx }] })

/-- One of a die's 64 walkers reads the next entry of its walk: a table leads on, anything else ends the walk. -/
def walkStep (s : State) (die i : Nat) : State :=
  match if i < 64 then (s.die die).walks[i]? else none with
  | none => s
  | some w =>
    match nextTable s (65536 * w.page) w.table w.level with
    | some t =>
      s.modDie die (fun d => { d with walks := d.walks.map (fun x => if x = w then { w with level := w.level - 1, table := t } else x) })
    | none => endWalk s die w

/-! ### The checks of one access (R208) -/

/-- How an access uses a page (R202). -/
inductive Use where
  | fetch
  | load
  | store
  | atomic
  | redf
  /-- ACCRED, contributions, drains, arming, clearing -/
  | acc
  /-- an engine's read by address, and the reads of records that follow it -/
  | engineRead
  | engineWrite
  deriving DecidableEq, Repr

/-- What the checks of one access find. -/
inductive Found where
  /-- the place of the first byte, the leaf and the size of its page -/
  | at (l : Loc) (leaf : DWord) (size : Nat)
  /-- an aperture address of a VIEW page -/
  | view (leaf : DWord)
  /-- a replayable fault -/
  | hold (page : DWord)
  /-- a trap: cause, window and far bits of the flags, a malformed entry -/
  | trap (cause : Nat) (win far : Bool) (bad : Option Nat)
  deriving DecidableEq, Repr

def Use.reads : Use → Bool
  | .store => false
  | .engineWrite => false
  | _ => true
def Use.writes : Use → Bool
  | .store => true
  | .atomic => true
  | .redf => true
  | .acc => true
  | .engineWrite => true
  | _ => false

/-- The cause with which a page type refuses a use, if it does (R202). -/
def typeCause (ty : Nat) (u : Use) : Option Nat :=
  match ty, u with
  | 0, .fetch => some 0x11
  | 0, .acc => some 0x15
  | 1, .acc => some 0x15
  | 2, .fetch => some 0x11
  | 2, .acc => none
  | 2, _ => some 0x15
  | 3, .fetch => some 0x11
  | 3, .load => none
  | 3, .store => some 0x13
  | 3, .atomic => some 0x13
  | 3, .redf => some 0x13
  | 3, .acc => some 0x15
  | 3, .engineRead => some 0x11
  | 3, .engineWrite => some 0x13
  | 4, .fetch => some 0x11
  | 4, .redf => some 0x11
  | 4, .acc => some 0x15
  | 4, .engineRead => some 0x11
  | 4, .engineWrite => some 0x11
  | _, _ => none

/-- The member of a team's cluster with a rank (R60, R218). -/
def member (s : State) (t : Team) (r : Nat) : Option (Nat × Team) :=
  s.teams.find? (fun p => p.2.grid = t.grid && p.2.teamIx.toNat / (t.w * t.h) = t.teamIx.toNat / (t.w * t.h) &&
    p.2.clRank = r && p.2.life = .running)

/-- Checks 2 to 8 of R208 for an access of `size` bytes by team `uid` in context `ctx` from a core; `acc` reads or writes
as told (ACC words need both, a drain reads). -/
def checkPage (s : State) (core ctx uid : Nat) (va : DWord) (size : Nat) (u : Use) (rd wr : Bool) : Found :=
  if bits va.toNat 63 57 ≠ 0 then .trap 0x10 false false none
  else
    match translate s core ctx va.toNat with
    | .demand => .hold va
    | .none bad => .trap 0x10 false false bad
    | .leaf e psize =>
      let ty := leafType e
      let win := ty == 4
      let far := leafFar e
      if (rd && !leafRead e) || (wr && !leafWrite e) then .trap 0x11 win far none
      else
        match typeCause ty u with
        | some c => .trap c win far none
        | none =>
          if ty = 4 then
            let t := s.team uid
            let r := bits va.toNat 24 21
            let off := bits va.toNat 20 0
            if t.w * t.h ≤ r then .trap 0x10 true far none
            else
              match member s t r with
              | none => .trap 0x18 true far none
              | some (mu, mt) =>
                if !(t.joined && mt.joined) then .trap 0x18 true far none
                else if mt.kern.scratch < off + size then .trap 0x12 true far none
                else .at (.scratch mu off) e psize
          else if ty = 3 then .view e
          else .at (.phys (leafPhys e psize va.toNat)) e psize

/-- All checks of R208 for an access of a thread. -/
def checkAccess (s : State) (core ctx uid : Nat) (va : DWord) (size : Nat) (u : Use) : Found :=
  if va.toNat % size ≠ 0 then .trap 0x16 false false none
  else checkPage s core ctx uid va size u u.reads u.writes

/-- Checks 2 to 5 of R208 for a device's own access to a normal page in a context, without holding: an on-demand leaf counts as a
failure (R412, R431). -/
def checkNormal (s : State) (core ctx : Nat) (va : DWord) (rd wr : Bool) : Option Nat :=
  if bits va.toNat 63 57 ≠ 0 then none
  else
    match translate s core ctx va.toNat with
    | .leaf e psize =>
      if (rd && !leafRead e) || (wr && !leafWrite e) || leafType e ≠ 0 then none
      else some (leafPhys e psize va.toNat)
    | _ => none

/-- The malformed page-table entry that the walk of an address meets, if any (R201). -/
def metBad (s : State) (core ctx : Nat) (va : DWord) : Option Nat :=
  if bits va.toNat 63 57 ≠ 0 then none
  else
    match translate s core ctx va.toNat with
    | .none bad => bad
    | _ => none

end Sys2Proof.Machine
end

