-- ==== Sys2Proof/Machine/Coherence.lean ====
section
/-! DEFINITION. What the directories know of each line: inter-die states, L1 copies, owners, privatised copies (R253 to R261, R267), what
an acquire and a release do to copies, and the rings that the device writes. Nothing here changes a byte that a load returns: memory is one
coherent store (log 6). -/

namespace Sys2Proof.Machine

/-- The directory entry of a physical line. -/
def State.dirOf (s : State) (line : Nat) : Dir := mget ({} : Dir) s.dir line
def State.modDir (s : State) (line : Nat) (f : Dir → Dir) : State :=
  { s with dir := mset ({} : Dir) s.dir line (f (s.dirOf line)) }

/-- Whether an L1 may hold bytes of a line that its home does not. -/
def Dir.ahead (d : Dir) : Bool := d.dirty || !d.privatised.isEmpty

/-- The word in a slot of a line as its home holds it, which is what instruction fetch reads: bytes that stand dirty in an L1 are not there (R248, R313).
DEDUCED, log 91. -/
def homeWord (s : State) (line slot : Nat) : Word :=
  match (mfind s.homeWords line).bind (fun ws => mfind ws slot) with
  | some w => if (s.dirOf line).ahead then w else memWord s line slot
  | none => memWord s line slot

/-- Instruction-cache copies of a core that differ from what is home go when a team starts there (R249). -/
def dropStale (s : State) (core : Nat) : State :=
  s.modCore core (fun c => { c with icache := c.icache.filter (fun p => p.2.all (fun q => decide (homeWord s p.1 q.1 = q.2))) })

/-- Whether a line whose entry has changed is still the newer copy in the same L1, so that nothing has gone home between. -/
def Dir.keeps (d0 d1 : Dir) : Bool :=
  d0.ahead && decide (d0.owner = d1.owner) && decide (d0.dirty = d1.dirty) && decide (d0.privatised = d1.privatised)

/-- The words of a line that its home holds after a store of bytes by a core, from the state before it and its directory entry after it: those that it still
held; and, if the bytes stay in an L1, what the words that they touch were; a store that goes through to the home changes them there (R248, R256). -/
def homeAfter (s : State) (d1 : Dir) (through : Bool) (pa : Nat) (data : List Byte) : SMap Word :=
  let line := pa / 128
  let d0 := s.dirOf line
  let before := if d0.keeps d1 then mget [] s.homeWords line else []
  if through then
    before.map (fun p => (p.1, wd (leNat ((List.range 4).map (fun i =>
      let a := 4 * p.1 + i
      if pa % 128 ≤ a then data.getD (a - pa % 128) (BitVec.ofNat 8 (p.2.toNat / 256 ^ i)) else BitVec.ofNat 8 (p.2.toNat / 256 ^ i))))))
  else if d1.ahead && (d1.dirty || d0.keeps d1) then
    (List.range 32).foldl (fun m k =>
      if pa % 128 < 4 * k + 4 ∧ 4 * k < pa % 128 + data.length ∧ mfind m k = none then mput m k (memWord s line k) else m) before
  else []

/-- What the home of a line still holds after a store of a core, `s` as it was before it, `t` as the directory has noted it. -/
def noteHeld (s t : State) (rt : BitVec 2) (loc : Loc) (data : List Byte) : State :=
  match resolve s loc with
  | .scratch _ _ => t
  | .phys pa =>
    let d1 := t.dirOf (pa / 128)
    { t with homeWords := mset [] t.homeWords (pa / 128) (homeAfter s d1 (decide (rt ≠ 0) && d1.privatised.isEmpty) pa data) }

/-- Whether a physical line lies outside HBM5: in the pool, at a peer or in the host (R266, R441, log 6). -/
def farLine (line : Nat) : Bool := (channelOf line).isNone

/-- The pages whose re-pack is pending: physical base and size. -/
def repackRanges (s : State) : List (Nat × Nat) :=
  s.repacks.filterMap (fun r => match walkFrom s r.2.toNat (rootTable s r.1) 4 with
    | .leaf e size => some (leafPhys e size (r.2.toNat / size * size), size)
    | _ => none)

/-- Whether a place lies on a page whose re-pack is pending: an access to it waits until the page is laid out again (R204, R270). -/
def repackHolds (s : State) (l : Loc) : Bool :=
  match resolve s l with
  | .phys a => (repackRanges s).any (fun r => decide (r.1 ≤ a) && decide (a < r.1 + r.2))
  | _ => false

/-- Whether requests to a place wait: for a proof run, or for a re-pack. -/
def placeHeld (s : State) (l : Loc) : Bool := proofHolds s l || repackHolds s l
/-- Whether there is anything that requests may wait for. -/
def anyHeld (s : State) : Bool := !s.proofs.isEmpty || !s.repacks.isEmpty

/-- The set of its slice, of 1,024, that a physical line falls in (R16). -/
def setOf (line : Nat) : Nat := Config.lineSet line % 1024

def Dir.at (d : Dir) (die : Nat) : Moesi := if die = 0 then d.die0 else d.die1
def Dir.setAt (d : Dir) (die : Nat) (st : Moesi) : Dir := if die = 0 then { d with die0 := st } else { d with die1 := st }

/-- The bytes of a line that an access covers. -/
def byteMask (off n : Nat) : BitVec 128 := BitVec.ofNat 128 ((2 ^ n - 1) * 2 ^ off)

/-- A merge: every privatised copy is recalled, none holds the line and it has no owner (R260). -/
def Dir.merge (d : Dir) : Dir :=
  if d.privatised.isEmpty then d
  else { d with privatised := [], copies := d.copies.filter (fun p => (mfind d.privatised p.1).isNone), owner := none, dirty := false,
                mask := 0, tenures := [] }

/-- The line loses its owner: dirty bytes go home, and the run of tenures ends. -/
def Dir.disown (d : Dir) : Dir := { d with owner := none, dirty := false, mask := 0, tenures := [] }

/-- Every L1 copy of a die dropped; dirty bytes go home (R255). -/
def Dir.dropDie (d : Dir) (die : Nat) : Dir :=
  let d1 := { d with copies := d.copies.filter (fun p => decide (p.1 / 256 ≠ die)) }
  if d.owner.any (fun c => decide (c / 256 = die)) then d1.disown else d1

/-- The transition of a read from a die (R255). -/
def Dir.readFrom (d : Dir) (x : Nat) : Dir :=
  let y := 1 - x
  if d.at x ≠ .i then d
  else
    match d.at y with
    | .i => d.setAt x .e
    | .s => (d.setAt x .s).setAt y .s
    | .e => (d.setAt x .s).setAt y .s
    | .m => (d.setAt x .s).setAt y .o
    | .o => (d.setAt x .s).setAt y .o

/-- The transition of a write or atomic from a die (R255). -/
def Dir.writeFrom (d : Dir) (x : Nat) : Dir := ((d.setAt x .m).setAt (1 - x) .i).dropDie (1 - x)

/-- L1 copies of other cores of a core's die whose type is owned or write-through are dropped; those of the other die are R255's (R256). -/
def Dir.dropOthers (d : Dir) (core : Nat) : Dir :=
  { d with copies := d.copies.filter (fun p => decide (p.1 = core) || decide (p.1 / 256 ≠ core / 256) || decide (p.2 = 2)) }

/-- The owner's copy kept clean as write-through: dirty bytes go home, and the run of tenures ends. -/
def Dir.downgrade (d : Dir) : Dir :=
  { d.disown with copies := d.copies.map (fun p => if d.owner = some p.1 then (p.1, 1) else p) }

/-- The tenures known when a core becomes owner: those before it, newest first, when the line passes to it from another owner of its die; no
other die takes part (R258). -/
def Dir.past (d : Dir) (core : Nat) : List (Nat × BitVec 128) :=
  match d.owner with
  | some c => if c / 256 = core / 256 then ((c, d.mask) :: d.tenures).take 3 else []
  | none => []

/-- A core becomes the owner of a line that it did not own: an owner on its die is recalled, one on the other die keeps a clean copy. -/
def Dir.own (d : Dir) (core : Nat) : Dir :=
  let d1 := (if d.owner.any (fun c => decide (c / 256 ≠ core / 256)) then d.downgrade else d).dropOthers core
  { d1 with copies := mput d1.copies core 0, owner := some core, dirty := false, mask := 0, tenures := d.past core }

/-! ### What a cache holds (R15, R16) -/

/-- One of the lines of a list: which one a cache sends out for another line is a free value, fresh for each step and line (log 6). -/
def pickLine (s : State) (line : Nat) (l : List Nat) : Nat := l.getD (Config.freeVictim s.clock line % l.length) 0

/-- The lines that a core's L1 holds: 1,024 of 128 bytes in its 128 KiB. -/
def l1Lines (s : State) (core : Nat) : List Nat :=
  (s.dir.filter (fun p => (mfind p.2.copies core).isSome || (mfind p.2.privatised core).isSome)).map Prod.fst

/-- A core's L1 copy of a line dropped, dirty bytes going home first, a privatised copy merged (R259, R301). -/
def Dir.evictL1 (d : Dir) (core : Nat) : Dir :=
  let d := if (mfind d.privatised core).isSome then d.merge else d
  let d1 := { d with copies := mdel d.copies core }
  if d.owner = some core then d1.disown else d1

/-- A die's copy becomes I, an M or O one written back first, with no L1 copy left beneath it. -/
def Dir.evictDie (d : Dir) (die : Nat) : Dir := ((d.merge).setAt die .i).dropDie die

/-- A line that an L1 has taken beside 1,024 others sends another one out. -/
def fitL1 (s : State) (core line : Nat) : State :=
  { s with dir :=
      if (l1Lines s core).length ≤ 1024 then s.dir
      else (s.modDir (pickLine s line (sdel (l1Lines s core) line)) (fun d => d.evictL1 core)).dir }

/-- Whether two lines fall in one set of one slice of a die. -/
def sameSet2 (s : State) (die a b : Nat) : Bool := decide (sliceOf s die a = sliceOf s die b ∧ setOf a = setOf b)

/-- The lines of data that a die holds in the set that a line falls in, and the resident accumulator lines there, which stand at their home slice. -/
def dataLines (s : State) (die line : Nat) : List Nat :=
  (s.dir.filter (fun p => decide (p.2.at die ≠ .i) && sameSet2 s die p.1 line)).map Prod.fst
def accSetLines (s : State) (die line : Nat) : List Nat :=
  (s.acc.filter (fun p => decide (homeOf s p.1 = die) && sameSet2 s die p.1 line)).map Prod.fst
def setLines (s : State) (die line : Nat) : List Nat := dataLines s die line ++ accSetLines s die line

/-- The lines of data in a line's set that may leave it for the line: another one that no pin keeps there (R268). -/
def spareLines (s : State) (die line : Nat) : List Nat :=
  (sdel (dataLines s die line) line).filter (fun l => !(decide (homeOf s l = die) && s.pins.any (fun p => decide (p.2 = l))))

/-- A line that a slice has taken beside the 16 ways of its set sends out another one (R16, R268). -/
def fitL2 (s : State) (die line : Nat) : State :=
  { s with dir :=
      if (setLines s die line).length ≤ 16 ∨ spareLines s die line = [] then s.dir
      else (s.modDir (pickLine s line (spareLines s die line)) (fun d => d.evictDie die)).dir }

/-! ### Requests -/

/-- A load of bytes of a line by a core with a request type (R256, R259). -/
def dirLoad (s : State) (core : Nat) (rt : BitVec 2) (pa n : Nat) : State :=
  fitL1 (fitL2 (s.modDir (pa / 128) (fun d =>
    let m := byteMask (pa % 128) n
    let mine := (mfind d.privatised core).isSome
    if mine && d.privatised.all (fun p => decide (p.1 = core) || decide (p.2 &&& m = 0)) then d
    else
      let d := (d.merge).readFrom (core / 256)
      match rt.toNat with
      | 0 => if d.owner = some core then d.dropOthers core else d.own core
      | 3 => d
      | _ =>
        let d := if d.owner.any (fun c => decide (c ≠ core)) then d.downgrade else d
        if (mfind d.copies core).isSome then d else { d with copies := mput d.copies core rt }))
    (core / 256) (pa / 128)) core (pa / 128)

/-- Whether four tenures allow privatised copies: two to eight cores, masks of different cores disjoint (R258). -/
def disjointTenures (l : List (Nat × BitVec 128)) : Bool :=
  decide (l.length = 4) && l.any (fun p => decide (p.1 ≠ (l.headD (0, 0)).1)) &&
  l.all (fun p => l.all (fun q => decide (p.1 = q.1) || decide (p.2 &&& q.2 = 0)))

/-- The union of the masks of each core in a list of tenures. -/
def tenureMasks : List (Nat × BitVec 128) → SMap (BitVec 128)
  | [] => []
  | p :: l => let m := tenureMasks l; mput m p.1 (p.2 ||| mget 0 m p.1)

/-- Privatised copies granted to the cores of the last four tenures, when they and the page allow it (R258). -/
def Dir.grant (d : Dir) (core : Nat) (priv : Bool) : Dir :=
  if disjointTenures ((core, d.mask) :: d.tenures) && priv then
    let m := tenureMasks ((core, d.mask) :: d.tenures)
    { d.disown with privatised := m, copies := d.copies.filter (fun p => (mfind m p.1).isNone) }
  else d

/-- A store of bytes of a line by a core with a request type; `priv` when R258 admits privatisation (R256 to R259). -/
def dirStore (s : State) (core : Nat) (rt : BitVec 2) (pa n : Nat) (priv : Bool) : State :=
  fitL1 (fitL2 (s.modDir (pa / 128) (fun d =>
    let m := byteMask (pa % 128) n
    if (match mfind d.privatised core with
        | some k => decide (m &&& ~~~ k = 0)
        | none => false) then d
    else
      let d := (d.merge).writeFrom (core / 256)
      if rt = 0 then
        let d1 := if d.owner = some core then d else d.own core
        { d1 with dirty := true, mask := d1.mask ||| m }.grant core priv
      else if d.owner = some core then { d.dropOthers core with mask := d.mask ||| m }
      else (d.dropOthers core).disown)) (core / 256) (pa / 128)) core (pa / 128)

/-- A write or atomic that is performed at the home slice for a die: the line is recalled there first, self-invalidating copies stay (R255,
R256, R261). -/
def dirWrite (s : State) (die pa : Nat) : State :=
  fitL2 (s.modDir (pa / 128) (fun d =>
    let d := (d.merge).writeFrom die
    { d.disown with copies := d.copies.filter (fun p => decide (p.2 = 2)) })) die (pa / 128)

/-- A read for a die by an engine, a system core or the host: privatised copies merge, and no L1 gets a copy (R255, R259). -/
def dirRead (s : State) (die pa : Nat) : State := fitL2 (s.modDir (pa / 128) (fun d => (d.merge).readFrom die)) die (pa / 128)

/-- A device access to a line of a system page ends the host's hold of its sector as R267 gives. -/
def hostSector (s : State) (pa : Nat) (write : Bool) : State :=
  s.modDir (pa / 128) (fun d =>
    let f (h : Nat) : Nat := if write || h = 2 then 0 else h
    if pa / 64 % 2 = 0 then { d with host := (f d.host.1, d.host.2) } else { d with host := (d.host.1, f d.host.2) })

/-- The request type an access takes: uncached where R211 says so. -/
def effRt (s : State) (loc : Loc) (leaf : DWord) (rt : BitVec 2) : BitVec 2 :=
  if leafType leaf = 4 || leafType leaf = 3 || leafDomain leaf = 1 || decide (resolve s loc ≠ loc) then 3 else rt

/-- The places of the 64-byte sectors, two to a line, that `n` bytes from a place on touch (R267). -/
def sectorsFrom (loc : Loc) (n : Nat) : List Loc :=
  match loc with
  | .scratch _ _ => []
  | .phys a => (List.range ((a % 64 + n + 63) / 64)).map (fun i => .phys (max a ((a / 64 + i) * 64)))

/-- A write at the home slice for a die, an atomic there, a read for a die, as the directory sees them. -/
def noteWrite (s : State) (die : Nat) (loc : Loc) : State :=
  match resolve s loc with
  | .scratch _ _ => s
  | .phys pa => hostSector (dirWrite s die pa) pa true
def noteHome (s : State) (loc : Loc) : State :=
  match resolve s loc with
  | .scratch _ _ => s
  | .phys pa => hostSector (dirWrite s (homeOf s (pa / 128)) pa) pa true
/-- An atomic at its home slice: for a place at a peer that is the peer's, in whose order it takes its turn. The device writes its copies of the line back
first and keeps none: a die's copy that is I has no L1 copy beneath it (R255, R441). -/
def noteAtomic (s : State) (loc : Loc) : State :=
  match resolve s loc with
  | .scratch _ _ => s
  | .phys pa =>
    if pa.testBit 56 then s.modDir (pa / 128) (fun d => (d.evictDie 0).evictDie 1)
    else noteHome s (.phys pa)
def noteRead (s : State) (die : Nat) (loc : Loc) : State :=
  match resolve s loc with
  | .scratch _ _ => s
  | .phys pa => hostSector (dirRead s die pa) pa false
def noteReads (s : State) (die : Nat) (loc : Loc) (n : Nat) : State := (sectorsFrom loc n).foldl (fun s l => noteRead s die l) s
def noteHomes (s : State) (loc : Loc) (n : Nat) : State := (sectorsFrom loc n).foldl noteHome s

/-- The home die of the line of a place. -/
def lineHome (s : State) : Loc → Nat
  | .phys a => homeOf s (a / 128)
  | .scratch _ _ => 0

/-- A read at the home slices. -/
def noteHomeReads (s : State) (loc : Loc) (n : Nat) : State := (sectorsFrom loc n).foldl (fun s l => noteRead s (lineHome s l) l) s

/-- A core's load or store of bytes, as the directory sees it: nothing for scratchpad bytes; a page of domain system is uncached, and its
accesses are performed at the home slice (R267). -/
def noteLoad (s : State) (core : Nat) (rt : BitVec 2) (loc : Loc) (leaf : DWord) (n : Nat) : State :=
  match resolve s loc with
  | .scratch _ _ => s
  | .phys pa => if leafDomain leaf = 1 then noteHomeReads s (.phys pa) n else dirLoad s core (effRt s loc leaf rt) pa n
def noteStore (s : State) (core : Nat) (rt : BitVec 2) (normal atHome : Bool) (loc : Loc) (n : Nat) : State :=
  match resolve s loc with
  | .scratch _ _ => s
  | .phys pa =>
    if atHome then noteHomes s (.phys pa) n
    else dirStore s core rt pa n (normal && decide (homeOf s (pa / 128) = core / 256))

/-- A die's copy after its line has been written back to memory. -/
def Moesi.written : Moesi → Moesi
  | .m => .e
  | .o => .s
  | x => x

/-- A line whose dirty copies have been written back to memory; the copies stay, clean. -/
def Dir.writtenBack (d : Dir) : Dir := { d with dirty := false, die0 := d.die0.written, die1 := d.die1.written }

/-- The effect of a CWB of a scope on a line (R301): the core's own dirty copy goes home; at system scope the line goes to memory, unless another L1 holds
it dirty, whose die's copy stays M or O. -/
def dirWriteBack (s : State) (core scope line : Nat) : State :=
  if scope < 2 then s
  else s.modDir line (fun d =>
    let d := d.merge
    let d := if d.owner = some core then { d with dirty := false } else d
    if scope = 4 ∧ ¬ d.dirty then d.writtenBack else d)

/-- The effect of a CINV on a line. -/
def dirDrop (s : State) (core line : Nat) : State := s.modDir line (fun d => d.evictL1 core)

/-- Every directory entry changed; an entry that says nothing is dropped. -/
def State.eachDir (s : State) (f : Nat → Dir → Dir) : State :=
  { s with dir := s.dir.filterMap (fun (p : Nat × Dir) => let d := f p.1 p.2; if d = ({} : Dir) then none else some (p.1, d)) }

/-- The clean copies of a line dropped: a dirty one stays with its owner (R266). Privatised copies, of which only the bytes of their masks are dirty, are
recalled first: they merge (R259, R260). -/
def Dir.dropClean (d0 : Dir) : Dir :=
  let d := d0.merge
  let keep (x : Moesi) : Moesi := match x with
    | .e => .i
    | .s => .i
    | x => x
  { d with copies := d.copies.filter (fun p => d.dirty && decide (d.owner = some p.1)), owner := if d.dirty then d.owner else none,
           die0 := keep d.die0, die1 := keep d.die1 }

/-- The clean copies of a core's self-invalidating requests go, and at system scope the device's clean copies of far lines (R210, R266). -/
def acquireCopies (s : State) (core scope : Nat) : State :=
  if scope = 0 then s
  else
    let s1 := s.eachDir (fun _ d => { d with copies := d.copies.filter (fun q => !(decide (q.1 = core) && decide (q.2 = 2))) })
    if scope = 4 then s1.eachDir (fun l d => if farLine l then d.dropClean else d) else s1

/-- An acquire by an engine for a team: R247 names no engine among those that drop the press's held rows. -/
def engineAcquire (s : State) (uid scope : Nat) : State := acquireCopies s (s.team uid).coreId scope

/-- A load through a view under way at an acquire of its team: what it has read before is no row that the press may hold after it (R247). -/
def ViewRead.passed (r : ViewRead) : ViewRead := { r with fresh := r.fresh && r.got.isEmpty }

/-- The loads under way of a team's threads at an acquire. -/
def passLoads (s : State) (uid : Nat) : State :=
  { s with loads := s.loads.map (fun l => if teamOf l.tid = uid then { l with parts := l.parts.map ViewRead.passed } else l) }

/-- An acquire by a thread of a team at a scope: at team scope or wider the core drops its self-invalidating copies (R210) and the press its
held rows of the team's views (R247), and holds none made of granules read before it; at system scope the device drops its clean copies of far
lines (R266). -/
def acquire (s : State) (uid scope : Nat) : State :=
  if scope = 0 then s
  else
    let c := (s.team uid).coreId
    passLoads ((acquireCopies s c scope).modCore c (fun k => { k with press := k.press.filter (fun r => decide (r.team ≠ uid)) })) uid

/-- A release at system scope writes the dirty copies of far lines back to the pool; privatised ones, whichever cores hold them, are recalled for it and
merge (R259, R260, R266). -/
def farRelease (s : State) : State := s.eachDir (fun l d => if farLine l then d.merge.writtenBack else d)

/-- A release of kind release at device scope or wider ends the core's privatisations (R234, R259); at system scope the dirty copies of far lines
are written back (R266). -/
def endPrivatised (s : State) (core scope : Nat) : State :=
  if scope < 3 then s
  else
    let s1 := s.eachDir (fun _ d => if (mfind d.privatised core).isSome then d.merge else d)
    if scope = 4 then farRelease s1 else s1

/-! ### Writes of the device itself -/

/-- Bytes that the device writes for itself: each line is recalled to its home first (R255, R259). -/
def deviceOut (s : State) (l : Loc) (data : List Byte) : State := writeOut (noteHomes s l data.length) l data

/-! ### Rings (R427) and the error ring (R418) -/

/-- Base and order of a ring, none when the order disables it. -/
def ringBase (s : State) (n : Nat) : Option (Nat × Nat) :=
  let v := (s.sysReg n).toNat
  let k := v % 32
  if 4 ≤ k ∧ k ≤ 16 then some (bits v 56 12 * 4096, k) else none

/-- A record for a ring that the device writes: the ring with it, or none when disabled or full. -/
def ringPush (s : State) (base index size : Nat) (rec : List Byte) : Option State :=
  match ringBase s base with
  | none => none
  | some (pa, k) =>
    let v := (s.sysReg index).toNat
    let w := v % 2 ^ 32
    let r := v / 2 ^ 32
    if (w + 2 ^ 32 - r) % 2 ^ 32 ≥ 2 ^ k then none
    else
      let s1 := deviceOut s (.phys (pa + size * (w % 2 ^ k))) rec
      some (s1.setSys index (dw (r * 2 ^ 32 + (w + 1) % 2 ^ 32)))

/-- The incarnation of a unit (R271). -/
def incarnation (s : State) (u : UnitId) : BitVec 16 := mget 0 s.incarnations (u.cls * 65536 + u.number)

/-- An error record written and released at system scope, or counted in ERRLOST when the ring is disabled or full (R266, R418, R427). -/
def logError (s : State) (kind : Nat) (u : UnitId) (addr : Nat) (ctx : Option Nat) (team : Word) : State :=
  let rec_ := leBytes 2 kind ++ leBytes 2 u.cls ++ leBytes 4 u.number ++ leBytes 8 addr ++
    leBytes 2 (ctx.getD 0xFFFF) ++ leBytes 2 (incarnation s u).toNat ++ leBytes 4 team.toNat ++ leBytes 8 s.errSeq
  match ringPush s 0x6012 0x6013 32 rec_ with
  | some s1 => { farRelease s1 with errSeq := s1.errSeq + 1 }
  | none => s.setSys 0x6014 (dw (min (2 ^ 32 - 1) ((s.sysReg 0x6014).toNat % 2 ^ 32 + 1)))

/-- A malformed page-table entry that an access of a unit has met is recorded, with the entry's address (R201, R418). -/
def logEntry (s : State) (u : UnitId) (ctx : Nat) : Option Nat → State
  | some a => logError s 4 u a (some ctx) 0
  | none => s

/-- The same for an access of a core by virtual address. -/
def logWalk (s : State) (core ctx : Nat) (va : DWord) : State := logEntry s ⟨1, core⟩ ctx (metBad s core ctx va)

end Sys2Proof.Machine
end

