-- ==== Sys2Proof/Machine/Number.lean ====
section
/-! DEFINITION. Numbers: exact values, the seven storage formats, rounding, saturation and encoding (R154 to R167), the pass sum (R168), and
the special functions of R187. An operation gives its result and the classes of the numeric events it raises (R176):
0 saturation, 1 NaN, 2 underflow, 3 clamp. -/

namespace Sys2Proof.Machine

/-- An exact value: NaN, an infinity, or (-1)^neg × m × 2^e. A zero keeps its sign. -/
inductive Val where
  | nan
  | inf (neg : Bool)
  | fin (neg : Bool) (m : Nat) (e : Int)
  deriving DecidableEq, Repr

/-- A storage format (R154), a tapered one with its exponent width. -/
inductive Fmt where
  | f32
  | bf16
  | f16
  | t8 (es : Nat)
  | t6 (es : Nat)
  | i8
  | n8
  deriving DecidableEq, Repr

/-- Rounding modes (R162). -/
inductive Mode where
  | rne | rtz | rdn | rup
  deriving DecidableEq, Repr

def modeOf (r : BitVec 2) : Mode := if r = 0 then .rne else if r = 1 then .rtz else if r = 2 then .rdn else .rup

def Fmt.width : Fmt → Nat
  | .f32 => 32
  | .bf16 => 16
  | .f16 => 16
  | .t8 _ => 8
  | .t6 _ => 6
  | .i8 => 8
  | .n8 => 8

def Fmt.isFloat : Fmt → Bool
  | .f32 => true
  | .bf16 => true
  | .f16 => true
  | _ => false

/-- Fraction bits and exponent bits of a float format. -/
def Fmt.fracBits : Fmt → Nat
  | .f32 => 23
  | .bf16 => 7
  | .f16 => 10
  | _ => 0
def Fmt.expBits : Fmt → Nat
  | .f32 => 8
  | .bf16 => 8
  | .f16 => 5
  | _ => 0
/-- The exponent bias. -/
def Fmt.bias (f : Fmt) : Nat := 2 ^ (f.expBits - 1) - 1

/-! ### The format slot word (R160) -/

def slotFmt (w : Word) : Fmt :=
  let es := bits w.toNat 5 4
  match bits w.toNat 3 0 with
  | 0 => .f32
  | 1 => .bf16
  | 2 => .f16
  | 3 => .t8 es
  | 4 => .t6 es
  | 5 => .i8
  | _ => .n8
def slotScale (w : Word) : Int := (w.extractLsb' 8 8).toInt
def slotSat (w : Word) : Bool := w.getLsbD 18
def slotMode (w : Word) : Mode := if bits w.toNat 17 16 = 0 then .rne else .rtz
/-- The routing bit of an event class. -/
def slotRouted (w : Word) (c : Nat) : Bool := w.getLsbD (20 + c)
/-- Whether a slot word is legal in a launch (R45, R160). -/
def slotLegal (w : Word) : Bool :=
  let f := bits w.toNat 3 0
  let es := bits w.toNat 5 4
  decide (f < 7) && decide (bits w.toNat 17 16 < 2) && decide (es ≤ 2) && (es = 0 || f = 3 || f = 4) &&
  bits w.toNat 31 24 = 0 && !w.getLsbD 19 && bits w.toNat 7 6 = 0

/-! ### Exact arithmetic -/

def powInt (e : Int) : Nat := 2 ^ e.toNat

/-- A value times 2^s. -/
def Val.scale (v : Val) (s : Int) : Val :=
  match v with
  | .fin n m e => .fin n m (e + s)
  | v => v

def Val.neg : Val → Val
  | .nan => .nan
  | .inf n => .inf (!n)
  | .fin n m e => .fin (!n) m e

def Val.isNan : Val → Bool
  | .nan => true
  | _ => false
def Val.isZero : Val → Bool
  | .fin _ 0 _ => true
  | _ => false
def Val.isInf : Val → Bool
  | .inf _ => true
  | _ => false
def Val.sign : Val → Bool
  | .nan => false
  | .inf n => n
  | .fin n _ _ => n

/-- The signed mantissa of a finite value at a lower exponent. -/
def mantAt (n : Bool) (m : Nat) (e lo : Int) : Int :=
  let v : Int := m * powInt (e - lo)
  if n then -v else v

/-- An exact sum; an exact zero is +0 unless both are -0 (R184). -/
def Val.addFin (n1 : Bool) (m1 : Nat) (e1 : Int) (n2 : Bool) (m2 : Nat) (e2 : Int) : Val :=
  let lo := min e1 e2
  let v := mantAt n1 m1 e1 lo + mantAt n2 m2 e2 lo
  if v = 0 then .fin (n1 && n2 && m1 = 0 && m2 = 0) 0 0 else .fin (decide (v < 0)) v.natAbs lo

/-- A sum with its NaN event (R167). -/
def Val.add (a b : Val) : Val × List Nat :=
  match a, b with
  | .nan, _ => (.nan, [])
  | _, .nan => (.nan, [])
  | .inf x, .inf y => if x = y then (.inf x, []) else (.nan, [1])
  | .inf x, .fin _ _ _ => (.inf x, [])
  | .fin _ _ _, .inf y => (.inf y, [])
  | .fin n1 m1 e1, .fin n2 m2 e2 => (Val.addFin n1 m1 e1 n2 m2 e2, [])

/-- A product with its NaN event (R167). -/
def Val.mul (a b : Val) : Val × List Nat :=
  match a, b with
  | .nan, _ => (.nan, [])
  | _, .nan => (.nan, [])
  | .inf x, .inf y => (.inf (x != y), [])
  | .inf x, .fin y m _ => if m = 0 then (.nan, [1]) else (.inf (x != y), [])
  | .fin x m _, .inf y => if m = 0 then (.nan, [1]) else (.inf (x != y), [])
  | .fin x m1 e1, .fin y m2 e2 => (.fin (x != y) (m1 * m2) (e1 + e2), [])

/-- d + a × b, exact, with its NaN event: a NaN operand raises none. -/
def Val.fma (d a b : Val) : Val × List Nat :=
  if d.isNan || a.isNan || b.isNan then (.nan, [])
  else
    let p := a.mul b
    if p.1.isNan then p else d.add p.1

/-- Exact order of two values that are not NaN: -0 equals +0. -/
def Val.lt (a b : Val) : Bool :=
  match a, b with
  | .nan, _ => false
  | _, .nan => false
  | .inf x, .inf y => x && !y
  | .inf x, .fin _ _ _ => x
  | .fin _ _ _, .inf y => !y
  | .fin n1 m1 e1, .fin n2 m2 e2 =>
    let lo := min e1 e2
    decide (mantAt n1 m1 e1 lo < mantAt n2 m2 e2 lo)
def Val.eq (a b : Val) : Bool := !a.isNan && !b.isNan && !a.lt b && !b.lt a

/-! ### Decoding (R157, R159) -/

/-- The length of the run of bits equal to `b` from bit `n` - 1 of `x` downward. -/
def runLength (b : Bool) (x : Nat) : Nat → Nat
  | 0 => 0
  | n + 1 => if x.testBit n = b then runLength b x n + 1 else 0

/-- TaperedValue of R157, without the slot's scale. -/
def taperedValue (p n es : Nat) : Val :=
  if p = 0 then .fin false 0 0
  else if p = 2 ^ (n - 1) then .nan
  else
    let sgn := p.testBit (n - 1)
    let x := if sgn then 2 ^ n - p else p
    let b := x.testBit (n - 2)
    let m := runLength b x (n - 1)
    let k : Int := if b then (m : Int) - 1 else -(m : Int)
    let left := (n - 1) - (m + 1)
    let rest := x % 2 ^ left
    let e := if es ≤ left then rest / 2 ^ (left - es) else rest * 2 ^ (es - left)
    let fl := left - es
    let f := rest % 2 ^ fl
    .fin sgn (2 ^ fl + f) (k * 2 ^ es + e - fl)

/-- A float pattern's value. -/
def floatValue (f : Fmt) (x : Nat) : Val :=
  let fb := f.fracBits
  let eb := f.expBits
  let sgn := x.testBit (fb + eb)
  let e := x / 2 ^ fb % 2 ^ eb
  let m := x % 2 ^ fb
  if e = 2 ^ eb - 1 then (if m = 0 then .inf sgn else .nan)
  else if e = 0 then .fin sgn m (1 - (f.bias : Int) - fb)
  else .fin sgn (2 ^ fb + m) ((e : Int) - f.bias - fb)

/-- Decode of R159 for a format and a scale. -/
def decodeVal (f : Fmt) (sc : Int) (x : Nat) : Val :=
  match f with
  | .t8 es => (taperedValue (x % 256) 8 es).scale sc
  | .t6 es => (taperedValue (x % 64) 6 es).scale sc
  | .i8 =>
    let v := (BitVec.ofNat 8 x).toInt
    .fin (decide (v < 0)) v.natAbs sc
  | .n8 => .fin false (x % 256) sc
  | f => (floatValue f x).scale sc

/-- In of R183: an f32 pattern. -/
def inF32 (x : Word) : Val := floatValue .f32 x.toNat

/-! ### Rounding (R162 to R165) -/

/-- m / 2^sh rounded to an integer under a mode, for a value of the given sign. -/
def roundShift (mode : Mode) (neg : Bool) (m sh : Nat) : Nat :=
  let q := m / 2 ^ sh
  let r := m % 2 ^ sh
  let half := 2 ^ sh
  let up := match mode with
    | .rne => decide (half < 2 * r) || (decide (2 * r = half) && q % 2 = 1)
    | .rtz => false
    | .rdn => neg && decide (0 < r)
    | .rup => !neg && decide (0 < r)
  if up then q + 1 else q

/-- A finite value rounded to an integer. -/
def roundInt (mode : Mode) (neg : Bool) (m : Nat) (e : Int) : Int :=
  let q : Nat := if 0 ≤ e then m * powInt e else roundShift mode neg m (-e).toNat
  if neg then -(q : Int) else q

/-- The number of bits of a number. -/
def bitLen (m : Nat) : Nat := if m = 0 then 0 else m.log2 + 1

/-- The largest finite magnitude of a float format: mantissa and exponent. -/
def Fmt.maxFin (f : Fmt) : Nat × Int := (2 ^ (f.fracBits + 1) - 1, (f.bias : Int) - f.fracBits)

/-- Round to a float format (R163). -/
def roundFloat (f : Fmt) (mode : Mode) : Val → Val
  | .nan => .nan
  | .inf n => .inf n
  | .fin n m e =>
    if m = 0 then .fin n 0 0
    else
      let top : Int := e + bitLen m - 1
      let k : Int := max (top - f.fracBits) (1 - (f.bias : Int) - f.fracBits)
      let q := if k ≤ e then m * powInt (e - k) else roundShift mode n m (k - e).toNat
      let mx := f.maxFin
      -- q × 2^k beyond the largest finite magnitude
      if decide (mx.2 < k) || (decide (k = mx.2) && decide (mx.1 < q)) then
        match mode with
        | .rne => .inf n
        | .rtz => .fin n mx.1 mx.2
        | .rdn => if n then .inf n else .fin n mx.1 mx.2
        | .rup => if n then .fin n mx.1 mx.2 else .inf n
      else .fin n q k

/-- The pattern of a value that a float format represents. -/
def floatPattern (f : Fmt) : Val → Nat
  | .nan => (2 ^ f.expBits - 1) * 2 ^ f.fracBits + 2 ^ (f.fracBits - 1)
  | .inf n => b1 n * 2 ^ (f.fracBits + f.expBits) + (2 ^ f.expBits - 1) * 2 ^ f.fracBits
  | .fin n m e =>
    let s := b1 n * 2 ^ (f.fracBits + f.expBits)
    let lo : Int := 1 - (f.bias : Int) - f.fracBits
    if m = 0 then s
    else
      -- normalise to a mantissa of at most fracBits + 1 bits at an exponent not below the subnormal one
      let k : Int := max (e + bitLen m - 1 - f.fracBits) lo
      let q := if k ≤ e then m * powInt (e - k) else m / powInt (k - e)
      if q < 2 ^ f.fracBits then s + q
      else s + (k - lo + 1).toNat * 2 ^ f.fracBits + (q - 2 ^ f.fracBits)

/-- Out of R183: the pattern in a float format, with saturation and underflow events. -/
def outVal (f : Fmt) (mode : Mode) (u : Val) : Nat × List Nat :=
  match u with
  | .nan => (floatPattern f .nan, [])
  | u =>
    let y := roundFloat f mode u
    (floatPattern f y, (if !u.isInf && y.isInf then [0] else []) ++ (if !u.isZero && y.isZero then [2] else []))

/-- maxpos exponent of a tapered format: maxpos is 2 to this, minpos 2 to its negation (R158). -/
def taperMax (n es : Nat) : Int := (n - 2) * 2 ^ es

/-- TaperedRound of R164 as a pattern of n bits, with whether the value saturates (R165). -/
def taperedRound (n es : Nat) (mode : Mode) (u : Val) : Nat × Bool :=
  let sign (neg : Bool) (t : Nat) : Nat := if neg ∧ t ≠ 0 then 2 ^ n - t else t
  match u with
  | .nan => (2 ^ (n - 1), false)
  | .inf neg => (sign neg (2 ^ (n - 1) - 1), true)
  | .fin neg m e =>
    if m = 0 then (0, false)
    else
      let mx := taperMax n es
      let big : Val := .fin false 1 mx
      let small : Val := .fin false 1 (-mx)
      let a : Val := .fin false m e
      if !a.lt big then (sign neg (2 ^ (n - 1) - 1), big.lt a)
      else if !small.lt a then (sign neg 1, false)
      else
        let top : Int := e + bitLen m - 1
        let k : Int := top / (2 ^ es : Int)
        let ex := (top - k * (2 ^ es : Int)).toNat
        let fl := bitLen m - 1
        let regime : Nat := if 0 ≤ k then 2 ^ (k.toNat + 2) - 2 else 1
        let rlen : Nat := if 0 ≤ k then k.toNat + 2 else (-k).toNat + 1
        let str := (regime * 2 ^ es + ex) * 2 ^ fl + (m - 2 ^ fl)
        let len := rlen + es + fl
        if len ≤ n - 1 then (sign neg (str * 2 ^ (n - 1 - len)), false)
        else
          let sh := len - (n - 1)
          let t := str / 2 ^ sh
          let g := str / 2 ^ (sh - 1) % 2 = 1
          let st := str % 2 ^ (sh - 1) ≠ 0
          let up := match mode with
            | .rne => decide (g ∧ (st ∨ t % 2 = 1))
            | .rtz => false
            | .rup => decide (!neg ∧ (g ∨ st))
            | .rdn => decide (neg ∧ (g ∨ st))
          (sign neg (if up then t + 1 else t), false)

/-- Encode of R166 for a slot word: pattern and events; `force` forces saturation. -/
def encodeVal (slot : Word) (mode : Mode) (force : Bool) (v : Val) : Nat × List Nat :=
  let f := slotFmt slot
  let u := v.scale (-slotScale slot)
  match f, v with
  | .i8, .nan => (0, [0])
  | .n8, .nan => (0, [0])
  | .t8 _, .nan => (0x80, [])
  | .t6 _, .nan => (0x20, [])
  | f, .nan => (floatPattern f .nan, [])
  | .t8 es, _ => let r := taperedRound 8 es mode u; (r.1, if r.2 then [0] else [])
  | .t6 es, _ => let r := taperedRound 6 es mode u; (r.1, if r.2 then [0] else [])
  | .i8, _ =>
    (match u with
     | .fin n m e =>
       let y := roundInt mode n m e
       let z := max (-128) (min 127 y)
       ((BitVec.ofInt 8 z).toNat, (if y = 0 ∧ m ≠ 0 then [2] else []) ++ (if z ≠ y then [0] else []))
     | u => (if u.sign then 0x80 else 0x7F, [0]))
  | .n8, _ =>
    (match u with
     | .fin n m e =>
       let y := roundInt mode n m e
       let z := max 0 (min 255 y)
       (z.toNat, (if y = 0 ∧ m ≠ 0 then [2] else []) ++ (if z ≠ y then [0] else []))
     | u => (if u.sign then 0 else 0xFF, [0]))
  | f, _ =>
    let y := roundFloat f mode u
    let sat := slotSat slot || force
    let z := if sat && y.isInf then .fin y.sign f.maxFin.1 f.maxFin.2 else y
    (floatPattern f z, (if y.isZero && !u.isZero then [2] else []) ++
      (if (sat && y.isInf) || (!u.isInf && y.isInf) then [0] else []))

/-! ### The pass sum (R168) -/

/-- Whether a product is 0 × infinity, or NaN. -/
def prodSum : List (Val × Val) → Val × List Nat
  | ps =>
    if ps.any (fun p => p.1.isNan || p.2.isNan) then (.nan, [])
    else
      let qs := ps.map (fun p => (p.1.mul p.2).1)
      if qs.any Val.isNan then (.nan, [1])
      else if qs.contains (.inf true) && qs.contains (.inf false) then (.nan, [1])
      else if qs.contains (.inf true) then (.inf true, [])
      else if qs.contains (.inf false) then (.inf false, [])
      else if qs.all Val.isZero then (.fin false 0 0, [])
      else
        let tops : List Int := qs.filterMap (fun q => match q with
          | .fin _ 0 _ => none
          | .fin _ m e => some (e + bitLen m - 1)
          | _ => none)
        let ul := tops.foldl max (tops.headD 0) - 60
        let sum : Int := qs.foldl (fun acc q => match q with
          | .fin n m e =>
            let t : Nat := if ul ≤ e then m * powInt (e - ul) else m / powInt (ul - e)
            if n then acc - t else acc + t
          | _ => acc) 0
        (.fin (decide (sum < 0)) sum.natAbs ul, [])

/-- PassSum as a value of `f` with its events: every sum of the press and the array (R168, R374). -/
def passSum (f : Fmt) (ps : List (Val × Val)) : Nat × List Nat :=
  let s := prodSum ps
  let o := outVal f .rne s.1
  (o.1, s.2 ++ o.2)

/-! ### Special functions (R187)

Each is computed as an integer times 2^-P with a known bound on its error; when both ends of the interval round to one
pattern, that pattern is the correctly rounded result. -/

/-- The integer square root, bit by bit. -/
def isqrtFrom : Nat → Nat → Nat → Nat
  | 0, _, r => r
  | k + 1, x, r => if (r + 2 ^ k) * (r + 2 ^ k) ≤ x then isqrtFrom k x (r + 2 ^ k) else isqrtFrom k x r
def isqrt (x : Nat) : Nat := isqrtFrom (x.log2 / 2 + 1) x 0

/-- A magnitude q × 2^e with a sticky bit below it. -/
def sticky (neg : Bool) (q : Nat) (exact : Bool) (e : Int) : Val := .fin neg (2 * q + b1 (!exact)) (e - 1)

/-- 1 / (m × 2^e), good to 60 bits and a sticky bit. -/
def recip (neg : Bool) (m : Nat) (e : Int) : Val :=
  let t := bitLen m + 60
  sticky neg (2 ^ t / m) (2 ^ t % m = 0) (-e - t)

/-- √(m × 2^e). -/
def rootOf (m : Nat) (e : Int) : Val :=
  let k : Int := (130 - e) / 2
  let x := m * powInt (e + 2 * k)
  let q := isqrt x
  sticky false q (q * q = x) (-k)

/-- 1 / √(m × 2^e). -/
def recipRoot (m : Nat) (e : Int) : Val :=
  let k : Int := (e + bitLen m + 130) / 2
  let t : Nat := (2 * k - e).toNat
  let q := isqrt (2 ^ t / m)
  sticky false q (q * q * m = 2 ^ t) (-k)

/-- The working precision of the series. -/
def P : Nat := 640

/-- Σ x^k / k! at precision P, n terms from term t on. -/
def expTerms (x : Int) : Nat → Nat → Int → Int → Int
  | 0, _, _, acc => acc
  | n + 1, k, t, acc => expTerms x n (k + 1) (t * x / 2 ^ P / (k + 1)) (acc + t)
/-- e^x for |x| ≤ 2. -/
def expFix (x : Int) : Int := expTerms x 180 0 (2 ^ P) 0

/-- Σ y^(2k+1) / (2k+1), alternating or not: atan or atanh, y = t / 2^P. -/
def atanTerms (alt : Bool) (y2 : Int) : Nat → Nat → Int → Int → Int
  | 0, _, _, acc => acc
  | n + 1, k, t, acc =>
    atanTerms alt y2 n (k + 1) (t * y2 / 2 ^ P) (if alt && k % 2 = 1 then acc - t / (2 * k + 1) else acc + t / (2 * k + 1))
def atanhFix (y : Int) : Int := atanTerms false (y * y / 2 ^ P) 220 0 y 0
def atanFix (y : Int) : Int := atanTerms true (y * y / 2 ^ P) 150 0 y 0
def ln2Fix : Int := 2 * atanhFix ((2 ^ P : Int) / 3)
/-- π by Machin's formula. -/
def piFix : Int := 4 * (4 * atanFix ((2 ^ P : Int) / 5) - atanFix ((2 ^ P : Int) / 239))

/-- Σ of the sine or cosine series: the term t of index k, next factor (k + 1)(k + 2). -/
def trigTerms (x2 : Int) : Nat → Nat → Int → Int → Int
  | 0, _, _, acc => acc
  | n + 1, k, t, acc => trigTerms x2 n (k + 2) (-(t * x2 / 2 ^ P) / ((k + 1) * (k + 2))) (acc + t)
def sinFix (x : Int) : Int := trigTerms (x * x / 2 ^ P) 80 1 x 0
def cosFix (x : Int) : Int := trigTerms (x * x / 2 ^ P) 80 0 (2 ^ P) 0

/-- m × 2^e at precision P, rounded down. -/
def fixOf (neg : Bool) (m : Nat) (e : Int) : Int :=
  let s := e + P
  let v : Int := if 0 ≤ s then m * powInt s else (m : Int) / powInt (-s)
  if neg then -v else v

/-- The value a × 2^s for an integer a. -/
def valOf (a : Int) (s : Int) : Val := .fin (decide (a < 0)) a.natAbs s

/-- The pattern on which both ends of a × 2^s ± err × 2^s agree. -/
def decided (a : Int) (err : Nat) (s : Int) : Option (Nat × List Nat) :=
  let lo := outVal .f32 .rne (valOf (a - err) s)
  let hi := outVal .f32 .rne (valOf (a + err) s)
  if lo = hi then some lo else none

/-- A value slightly nearer to zero than m × 2^e. -/
def justBelow (neg : Bool) (m : Nat) (e : Int) : Val := .fin neg (m * 2 ^ 60 - 1) (e - 60)

/-- Errors of the series stay below this many units of 2^-P. -/
def seriesErr : Nat := 2 ^ 220

/-- 2^a for a finite and not integral, -151 < a < 129. -/
def exp2Fix (neg : Bool) (m : Nat) (e : Int) : Option (Nat × List Nat) :=
  let a := fixOf neg m e
  let n := a / 2 ^ P
  let f := a % 2 ^ P
  decided (expFix (f * ln2Fix / 2 ^ P)) seriesErr (n - P)

/-- log2 of m × 2^e, m no power of two. -/
def log2Fix (m : Nat) (e : Int) : Option (Nat × List Nat) :=
  let l := bitLen m - 1
  let x := fixOf false m (-l)
  let one : Int := 2 ^ P
  let ln := 2 * atanhFix ((x - one) * 2 ^ P / (x + one))
  decided ((e + l) * 2 ^ P + ln * 2 ^ P / ln2Fix) seriesErr (-P)

/-- tanh of m × 2^e for 2^-30 ≤ |a| < 16. -/
def tanhFix (neg : Bool) (m : Nat) (e : Int) : Option (Nat × List Nat) :=
  let a := 2 * fixOf false m e
  let n := a / ln2Fix
  let r := a - n * ln2Fix
  let x := expFix r * powInt n
  let t := (x - 2 ^ P) * 2 ^ P / (x + 2 ^ P)
  decided (if neg then -t else t) seriesErr (-P)

/-- Sine or cosine of m × 2^e: the argument reduced by multiples of π / 2, which precision P resolves for every f32. -/
def trigFix (cosine neg : Bool) (m : Nat) (e : Int) : Option (Nat × List Nat) :=
  let a := fixOf false m e
  let h := piFix / 2
  let n := (2 * a + h) / (2 * h)
  let r := a - n * h
  let q := ((if cosine then n + 1 else n) % 4).toNat
  let v := match q with
    | 0 => sinFix r
    | 1 => cosFix r
    | 2 => -sinFix r
    | _ => -cosFix r
  decided (if neg && !cosine then -v else v) (2 ^ 400) (-P)

/-- Whether a value is an integer, and which. -/
def asInt (neg : Bool) (m : Nat) (e : Int) : Option Int :=
  if 0 ≤ e then some (mantAt neg m e 0)
  else if m % powInt (-e) = 0 then some (if neg then -((m / powInt (-e) : Nat) : Int) else (m / powInt (-e) : Nat)) else none

/-- The eight functions (R187): pattern and events. -/
def special (fn : Nat) (x : Word) : Nat × List Nat :=
  let free : Nat × List Nat := ((Config.specialResult fn x).toNat, [])
  let nanEv : Nat × List Nat := (floatPattern .f32 .nan, [1])
  let exact (v : Val) : Nat × List Nat := (floatPattern .f32 v, [])
  let out (v : Val) : Nat × List Nat := outVal .f32 .rne v
  let one : Val := .fin false 1 0
  match inF32 x with
  | .nan => exact .nan
  | .inf n =>
    (match fn with
     | 0 => exact (.fin n 0 0)
     | 1 => if n then nanEv else exact (.fin false 0 0)
     | 2 => if n then nanEv else exact (.inf false)
     | 3 => if n then exact (.fin false 0 0) else exact (.inf false)
     | 4 => if n then nanEv else exact (.inf false)
     | 5 => exact (.fin n 1 0)
     | _ => nanEv)
  | .fin n m e =>
    if m = 0 then
      (match fn with
       | 0 => exact (.inf n)
       | 1 => exact (.inf n)
       | 2 => exact (.fin n 0 0)
       | 3 => exact one
       | 4 => exact (.inf true)
       | 5 => exact (.fin n 0 0)
       | 6 => exact (.fin n 0 0)
       | _ => exact one)
    else
      match fn with
      | 0 => out (recip n m e)
      | 1 => if n then nanEv else out (recipRoot m e)
      | 2 => if n then nanEv else out (rootOf m e)
      | 3 =>
        (match asInt n m e with
         | some k => out (.fin false 1 (max (-400) (min 400 k)))
         | none =>
           if Val.lt (.fin n m e) (.fin true 151 0) then out (.fin false 1 (-400))
           else if Val.lt (.fin false 129 0) (.fin n m e) then out (.fin false 1 400)
           else (exp2Fix n m e).getD free)
      | 4 =>
        if n then nanEv
        else if m = 2 ^ (bitLen m - 1) then out (valOf (e + bitLen m - 1) 0)
        else (log2Fix m e).getD free
      | 5 =>
        if Val.lt (.fin false m e) (.fin false 1 (-30)) then out (justBelow n m e)
        else if Val.lt (.fin false 16 0) (.fin false m e) then out (justBelow n 1 0)
        else (tanhFix n m e).getD free
      | 6 =>
        if Val.lt (.fin false m e) (.fin false 1 (-30)) then out (justBelow n m e)
        else (trigFix false n m e).getD free
      | _ =>
        if Val.lt (.fin false m e) (.fin false 1 (-14)) then out (justBelow false 1 0)
        else (trigFix true n m e).getD free

end Sys2Proof.Machine
end

