-- ==== Sys2Proof/Machine/Thread.lean ====
section
/-! DEFINITION. Registers of one thread and the set that issues: Src, Dst, pairs, latches (R82, R88, R89, R98, R111, R335). -/

namespace Sys2Proof.Machine

/-- Code 124: reads zero, discards writes (R88). -/
def codeZ : Code := 124

/-- The pipe whose latch a result reaches: I 0, F 1, X 2, M 3; K-pipe words write no latch (R83, R111). -/
inductive Pipe where
  | i | f | x | m | k
  deriving DecidableEq, Repr

def Pipe.latch : Pipe → Option Nat
  | .i => some 0
  | .f => some 1
  | .x => some 2
  | .m => some 3
  | .k => none

/-- A vector register of a thread; any code outside v0 to v119 and the latches reads zero (R98). -/
def Thread.src (t : Thread) (c : Code) : Word :=
  if c.toNat < 120 then mget 0 t.regs c.toNat
  else if c.toNat < 124 then (mfind t.latch (c.toNat - 120)).getD 0
  else 0

/-- A 64-bit operand of a vector thread: the pair c, c + 1; vz reads zero (R89). -/
def Thread.src64 (t : Thread) (c : Code) : DWord :=
  if c.toNat < 120 then (mget 0 t.regs (c.toNat + 1) : Word) ++ (mget 0 t.regs c.toNat : Word) else 0

/-- A register of the burin core (R335). -/
def Thread.gsrc (t : Thread) (c : Code) : DWord := if c.toNat < 32 then mget 0 t.gregs c.toNat else 0

/-- A vector register set. -/
def Thread.setReg (t : Thread) (c : Nat) (v : Word) : Thread :=
  if c < 120 then { t with regs := mset 0 t.regs c v } else t

/-- A burin register set. -/
def Thread.setG (t : Thread) (c : Nat) (v : DWord) : Thread :=
  if c < 32 then { t with gregs := mset 0 t.gregs c v } else t

/-- A latch made valid with a value; a load or atomic issued before no longer owns q3 (R111). -/
def Thread.setLatch (t : Thread) (k : Nat) (v : Word) : Thread :=
  { t with latch := mput t.latch k v, q3 := if k = 3 then none else t.q3 }

/-- The latch of a pipe written. -/
def Thread.toLatch (t : Thread) (p : Pipe) (v : Word) : Thread :=
  match p.latch with
  | some k => t.setLatch k v
  | none => t

/-- Dst of R98 on a vector thread: the pipe's latch, then the register unless N suppresses it. -/
def Thread.dst (t : Thread) (p : Pipe) (n : Bool) (d : Code) (v : Word) : Thread :=
  let t1 := t.toLatch p v
  if n then t1 else t1.setReg d.toNat v

/-- Dst64 of R98 on a vector thread. -/
def Thread.dst64 (t : Thread) (p : Pipe) (n : Bool) (d : Code) (v : DWord) : Thread :=
  let t1 := t.toLatch p (v.extractLsb' 0 32)
  if n ∨ ¬ d.toNat < 120 then t1
  else (t1.setReg d.toNat (v.extractLsb' 0 32)).setReg (d.toNat + 1) (v.extractLsb' 32 32)

/-- A burin result: the g register unless N suppresses it (R335). -/
def Thread.gdst (t : Thread) (n : Bool) (d : Code) (v : DWord) : Thread := if n then t else t.setG d.toNat v

/-- A thread's private bytes. -/
def Thread.privBytes (t : Thread) (off : Nat) : Nat → List Byte
  | 0 => []
  | n + 1 => mget 0 t.priv off :: t.privBytes (off + 1) n
def Thread.setPriv (t : Thread) (off : Nat) : List Byte → Thread
  | [] => t
  | v :: vs => Thread.setPriv { t with priv := mset 0 t.priv off v } (off + 1) vs

/-! ### Blocks of one chain (R84, R108) -/

/-- A thread comes to wait for the word of its chain that issues now; a phase that an earlier word waits for stays beneath. -/
def Thread.blockOn (t : Thread) (c : Cond) : Thread :=
  match t.cond with
  | .blocked (.phase k a) => { t with cond := c, beneath := some (k, a) }
  | _ => { t with cond := c }

/-- What a thread waited for has come: it is ready, or waits on for the phase beneath. -/
def Thread.wake (t : Thread) : Thread :=
  match t.beneath with
  | some (k, a) => { t with cond := .blocked (.phase k a), beneath := none }
  | none => { t with cond := .ready }

/-- Whether a thread waits for phase `a` of barrier `k` that a test accepts, at once or beneath another block. -/
def Thread.awaits (t : Thread) (f : Nat → Word → Bool) : Bool :=
  (match t.cond with
   | .blocked (.phase k a) => f k a
   | _ => false) || t.beneath.any (fun p => f p.1 p.2)

/-- The phase that a thread waited for has completed. -/
def Thread.phaseCame (t : Thread) : Thread :=
  match t.beneath with
  | some _ => { t with beneath := none }
  | none => { t with cond := .ready }

/-! ### The set that issues -/

/-- A thread as it stood at the start of the chain (R82): its snapshot, or the thread itself when none was taken. -/
def State.pre (s : State) (tid : Nat) : Thread := (mfind s.issue.snap tid).getD (s.thread tid)

/-- The sources of a lane. -/
def State.src (s : State) (tid : Nat) (c : Code) : Word := (s.pre tid).src c
def State.src64 (s : State) (tid : Nat) (c : Code) : DWord := (s.pre tid).src64 c
def State.gsrc (s : State) (tid : Nat) (c : Code) : DWord := (s.pre tid).gsrc c

/-- An address or 64-bit operand: a pair on a vector thread, one register on the burin core (R275, R335). -/
def State.wide (s : State) (tid : Nat) (c : Code) : DWord := if isBurin tid then s.gsrc tid c else s.src64 tid c
/-- A 32-bit operand: on the burin core the low half of a g register. -/
def State.narrow (s : State) (tid : Nat) (c : Code) : Word :=
  if isBurin tid then (s.gsrc tid c).extractLsb' 0 32 else s.src tid c
/-- An unsigned operand: 32 bits on a vector thread, 64 on the burin core. -/
def State.amount (s : State) (tid : Nat) (c : Code) : Nat :=
  if isBurin tid then (s.gsrc tid c).toNat else (s.src tid c).toNat

/-- A 32-bit result of a lane; zero-extended on the burin core (R336, R340). -/
def State.put (s : State) (p : Pipe) (tid : Nat) (n : Bool) (d : Code) (v : Word) : State :=
  s.modThread tid (fun t => if isBurin tid then t.gdst n d (v.setWidth 64) else t.dst p n d v)
/-- A 64-bit result of a lane. -/
def State.put64 (s : State) (p : Pipe) (tid : Nat) (n : Bool) (d : Code) (v : DWord) : State :=
  s.modThread tid (fun t => if isBurin tid then t.gdst n d v else t.dst64 p n d v)

/-- One action for each lane of a list in turn; the list is in ascending LANE order (R275). -/
def eachLane (f : State → Nat → State) : State → List Nat → State
  | s, [] => s
  | s, l :: ls => eachLane f (f s l) ls

/-- The mask of a list of lanes (R133). -/
def laneMask : List Nat → Word
  | [] => 0
  | l :: ls => (1#32 <<< laneOf l) ||| laneMask ls

/-- The team of the issuing set. -/
def State.issueTeam (s : State) : Nat := s.issue.group / 64

end Sys2Proof.Machine
end

