-- ==== Sys2Proof/Machine/Operands.lean ====
section
/-! DEFINITION. The operands of each instruction: which codes it reads and writes and how wide, its pipe, and the checks on codes
(R37, R83, R88, R89, R108, R335). -/

namespace Sys2Proof.Machine

/-- How many registers an operand takes on a vector thread (R89). -/
inductive Width where
  | one | pair | quad
  deriving DecidableEq, Repr

def Width.count : Width → Nat
  | .one => 1
  | .pair => 2
  | .quad => 4

/-- One operand: read, written, or both; `n` is the N bit that suppresses the write. -/
inductive Opnd where
  | src (c : Code) (w : Width)
  | dst (c : Code) (w : Width) (n : Bool)
  | both (c : Code) (w : Width) (n : Bool)
  deriving DecidableEq, Repr

def Opnd.code : Opnd → Code
  | .src c _ => c
  | .dst c _ _ => c
  | .both c _ _ => c
def Opnd.width : Opnd → Width
  | .src _ w => w
  | .dst _ w _ => w
  | .both _ w _ => w
def Opnd.reads : Opnd → Bool
  | .dst _ _ _ => false
  | _ => true
def Opnd.writes : Opnd → Bool
  | .src _ _ => false
  | _ => true
/-- The write goes to the register (N = 0). -/
def Opnd.kept : Opnd → Bool
  | .src _ _ => false
  | .dst _ _ n => !n
  | .both _ _ n => !n

/-- The registers of an access size: 64 bits take a pair, 128 bits four (R87). -/
def szWidth (sz : BitVec 3) : Width := if sz = 5 then .pair else if sz = 6 then .quad else .one

/-- The operands of an instruction. -/
def operands : Instr → List Opnd
  | .add n d a b => [.dst d .one n, .src a .one, .src b .one]
  | .sub n d a b => [.dst d .one n, .src a .one, .src b .one]
  | .mul n d a b => [.dst d .one n, .src a .one, .src b .one]
  | .mulhiI n d a b => [.dst d .one n, .src a .one, .src b .one]
  | .mulhiN n d a b => [.dst d .one n, .src a .one, .src b .one]
  | .mad n d a b => [.both d .one n, .src a .one, .src b .one]
  | .minI n d a b => [.dst d .one n, .src a .one, .src b .one]
  | .maxI n d a b => [.dst d .one n, .src a .one, .src b .one]
  | .minN n d a b => [.dst d .one n, .src a .one, .src b .one]
  | .maxN n d a b => [.dst d .one n, .src a .one, .src b .one]
  | .absInt n d a => [.dst d .one n, .src a .one]
  | .addsatI n d a b => [.dst d .one n, .src a .one, .src b .one]
  | .subsatI n d a b => [.dst d .one n, .src a .one, .src b .one]
  | .clz n d a => [.dst d .one n, .src a .one]
  | .popc n d a => [.dst d .one n, .src a .one]
  | .brev n d a => [.dst d .one n, .src a .one]
  | .andW n d a b => [.dst d .one n, .src a .one, .src b .one]
  | .orW n d a b => [.dst d .one n, .src a .one, .src b .one]
  | .xorW n d a b => [.dst d .one n, .src a .one, .src b .one]
  | .andn n d a b => [.dst d .one n, .src a .one, .src b .one]
  | .orn n d a b => [.dst d .one n, .src a .one, .src b .one]
  | .xnor n d a b => [.dst d .one n, .src a .one, .src b .one]
  | .sel n d a b => [.both d .one n, .src a .one, .src b .one]
  | .mov n d a => [.dst d .one n, .src a .one]
  | .shl n d a b => [.dst d .one n, .src a .one, .src b .one]
  | .shr n d a b => [.dst d .one n, .src a .one, .src b .one]
  | .sar n d a b => [.dst d .one n, .src a .one, .src b .one]
  | .rol n d a b => [.dst d .one n, .src a .one, .src b .one]
  | .shl64 n d a b => [.dst d .pair n, .src a .pair, .src b .one]
  | .shr64 n d a b => [.dst d .pair n, .src a .pair, .src b .one]
  | .bfx n d a b => [.dst d .one n, .src a .one, .src b .one]
  | .bfi n d a b => [.both d .one n, .src a .one, .src b .one]
  | .cmpEq n d a b => [.dst d .one n, .src a .one, .src b .one]
  | .cmpNe n d a b => [.dst d .one n, .src a .one, .src b .one]
  | .ltI n d a b => [.dst d .one n, .src a .one, .src b .one]
  | .leI n d a b => [.dst d .one n, .src a .one, .src b .one]
  | .ltN n d a b => [.dst d .one n, .src a .one, .src b .one]
  | .leN n d a b => [.dst d .one n, .src a .one, .src b .one]
  | .tst n d a b => [.dst d .one n, .src a .one, .src b .one]
  | .voteAny n d a => [.dst d .one n, .src a .one]
  | .voteAll n d a => [.dst d .one n, .src a .one]
  | .voteBal n d a => [.dst d .one n, .src a .one]
  | .matchLanes n d a => [.dst d .one n, .src a .one]
  | .actmask n d => [.dst d .one n]
  | .movs d _ => [.dst d .one false]
  | .add64 n d a b => [.dst d .pair n, .src a .pair, .src b .pair]
  | .sub64 n d a b => [.dst d .pair n, .src a .pair, .src b .pair]
  | .addxI n d a b => [.dst d .pair n, .src a .pair, .src b .one]
  | .addxN n d a b => [.dst d .pair n, .src a .pair, .src b .one]
  | .cmplt64 n d a b => [.dst d .one n, .src a .pair, .src b .pair]
  | .cmpeq64 n d a b => [.dst d .one n, .src a .pair, .src b .pair]
  | .mov64 n d a => [.dst d .pair n, .src a .pair]
  | .addi n d a _ => [.dst d .one n, .src a .one]
  | .andi n d a _ => [.dst d .one n, .src a .one]
  | .ori n d a _ => [.dst d .one n, .src a .one]
  | .xori n d a _ => [.dst d .one n, .src a .one]
  | .shli n d a _ => [.dst d .one n, .src a .one]
  | .shri n d a _ => [.dst d .one n, .src a .one]
  | .sari n d a _ => [.dst d .one n, .src a .one]
  | .roli n d a _ => [.dst d .one n, .src a .one]
  | .cmpiEq n d a _ => [.dst d .one n, .src a .one]
  | .cmpiNe n d a _ => [.dst d .one n, .src a .one]
  | .cmpiLtI n d a _ => [.dst d .one n, .src a .one]
  | .cmpiLeI n d a _ => [.dst d .one n, .src a .one]
  | .cmpiLtN n d a _ => [.dst d .one n, .src a .one]
  | .cmpiLeN n d a _ => [.dst d .one n, .src a .one]
  | .cmpiGtI n d a _ => [.dst d .one n, .src a .one]
  | .cmpiGeI n d a _ => [.dst d .one n, .src a .one]
  | .movi d _ => [.dst d .one false]
  | .movhi d _ => [.both d .one false]
  | .bnz _ a _ _ => [.src a .one]
  | .bz _ a _ _ => [.src a .one]
  | .jmpi a => [.src a .pair]
  | .calli a => [.src a .pair]
  | .rjQuery d _ => [.dst d .one false]
  | .spadd a _ => [.src a .one]
  | .spget d => [.dst d .one false]
  | .spset a => [.src a .one]
  | .fadd n d a b => [.dst d .one n, .src a .one, .src b .one]
  | .fsub n d a b => [.dst d .one n, .src a .one, .src b .one]
  | .fmul n d a b => [.dst d .one n, .src a .one, .src b .one]
  | .ffma n d a b => [.both d .one n, .src a .one, .src b .one]
  | .ffms n d a b => [.both d .one n, .src a .one, .src b .one]
  | .fmin n d a b => [.dst d .one n, .src a .one, .src b .one]
  | .fmax n d a b => [.dst d .one n, .src a .one, .src b .one]
  | .fcpsgn n d a b => [.dst d .one n, .src a .one, .src b .one]
  | .feq n d a b => [.dst d .one n, .src a .one, .src b .one]
  | .flt n d a b => [.dst d .one n, .src a .one, .src b .one]
  | .fle n d a b => [.dst d .one n, .src a .one, .src b .one]
  | .funord n d a b => [.dst d .one n, .src a .one, .src b .one]
  | .fclass n d a => [.dst d .one n, .src a .one]
  | .fabs n d a => [.dst d .one n, .src a .one]
  | .fneg n d a => [.dst d .one n, .src a .one]
  | .frcp n d a => [.dst d .one n, .src a .one]
  | .frsq n d a => [.dst d .one n, .src a .one]
  | .fsqrt n d a => [.dst d .one n, .src a .one]
  | .fexp2 n d a => [.dst d .one n, .src a .one]
  | .flog2 n d a => [.dst d .one n, .src a .one]
  | .ftanh n d a => [.dst d .one n, .src a .one]
  | .fsin n d a => [.dst d .one n, .src a .one]
  | .fcos n d a => [.dst d .one n, .src a .one]
  | .hadd2 n d a b => [.dst d .one n, .src a .one, .src b .one]
  | .hsub2 n d a b => [.dst d .one n, .src a .one, .src b .one]
  | .hmul2 n d a b => [.dst d .one n, .src a .one, .src b .one]
  | .hfma2 n d a b => [.both d .one n, .src a .one, .src b .one]
  | .hmin2 n d a b => [.dst d .one n, .src a .one, .src b .one]
  | .hmax2 n d a b => [.dst d .one n, .src a .one, .src b .one]
  | .hdot2 n d a b => [.both d .one n, .src a .one, .src b .one]
  | .cvtF2i n d a _ => [.dst d .one n, .src a .one]
  | .cvtF2n n d a _ => [.dst d .one n, .src a .one]
  | .cvtI2f n d a _ => [.dst d .one n, .src a .one]
  | .cvtN2f n d a _ => [.dst d .one n, .src a .one]
  | .cvtF2bf n d a _ => [.dst d .one n, .src a .one]
  | .cvtBf2f n d a => [.dst d .one n, .src a .one]
  | .cvtF2h n d a _ => [.dst d .one n, .src a .one]
  | .cvtH2f n d a => [.dst d .one n, .src a .one]
  | .cvtFrnd n d a _ => [.dst d .one n, .src a .one]
  | .cvtEnc n d a _ _ => [.dst d .one n, .src a .one]
  | .cvtDec n d a _ _ => [.dst d .one n, .src a .one]
  | .narrowPack n d a _ _ => [.both d .one n, .src a .one]
  | .narrowUnpack n d a _ _ => [.dst d .one n, .src a .one]
  | .xbPerm n d a _ => [.dst d .one n, .src a .one]
  | .xbPerm2 n d a b => [.both d .one n, .src a .one, .src b .one]
  | .xbShfl n d a b => [.dst d .one n, .src a .one, .src b .one]
  | .xbBcast n d a b => [.dst d .one n, .src a .one, .src b .one]
  | .xbRot n d a b => [.dst d .one n, .src a .one, .src b .one]
  | .xbTrn n d a _ => [.dst d .one n, .src a .one]
  | .ldg n d a _ sz _ => [.dst d (szWidth sz) n, .src a .pair]
  | .stg d a _ sz _ => [.src d (szWidth sz), .src a .pair]
  | .lds n d a sz _ => [.dst d (szWidth sz) n, .src a .one]
  | .sts d a sz _ => [.src d (szWidth sz), .src a .one]
  | .ldp n d a sz _ => [.dst d (szWidth sz) n, .src a .one]
  | .stp d a sz _ => [.src d (szWidth sz), .src a .one]
  | .atomgAdd n d a b => [.dst d .one n, .src a .pair, .src b .one]
  | .atomgMinI n d a b => [.dst d .one n, .src a .pair, .src b .one]
  | .atomgMaxI n d a b => [.dst d .one n, .src a .pair, .src b .one]
  | .atomgAnd n d a b => [.dst d .one n, .src a .pair, .src b .one]
  | .atomgOr n d a b => [.dst d .one n, .src a .pair, .src b .one]
  | .atomgXor n d a b => [.dst d .one n, .src a .pair, .src b .one]
  | .atomgXchg n d a b => [.dst d .one n, .src a .pair, .src b .one]
  | .atomgCas n d a b => [.both d .one n, .src a .pair, .src b .one]
  | .atomsAdd n d a b => [.dst d .one n, .src a .one, .src b .one]
  | .atomsMinI n d a b => [.dst d .one n, .src a .one, .src b .one]
  | .atomsMaxI n d a b => [.dst d .one n, .src a .one, .src b .one]
  | .atomsAnd n d a b => [.dst d .one n, .src a .one, .src b .one]
  | .atomsOr n d a b => [.dst d .one n, .src a .one, .src b .one]
  | .atomsXor n d a b => [.dst d .one n, .src a .one, .src b .one]
  | .atomsXchg n d a b => [.dst d .one n, .src a .one, .src b .one]
  | .atomsCas n d a b => [.both d .one n, .src a .one, .src b .one]
  | .redfFadd a b => [.src a .pair, .src b .one]
  | .redfFmin a b => [.src a .pair, .src b .one]
  | .redfFmax a b => [.src a .pair, .src b .one]
  | .redfHadd2 a b => [.src a .pair, .src b .one]
  | .redfAccred a b => [.src a .pair, .src b .one]
  | .redfAddI a b => [.src a .pair, .src b .one]
  | .phInit d a _ => [.dst d .one false, .src a .one]
  | .phArrive d _ => [.dst d .one false]
  | .phWait a _ => [.src a .one]
  | .phTest d a _ => [.dst d .one false, .src a .one]
  | .phEnd d _ => [.dst d .one false]
  | .phStat d _ => [.dst d .one false]
  | .phInval d _ => [.dst d .one false]
  | .cpIssue d a _ => [.dst d .one false, .src a .one]
  | .cpMcast d a _ => [.dst d .one false, .src a .one]
  | .cpCancel d a => [.dst d .one false, .src a .one]
  | .pref a _ => [.src a .pair]
  | .pin d a _ => [.dst d .one false, .src a .pair]
  | .unpin a _ => [.src a .pair]
  | .cwb d a _ => [.src d .one, .src a .pair]
  | .cinv d a => [.src d .one, .src a .pair]
  | .iinv d a => [.src d .one, .src a .pair]
  | .xbTload a _ => [.src a .one]
  | .shWin d a _ => [.dst d .pair false, .src a .pair]
  | .launch d a => [.both d .one false, .src a .pair]
  | .dgSignal d a => [.dst d .one false, .src a .pair]
  | .spmap d a => [.both d .one false, .src a .pair]
  | .spunmap d => [.both d .one false]
  | .spwb d => [.both d .one false]
  | .mxLoad a => [.src a .one]
  | .mxStream a => [.src a .one]
  | .mxAdapt a => [.src a .one]
  | .accArm d a => [.src d .one, .src a .one]
  | .accDrain a _ => [.src a .one]
  | .accClear d a => [.src d .one, .src a .one]
  | .accStat d a => [.dst d .one false, .src a .one]
  | .vwSet d a _ => [.dst d .one false, .src a .one]
  | .vwRefresh d _ => [.dst d .one false]
  | .vwGet d _ _ => [.dst d .one false]
  | .vwClear d _ => [.dst d .one false]
  | .gaWalk d a _ => [.dst d .one false, .src a .one]
  | .gaStat d a => [.dst d .one false, .src a .one]
  | .btBind d a _ => [.both d .one false, .src a .pair]
  | .btRetire d _ => [.dst d .one false]
  | .trap a _ => [.src a .one]
  | .movsys d a => [.dst d .pair false, .src a .one]
  | .movsysW d a => [.src d .pair, .src a .one]
  | .movtsysSlim a => [.src a .one]
  | .syscall d a _ => [.dst d .pair false, .src a .quad]
  | .waitev d a => [.dst d .one false, .src a .pair]
  | .tlbinv d a => [.src d .one, .src a .pair]
  | .halt d a => [.dst d .one false, .src a .one]
  | .haltRes d a => [.dst d .one false, .src a .one]
  | .proof d a => [.dst d .one false, .src a .pair]
  | .jmp _ _ _
  | .call _ _ _
  | .ret
  | .exit
  | .yield
  | .nop
  | .rjEnrol _
  | .rjWait _
  | .rjStrike _
  | .brk _
  | .fence _
  | .fetchb
  | .shJoin
  | .shLeave
  | .mxSwap
  | .mxWait
  | .eret
  | .movtsysRunclr
  | .qappAppend _ _
  | .queueEnable _ _
  | .queueDisable _ _
  | .systemRegisterWrite _ _
  | .takeLaunchSlot _ _
  | .ageingExpiry _
  | .clusterStart _ _
  | .hbmWindow
  | .runLimitKill _
  | .completionEntryWrite _
  | .graphSlotTake _ _
  | .nodeFinish _ _
  | .dgevRequest _ _
  | .loadDataReturn _
  | .storeQueueLeave _
  | .arrivalCounted _
  | .streamerBeat _ _
  | .copyComplete _
  | .matrixEntryStart _
  | .matrixEntryComplete _
  | .mainRowIssue _
  | .governorWindow _ _
  | .accContribution _
  | .adapterSliceArrival _ _
  | .accLineEvict _
  | .numericWindowClose _ _ _
  | .afterIssueFaultDelivery _
  | .killComplete _
  | .teamRetire _
  | .eviction _
  | .teamResume _ _
  | .evictreqWrite _
  | .replayAnswer _ _
  | .moveRehome _
  | .moveToPool
  | .moveFromPool
  | .repack _ _
  | .agentDeadScrub _
  | .softError _ _
  | .proofRunComplete _ _
  | .versionFreed _ _ _
  | .syscallAnswered _
  | .waitevWake _
  | .sendEvent _ _
  | .rdmaWrite _ _ _
  | .rdmaRead _ _ _
  | .rdmaAtomic _
  | .resetEvent _
  | .quote _
  | .thermalThreshold _
  | .criticalTemperature
  | .illegalInstruction _
  | .systemCoreAccess _ _
  | .hostAccess _
  | .peerAccess _ _
  | .peerLinkLoss _
  | .cacheLineEviction _ _
  | .contextValidClear _
  | .staleIncarnation _ _ _ => []

/-- The pipe of an instruction (R83). An event takes none and stands here with the K pipe, which writes no latch. -/
def pipeOf : Instr → Pipe
  | .add _ _ _ _
  | .sub _ _ _ _
  | .mul _ _ _ _
  | .mulhiI _ _ _ _
  | .mulhiN _ _ _ _
  | .mad _ _ _ _
  | .minI _ _ _ _
  | .maxI _ _ _ _
  | .minN _ _ _ _
  | .maxN _ _ _ _
  | .absInt _ _ _
  | .addsatI _ _ _ _
  | .subsatI _ _ _ _
  | .clz _ _ _
  | .popc _ _ _
  | .brev _ _ _
  | .andW _ _ _ _
  | .orW _ _ _ _
  | .xorW _ _ _ _
  | .andn _ _ _ _
  | .orn _ _ _ _
  | .xnor _ _ _ _
  | .sel _ _ _ _
  | .mov _ _ _
  | .shl _ _ _ _
  | .shr _ _ _ _
  | .sar _ _ _ _
  | .rol _ _ _ _
  | .shl64 _ _ _ _
  | .shr64 _ _ _ _
  | .bfx _ _ _ _
  | .bfi _ _ _ _
  | .cmpEq _ _ _ _
  | .cmpNe _ _ _ _
  | .ltI _ _ _ _
  | .leI _ _ _ _
  | .ltN _ _ _ _
  | .leN _ _ _ _
  | .tst _ _ _ _
  | .movs _ _
  | .add64 _ _ _ _
  | .sub64 _ _ _ _
  | .addxI _ _ _ _
  | .addxN _ _ _ _
  | .cmplt64 _ _ _ _
  | .cmpeq64 _ _ _ _
  | .mov64 _ _ _
  | .addi _ _ _ _
  | .andi _ _ _ _
  | .ori _ _ _ _
  | .xori _ _ _ _
  | .shli _ _ _ _
  | .shri _ _ _ _
  | .sari _ _ _ _
  | .roli _ _ _ _
  | .cmpiEq _ _ _ _
  | .cmpiNe _ _ _ _
  | .cmpiLtI _ _ _ _
  | .cmpiLeI _ _ _ _
  | .cmpiLtN _ _ _ _
  | .cmpiLeN _ _ _ _
  | .cmpiGtI _ _ _ _
  | .cmpiGeI _ _ _ _
  | .movi _ _
  | .movhi _ _ => .i
  | .fadd _ _ _ _
  | .fsub _ _ _ _
  | .fmul _ _ _ _
  | .ffma _ _ _ _
  | .ffms _ _ _ _
  | .fmin _ _ _ _
  | .fmax _ _ _ _
  | .fcpsgn _ _ _ _
  | .feq _ _ _ _
  | .flt _ _ _ _
  | .fle _ _ _ _
  | .funord _ _ _ _
  | .fclass _ _ _
  | .fabs _ _ _
  | .fneg _ _ _
  | .hadd2 _ _ _ _
  | .hsub2 _ _ _ _
  | .hmul2 _ _ _ _
  | .hfma2 _ _ _ _
  | .hmin2 _ _ _ _
  | .hmax2 _ _ _ _
  | .hdot2 _ _ _ _
  | .cvtF2i _ _ _ _
  | .cvtF2n _ _ _ _
  | .cvtI2f _ _ _ _
  | .cvtN2f _ _ _ _
  | .cvtF2bf _ _ _ _
  | .cvtBf2f _ _ _
  | .cvtF2h _ _ _ _
  | .cvtH2f _ _ _
  | .cvtFrnd _ _ _ _
  | .cvtEnc _ _ _ _ _
  | .cvtDec _ _ _ _ _
  | .narrowPack _ _ _ _ _
  | .narrowUnpack _ _ _ _ _ => .f
  | .voteAny _ _ _
  | .voteAll _ _ _
  | .voteBal _ _ _
  | .matchLanes _ _ _
  | .actmask _ _
  | .frcp _ _ _
  | .frsq _ _ _
  | .fsqrt _ _ _
  | .fexp2 _ _ _
  | .flog2 _ _ _
  | .ftanh _ _ _
  | .fsin _ _ _
  | .fcos _ _ _
  | .xbPerm _ _ _ _
  | .xbPerm2 _ _ _ _
  | .xbShfl _ _ _ _
  | .xbBcast _ _ _ _
  | .xbRot _ _ _ _
  | .xbTrn _ _ _ _ => .x
  | .ldg _ _ _ _ _ _
  | .stg _ _ _ _ _
  | .lds _ _ _ _ _
  | .sts _ _ _ _
  | .ldp _ _ _ _ _
  | .stp _ _ _ _
  | .atomgAdd _ _ _ _
  | .atomgMinI _ _ _ _
  | .atomgMaxI _ _ _ _
  | .atomgAnd _ _ _ _
  | .atomgOr _ _ _ _
  | .atomgXor _ _ _ _
  | .atomgXchg _ _ _ _
  | .atomgCas _ _ _ _
  | .atomsAdd _ _ _ _
  | .atomsMinI _ _ _ _
  | .atomsMaxI _ _ _ _
  | .atomsAnd _ _ _ _
  | .atomsOr _ _ _ _
  | .atomsXor _ _ _ _
  | .atomsXchg _ _ _ _
  | .atomsCas _ _ _ _
  | .redfFadd _ _
  | .redfFmin _ _
  | .redfFmax _ _
  | .redfHadd2 _ _
  | .redfAccred _ _
  | .redfAddI _ _
  | .fence _
  | .phInit _ _ _
  | .phArrive _ _
  | .phWait _ _
  | .phTest _ _ _
  | .phEnd _ _
  | .phStat _ _
  | .phInval _ _
  | .cpIssue _ _ _
  | .cpMcast _ _ _
  | .cpCancel _ _
  | .pref _ _
  | .pin _ _ _
  | .unpin _ _
  | .cwb _ _ _
  | .cinv _ _
  | .iinv _ _
  | .fetchb
  | .xbTload _ _
  | .shJoin
  | .shLeave
  | .shWin _ _ _
  | .launch _ _
  | .dgSignal _ _
  | .spmap _ _
  | .spunmap _
  | .spwb _
  | .mxLoad _
  | .mxSwap
  | .mxStream _
  | .mxAdapt _
  | .mxWait
  | .accArm _ _
  | .accDrain _ _
  | .accClear _ _
  | .accStat _ _
  | .vwSet _ _ _
  | .vwRefresh _ _
  | .vwGet _ _ _
  | .vwClear _ _
  | .gaWalk _ _ _
  | .gaStat _ _
  | .btBind _ _ _
  | .btRetire _ _ => .m
  | .bnz _ _ _ _
  | .bz _ _ _ _
  | .jmp _ _ _
  | .call _ _ _
  | .jmpi _
  | .calli _
  | .ret
  | .exit
  | .yield
  | .nop
  | .rjEnrol _
  | .rjWait _
  | .rjStrike _
  | .rjQuery _ _
  | .spadd _ _
  | .spget _
  | .spset _
  | .brk _
  | .trap _ _
  | .eret
  | .movsys _ _
  | .movsysW _ _
  | .movtsysSlim _
  | .movtsysRunclr
  | .syscall _ _ _
  | .waitev _ _
  | .tlbinv _ _
  | .halt _ _
  | .haltRes _ _
  | .proof _ _
  | .qappAppend _ _
  | .queueEnable _ _
  | .queueDisable _ _
  | .systemRegisterWrite _ _
  | .takeLaunchSlot _ _
  | .ageingExpiry _
  | .clusterStart _ _
  | .hbmWindow
  | .runLimitKill _
  | .completionEntryWrite _
  | .graphSlotTake _ _
  | .nodeFinish _ _
  | .dgevRequest _ _
  | .loadDataReturn _
  | .storeQueueLeave _
  | .arrivalCounted _
  | .streamerBeat _ _
  | .copyComplete _
  | .matrixEntryStart _
  | .matrixEntryComplete _
  | .mainRowIssue _
  | .governorWindow _ _
  | .accContribution _
  | .adapterSliceArrival _ _
  | .accLineEvict _
  | .numericWindowClose _ _ _
  | .afterIssueFaultDelivery _
  | .killComplete _
  | .teamRetire _
  | .eviction _
  | .teamResume _ _
  | .evictreqWrite _
  | .replayAnswer _ _
  | .moveRehome _
  | .moveToPool
  | .moveFromPool
  | .repack _ _
  | .agentDeadScrub _
  | .softError _ _
  | .proofRunComplete _ _
  | .versionFreed _ _ _
  | .syscallAnswered _
  | .waitevWake _
  | .sendEvent _ _
  | .rdmaWrite _ _ _
  | .rdmaRead _ _ _
  | .rdmaAtomic _
  | .resetEvent _
  | .quote _
  | .thermalThreshold _
  | .criticalTemperature
  | .illegalInstruction _
  | .systemCoreAccess _ _
  | .hostAccess _
  | .peerAccess _ _
  | .peerLinkLoss _
  | .cacheLineEviction _ _
  | .contextValidClear _
  | .staleIncarnation _ _ _ => .k

/-- The may-block class, by encoding alone (R108). -/
def mayBlock : Instr → Bool
  | .ldg _ _ _ _ _ _ => true
  | .ldp _ _ _ _ _ => true
  | .atomgAdd _ _ _ _ => true
  | .atomgMinI _ _ _ _ => true
  | .atomgMaxI _ _ _ _ => true
  | .atomgAnd _ _ _ _ => true
  | .atomgOr _ _ _ _ => true
  | .atomgXor _ _ _ _ => true
  | .atomgXchg _ _ _ _ => true
  | .atomgCas _ _ _ _ => true
  | .atomsAdd _ _ _ _ => true
  | .atomsMinI _ _ _ _ => true
  | .atomsMaxI _ _ _ _ => true
  | .atomsAnd _ _ _ _ => true
  | .atomsOr _ _ _ _ => true
  | .atomsXor _ _ _ _ => true
  | .atomsXchg _ _ _ _ => true
  | .atomsCas _ _ _ _ => true
  | .phWait _ _ => true
  | .cpIssue _ _ _ => true
  | .cpMcast _ _ _ => true
  | .gaWalk _ _ _ => true
  | .waitev _ _ => true
  | .syscall _ _ _ => true
  | .yield => true
  | _ => false

/-- Whether a code is legal for an operand of a vector thread with `regs` declared registers (R37, R88, R89). -/
def legalVector (regs : Nat) (o : Opnd) : Bool :=
  let c := o.code.toNat
  let w := o.width.count
  if c < 120 then c % w = 0 && decide (c + w ≤ regs)
  else if c < 124 then !o.writes && w = 1
  else c = 124

/-- Whether a code is legal on the burin core with `regs` declared registers (R37, R335). -/
def legalBurin (regs : Nat) (o : Opnd) : Bool :=
  let c := o.code.toNat
  (decide (c < 32) && decide (c < regs)) || c = 124

/-- Whether every operand of an instruction is legal for a thread (step 4 of R86). -/
def legalOperands (s : State) (tid : Nat) (i : Instr) : Bool :=
  let k := (s.team (teamOf tid)).kern
  if isBurin tid then (operands i).all (legalBurin k.bregs) else (operands i).all (legalVector k.regs)

/-- Whether every latch that an instruction reads is valid in a thread (R113). -/
def latchesValid (t : Thread) (i : Instr) : Bool :=
  (operands i).all (fun o => !(o.reads && decide (120 ≤ o.code.toNat) && decide (o.code.toNat < 124)) ||
    (mfind t.latch (o.code.toNat - 120)).isSome)

/-- The register numbers that an operand covers; latches and code 124 cover none. -/
def Opnd.covers (o : Opnd) : List Nat :=
  if o.code.toNat < 120 then (List.range o.width.count).map (· + o.code.toNat) else []

/-- The registers that an instruction writes with write-back enabled (R84). -/
def writtenRegs (i : Instr) : List Nat := ((operands i).filter Opnd.kept).flatMap Opnd.covers

/-- The registers and latches of some operands; latch k stands as 200 + k. -/
def namedRegs (os : List Opnd) : List Nat :=
  os.flatMap (fun o => o.covers ++ (if 120 ≤ o.code.toNat ∧ o.code.toNat < 124 then [80 + o.code.toNat] else []))

/-- The registers and latches that an instruction reads or writes (R102), and those that it reads (R108). -/
def touched (i : Instr) : List Nat := namedRegs (operands i)
def readRegs (i : Instr) : List Nat := namedRegs ((operands i).filter Opnd.reads)

end Sys2Proof.Machine
end

