-- ==== Sys2Proof/Machine/Flags.lean ====
section
/-! DEFINITION. Every flag computation the manual gives: the condition results of compares and votes, the flags word of a fault record (R222,
R449), and the counts of numeric events with the actions they fire (R175 to R180). The device has no flag register. -/

namespace Sys2Proof.Machine

/-- A condition as a result: 1 or 0 (R132). -/
def flagWord {w : Nat} (c : Bool) : BitVec w := BitVec.ofNat w (b1 c)

/-! ### The flags word of a fault (R222) -/

/-- Address spaces of a fault record. -/
inductive MemSpace where
  | global | scratch | priv | fetch
  deriving DecidableEq, Repr

def MemSpace.code : MemSpace → Nat
  | .global => 0
  | .scratch => 1
  | .priv => 2
  | .fetch => 3

/-- Flags of a failing access: size, space, engine, burin, atomic, write, window, far, after issue. -/
def mkFlags (size : Nat) (sp : MemSpace) (engine burin atomic write win far after : Bool) : Word :=
  wd (log2Size size * 512 + sp.code * 128 + b1 engine * 64 + b1 burin * 32 + b1 atomic * 16 + b1 write * 8 +
    b1 win * 4 + b1 far * 2 + b1 after)

/-! ### After-issue faults (R401) -/

/-- A fault detected after issue waits for the thread's next boundary, behind those detected before it. -/
def pendFault (s : State) (tid : Nat) (f : TrapInfo) : State :=
  { s with threads := mmod s.threads tid (fun t => { t with faults := t.faults ++ [f] }) }

/-- One fault for each of several threads, each with its handler run. -/
def pendFaults (s : State) (f : TrapInfo) : List (Nat × Nat) → State
  | [] => s
  | p :: ps => pendFaults (pendFault s p.1 { f with trapNo := p.2 }) f ps

/-- The handler run a thread is in, 0 outside one. -/
def State.runOf (s : State) (tid : Nat) : Nat := let t := s.thread tid; if t.trapping.isSome then t.trapNo else 0

/-! ### Windows and actions (R177 to R180) -/

def nevctl (s : State) (ctx c : Nat) : Nat := (s.sysReg (0x4000 + 16 * ctx + c)).toNat
/-- The key of a window: vector classes at 0 to 3, matrix classes at 4 to 7. -/
def winKey (matrix : Bool) (c : Nat) : Nat := if matrix then 4 + c else c

/-- The system cores are told of an event count above its threshold: the record names context, team, class and window (R180, R418). The layout gives
the class its place, bits [1:0] of the address field, and the window none: it stands in bit 2 (DESIGN CHOICE, log 49). -/
def numericIrq (s : State) (uid : Nat) (matrix : Bool) (c : Nat) : State :=
  let t := s.team uid
  let s1 := logError s 8 ⟨1, t.coreId⟩ (c + 4 * b1 matrix) (some t.ctx) t.teamIx
  { s1 with irqs := s1.irqs ++ [.numeric t.ctx c matrix] }

/-- The action of a class fires: a trap of the threads whose word raised the events, of the burin core, or an interrupt. -/
def fireAction (s : State) (uid : Nat) (matrix : Bool) (c : Nat) (tids : List (Nat × Nat)) (word : Word) : State :=
  let ctl := nevctl s (s.team uid).ctx c
  let b := burinOf uid
  match bits ctl 57 56 with
  | 1 =>
    if !matrix then pendFaults s { cause := 0x20, addr := 0, word := word, flags := 1 } tids
    else if (s.team uid).kern.burin ≠ 0 ∧ (s.thread b).cond ≠ .exited then
      pendFault s b { cause := 0x20, addr := 0, word := word, flags := 0x21 }
    else numericIrq s uid matrix c
  | 2 => numericIrq s uid matrix c
  | _ => s

/-- `n` events of class `c` of one word, row, contribution or drain, counted in a window together; above the threshold the action fires
once and the count returns to zero (R180). -/
def countEvents (s : State) (uid : Nat) (matrix : Bool) (c n : Nat) (tids : List (Nat × Nat)) (word : Word) : State :=
  if n = 0 then s
  else
    let t := s.team uid
    let w := mget (0, 0) t.windows (winKey matrix c)
    let e := min (2 ^ 32 - 1) (w.1 + n)
    let fire := decide (bits (nevctl s t.ctx c) 31 0 < e)
    let s1 := s.modTeam uid (fun t => { t with windows := mset (0, 0) t.windows (winKey matrix c) (if fire then 0 else e, w.2) })
    if fire then fireAction s1 uid matrix c tids word else s1

/-- Routed events go to the context's cumulative count alone (R179). -/
def sumEvents (s : State) (uid c n : Nat) : State :=
  let r := 0x4000 + 16 * (s.team uid).ctx + 4 + c
  if n = 0 then s else s.setSys r (s.sysReg r + dw n)

/-- How often a class stands in a list of events. -/
def classCount (c : Nat) : List Nat → Nat
  | [] => 0
  | e :: es => (if e = c then 1 else 0) + classCount c es

/-- Whether a slot word routes a class. -/
def routes (slot : Option Word) (c : Nat) : Bool := (slot.map (fun w => slotRouted w c)).getD false

/-- The events of one vector word, by thread and handler run: routed by a slot word when one is named, else those of a class counted together
in the team's vector window (R177, R180, R183). DESIGN CHOICE, log 98: where one word takes several classes above their thresholds, their actions fire in
ascending order of class. -/
def raiseEvents (s : State) (uid : Nat) (slot : Option Word) (evs : List ((Nat × Nat) × List Nat)) (word : Word) : State :=
  eachLane (fun s c =>
    let n := (evs.map (fun p => classCount c p.2)).sum
    if routes slot c then sumEvents s uid c n
    else countEvents s uid false c n ((evs.filter (fun p => decide (classCount c p.2 ≠ 0))).map Prod.fst) word) s [0, 1, 2, 3]

/-- Events of a row, a contribution or a drain in element order, each counted for itself in the team's matrix window (R177, R180). -/
def raiseMatrix (slot : Option Word) (uid : Nat) (word : Word) : State → List Nat → State
  | s, [] => s
  | s, c :: cs => raiseMatrix slot uid word (if routes slot c then sumEvents s uid c 1 else countEvents s uid true c 1 [] word) cs

/-- The window length of a class in a context. -/
def windowLength (s : State) (ctx c : Nat) : Nat := bits (nevctl s ctx c) 55 32

/-- `n` units executed count in every class's window of a team; one that the count has brought to the class's window length is full (R177): the
length is compared when a unit is counted, not when it is written (R178). DESIGN CHOICE, log 69: units that a word of many lanes counts past the window's
length belong to the window that it fills, and none opens the next one. DESIGN CHOICE, log 97: a unit count has no width of its own and neither wraps nor
saturates while the window length is 0. -/
def countUnits (s : State) (uid : Nat) (matrix : Bool) (n : Nat) : State :=
  if n = 0 then s
  else s.modTeam uid (fun t =>
    let units (c : Nat) : Nat := (mget (0, 0) t.windows (winKey matrix c)).2 + n
    { t with
      windows := [0, 1, 2, 3].foldl (fun m c => mset (0, 0) m (winKey matrix c) ((mget (0, 0) m (winKey matrix c)).1, units c)) t.windows
      winFull := [0, 1, 2, 3].foldl (fun l c =>
        if windowLength s t.ctx c ≠ 0 ∧ windowLength s t.ctx c ≤ units c then sadd l (winKey matrix c) else l) t.winFull })

/-- Whether a unit counted has filled a window of a team (R177). -/
def windowFull (s : State) (uid : Nat) (matrix : Bool) (c : Nat) : Bool := (s.team uid).winFull.contains (winKey matrix c)

/-- A full window's two counts return to zero. -/
def closeWindow (s : State) (uid : Nat) (matrix : Bool) (c : Nat) : State :=
  if windowFull s uid matrix c then
    s.modTeam uid (fun t => { t with windows := mdel t.windows (winKey matrix c), winFull := sdel t.winFull (winKey matrix c) })
  else s

end Sys2Proof.Machine
end

