-- ==== Sys2Proof/Machine/Acc.lean ====
section
/-! DEFINITION. Accumulator lines: their state at the home slice and in memory, contributions, the word that ACC.STAT reads (R170 to R174,
R327 to R332). -/

namespace Sys2Proof.Machine

/-- The 72-bit body of exact element j, from the line's bytes and the guard byte (R328). -/
def bodyFrom (lo guard : Nat) : BitVec 72 := BitVec.ofNat 72 (lo + guard * 2 ^ 64)

/-- A table of `n` values read by index, defaults left out. -/
def tableOf {β : Type} [DecidableEq β] (dflt : β) (f : Nat → β) : Nat → SMap β
  | 0 => []
  | n + 1 => mset dflt (tableOf dflt f n) n (f n)

/-- A line as its page and its metadata record hold it (R328). -/
def accLoad (s : State) (pa record : Nat) : AccLine :=
  let rd (off n : Nat) : Nat := readNat s (.phys (record + off)) n
  let fl := rd 21 1
  let float := fl.testBit 1
  { armed := fl.testBit 0, float := float, q := BitVec.ofNat 8 (rd 20 1), overfull := fl.testBit 2,
    poisoned := fl.testBit 3 || poisoned s (.phys pa) 128 || poisoned s (.phys record) 32,
    count := rd 22 2, clamps := rd 24 2,
    body := if float then [] else tableOf 0 (fun j => bodyFrom (readNat s (.phys (pa + 8 * j)) 8) (rd j 1)) 16,
    special := if float then [] else tableOf 0 (fun j => BitVec.ofNat 2 (rd 16 4 / 4 ^ j)) 16,
    elems := if float then tableOf 0 (fun j => wd (readNat s (.phys (pa + 4 * j)) 4)) 32 else [],
    record := record }

/-- A line's state at its home slice, fetched back when it is not resident (R332). -/
def accLine (s : State) (pa record : Nat) : AccLine := (mfind s.acc (pa / 128)).getD (accLoad s pa record)
def setAcc (s : State) (pa : Nat) (l : AccLine) : State := { s with acc := mput s.acc (pa / 128) l }

/-- The bytes of the line in its page, in native form. -/
def accBody (l : AccLine) : List Byte :=
  if l.float then (List.range 32).flatMap (fun j => leBytes 4 (mget 0 l.elems j).toNat)
  else (List.range 16).flatMap (fun j => leBytes 8 (mget 0 l.body j).toNat)
/-- The bytes of the line's metadata record (R328). -/
def accRecord (l : AccLine) : List Byte :=
  (List.range 16).flatMap (fun j => leBytes 1 (if l.float then 0 else (mget 0 l.body j).toNat / 2 ^ 64)) ++
  leBytes 4 (if l.float then 0 else (List.range 16).foldl (fun a j => a + (mget 0 l.special j).toNat * 4 ^ j) 0) ++
  leBytes 1 l.q.toNat ++ leBytes 1 (b1 l.armed + 2 * b1 l.float + 4 * b1 l.overfull + 8 * b1 l.poisoned) ++
  leBytes 2 l.count ++ leBytes 2 l.clamps ++ leBytes 6 0

/-- Stands for the address of a record that does not translate: no physical address reaches it (R198). -/
def noRecord : Nat := 2 ^ 57

/-- A resident line written to its page and record and dropped (R332). -/
def accEvict (s : State) (line : Nat) : State :=
  match mfind s.acc line with
  | none => s
  | some l =>
    let s0 := writeOut s (.phys (line * 128)) (accBody l)
    let s1 := if l.record < noRecord then writeOut s0 (.phys l.record) (accRecord l) else s0
    { s1 with acc := mdel s1.acc line }

/-- The line state word of ACC.STAT (R329). -/
def accStatus (l : AccLine) : DWord :=
  dw (b1 l.poisoned * 2 ^ 43 + b1 l.overfull * 2 ^ 42 + b1 l.float * 2 ^ 41 + b1 l.armed * 2 ^ 40 +
    l.q.toNat * 2 ^ 32 + l.clamps * 65536 + l.count)

/-- The zero state of a line, armed or not (R329). -/
def accZero (armed float : Bool) (q : BitVec 8) (record : Nat) : AccLine :=
  { armed := armed, float := float, q := q, record := record }

/-- One value for one exact element (R172) with its events: a clamp, or the NaN of infinities that meet, an invalid operation of either kind of
line (R167). -/
def exactAdd (l : AccLine) (j : Nat) (c : Word) : AccLine × List Nat :=
  let sp := mget 0 l.special j
  match inF32 c with
  | .nan => ({ l with special := mset 0 l.special j 3 }, [])
  | .inf false => ({ l with special := mset 0 l.special j (if sp = 2 then 3 else if sp = 0 then 1 else sp) }, if sp = 2 then [1] else [])
  | .inf true => ({ l with special := mset 0 l.special j (if sp = 1 then 3 else if sp = 3 then 3 else 2) }, if sp = 1 then [1] else [])
  | .fin neg m e =>
    let n := roundInt .rne neg m (e - l.q.toInt)
    let big : Int := 2 ^ 54 - 1
    let clamp := decide (big < n.natAbs)
    let v := if clamp then (if neg then -big else big) else n
    ({ l with
        clamps := if clamp then min 65535 (l.clamps + 1) else l.clamps
        body := mset 0 l.body j (BitVec.ofInt 72 ((mget 0 l.body j).toInt + v)) }, if clamp then [3] else [])

def exactAdds : AccLine → List (Nat × Word) → AccLine × List Nat
  | l, [] => (l, [])
  | l, (j, c) :: cs =>
    let r := exactAdd l j c
    let t := exactAdds r.1 cs
    (t.1, r.2 ++ t.2)

/-- ContributeExact of R172 with its events. -/
def contributeExact (l : AccLine) (cs : List (Nat × Word)) : AccLine × List Nat :=
  if l.count = 65535 then ({ l with overfull := true }, []) else exactAdds { l with count := l.count + 1 } cs

/-- One value added to one float element with its events: a contribution that turns a finite element infinite saturates, be it infinite itself
(R173). -/
def floatAdd (l : AccLine) (j : Nat) (c : Word) : AccLine × List Nat :=
  let e := inF32 (mget 0 l.elems j)
  let a := e.add (inF32 c)
  let o := outVal .f32 .rne a.1
  let sat : Bool := match e, inF32 c with
    | .fin _ _ _, .inf _ => true
    | _, _ => false
  ({ l with elems := mset 0 l.elems j (wd o.1) }, a.2 ++ o.2 ++ (if sat then [0] else []))

def floatAdds : AccLine → List (Nat × Word) → AccLine × List Nat
  | l, [] => (l, [])
  | l, (j, c) :: cs =>
    let r := floatAdd l j c
    let t := floatAdds r.1 cs
    (t.1, r.2 ++ t.2)

/-- A contribution to a float line; count and overfull follow R172. -/
def contributeFloat (l : AccLine) (cs : List (Nat × Word)) : AccLine × List Nat :=
  if l.count = 65535 then ({ l with overfull := true }, []) else floatAdds { l with count := l.count + 1 } cs

/-- Data numbered from an index on. -/
def numbered : Nat → List Word → List (Nat × Word)
  | _, [] => []
  | n, w :: ws => (n, w) :: numbered (n + 1) ws

/-- A report of cause 0x14 to the thread whose event the contribution is: the burin core, or the thread of an ACCRED (R282, R322). -/
def accReport (s : State) (c : Contribution) (addr : DWord) : State :=
  pendFault s c.tid
    { cause := 0x14, addr := addr, word := c.word, trapNo := c.trapNo,
      flags := if isBurin c.tid then mkFlags 0 .global true true false true false false true
        else mkFlags 4 .global false false true true false false true }

/-- Values given to an armed line of a kind, with the events in the team's matrix window; a poisoned line discards them (R332). -/
def accGive (s : State) (c : Contribution) (pa : Nat) (l : AccLine) (cs : List (Nat × Word)) : State :=
  if l.poisoned then setAcc s pa l
  else
    let r := if l.float then contributeFloat l cs else contributeExact l cs
    raiseMatrix none c.team c.word (setAcc s pa r.1) r.2

/-- A line that takes no values: a poisoned one discards them, an unarmed one has them reported. -/
def accRefuse (s : State) (c : Contribution) (l : AccLine) (addr : DWord) : State := if l.poisoned then s else accReport s c addr

/-- What is left of an exact row once its first line has taken its half: one event for each line (R243). -/
def secondHalf (c : Contribution) : Option Contribution :=
  match c.next with
  | some (pa2, rec2) => some { c with pa := pa2, record := rec2, addr := c.addr + 128, next := none, data := c.data.drop 16, second := true }
  | none => none

/-- A contribution reaches its line, one event (R172, R173, R243, R282, R322): the state, and what is left for a second line. -/
def accApply (s : State) (c : Contribution) : State × Option Contribution :=
  let l := accLine s c.pa c.record
  let s1 := setAcc s c.pa l
  if !l.armed then (accRefuse s1 c l c.addr, none)
  else if c.second then (if l.float then accRefuse s1 c l c.addr else accGive s1 c c.pa l (numbered 0 c.data), none)
  else if c.next.isNone then
    -- one ACCRED
    (accGive s1 c c.pa l (c.data.map (fun w => (if l.float then c.offset / 4 else c.offset / 8, w))), none)
  else if l.float then (accGive s1 c c.pa l (numbered 0 c.data), none)
  else (accGive s1 c c.pa l (numbered 0 (c.data.take 16)), secondHalf c)

end Sys2Proof.Machine
end

