-- ==== Sys2Proof/Machine/Float.lean ====
section
/-! DEFINITION. The arithmetic of the float, bf16-pair and conversion words on patterns (R183 to R191): each gives a result
and the classes of the events it raises. -/

namespace Sys2Proof.Machine

/-- A result pattern and its events. -/
abbrev FRes := Word × List Nat

/-- Out of R183 as a word, after the events that formed the value. -/
def outRes (f : Fmt) (mode : Mode) (v : Val × List Nat) : FRes :=
  let o := outVal f mode v.1
  (wd o.1, v.2 ++ o.2)

/-- A value of a bf16 half. -/
def inBf (x : BitVec 16) : Val := floatValue .bf16 x.toNat
def lowHalf (x : Word) : BitVec 16 := x.extractLsb' 0 16
def highHalf (x : Word) : BitVec 16 := x.extractLsb' 16 16

/-- FARITH (R184). -/
def faddOp (a b : Word) : FRes := outRes .f32 .rne ((inF32 a).add (inF32 b))
def fsubOp (a b : Word) : FRes := outRes .f32 .rne ((inF32 a).add (inF32 b).neg)
def fmulOp (a b : Word) : FRes := outRes .f32 .rne ((inF32 a).mul (inF32 b))
def ffmaOp (d a b : Word) : FRes := outRes .f32 .rne (Val.fma (inF32 d) (inF32 a) (inF32 b))
def ffmsOp (d a b : Word) : FRes := outRes .f32 .rne (Val.fma (inF32 d) (inF32 a).neg (inF32 b))

/-- Order with -0 below +0. -/
def Val.below (a b : Val) : Bool := a.lt b || (a.eq b && a.sign && !b.sign)

/-- The lesser or the greater of two patterns of one format, NaN if either is (R184, R188). -/
def minPat {w : Nat} (f : Fmt) (a b : BitVec w) : BitVec w :=
  let x := floatValue f a.toNat
  let y := floatValue f b.toNat
  if x.isNan || y.isNan then BitVec.ofNat w (floatPattern f .nan) else if y.below x then b else a
def maxPat {w : Nat} (f : Fmt) (a b : BitVec w) : BitVec w :=
  let x := floatValue f a.toNat
  let y := floatValue f b.toNat
  if x.isNan || y.isNan then BitVec.ofNat w (floatPattern f .nan) else if x.below y then b else a
def fminOp (a b : Word) : FRes := (minPat .f32 a b, [])
def fmaxOp (a b : Word) : FRes := (maxPat .f32 a b, [])
def fcpsgnOp (a b : Word) : FRes := ((a &&& 0x7FFFFFFF) ||| (b &&& 0x80000000), [])

/-- FCMP (R185). -/
def feqOp (a b : Word) : FRes := (wd (b1 ((inF32 a).eq (inF32 b))), [])
def fltOp (a b : Word) : FRes := (wd (b1 ((inF32 a).lt (inF32 b))), [])
def fleOp (a b : Word) : FRes := (wd (b1 ((inF32 a).lt (inF32 b) || (inF32 a).eq (inF32 b))), [])
def funordOp (a b : Word) : FRes := (wd (b1 ((inF32 a).isNan || (inF32 b).isNan)), [])

/-- The class of a pattern (R186). -/
def classOf (x : Word) : Nat :=
  let neg := x.getLsbD 31
  let e := bits x.toNat 30 23
  let m := bits x.toNat 22 0
  if e = 255 then (if m = 0 then (if neg then 0 else 7) else if x.getLsbD 22 then 9 else 8)
  else if e = 0 then (if m = 0 then (if neg then 3 else 4) else if neg then 2 else 5)
  else if neg then 1 else 6
def fclassOp (a : Word) : FRes := (wd (2 ^ classOf a), [])
def fabsOp (a : Word) : FRes := (a &&& 0x7FFFFFFF, [])
def fnegOp (a : Word) : FRes := (a ^^^ 0x80000000, [])

/-- FSPEC (R187). -/
def fspecOp (fn : Nat) (a : Word) : FRes := let r := special fn a; (wd r.1, r.2)

/-- HPAIR (R188): a result per half, joined. -/
def halves (f : BitVec 16 → BitVec 16 → BitVec 16 → Val × List Nat) (d a b : Word) : FRes :=
  let lo := outRes .bf16 .rne (f (lowHalf d) (lowHalf a) (lowHalf b))
  let hi := outRes .bf16 .rne (f (highHalf d) (highHalf a) (highHalf b))
  (hi.1.extractLsb' 0 16 ++ lo.1.extractLsb' 0 16, lo.2 ++ hi.2)
def hadd2Op (a b : Word) : FRes := halves (fun _ x y => (inBf x).add (inBf y)) 0 a b
def hsub2Op (a b : Word) : FRes := halves (fun _ x y => (inBf x).add (inBf y).neg) 0 a b
def hmul2Op (a b : Word) : FRes := halves (fun _ x y => (inBf x).mul (inBf y)) 0 a b
def hfma2Op (d a b : Word) : FRes := halves (fun z x y => Val.fma (inBf z) (inBf x) (inBf y)) d a b
def hmin2Op (a b : Word) : FRes :=
  (minPat .bf16 (highHalf a) (highHalf b) ++ minPat .bf16 (lowHalf a) (lowHalf b), [])
def hmax2Op (a b : Word) : FRes :=
  (maxPat .bf16 (highHalf a) (highHalf b) ++ maxPat .bf16 (lowHalf a) (lowHalf b), [])

/-- The exact sum of three values: any infinities of both signs make it invalid. -/
def sumThree (x y z : Val) : Val × List Nat :=
  let all := [x, y, z]
  if all.contains (.inf true) && all.contains (.inf false) then (.nan, [1])
  else ((((x.add y).1).add z).1, [])
/-- HDOT2: one rounding of an exact sum. -/
def hdot2Op (d a b : Word) : FRes :=
  let v := inF32 d
  let xs := [inBf (lowHalf a), inBf (lowHalf b), inBf (highHalf a), inBf (highHalf b)]
  if v.isNan || xs.any Val.isNan then outRes .f32 .rne (.nan, [])
  else
    let p := ((inBf (lowHalf a)).mul (inBf (lowHalf b))).1
    let q := ((inBf (highHalf a)).mul (inBf (highHalf b))).1
    if p.isNan || q.isNan then outRes .f32 .rne (.nan, [1]) else outRes .f32 .rne (sumThree v p q)

/-- F2I and F2N (R190): clamped to [lo, hi]. -/
def toIntOp (lo hi : Int) (mode : Mode) (a : Word) : FRes :=
  match inF32 a with
  | .nan => (0, [0])
  | .inf neg => (BitVec.ofInt 32 (if neg then lo else hi), [0])
  | .fin neg m e =>
    let n := roundInt mode neg m e
    let x := max lo (min hi n)
    (BitVec.ofInt 32 x, if x ≠ n then [0] else [])
def cvtF2iOp (mode : Mode) (a : Word) : FRes := toIntOp (-(2 ^ 31)) (2 ^ 31 - 1) mode a
def cvtF2nOp (mode : Mode) (a : Word) : FRes := toIntOp 0 (2 ^ 32 - 1) mode a
def cvtI2fOp (mode : Mode) (a : Word) : FRes := outRes .f32 mode (valOf a.toInt 0, [])
def cvtN2fOp (mode : Mode) (a : Word) : FRes := outRes .f32 mode (valOf a.toNat 0, [])
def cvtF2bfOp (mode : Mode) (a : Word) : FRes := outRes .bf16 mode (inF32 a, [])
def cvtBf2fOp (a : Word) : FRes := outRes .f32 .rne (inBf (lowHalf a), [])
def cvtF2hOp (mode : Mode) (a : Word) : FRes := outRes .f16 mode (inF32 a, [])
def cvtH2fOp (a : Word) : FRes := outRes .f32 .rne (floatValue .f16 (lowHalf a).toNat, [])
def cvtFrndOp (mode : Mode) (a : Word) : FRes :=
  match inF32 a with
  | .nan => (0x7FC00000, [])
  | .inf _ => (a, [])
  | .fin neg m e => (wd (floatPattern .f32 (.fin neg (roundInt mode neg m e).natAbs 0)), [])
def cvtEncOp (slot : Word) (mode : Mode) (a : Word) : FRes :=
  let r := encodeVal slot mode false (inF32 a)
  (wd r.1, r.2)
/-- The value of a field in a slot's format and scale (R159). -/
def slotVal (slot : Word) (x : Nat) : Val := decodeVal (slotFmt slot) (slotScale slot) x
def cvtDecOp (slot : Word) (mode : Mode) (a : Word) : FRes :=
  outRes .f32 mode (slotVal slot (a.toNat % 2 ^ (slotFmt slot).width), [])

/-- NARROW (R191): the lowest bit and width of field p. -/
def narrowPos (f : Fmt) (p : Nat) : Nat := f.width * p
/-- Whether a format has position p. -/
def narrowLegal (f : Fmt) (p : Nat) : Bool :=
  match f with
  | .f32 => p = 0
  | .bf16 => decide (p < 2)
  | .f16 => decide (p < 2)
  | _ => decide (p < 4)
def narrowPackOp (slot : Word) (p : Nat) (d a : Word) : FRes :=
  let w := (slotFmt slot).width
  let lo := narrowPos (slotFmt slot) p
  let r := encodeVal slot (slotMode slot) false (inF32 a)
  let mask : Word := (wd (2 ^ w - 1)) <<< lo
  ((d &&& ~~~mask) ||| ((wd (r.1 % 2 ^ w)) <<< lo), r.2)
def narrowUnpackOp (slot : Word) (p : Nat) (a : Word) : FRes :=
  let w := (slotFmt slot).width
  outRes .f32 .rne (slotVal slot (a.toNat / 2 ^ narrowPos (slotFmt slot) p % 2 ^ w), [])

end Sys2Proof.Machine
end

