-- ==== Sys2Proof/Machine/Queue.lean ====
section
/-! DEFINITION. Store queues: what each entry does when it leaves, forwarding to loads, arrivals and the completion of phases (R228 to R231,
R235, R280 to R282, R284 to R288, R301). -/

namespace Sys2Proof.Machine

/-! ### Phase barriers -/

def State.bar (s : State) (uid k : Nat) : Barrier := mget ({} : Barrier) (s.team uid).bars k
def State.modBar (s : State) (uid k : Nat) (f : Barrier → Barrier) : State :=
  s.modTeam uid (fun t => { t with bars := mset ({} : Barrier) t.bars k (f (mget ({} : Barrier) t.bars k)) })

/-- Done(a) of R288 for a barrier in phase c. -/
def phaseDone (c a : Word) : Bool := decide ((c - a - 1).toNat < 2 ^ 31)

/-- The condition of R286. -/
def Barrier.full (b : Barrier) : Bool := b.init && decide (b.arrived = b.quota) && decide (b.pending = 0)

/-- The quota less the members that leave. -/
def Barrier.stay (b : Barrier) : Nat := (b.quota + 256 - b.leaving) % 256

/-- The barrier with one more member arrived, in items of 8 bits (R284). DESIGN CHOICE, log 101: they count modulo 256. -/
def Barrier.counts (b : Barrier) (leaving : Bool) : Barrier :=
  { b with arrived := (b.arrived + 1) % 256, leaving := (b.leaving + b1 leaving) % 256 }

/-- The barrier after its phase completes (R286). -/
def Barrier.completed (b : Barrier) : Barrier :=
  { init := decide (b.stay ≠ 0), phase := b.phase + 1, quota := b.stay, lastError := b.error }

/-- Threads of a team that wait for a completed phase of barrier `k` become ready, and acquire (R288). -/
def wakePhase (s : State) (uid k : Nat) : State :=
  let c := (s.bar uid k).phase
  let waits (t : Thread) : Bool := t.awaits (fun j a => decide (j = k) && phaseDone c a)
  if s.threads.any (fun p => decide (teamOf p.1 = uid) && waits p.2) then
    acquire { s with threads := s.threads.map (fun p =>
      if teamOf p.1 = uid ∧ waits p.2 then (p.1, p.2.phaseCame) else p) } uid 1
  else s

/-- The phase completes if it can. -/
def tryComplete (s : State) (uid k : Nat) : State :=
  if (s.bar uid k).full then wakePhase (s.modBar uid k Barrier.completed) uid k else s

/-- The mask of the live threads of a group. -/
def liveMask (s : State) (gid : Nat) : Word :=
  laneMask ((s.threads.filter (fun p => decide (grpOf p.1 = gid) && decide (p.2.cond ≠ .exited))).map Prod.fst)

/-- An arrival of one member of the quota counted. -/
def countMember (s : State) (uid k : Nat) (leaving : Bool) : State :=
  tryComplete (s.modBar uid k (fun b => b.counts leaving)) uid k

/-- The arrival of a group counted once every live thread has arrived and each arrival has passed the queue (R285, R288). -/
def tryGroup (s : State) (gid k : Nat) : State :=
  let uid := gid / 64
  let g := groupIx gid
  let b := s.bar uid k
  let landed := mget 0 b.landed g
  if b.init && decide (landed ≠ 0) && !b.counted.contains g && decide (liveMask s gid &&& ~~~landed = 0) &&
      decide (mget 0 b.lanes g &&& ~~~landed = 0) && !(s.group gid).queue.any (fun e => decide (e.op = .leave)) then
    countMember (s.modBar uid k (fun b => { b with counted := sadd b.counted g })) uid k
      (decide (mget 0 b.ended g = mget 0 b.lanes g))
  else s

/-- An arrival of a thread that has passed its group's queue. -/
def landArrival (s : State) (tid k : Nat) (phase : Word) (leaving : Bool) : State :=
  let uid := teamOf tid
  let b := s.bar uid k
  if b.init && decide (b.phase = phase) then
    if isBurin tid then countMember s uid k leaving
    else
      let g := groupIx (grpOf tid)
      tryGroup (s.modBar uid k (fun b =>
        { b with landed := mput b.landed g (mget 0 b.landed g ||| (1#32 <<< laneOf tid)) })) (grpOf tid) k
  else if b.init && isBurin tid then countMember s uid k leaving
  else s

/-- Bytes landed, or withdrawn with an error, on a barrier of a team (R290, R297). -/
def landBytes (s : State) (uid k n : Nat) (failed : Bool) : State :=
  tryComplete (s.modBar uid k (fun b => { b with pending := b.pending - n, error := b.error || failed })) uid k

/-! ### Atomics and reductions -/

/-- The new value of R279. -/
def atomicNew (fn : BitVec 3) (m b c : Word) : Word :=
  match fn.toNat with
  | 0 => m + b
  | 1 => if m.sle b then m else b
  | 2 => if b.sle m then m else b
  | 3 => m &&& b
  | 4 => m ||| b
  | 5 => m ^^^ b
  | 6 => b
  | _ => if m = c then b else m

/-- The new value of R281 with its events. -/
def redfNew (fn : BitVec 3) (m b : Word) : FRes :=
  match fn.toNat with
  | 0 => faddOp m b
  | 1 => fminOp m b
  | 2 => fmaxOp m b
  | 3 => hadd2Op m b
  | _ => (m + b, [])

def State.modLoad (s : State) (id : Nat) (f : Load → Load) : State :=
  { s with loads := s.loads.map (fun l => if l.id = id then f l else l) }

/-- The lanes of one atomic request in ascending order (R280). -/
def atomicLanes (fn : BitVec 3) (loc : Loc) : State → List (Nat × Word × Word) → State
  | s, [] => s
  | s, (id, b, c) :: r =>
    let m := wd (readNat s loc 4)
    let s1 := s.modLoad id (fun l => { l with value := some m.toNat, poison := poisonAt s loc })
    atomicLanes fn loc (writeNat s1 loc 4 (atomicNew fn m b c).toNat) r

/-- The lanes of one reduction request in ascending order, with the events of each (R281). -/
def redfLanes (fn : BitVec 3) (loc : Loc) : State → List (Nat × Word) → State × List (Nat × List Nat)
  | s, [] => (s, [])
  | s, (tid, b) :: r =>
    let x := redfNew fn (wd (readNat s loc 4)) b
    let t := redfLanes fn loc (writeNat s loc 4 x.1.toNat) r
    (t.1, (tid, x.2) :: t.2)

/-! ### Contributions -/

/-- A message under the incarnation of an agent declared dead since is dropped and logged (R271). -/
def logStale (s : State) (u : UnitId) (addr : Nat) : State := logError s 5 u addr none 0

/-- One event of a contribution at its home slice: what is left for a second line waits on. -/
def applyContribution (s : State) (id : Nat) : State :=
  match s.contributions.find? (fun c => c.id = id) with
  | none => s
  | some c =>
    let s1 := { s with contributions := s.contributions.filter (fun c => decide (c.id ≠ id)) }
    let u : UnitId := ⟨1, (s.team c.team).coreId⟩
    if c.inc ≠ incarnation s u then logStale s1 u c.pa
    else
      let r := accApply s1 c
      { r.1 with contributions := r.1.contributions ++ r.2.toList }

/-- Every contribution of a list of identities applied whole, at its second line too. -/
def applyContributions : State → List Nat → State
  | s, [] => s
  | s, i :: is => applyContributions (applyContribution (applyContribution s i) i) is

/-- The contributions that a group's threads have sent are performed (R231, R243). -/
def settleGroup (s : State) (gid : Nat) : State :=
  applyContributions s ((s.contributions.filter (fun c => decide (grpOf c.tid = gid) && c.entry.isNone)).map (fun c => c.id))

/-! ### Entries leave -/

/-- Copies of the lines of an IINV leave a core's instruction cache (R248, R301). -/
def dropCode (s : State) (core : Nat) (lines : List Nat) : State :=
  s.modCore core (fun c => { c with icache := c.icache.filter (fun p => !lines.contains p.1) })

/-- Whether an entry of a team's queue is a message to memory or to another core: an arrival, an exit, a copy dropped or a store to the team's own
scratchpad is none (R271). -/
def QEntry.isMessage (uid : Nat) (e : QEntry) : Bool :=
  match e.op with
  | .arrive _ _ _ => false
  | .leave => false
  | .cinv _ => false
  | .iinv _ => false
  | _ => (match e.loc with
    | .scratch t _ => decide (t ≠ uid)
    | .phys _ => true)

/-- What an entry of a group's queue does at memory when it leaves under the incarnation of its core. -/
def performLive (s : State) (gid : Nat) (e : QEntry) : State :=
  let uid := gid / 64
  let core := (s.team uid).coreId
  match e.op with
  | .store data => writeBytes (noteHeld s (noteStore s core e.rt e.normal e.atHome e.loc data.length) e.rt e.loc data) e.loc data
  | .atomic fn lanes => atomicLanes fn e.loc (noteAtomic s e.loc) lanes
  | .redf fn lanes last =>
    let r := redfLanes fn e.loc (noteAtomic s e.loc) lanes
    let evs := (s.group gid).events ++ r.2.map (fun p => ((p.1, e.trapNo), p.2))
    if last then raiseEvents (r.1.modGroup gid (fun g => { g with events := [] })) uid none evs e.word
    else r.1.modGroup gid (fun g => { g with events := evs })
  | .accred b line record =>
    let f := s.fresh
    let pa := match e.loc with
      | .phys a => a
      | .scratch _ _ => 0
    { f.2 with contributions := f.2.contributions ++
        [{ id := f.1, team := uid, tid := e.tid, trapNo := e.trapNo, entry := none, word := e.word, addr := e.addr, pa := pa / 128 * 128, record := record,
           next := none, data := [b], offset := line.toNat % 128, inc := e.inc }] }
  | .cwb scope lines => eachLane (fun s l => dirWriteBack s core scope l) s lines
  | .cinv lines => eachLane (fun s l => dirDrop s core l) s lines
  | .iinv lines => dropCode s core lines
  | .arrive k phase leaving => landArrival (settleGroup s gid) e.tid k phase leaving
  | .leave => eachLane (fun s k => tryGroup s gid k) (settleGroup s gid) ((s.team uid).bars.map Prod.fst)

/-- The loads that an atomic entry which is dropped would have answered give their data up: no value comes back. -/
def dropLoads (s : State) (e : QEntry) : State :=
  match e.op with
  | .atomic _ lanes => { s with loads := s.loads.filter (fun l => !(lanes.map Prod.fst).contains l.id) }
  | _ => s

/-- What an entry of a group's queue does when it leaves; one whose core has been declared dead since is dropped and logged (R271). -/
def performEntry (s : State) (gid : Nat) (e : QEntry) : State :=
  let u : UnitId := ⟨1, (s.team (gid / 64)).coreId⟩
  if e.isMessage (gid / 64) && decide (e.inc ≠ incarnation s u) then logStale (dropLoads s e) u e.addr.toNat else performLive s gid e

/-- The oldest entry of a group's queue leaves. -/
def leaveHead (s : State) (gid : Nat) : State :=
  match (s.group gid).queue with
  | [] => s
  | e :: q => performEntry (s.modGroup gid (fun g => { g with queue := q, left := g.left + 1 })) gid e

/-- `n` entries leave in queue order. -/
def leaveN : Nat → State → Nat → State
  | 0, s, _ => s
  | n + 1, s, gid => leaveN n (leaveHead s gid) gid

/-- The queue empties of the entries it holds now. -/
def drainQueue (s : State) (gid : Nat) : State := leaveN (s.group gid).queue.length s gid

/-- How many entries of a queue, oldest first, must leave before the youngest that a test names has left. -/
def throughLast (f : QEntry → Bool) : List QEntry → Nat
  | [] => 0
  | e :: es => let rest := throughLast f es; if rest ≠ 0 then rest + 1 else if f e then 1 else 0

/-- The queue of a group leaves as far as the youngest entry that a test names. -/
def leaveThrough (s : State) (gid : Nat) (f : QEntry → Bool) : State := leaveN (throughLast f (s.group gid).queue) s gid

/-- Whether `m` bytes from one place and `n` bytes from another have one in common. -/
def Loc.meets : Loc → Nat → Loc → Nat → Bool
  | .phys a, m, .phys b, n => decide (a < b + n) && decide (b < a + m)
  | .scratch t a, m, .scratch u b, n => decide (t = u) && decide (a < b + n) && decide (b < a + m)
  | _, _, _, _ => false

/-- Whether an entry writes one of `n` bytes from a resolved place. -/
def QEntry.writes (s : State) (l : Loc) (n : Nat) (e : QEntry) : Bool :=
  match e.op with
  | .store data => (resolve s e.loc).meets data.length l n
  | .atomic _ _ => (resolve s e.loc).meets 4 l n
  | .redf _ _ _ => (resolve s e.loc).meets 4 l n
  | _ => false

/-- Every queue of a team empties. -/
def drainTeam (s : State) (uid : Nat) : State :=
  eachLane drainQueue s ((s.groups.filter (fun p => decide (p.1 / 64 = uid))).map Prod.fst)

/-- Entries added at the young end of a group's queue. -/
def enqueue (s : State) (gid : Nat) (es : List QEntry) : State := s.modGroup gid (fun g => { g with queue := g.queue ++ es })

/-! ### Loads and the queue (R229) -/

/-- How far a byte lies in a run of `n` bytes from a place, if it does. -/
def Loc.within (base : Loc) (n : Nat) (l : Loc) : Option Nat :=
  match base, l with
  | .phys a, .phys b => if a ≤ b ∧ b < a + n then some (b - a) else none
  | .scratch t a, .scratch u b => if t = u ∧ a ≤ b ∧ b < a + n then some (b - a) else none
  | _, _ => none

/-- What an entry gives a load for one byte. -/
inductive Fwd where
  | nothing
  | byte (v : Byte)
  | wait
  deriving DecidableEq, Repr

def QEntry.forward (s : State) (e : QEntry) (l : Loc) : Fwd :=
  match e.op with
  | .store data =>
    (match (resolve s e.loc).within data.length l with
     | some i => .byte (data.getD i 0)
     | none => .nothing)
  | .atomic _ _ => if ((resolve s e.loc).within 4 l).isSome then .wait else .nothing
  | .redf _ _ _ => if ((resolve s e.loc).within 4 l).isSome then .wait else .nothing
  | _ => .nothing

/-- The youngest entry of a queue, newest first, that writes a byte. -/
def forwardFrom (s : State) (l : Loc) : List QEntry → Fwd
  | [] => .nothing
  | e :: es =>
    match e.forward s l with
    | .nothing => forwardFrom s l es
    | f => f

/-- How many entries of a queue, oldest first, must leave before a load of `n` bytes at a place can take its bytes: up to
the youngest atomic or reduction that writes one of them. -/
def mustLeave (s : State) (loc : Loc) (n : Nat) : List QEntry → Nat
  | [] => 0
  | e :: es =>
    let rest := mustLeave s loc n es
    if rest ≠ 0 then rest + 1
    else if (List.range n).any (fun i => decide (e.forward s (resolve s (loc.plus i)) = .wait)) then 1 else 0

/-- The queue emptied as far as a load of `n` bytes needs. -/
def settleLoad (s : State) (gid : Nat) (loc : Loc) (n : Nat) : State := leaveN (mustLeave s loc n (s.group gid).queue) s gid

/-- What an operation does while a group's queue holds its first `k` entries alone; the others stand behind what is left of them afterwards. -/
def underFirst {α : Type} (s : State) (gid k : Nat) (f : State → State × α) : State × α :=
  let x := f (s.modGroup gid (fun g => { g with queue := g.queue.take k }))
  (x.1.modGroup gid (fun g => { g with queue := g.queue ++ (s.group gid).queue.drop k }), x.2)

/-- The bytes a load of a group's thread takes: from its queue where an entry writes them, else from memory. -/
def loadBytes (s : State) (gid : Nat) (loc : Loc) : Nat → List Byte
  | 0 => []
  | n + 1 =>
    let l := resolve s loc
    (match forwardFrom s l (s.group gid).queue.reverse with
     | .byte v => v
     | _ => rawByte s l) :: loadBytes s gid (loc.plus 1) n

end Sys2Proof.Machine
end

