-- ==== Sys2Proof/Machine/Access.lean ====
section
/-! DEFINITION. What the checks of one word find for one lane, the checks of ranges, and loads through a view: latent rows, the press
(R208, R222, R360 to R376, R387). -/

namespace Sys2Proof.Machine

/-- What the checks of a word find for a lane. -/
inductive Verdict where
  | pass
  | trap (f : TrapInfo)
  /-- held at a replayable fault: page, access bits of R409, the trap of an answer that fails it -/
  | hold (page : DWord) (access : Nat) (f : TrapInfo)
  deriving DecidableEq, Repr

/-- The first of two verdicts that does not pass. -/
def Verdict.andThen (a b : Verdict) : Verdict :=
  match a with
  | .pass => b
  | v => v

/-- A trap of the word that issues, with address and flags. -/
def State.trapAt (s : State) (cause : Nat) (addr : DWord) (flags : Word) : Verdict :=
  .trap { cause := cause, addr := addr, word := s.issue.word, flags := flags }
/-- A trap without address. -/
def State.plainTrap (s : State) (cause : Nat) : Verdict := s.trapAt cause 0 0

/-- What step 6 of R86 finds of a command's checks, which R293 and R389 put in one order: the failure that comes first in that order, when it is one of
bounds or of a phase or view index; any other is met in step 7. DESIGN CHOICE, log 83. -/
def Verdict.ofStep6 (v : Verdict) : Verdict :=
  match v with
  | .trap f => if f.cause = 0x0A ∨ f.cause = 0x0B ∨ f.cause = 0x12 then v else .pass
  | _ => .pass

/-- The first verdict of a list that does not pass. -/
def firstBad : List Verdict → Verdict
  | [] => .pass
  | v :: vs => v.andThen (firstBad vs)

/-- A verdict whose record says the size of the access that the failing check belongs to (R222). -/
def Verdict.sized (v : Verdict) (size : Nat) : Verdict :=
  let fl (f : TrapInfo) : TrapInfo := { f with flags := f.flags ||| mkFlags size .global false false false false false false false }
  match v with
  | .pass => .pass
  | .trap f => .trap (fl f)
  | .hold p acc f => .hold p acc (fl f)

/-! ### One access -/

/-- The access bits of a replay record. -/
def Use.access (u : Use) : Nat := b1 u.reads + 2 * b1 u.writes

/-- The verdict for an access of a thread of `size` bytes to global memory; `view` decides an aperture address. -/
def accessVerdict (s : State) (tid : Nat) (va : DWord) (size : Nat) (u : Use) (view : DWord → Verdict) : Verdict :=
  let t := s.team (teamOf tid)
  let info (c : Nat) (win far : Bool) (bad : Option Nat) : TrapInfo :=
    { cause := c, addr := va, word := s.issue.word, bad := bad,
      flags := mkFlags size .global false (isBurin tid) (u = .atomic || u = .redf || u = .acc) u.writes win far false }
  match checkAccess s t.coreId t.ctx (teamOf tid) va size u with
  | .at _ _ _ => .pass
  | .view e => view e
  | .hold p => .hold p u.access (info 0x10 false false none)
  | .trap c win far bad => .trap (info c win far bad)

/-- The place and the leaf of an access that passed. -/
def accessPlace (s : State) (tid : Nat) (va : DWord) (size : Nat) (u : Use) : Loc × DWord :=
  let t := s.team (teamOf tid)
  match checkAccess s t.coreId t.ctx (teamOf tid) va size u with
  | .at l e _ => (l, e)
  | _ => (.phys 0, 0)

/-- An effective address or offset before reduction (R276). -/
def effAddr (base : Nat) (off : BitVec 5) (size : Nat) : Int := (base : Int) + off.toInt * size

/-- The size of a size code in bytes (R87). -/
def szBytes (sz : BitVec 3) : Nat :=
  match sz.toNat with
  | 0 => 1
  | 1 => 1
  | 2 => 2
  | 3 => 2
  | 4 => 4
  | 5 => 8
  | _ => 16

/-- Bounds of a scratchpad range, cause 0x12, step 6 of R86. -/
def scratchBounds (s : State) (tid : Nat) (ea : Int) (size n : Nat) (atomic write engine : Bool) : Verdict :=
  let d := (s.team (teamOf tid)).kern.scratch
  if ea < 0 ∨ (d : Int) < ea + n then
    let first : Int := if engine ∧ 0 ≤ ea then max ea d else ea
    s.trapAt 0x12 (BitVec.ofInt 64 first) (mkFlags size .scratch engine (isBurin tid) atomic write false false false)
  else .pass

/-- Alignment of a scratchpad offset, cause 0x16. -/
def scratchAligned (s : State) (tid : Nat) (ea : Int) (size align : Nat) (atomic write engine : Bool) : Verdict :=
  if ea % align ≠ 0 then s.trapAt 0x16 (BitVec.ofInt 64 ea) (mkFlags size .scratch engine (isBurin tid) atomic write false false false)
  else .pass

/-- The lower limit of the private window (R122). -/
def stackLow (s : State) (uid : Nat) : Int := max (s.team uid).slim.toInt 0

/-- The arrangement of the private region that the model uses for its translation: the window of thread place p at p × S, the burin
core's as place 1,024 (R59, R121). DESIGN CHOICE, log 12. -/
def privAddr (s : State) (tid : Nat) (off : Nat) : DWord :=
  let t := s.team (teamOf tid)
  let p := if isBurin tid then 1024 else groupIx (grpOf tid) * 32 + laneOf tid
  t.area + dw (655360 + p * t.kern.stack + off)

/-- The translation of a private access (R221). -/
def privBacked (s : State) (tid : Nat) (off size : Nat) (write : Bool) : Verdict :=
  let t := s.team (teamOf tid)
  let info (bad : Option Nat) : TrapInfo :=
    { cause := 0x10, addr := dw off, word := s.issue.word, bad := bad,
      flags := mkFlags size .priv false (isBurin tid) false write false false false }
  let one (a : DWord) : Verdict :=
    match checkPage s t.coreId t.ctx (teamOf tid) a 1 (if write then .store else .load) (!write) write with
    | .at _ _ _ => .pass
    | .hold p => .hold p (if write then 2 else 1) (info none)
    | .trap _ _ _ bad => .trap (info bad)
    | .view _ => .trap (info none)
  (one (privAddr s tid off)).andThen (one (privAddr s tid (off + size - 1)))

/-- The checks of a private load or store: alignment, bounds, backing store (R276, R122, R221). -/
def privVerdict (s : State) (tid : Nat) (ea : Int) (size : Nat) (write : Bool) : Verdict :=
  let fl := mkFlags size .priv false (isBurin tid) false write false false false
  if ea % size ≠ 0 then s.trapAt 0x16 (BitVec.ofInt 64 ea) fl
  else if ea < stackLow s (teamOf tid) ∨ ((s.team (teamOf tid)).kern.stack : Int) < ea + size then s.trapAt 0x17 (BitVec.ofInt 64 ea) fl
  else privBacked s tid ea.toNat size write

/-! ### Ranges -/

/-- A range cut at the multiples of `u`: start and length of each piece. -/
def cuts (u va n : Nat) : List (Nat × Nat) :=
  if n = 0 then []
  else (List.range ((va % u + n + (u - 1)) / u)).map (fun i =>
    let a := max va ((va / u + i) * u)
    (a, min (va + n) ((va / u + i + 1) * u) - a))

/-- A range cut at 64 KiB boundaries. -/
def pieces (va n : Nat) : List (Nat × Nat) := cuts 65536 va n

/-- The verdict for a range used by an engine or a record, page by page; an on-demand page passes when `soft` (R293, R378). -/
def rangeVerdict (s : State) (tid : Nat) (u : Use) (rd wr engine soft : Bool) : List (Nat × Nat) → Verdict
  | [] => .pass
  | (a, n) :: ps =>
    let t := s.team (teamOf tid)
    let info (c : Nat) (win far : Bool) (bad : Option Nat) : TrapInfo :=
      { cause := c, addr := dw a, word := s.issue.word, bad := bad, flags := mkFlags 1 .global engine (isBurin tid) false wr win far false }
    let v : Verdict := match checkPage s t.coreId t.ctx (teamOf tid) (dw a) n u rd wr with
      | .at _ _ _ => .pass
      | .view _ => .trap (info 0x11 false false none)
      | .hold p => if soft then .pass else .hold p (b1 rd + 2 * b1 wr) (info 0x10 false false none)
      | .trap c win far bad => .trap (info c win far bad)
    v.andThen (rangeVerdict s tid u rd wr engine soft ps)

/-- The physical place of a virtual byte in a context, none while it does not translate. -/
def placeOf (s : State) (core ctx : Nat) (va : DWord) : Option Loc :=
  if bits va.toNat 63 57 ≠ 0 then none
  else
    match translate s core ctx va.toNat with
    | .leaf e size => some (.phys (leafPhys e size va.toNat))
    | _ => none

/-- Where a reader finds each virtual byte, none where it finds none. -/
abbrev Places := DWord → Option Loc

/-- The places of loads by the threads of a team: memory, and the windows of its cluster (R202, R208, R218). -/
def threadPlaces (s : State) (core ctx uid : Nat) : Places := fun va =>
  match checkPage s core ctx uid va 1 .load false false with
  | .at l _ _ => some l
  | _ => none

/-- Whether a thread of a team finds a virtual byte on a page of domain system, whose accesses are performed at the home slice (R267). -/
def threadHome (s : State) (core ctx uid : Nat) : DWord → Bool := fun va =>
  match checkPage s core ctx uid va 1 .load false false with
  | .at _ e _ => decide (leafDomain e = 1)
  | _ => false

/-- The window and far bits of a fault record for a byte that a thread of a team reads (R222). -/
def pageBits (s : State) (core ctx uid : Nat) (va : DWord) : Bool × Bool :=
  match checkPage s core ctx uid va 1 .load false false with
  | .at _ e _ => (leafType e == 4, leafFar e)
  | .trap _ win far _ => (win, far)
  | _ => (false, false)

/-- The flags of a report of poison in a byte that a thread reads by address, found after issue (R222, R449). -/
def poisonFlags (s : State) (tid : Nat) (engine : Bool) (va : DWord) : Word :=
  let b := pageBits s (s.coreOf tid) (s.ctxOf tid) (teamOf tid) va
  mkFlags 1 .global engine (isBurin tid) false false b.1 b.2 true

/-- Ranges read for a die by virtual address, as the directories see it; those on a page of domain system are read at the home slice (R267). -/
def noteVirt (pl : Places) (home : DWord → Bool) (die : Nat) : State → List (Nat × Nat) → State
  | s, [] => s
  | s, (a, n) :: ps =>
    noteVirt pl home die (match pl (dw a) with
      | some l => if home (dw a) then noteHomeReads s l n else noteReads s die l n
      | none => s) ps

/-- The words of a granule that hold a confined error, when its poison is of such errors alone (R364). -/
def confinedOf (s : State) (l : Loc) : SMap Nat :=
  match resolve s l with
  | .phys a => if s.poison.contains (a / 32) && !lostPeer s a && !lostChannel s a then s.confined.filter (fun p => decide (p.1 / 4 = a / 32)) else []
  | .scratch _ _ => []

/-- A granule read at its place. -/
def takeGranule (s : State) (l : Loc) : Granule := { bytes := readBytes s l 32, bad := poisoned s l 32, confined := confinedOf s l }

/-- A granule by number: as read already, or as it stands; one without a place reads as zeros and as poisoned. -/
def granuleOf (s : State) (pl : Places) (got : Granules) (g : Nat) : Granule :=
  match mfind got g, pl (dw (32 * g)) with
  | some x, _ => x
  | none, some l => takeGranule s l
  | none, none => { bytes := List.replicate 32 0, bad := true }

/-- Bytes of one granule, with whether it is poisoned or has no place. -/
def readGranule (s : State) (pl : Places) (got : Granules) (a n : Nat) : List Byte × Bool :=
  let g := granuleOf s pl got (a / 32)
  ((g.bytes.drop (a % 32)).take n, g.bad)

/-- Bytes by virtual address, with whether any is poisoned or has no place. -/
def readVirt (s : State) (pl : Places) (got : Granules) : List (Nat × Nat) → List Byte × Bool
  | [] => ([], false)
  | (a, n) :: ps =>
    let gs := (cuts 32 a n).map (fun c => readGranule s pl got c.1 c.2)
    let r := readVirt s pl got ps
    (gs.flatMap Prod.fst ++ r.1, gs.any Prod.snd || r.2)

/-- The first byte of some ranges that stands in a poisoned granule, or has no place (R449). -/
def badByte (s : State) (pl : Places) (ps : List (Nat × Nat)) : Option Nat :=
  (ps.flatMap (fun p => (cuts 32 p.1 p.2).filter (fun c => (readGranule s pl [] c.1 c.2).2))).head?.map Prod.fst

/-! ### Latent blocks (R360 to R363) -/

/-- Bytes of an element of a view format. -/
def viewEs (f : Fmt) : Nat := match f with
  | .bf16 => 2
  | _ => 1
/-- Whether a slot's format may stand for a view's matrix or latents. -/
def viewFmt (f : Fmt) : Bool := match f with
  | .bf16 => true
  | .t8 _ => true
  | .i8 => true
  | .n8 => true
  | _ => false

/-- A team's format slot word (R41). -/
def slotWord (s : State) (uid k : Nat) : Word := (s.team uid).slots.getD k 0

/-- Bytes of one payload row (R360). -/
def rowPitch (cols es : Nat) : Nat := ceilDiv (cols * es) 16 * 16

def ViewReg.es (s : State) (uid : Nat) (v : ViewReg) : Nat := viewEs (slotFmt (slotWord s uid v.lslot))
def ViewReg.outSize (v : ViewReg) : Nat := if v.bf16 then 2 else 4
def ViewReg.rowBytes (v : ViewReg) : Nat := v.rows * v.outSize

/-- What a table lookup finds (R366). -/
inductive Lookup where
  | entry (e : DWord)
  /-- not usable, with the fault address, and whether a poisoned granule is to be recorded -/
  | bad (addr : DWord) (poison : Bool)
  /-- the entry's page refuses the read: cause, window and far bits of the flags, a malformed entry (R208) -/
  | refused (addr : DWord) (cause : Nat) (win far : Bool) (met : Option Nat)
  /-- the entry's page is on demand (R209) -/
  | hold (addr : DWord)
  deriving DecidableEq, Repr

/-- Whether a table entry is usable for blocks of `span` bytes (R360, R366). DESIGN CHOICE, log 74: only the address is tested; whether the block's page is a
normal one, which R360 says too, is left to the check of its rows under R208. -/
def usableEntry (e : DWord) (span : Nat) : Bool :=
  let a := bits e.toNat 47 0
  decide (bits e.toNat 63 50 = 0) && e.getLsbD 49 && decide (a % 2048 = 0) && decide (2 ≤ a / 2048 % 32) && decide (a % 65536 + span ≤ 65536)

/-- A table entry as the block translation cache holds it. -/
def cachedEntry (s : State) (core ctx : Nat) (b : TSlot) (block : Nat) : Option DWord :=
  ((s.core core).btc.find? (fun x => decide (x.tag = ctxTag s ctx ∧ x.base = b.base ∧ x.version = b.version ∧ x.block = block))).map BtEntry.value

/-- A table entry as a read of its home slice finds it, checked as a load of the thread (R208, R366). -/
def homeEntry (s : State) (tid : Nat) (b : TSlot) (block span : Nat) : Lookup :=
  let t := s.team (teamOf tid)
  let ea := b.base + dw (64 + 8 * block)
  match checkPage s t.coreId t.ctx (teamOf tid) ea 8 .load true false with
  | .at l _ _ =>
    let e := dw (readNat s l 8)
    if poisonAt s l then .bad ea true else if usableEntry e span then .entry e else .bad ea false
  | .hold p => .hold p
  | .view _ => .refused ea 0x11 false false none
  | .trap c win far met => .refused ea c win far met

/-- A table entry for a thread through its core's block translation cache (R366, R370); `span` is the bytes of a block. Where the cache and memory
differ a read returns either, as a free value tells for each thread, entry and step (R369, log 50). -/
def lookupBlock (s : State) (tid : Nat) (b : TSlot) (block span : Nat) : Lookup :=
  let t := s.team (teamOf tid)
  if readNat s (.phys (b.pa + 8)) 4 ≤ block then .bad b.base false
  else
    match cachedEntry s t.coreId t.ctx b block with
    | none => homeEntry s tid b block span
    | some e =>
      if !usableEntry e span then .bad (b.base + dw (64 + 8 * block)) false
      else
        match homeEntry s tid b block span with
        | .entry f => .entry (if e = f then e else if Config.freeOld s.clock tid block then e else f)
        | _ => .entry e

/-- An entry read is held by the core's block translation cache of 1,024 (R370). -/
def fillBlock (s : State) (core ctx : Nat) (b : TSlot) (block : Nat) (e : DWord) : State :=
  s.modCore core (fun c =>
    if c.btc.any (fun x => decide (x.tag = ctxTag s ctx ∧ x.base = b.base ∧ x.version = b.version ∧ x.block = block)) then c
    else { c with btc := ({ tag := ctxTag s ctx, base := b.base, version := b.version, block := block, value := e } :: c.btc).take 1024 })

/-- Whether a lookup takes its entry from the block translation cache alone. -/
def fromCache (s : State) (tid : Nat) (b : TSlot) (block span : Nat) : Bool :=
  let t := s.team (teamOf tid)
  (cachedEntry s t.coreId t.ctx b block).any (fun e => !usableEntry e span || decide (lookupBlock s tid b block span = .entry e))

/-- The reads that a lookup of a thread makes, as the directories see them: the entry count in the bound header, and the entry at its home slice unless the
block translation cache gives it (R259, R267, R366, R370). -/
def noteLookup (tid : Nat) (b : TSlot) (span : Nat) (s : State) (block : Nat) : State :=
  let t := s.team (teamOf tid)
  let s1 := noteHomeReads s (.phys (b.pa + 8)) 4
  if readNat s (.phys (b.pa + 8)) 4 ≤ block then s1
  else
    match checkPage s t.coreId t.ctx (teamOf tid) (b.base + dw (64 + 8 * block)) 8 .load true false with
    | .at l _ _ => { s1 with dir := if fromCache s tid b block span then s1.dir else (noteHomeReads s1 l 8).dir }
    | _ => s1

/-- The lookups of several blocks in turn, as far as the first that stops its word. -/
def noteBlocks (tid : Nat) (b : TSlot) (span : Nat) : State → List Nat → State
  | s, [] => s
  | s, k :: ks =>
    let s1 := noteLookup tid b span s k
    match lookupBlock s tid b k span with
    | .entry _ => noteBlocks tid b span s1 ks
    | _ => s1

/-- The header and scales of a block, each granule from the mirror record where the block's own is poisoned; none when
unreadable (R361). -/
def blockHead (s : State) (pl : Places) (got : Granules) (a : DWord) : Option (List Byte) :=
  let mirror := a.toNat / 65536 * 65536 + 128 * (a.toNat / 2048 % 32)
  (List.range 4).foldl (fun acc g => acc.bind (fun bs =>
    let own := readVirt s pl got [(a.toNat + 32 * g, 32)]
    if !own.2 then some (bs ++ own.1)
    else
      let m := readVirt s pl got [(mirror + 32 * g, 32)]
      if m.2 then none else some (bs ++ m.1))) (some [])

/-- The code of a storage format (R154). -/
def fmtCode : Fmt → Nat
  | .f32 => 0
  | .bf16 => 1
  | .f16 => 2
  | .t8 _ => 3
  | .t6 _ => 4
  | .i8 => 5
  | .n8 => 6
def fmtEs : Fmt → Nat
  | .t8 es => es
  | .t6 es => es
  | _ => 0

/-- The bits of a context's tolerance: L when KVPOL enables it (R364). -/
def tolerance (s : State) (ctx : Nat) : Nat :=
  let p := (s.sysReg (0x4000 + 16 * ctx + 9)).toNat
  let l := bits p 3 1
  if p % 2 = 1 ∧ 1 ≤ l ∧ l ≤ 4 then l else 0

/-- Whether a granule as read can be used: it is not poisoned, or its poison is of confined errors within L bits (R364). -/
def Granule.usable (g : Granule) (l : Nat) : Bool := !g.bad || (!g.confined.isEmpty && g.confined.all (fun p => decide (p.2 ≤ l)))

/-- The confined words that let a reader use a run of `n` payload bytes at a physical address, given its granules as read: every granule must be usable; the
words of the run that hold an error (R364). -/
def confinedWords (gs : List Granule) (pa n l : Nat) : Option (List Nat) :=
  if l ≠ 0 ∧ gs.all (fun g => g.usable l) then
    some ((gs.flatMap (fun g => g.confined.map Prod.fst)).filter (fun w => decide (pa < 8 * w + 8) && decide (8 * w < pa + n)))
  else none

/-- The low L bits of each element of the confined words of a run set to zero. -/
def tolerated (data : List Byte) (pa l es : Nat) (ws : List Nat) : List Byte :=
  data.mapIdx (fun i b => if ws.contains ((pa + i) / 8) ∧ (pa + i) % es = 0 then b &&& ~~~(BitVec.ofNat 8 (2 ^ l - 1)) else b)

/-- The scale pattern of a row as its block's header and scales give it, and whether the row lies past the block's valid rows, where it reads as zeros; none
when the block is unreadable (R361, R363). -/
def rowScale (s : State) (pl : Places) (got : Granules) (f : Fmt) (cols : Nat) (t : Token) : Option (Word × Bool) :=
  match t.block with
  | none => some (0x3F800000, false)
  | some (a, i) =>
    (blockHead s pl got a).bind (fun h =>
      let byte (k : Nat) : Nat := (h.getD k 0).toNat
      if leNat (h.take 2) ≠ cols ∨ byte 2 ≠ fmtCode f ∨ byte 3 ≠ fmtEs f ∨ 16 < byte 4 then none
      else if byte 4 ≤ i then some (0x3F800000, true)
      else some (wd (leNat ((h.drop (64 + 4 * i)).take 4)), false))

/-- What a reader of a row finds in one granule of its payload: its bytes, whether they are poisoned, and the confined words that it tolerated (R364). -/
structure RowPart where
  bytes : List Byte
  bad : Bool
  words : List Nat
  deriving DecidableEq, Repr

/-- `n` payload bytes at an address in one granule, read for a row: poisoned ones stay poisoned, unless all their errors are confined and the row's block
and context allow the reader to tolerate them. -/
def rowPart (s : State) (pl : Places) (got : Granules) (ctx : Nat) (f : Fmt) (block : Bool) (a n : Nat) : RowPart :=
  let g := granuleOf s pl got (a / 32)
  let bs := (g.bytes.drop (a % 32)).take n
  let l := tolerance s ctx
  match (if g.bad && block then pl (dw a) else none) with
  | some (.phys pa) =>
    (match confinedWords [g] pa n l with
     | some ws => { bytes := tolerated bs pa l (viewEs f) ws, bad := false, words := ws }
     | none => { bytes := bs, bad := true, words := [] })
  | _ => { bytes := bs, bad := g.bad, words := [] }

/-- The payload of a row, granule by granule. -/
def rowParts (s : State) (pl : Places) (got : Granules) (ctx : Nat) (f : Fmt) (t : Token) : List RowPart :=
  ((pieces t.row.toNat t.bytes).flatMap (fun p => cuts 32 p.1 p.2)).map (fun c => rowPart s pl got ctx f t.block.isSome c.1 c.2)

/-- A row as the press reads it: scale pattern, payload, and the confined words it tolerated; none when unreadable or poisoned (R363, R364). -/
def readRow (s : State) (pl : Places) (got : Granules) (ctx : Nat) (f : Fmt) (cols : Nat) (t : Token) : Option (Word × List Byte × List Nat) :=
  match rowScale s pl got f cols t with
  | none => none
  | some (scale, true) => some (scale, List.replicate t.bytes 0, [])
  | some (scale, false) =>
    let ps := rowParts s pl got ctx f t
    if ps.any RowPart.bad then none else some (scale, ps.flatMap RowPart.bytes, ps.flatMap RowPart.words)

/-- The ranges that a row's read covers: the head of its block and its own bytes. -/
def Token.ranges (t : Token) : List (Nat × Nat) :=
  (match t.block with
   | some (a, _) => [(a.toNat, 128)]
   | none => []) ++ pieces t.row.toNat t.bytes

/-- The parts of a block's mirror record that a reader of the block takes: one for each granule of the block's own head that is poisoned (R361). -/
def mirrorReads (s : State) (pl : Places) (got : Granules) (t : Token) : List (Nat × Nat) :=
  match t.block with
  | some (a, _) => ([0, 1, 2, 3] : List Nat).filterMap (fun g =>
      if (readVirt s pl got [(a.toNat + 32 * g, 32)]).2 then some (a.toNat / 65536 * 65536 + 128 * (a.toNat / 2048 % 32) + 32 * g, 32) else none)
  | none => []

/-- A row of a view read for a die, with the head of its block and what is taken of its mirror record, as the directories see it (R259, R267). -/
def noteRow (s : State) (pl : Places) (got : Granules) (home : DWord → Bool) (die : Nat) (t : Token) : State :=
  noteVirt pl home die s (t.ranges ++ mirrorReads s pl got t)

/-- The ranges that a thread's read of a row covers: those of the row, and the mirror of its block's head (R361). -/
def Token.reads (t : Token) : List (Nat × Nat) :=
  (match t.block with
   | some (a, _) => [(a.toNat / 65536 * 65536 + 128 * (a.toNat / 2048 % 32), 128)]
   | none => []) ++ t.ranges

/-- The numbers of the granules that a thread's read of a row covers. -/
def Token.granules (t : Token) : List Nat := ((t.reads.flatMap (fun r => cuts 32 r.1 r.2)).map (fun c => c.1 / 32)).eraseDups

/-- One granule as a thread of a group reads it: its own group's queue seen, once the atomics there that write to it have left (R229). -/
def ownGranule (s : State) (gid : Nat) (pl : Places) (got : Granules) (g : Nat) : State × Granules :=
  match mfind got g, pl (dw (32 * g)) with
  | none, some l =>
    let s1 := settleLoad s gid l 32
    (s1, mput got g { takeGranule s1 l with bytes := loadBytes s1 gid l 32 })
  | _, _ => (s, got)

/-- Several granules read so, one after another. -/
def ownGranules (gid : Nat) (pl : Places) : State → Granules → List Nat → State × Granules
  | s, got, [] => (s, got)
  | s, got, g :: gs => let x := ownGranule s gid pl got g; ownGranules gid pl x.1 x.2 gs

/-- Tolerated confined errors are counted and recorded (R364). -/
def countConfined (s : State) (core ctx : Nat) : List Nat → State
  | [] => s
  | w :: ws =>
    let n := 0x4000 + 16 * ctx + 10
    let s1 := logError (s.setSys n (s.sysReg n + 1)) 3 ⟨1, core⟩ (8 * w) (some ctx) 0
    countConfined s1 core ctx ws

/-! ### The press (R374) -/

/-- Elements of a row of bytes. -/
def elements (f : Fmt) (slot : Word) : Nat → List Byte → List Val
  | 0, _ => []
  | n + 1, bs => slotVal slot (leNat (bs.take (viewEs f))) :: elements f slot n (bs.drop (viewEs f))

/-- The pass sum over triple products x × s × m. -/
def pressSum (f : Fmt) (scale : Val) (xs ms : List Val) : Nat × List Nat :=
  let ps := xs.zip ms
  if scale.isNan || ps.any (fun p => p.1.isNan || p.2.isNan) then (floatPattern f .nan, [])
  else
    let qs := ps.map (fun p => ((p.1.mul scale).1, p.2))
    if qs.any (fun q => q.1.isNan) then (floatPattern f .nan, [1]) else passSum f qs

/-- One projected row of a view with its events. -/
def pressRow (s : State) (uid : Nat) (v : ViewReg) (scale : Word) (payload : List Byte) : List Byte × List Nat :=
  let ls := slotWord s uid v.lslot
  let msw := slotWord s uid v.mslot
  let mf := slotFmt msw
  let xs := elements (slotFmt ls) ls v.cols payload
  let f : Fmt := if v.bf16 then .bf16 else .f32
  let outs := (List.range v.rows).map (fun i =>
    pressSum f (inF32 scale) xs (elements mf msw v.cols (v.data.drop (i * v.cols * viewEs mf))))
  (outs.flatMap (fun o => leBytes v.outSize o.1), outs.flatMap (fun o => o.2))

/-! ### Loads through a view (R373, R374, R387) -/

/-- The bound view of an aperture address. -/
def viewAt (s : State) (uid : Nat) (va : DWord) : Option (Nat × ViewReg) :=
  (s.team uid).views.find? (fun p => decide (p.2.aperture.toNat / 2 ^ 40 = va.toNat / 2 ^ 40))

/-- Where token `t` of a view lies, or the verdict that stops the load. -/
def findToken (s : State) (tid : Nat) (v : ViewReg) (va : DWord) (size t : Nat) : Except Verdict Token :=
  let uid := teamOf tid
  let es := v.es s uid
  let info (c : Nat) (addr : DWord) (win far : Bool) : TrapInfo :=
    { cause := c, addr := addr, word := s.issue.word, flags := mkFlags size .global false (isBurin tid) false false win far false }
  match v.tslot with
  | none => .ok { token := t, row := v.latentBase + dw (t * v.latentStride), bytes := v.cols * es, block := none }
  | some sl =>
    match mfind (s.team uid).tslots sl with
    | none => .error (.trap (info 0x10 va false false))
    | some b =>
      let rb := rowPitch v.cols es
      match lookupBlock s tid b (t / 16) (128 + 16 * rb) with
      | .bad addr p => .error (.trap { info 0x10 addr false false with entry := if p then some addr.toNat else none })
      | .refused addr c win far met => .error (.trap { info c addr win far with bad := met })
      | .hold addr => .error (.hold addr 1 (info 0x10 addr false false))
      | .entry e =>
        let a := dw (bits e.toNat 47 0)
        .ok { token := t, row := a + dw (128 + t % 16 * rb), bytes := rb, block := some (a, t % 16) }

/-- The tokens that a load of `size` bytes at an aperture offset covers. -/
def tokensOf (v : ViewReg) (off size : Nat) : List Nat :=
  (List.range ((off + size - 1) / v.rowBytes + 1 - off / v.rowBytes)).map (fun i => off / v.rowBytes + i)

/-- The tokens of a load with their places, or the first verdict that stops it. -/
def findTokens (s : State) (tid : Nat) (v : ViewReg) (va : DWord) (size : Nat) : List Nat → Except Verdict (List Token)
  | [] => .ok []
  | t :: ts =>
    match findToken s tid v va size t with
    | .error x => .error x
    | .ok k => (findTokens s tid v va size ts).map (fun l => k :: l)

/-- The checks of a load from a VIEW page past check 5 of R208: the binding, the entry of each token, then the bytes of each latent row
(R374). -/
def viewVerdict (s : State) (tid : Nat) (va : DWord) (size : Nat) : Verdict :=
  match viewAt s (teamOf tid) va with
  | none => s.trapAt 0x11 va (mkFlags size .global false (isBurin tid) false false false false false)
  | some (_, v) =>
    match findTokens s tid v va size (tokensOf v (va.toNat % 2 ^ 40) size) with
    | .error x => x
    | .ok ks => (rangeVerdict s tid .load true false false false (ks.flatMap (fun k => pieces k.row.toNat k.bytes))).sized size

/-- The bound table slot of a view, with the bytes of its blocks. -/
def viewTable (s : State) (uid : Nat) (v : ViewReg) : Option (TSlot × Nat) :=
  (v.tslot.bind (fun sl => mfind (s.team uid).tslots sl)).map (fun b => (b, 128 + 16 * rowPitch v.cols (v.es s uid)))

/-- The entries that a load through a view reads stay in the block translation cache (R370). -/
def fillTokens (s : State) (tid : Nat) (v : ViewReg) : List Nat → State
  | [] => s
  | t :: ts =>
    let team := s.team (teamOf tid)
    let s1 := match viewTable s (teamOf tid) v with
      | none => s
      | some (b, span) =>
        (match lookupBlock s tid b (t / 16) span with
         | .entry e => fillBlock (noteLookup tid b span s (t / 16)) team.coreId team.ctx b (t / 16) e
         | _ => s)
    fillTokens s1 tid v ts

/-- The lookups of a load through a view that is stopped at one of them. -/
def noteView (s : State) (tid : Nat) (va : DWord) (size : Nat) : State :=
  match viewAt s (teamOf tid) va with
  | none => s
  | some (_, v) =>
    match viewTable s (teamOf tid) v with
    | none => s
    | some (b, span) => noteBlocks tid b span s ((tokensOf v (va.toNat % 2 ^ 40) size).map (fun t => t / 16))

/-- The entries of a view load of one lane are held by the block translation cache. -/
def fillView (size : Nat) (s : State) (tid : Nat) (va : DWord) : State :=
  match viewAt s (teamOf tid) va with
  | none => s
  | some (_, v) => fillTokens s tid v (tokensOf v (va.toNat % 2 ^ 40) size)

/-- The translations of the pages of memory that the rows of some tokens lie on. -/
def tokenPages (s : State) (tid : Nat) (ks : List Token) : SMap (DWord × Nat) :=
  let t := s.team (teamOf tid)
  (ks.flatMap (fun k => pieces k.row.toNat k.bytes)).foldl (fun m p =>
    match checkPage s t.coreId t.ctx (teamOf tid) (dw p.1) 1 .load true false with
    | .at (.phys _) e size => mput m (p.1 % 2 ^ 64 / 65536) (e, size)
    | _ => m) []

/-- What a load through a view has to read, its tokens where the table entries say (R373, R374). -/
def viewRead (s : State) (tid : Nat) (va : DWord) (size : Nat) : Option ViewRead :=
  (viewAt s (teamOf tid) va).bind (fun p =>
    match findTokens s tid p.2 va size (tokensOf p.2 (va.toNat % 2 ^ 40) size) with
    | .ok ks => some { k := p.1, view := p.2, tokens := ks, off := va.toNat % 2 ^ 40, size := size, pages := tokenPages s tid ks }
    | .error _ => none)

/-- Where a load through a view finds the bytes of its rows: under the translations that it took at issue (R207, R433). -/
def ViewRead.places (s : State) (uid : Nat) (r : ViewRead) : Places := fun va =>
  match mfind r.pages (va.toNat / 65536) with
  | some (e, size) => some (.phys (leafPhys e size va.toNat))
  | none => threadPlaces s (s.team uid).coreId (s.team uid).ctx uid va
/-- Whether it finds a byte on a page of domain system. -/
def ViewRead.home (s : State) (uid : Nat) (r : ViewRead) : DWord → Bool := fun va =>
  match mfind r.pages (va.toNat / 65536) with
  | some (e, _) => decide (leafDomain e = 1)
  | none => threadHome s (s.team uid).coreId (s.team uid).ctx uid va

/-- Whether a view register still holds a binding as a load took it: the press's rows of it are then the load's (R247, R375). -/
def holdsView (s : State) (uid : Nat) (r : ViewRead) : Bool := decide (mfind (s.team uid).views r.k = some r.view)

/-- One token's projected row for a load by a thread of a group: held by the press, or computed now and held, unless an acquire of the team has passed its
first read; what is left of the latent row is read now, as loads of that thread (R229, R247, R374, R375). The state, the bytes, whether they are poisoned.
DESIGN CHOICE, log 89: a row that is computed raises the events of all its outputs, whatever part the load takes; one that the press holds raises none. -/
def projectToken (s : State) (gid uid : Nat) (r : ViewRead) (t : Token) : State × List Byte × Bool :=
  let team := s.team uid
  let core := team.coreId
  let pl := r.places s uid
  match (s.core core).press.find? (fun h => holdsView s uid r && decide (h.team = uid ∧ h.k = r.k ∧ h.token = t.token)) with
  | some h => (s, h.row, false)
  | none =>
    let x := ownGranules gid pl s r.got t.granules
    let s0 := noteRow x.1 pl x.2 (r.home s uid) (core / 256) t
    match readRow x.1 pl x.2 team.ctx (slotFmt (slotWord s uid r.view.lslot)) r.view.cols t with
    | none => (s0, List.replicate r.view.rowBytes 0, true)
    | some (scale, payload, ws) =>
      let x := pressRow s uid r.view scale payload
      let s1 := raiseMatrix none uid 0 (countConfined s0 core team.ctx ws) x.2
      (if holdsView s uid r && r.fresh then
         s1.modCore core (fun c => { c with press := ({ team := uid, k := r.k, token := t.token, row := x.1 } :: c.press).take 64 })
       else s1, x.1, false)

/-- The rows of several tokens, with the first token whose row is poisoned. -/
def projectTokens (gid uid : Nat) (r : ViewRead) : State → List Token → State × List Byte × Option Nat
  | s, [] => (s, [], none)
  | s, t :: ts =>
    let x := projectToken s gid uid r t
    let q := projectTokens gid uid r x.1 ts
    (q.1, x.2.1 ++ q.2.1, if x.2.2 then some t.token else q.2.2)

/-- The bytes of a load through a view: what it has not read of its rows is read now. With them the first token whose row is poisoned, if one is. -/
def viewLoad (s : State) (gid uid : Nat) (r : ViewRead) : State × List Byte × Option Nat :=
  let x := projectTokens gid uid r s r.tokens
  (x.1, (x.2.1.drop (r.off % r.view.rowBytes)).take r.size, x.2.2)

/-- A load through a view reads what is left of its rows: its data stands ready to return. -/
def finishView (s : State) (id : Nat) : State :=
  match s.loads.find? (fun l => l.id = id) with
  | none => s
  | some l =>
    match l.parts with
    | none => s
    | some r =>
      let x := viewLoad s (grpOf l.tid) (teamOf l.tid) r
      x.1.modLoad id (fun l => { l with value := some (leNat x.2.1), poison := x.2.2.isSome, parts := none })

def finishViews : State → List Nat → State
  | s, [] => s
  | s, i :: is => finishViews (finishView s i) is

/-- The loads through views that some threads have begun are read to their end: before another chain of theirs issues (R247). -/
def finishLanes (s : State) (tids : List Nat) : State :=
  finishViews s ((s.loads.filter (fun l => tids.contains l.tid && l.parts.isSome)).map (fun l => l.id))

end Sys2Proof.Machine
end

