-- ==== Sys2Proof/Machine/Engine.lean ====
section
/-! DEFINITION. The streamer and the walkers' copy channel: what a request moves, beat by beat, its registrations, its holds at
replayable faults and its end (R209, R225, R239 to R241, R290 to R298, R377, R378, R409, R410). -/

namespace Sys2Proof.Machine

/-! ### View units in use (R386) -/

/-- Whether a load or request still uses a view's binding (R386). -/
def bindingUsed (s : State) (b : Nat) : Bool :=
  s.loads.any (fun l => decide (l.view.map Prod.snd = some b)) ||
  s.requests.any (fun r => match r.op with
    | .walk _ _ _ _ v _ _ => decide (v.binding = b)
    | _ => false)

/-- Units of unbound views return to the pool when their last load or walk has completed (R386). -/
def freeUnits (s : State) (uid : Nat) : State :=
  let old := (s.team uid).oldUnits
  if old.isEmpty then s else s.modTeam uid (fun t => { t with oldUnits := old.filter (fun p => bindingUsed s p.1) })

/-! ### Replayable faults (R209, R409) -/

def pageBase (a : DWord) : DWord := a &&& ~~~0xFFFF#64

/-- Whether a request of a context is held on a page of a die. -/
def heldOn (s : State) (die ctx : Nat) (page : DWord) : Bool :=
  let mine (uid : Nat) : Bool := (s.team uid).die = die && (s.team uid).ctx = ctx
  s.threads.any (fun p => (match p.2.cond with
    | .blocked (.replay q _) => decide (pageBase q = page)
    | _ => false) && mine (teamOf p.1)) ||
  s.requests.any (fun r => decide (r.die = die ∧ r.ctx = ctx) && decide (r.held.map pageBase = some page)) ||
  s.teams.any (fun p => decide (p.2.die = die ∧ p.2.ctx = ctx) && p.2.queue.any (fun e => decide (e.held.map pageBase = some page)))

/-- An entry for a die's replay ring (R409). -/
def replayEntry (page : DWord) (ctx requester access : Nat) (pc : DWord) (seq : Nat) : List Byte :=
  leBytes 8 page.toNat ++ leBytes 1 ctx ++ leBytes 1 requester ++ leBytes 1 access ++ leBytes 5 0 ++ leBytes 8 pc.toNat ++ leBytes 8 seq

/-- One page reported, or kept until an entry fits (R427): a report of the same page that still waits gives way to it (R409). -/
def reportPage (s : State) (die : Nat) (r : Nat × DWord × Nat × Nat × DWord) : State :=
  let n := 0x5000 + 64 * die
  let others (d : Die) : List (Nat × DWord × Nat × Nat × DWord) := d.unreported.filter (fun o => !(decide (o.1 = r.1) && decide (o.2.1 = r.2.1)))
  match ringPush s (n + 3) (n + 4) 32 (replayEntry r.2.1 r.1 r.2.2.1 r.2.2.2.1 r.2.2.2.2 (s.die die).replaySeq) with
  | some s1 => s1.modDie die (fun d => { d with replaySeq := d.replaySeq + 1, unreported := others d })
  | none => s.modDie die (fun d => { d with unreported := others d ++ [r] })

/-- A page that a request newly meets is reported once while any request is held on it. -/
def reportReplay (s : State) (die ctx : Nat) (page : DWord) (requester access : Nat) (pc : DWord) : State :=
  if heldOn s die ctx (pageBase page) then s else reportPage s die (ctx, pageBase page, requester, access, pc)

/-- Reports that wait for room in a ring are tried again, those whose page nobody is held on any more dropped. -/
def flushReports (s : State) (die : Nat) : State :=
  let old := (s.die die).unreported
  old.foldl (fun s r => if heldOn s die r.1 r.2.1 then reportPage s die r else s) (s.modDie die (fun d => { d with unreported := [] }))

/-! ### Registrations -/

/-- The registrations of requests withdrawn from their barriers. -/
def withdraw (failed : Bool) : State → List Reg → State
  | s, [] => s
  | s, r :: rs => withdraw failed (landBytes s r.team r.k r.left failed) rs

def withdrawAll (failed : Bool) : State → List Request → State
  | s, [] => s
  | s, r :: rs => withdrawAll failed (withdraw failed s r.regs) rs

/-! ### The pieces of a beat -/

/-- A source or destination of a piece. -/
inductive Ref where
  | global (a : Nat)
  | own (off : Nat)
  | window (rank off : Nat)
  | data (bytes : List Byte) (bad : Bool)
  deriving DecidableEq, Repr

def Ref.plus : Ref → Nat → Ref
  | .global a, n => .global (a + n)
  | .own o, n => .own (o + n)
  | .window r o, n => .window r (o + n)
  | .data bs b, n => .data (bs.drop n) b

/-- A source, a destination and a length. -/
abbrev Piece := Ref × Ref × Nat

/-- The part of [start, start + n) that lies in its g-th aligned 32-byte granule: first byte and length. -/
def granule (start n g : Nat) : Nat × Nat :=
  let lo := max start ((start / 32 + g) * 32)
  (lo, min (start + n) ((start / 32 + g + 1) * 32) - lo)

/-- How many granules a range touches. -/
def granules (start n : Nat) : Nat := (start % 32 + n + 31) / 32

def spaceRef : Space → Nat → Ref
  | .global a, _ => .global a.toNat
  | .own o, _ => .own o
  | .window ranks o, i => .window (ranks.getD i 0) o

/-- The place of a space that its alignment is taken from. -/
def Space.base : Space → Nat
  | .global a => a.toNat
  | .own o => o
  | .window _ o => o

def Space.members : Space → Nat
  | .window ranks _ => ranks.length
  | _ => 1

/-! ### Tensor copies (R296) -/

/-- Bytes of an element of a slot's format in a tensor copy. -/
def elemSize (f : Fmt) : Nat := match f with
  | .f32 => 4
  | .bf16 => 2
  | .f16 => 2
  | _ => 1

/-- Sizes of dimensions as the record means them: those at or above the rank act as 1, 1, 0. -/
def Layout.dim (l : Layout) (j : Nat) : Nat := if j < l.rank then l.dims.getD j 1 else 1
def Layout.boxOf (l : Layout) (j : Nat) : Nat := if j < l.rank then l.box.getD j 1 else 1
def Layout.coord (l : Layout) (j : Nat) : Int := if j < l.rank then l.coords.getD j 0 else 0
def Layout.stride (l : Layout) (j : Nat) : Nat := l.strides.getD (j - 1) 0

/-- Rows of the box: elements with one index in every dimension but the first. -/
def Layout.rowCount (l : Layout) : Nat := l.boxOf 1 * l.boxOf 2 * l.boxOf 3 * l.boxOf 4

/-- The coordinates of a row in dimensions 1 to 4. -/
def Layout.rowCoord (l : Layout) (row j : Nat) : Int :=
  let i := match j with
    | 1 => row % l.boxOf 1
    | 2 => row / l.boxOf 1 % l.boxOf 2
    | 3 => row / (l.boxOf 1 * l.boxOf 2) % l.boxOf 3
    | _ => row / (l.boxOf 1 * l.boxOf 2 * l.boxOf 3)
  l.coord j + i

/-- The address of element 0 of the tensor's row that a box row lies on, none when the row is out of bounds. -/
def Layout.rowAddr (l : Layout) (row : Nat) : Option Nat :=
  if [1, 2, 3, 4].all (fun j => decide (0 ≤ l.rowCoord row j) && decide (l.rowCoord row j < l.dim j)) then
    some ((l.base.toNat + ([1, 2, 3, 4].map (fun j => l.stride j * (l.rowCoord row j).toNat)).sum) % 2 ^ 64)
  else none

/-- The elements of a box row that are in bounds in dimension 0: first and count. -/
def Layout.span (l : Layout) : Nat × Nat :=
  let lo : Int := max 0 (-(l.coord 0))
  let hi : Int := min (l.boxOf 0) ((l.dim 0 : Int) - l.coord 0)
  (lo.toNat, (hi - lo).toNat)

/-- Swz of R296 and its inverse, on offsets in the box. -/
def swz (w s : Nat) : Nat :=
  if w = 0 then s
  else
    let g := 2 ^ (w + 1)
    let c := s / 16 % g
    let r := s / (16 * g) % g
    s - 16 * c + 16 * ((c + r) % g)
def unswz (w s : Nat) : Nat :=
  if w = 0 then s
  else
    let g := 2 ^ (w + 1)
    let c := s / 16 % g
    let r := s / (16 * g) % g
    s - 16 * c + 16 * ((c + g - r) % g)

/-- The fill pattern of one element. -/
def fillBytes (f : Fmt) (nan : Bool) : List Byte :=
  if !nan then List.replicate (elemSize f) 0
  else
    match f with
    | .t8 _ => leBytes 1 0x80
    | f => leBytes (elemSize f) (floatPattern f .nan)

/-- The source of the 16-byte chunk at dense offset `o`: fill before, elements, fill after. -/
def chunkSource (l : Layout) (f : Fmt) (o : Nat) (dst : Ref) : List Piece :=
  let es := elemSize f
  let rowLen := l.boxOf 0 * es
  let row := o / rowLen
  let e0 := o % rowLen / es
  let n := 16 / es
  let fill (k : Nat) : Ref := .data ((List.replicate k (fillBytes f l.fill)).flatten) false
  let sp := l.span
  match l.rowAddr row with
  | none => [(fill n, dst, 16)]
  | some a =>
    let lo := max e0 sp.1
    let hi := min (e0 + n) (sp.1 + sp.2)
    if hi ≤ lo then [(fill n, dst, 16)]
    else
      [(fill (lo - e0), dst, (lo - e0) * es),
       (.global ((a + es * (l.coord 0 + lo).toNat) % 2 ^ 64), dst.plus ((lo - e0) * es), (hi - lo) * es),
       (fill (e0 + n - hi), dst.plus ((hi - e0) * es), (e0 + n - hi) * es)]

/-- The part of a run of pieces between two offsets in it, the first piece lying at `pos`. -/
def clip (lo hi : Nat) : Nat → List Piece → List Piece
  | _, [] => []
  | pos, (x, y, n) :: ps =>
    let a := max lo pos
    let b := min hi (pos + n)
    (if a < b then [(x.plus (a - pos), y.plus (a - pos), b - a)] else []) ++ clip lo hi (pos + n) ps

/-- Bytes of a box. -/
def Layout.bytes (l : Layout) (f : Fmt) : Nat := l.boxOf 0 * l.rowCount * elemSize f

/-- Beats that a row of `n` bytes can need. -/
def rowBeats (n : Nat) : Nat := (n + 62) / 32

/-- Dense bytes [o, o + n) of an own scratchpad box, cut where the swizzle may move them. -/
def denseSource (l : Layout) (own o : Nat) (dst : Ref) : Nat → Nat → List Piece
  | 0, _ => []
  | fuel + 1, n =>
    if n = 0 then []
    else
      let k := min n (16 - o % 16)
      (.own (own + swz l.swizzle o), dst, k) :: denseSource l own (o + k) (dst.plus k) fuel (n - k)

/-- Bytes of a row that a walk writes (R378). -/
def walkLen (f : Fmt) (v : ViewReg) (through : Bool) : Nat := if through then v.rowBytes else 16 + rowPitch v.cols (viewEs f)

/-- How many beat numbers a request has. -/
def beatCount (f : Fmt) : ReqOp → Nat
  | .linear count _ dst => granules dst.base count * dst.members
  | .tensor false lay sc _ => granules sc.base (lay.bytes f) * sc.members
  | .tensor true lay _ _ => lay.rowCount * rowBeats (lay.boxOf 0 * elemSize f)
  | .walk _ _ tokens _ v _ through =>
    tokens.length * rowBeats (walkLen f v through)

/-- The pieces of a beat; none for a beat number that moves nothing. `row` gives a walk's row with its poisoned runs. -/
def beatPieces (f : Fmt) (row : Nat → List Byte × List (Nat × Nat)) (op : ReqOp) (b : Nat) : List Piece :=
  match op with
  | .linear count src dst =>
    let n := granules dst.base count
    let g := granule dst.base count (b % n)
    [((spaceRef src 0).plus (g.1 - dst.base), (spaceRef dst (b / n)).plus (g.1 - dst.base), g.2)]
  | .tensor false lay sc _ =>
    let n := granules sc.base (lay.bytes f)
    let g := granule sc.base (lay.bytes f) (b % n)
    let lo := g.1 - sc.base
    (List.range 3).flatMap (fun i =>
      let o := (lo / 16 + i) * 16
      clip (max lo o - o) (min (lo + g.2) (o + 16) - o) 0 (chunkSource lay f (unswz lay.swizzle o) ((spaceRef sc (b / n)).plus o)))
  | .tensor true lay _ own =>
    let es := elemSize f
    let per := rowBeats (lay.boxOf 0 * es)
    let sp := lay.span
    match lay.rowAddr (b / per) with
    | none => []
    | some a0 =>
      let a := (a0 + es * (lay.coord 0 + sp.1).toNat) % 2 ^ 64
      let g := granule a (sp.2 * es) (b % per)
      denseSource lay own (b / per * lay.boxOf 0 * es + sp.1 * es + (g.1 - a)) (.global g.1) 3 g.2
  | .walk dest stride tokens start v _ through =>
    let len := walkLen f v through
    let per := rowBeats len
    match tokens[b / per]? with
    | none => []
    | some (t, _) =>
      let d := dest + (t - start) * stride
      let g := granule d len (b % per)
      if g.2 = 0 then []
      else
        let r := row (b / per)
        [(.data (r.1.drop (g.1 - d)) (r.2.any (fun x => decide (x.1 < g.1 - d + g.2) && decide (g.1 - d < x.1 + x.2))), .own g.1, g.2)]

/-! ### Places of a request -/

/-- Whether two teams belong to one cluster (R60). -/
def sameCluster (a b : Team) : Bool :=
  decide (a.grid = b.grid) && decide (a.teamIx.toNat / (a.w * a.h) = b.teamIx.toNat / (b.w * b.h))

/-- The format that a request's elements have. -/
def Request.fmt (s : State) (r : Request) : Fmt :=
  match r.op with
  | .linear _ _ _ => .n8
  | .tensor _ lay _ _ => slotFmt (slotWord s r.team lay.slot)
  | .walk _ _ _ _ v _ _ => slotFmt (slotWord s r.team v.lslot)

def Request.coreId (r : Request) : Nat := r.die * 256 + r.core

/-- What making the translations of a beat finds. -/
inductive Reach where
  | ok (pages : SMap (DWord × Nat))
  | hold (page : DWord) (access : Nat)
  /-- refused, with the malformed entry met (R201) -/
  | fail (bad : Option Nat)
  deriving DecidableEq, Repr

/-- The translation of one global piece: taken before, its permission checked, or taken now (R207 to R209). -/
def reachPage (s : State) (r : Request) (pages : SMap (DWord × Nat)) (a : Nat) (write : Bool) : Reach :=
  let k := a % 2 ^ 64 / 65536
  match mfind pages k with
  | some (e, _) => if (if write then leafWrite e else leafRead e) then .ok pages else .fail none
  | none =>
    match checkPage s r.coreId r.ctx r.team (dw a) 1 (if write then .engineWrite else .engineRead) (!write) write with
    | .at _ e size => .ok (mput pages k (e, size))
    | .hold p => .hold p (if write then 2 else 1)
    | .trap _ _ _ bad => .fail bad
    | .view _ => .fail none

def reachPages (s : State) (r : Request) : SMap (DWord × Nat) → List (Nat × Bool) → Reach
  | pages, [] => .ok pages
  | pages, (a, w) :: l =>
    match reachPage s r pages a w with
    | .ok p => reachPages s r p l
    | x => x

/-- The global bytes that the pieces of a beat touch, with whether they are written. -/
def touchedPages (ps : List Piece) : List (Nat × Bool) :=
  ps.flatMap (fun p =>
    let one (x : Ref) (w : Bool) : List (Nat × Bool) := match x with
      | .global a => if p.2.2 = 0 then [] else [(a, w), (a + p.2.2 - 1, w)]
      | _ => []
    one p.1 false ++ one p.2.1 true)

/-- The member of a team's cluster with a rank, in whatever condition. -/
def anyMember (s : State) (uid rank : Nat) : Option (Nat × Team) :=
  s.teams.find? (fun p => sameCluster p.2 (s.team uid) && decide (p.2.clRank = rank))

/-- The place that a copy or drain, past its check at issue, has in a member's window: until the member has left, be it dying, and not while it is
evicted (R219, R220). -/
def windowPlace (s : State) (uid rank off : Nat) : Option Loc :=
  (anyMember s uid rank).bind (fun m => if m.2.joined && decide (m.2.life ≠ .evicted) then some (.scratch m.1 off) else none)

/-- Where a request finds each global byte: under the translations that it has taken (R207). -/
def Request.places (r : Request) : Places := fun va => (mfind r.pages (va.toNat / 65536)).map (fun p => Loc.phys (leafPhys p.1 p.2 va.toNat))

/-- The place of a reference; a member that has failed in the request takes no further byte (R297). -/
def refLoc (s : State) (r : Request) : Ref → Option Loc
  | .global a => r.places (dw a)
  | .own o => some (.scratch r.team o)
  | .window rank o => if r.failed.testBit rank then none else windowPlace s r.team rank o
  | .data _ _ => none

/-- Whether a global place lies on a page of domain system, whose accesses are performed at the home slice (R267). -/
def refAtHome (r : Request) : Ref → Bool
  | .global a => (mfind r.pages (a % 2 ^ 64 / 65536)).any (fun p => decide (leafDomain p.1 = 1))
  | _ => false

/-- The granule of a byte of a source, as a request numbers those that it reads: by virtual address / 32, and above them those of the issuing team's
scratchpad (R225). -/
def Ref.granule : Ref → Option Nat
  | .global a => some (a % 2 ^ 64 / 32)
  | .own o => some (2 ^ 59 + o / 32)
  | _ => none
/-- The reference to a granule by its number. -/
def granuleRef (g : Nat) : Ref := if g < 2 ^ 59 then .global (32 * g) else .own (32 * (g - 2 ^ 59))
/-- The offset of a reference, as alignment counts it. -/
def Ref.start : Ref → Nat
  | .global a => a
  | .own o => o
  | .window _ o => o
  | .data _ _ => 0
/-- A source cut at its granules: each part with its first byte and length. -/
def Ref.parts (x : Ref) (n : Nat) : List (Ref × Nat) := (cuts 32 x.start n).map (fun c => (x.plus (c.1 - x.start), c.2))

/-- A granule of a source as a request finds it: as it has read it, else as it stands. -/
def sourceGranule (s : State) (r : Request) (g : Nat) : Granule :=
  match mfind r.got g, refLoc s r (granuleRef g) with
  | some x, _ => x
  | none, some l => takeGranule s l
  | none, none => { bytes := List.replicate 32 0, bad := true }

/-- The bytes of a source with their poison, granule by granule: each read as one beat, at its own page's place (R225, R294, R296). -/
def refBytes (s : State) (r : Request) (x : Ref) (n : Nat) : List Byte × Bool :=
  match x with
  | .data bs bad => (bs.take n, bad)
  | x =>
    let gs := (x.parts n).map (fun p =>
      let g := sourceGranule s r ((p.1.granule).getD 0)
      ((g.bytes.drop (p.1.start % 32)).take p.2, g.bad))
    (gs.flatMap Prod.fst, gs.any Prod.snd)

/-- The granules that a beat reads. -/
def sourceGranules (ps : List Piece) : List Nat := ps.flatMap (fun p => (p.1.parts p.2.2).filterMap (fun x => x.1.granule))

/-! ### Walk rows (R378) -/

/-- The latent row of a walk's token in its block. -/
def walkToken (f : Fmt) (v : ViewReg) (t : Nat) (block : DWord) : Token :=
  let rb := rowPitch v.cols (viewEs f)
  { token := t, row := block + dw (128 + t % 16 * rb), bytes := rb, block := some (block, t % 16) }

/-- Where in a row its poisoned parts lie, from an offset on: first byte and length. -/
def badParts : Nat → List RowPart → List (Nat × Nat)
  | _, [] => []
  | o, p :: ps => (if p.bad then [(o, p.bytes.length)] else []) ++ badParts (o + p.bytes.length) ps

/-- The row of a walk's token: its bytes and the runs of them that are poisoned. Through the view it is a row of the press, poisoned as a whole where the
press cannot form it; else it is the scale and the payload, of which each granule is poisoned for itself (R274, R363, R364, R378). DESIGN CHOICE, log 100: a
row projected for a walk is neither taken from the rows that the press holds nor held among them. -/
def walkRow (s : State) (r : Request) (v : ViewReg) (through : Bool) (t : Nat) (block : DWord) : State × List Byte × List (Nat × Nat) :=
  let f := slotFmt (slotWord s r.team v.lslot)
  let tok := walkToken f v t block
  let len := walkLen f v through
  let s0 := noteRow s r.places r.got (fun va => refAtHome r (.global va.toNat)) r.die tok
  if through then
    match readRow s r.places r.got r.ctx f v.cols tok with
    | none => (s0, List.replicate len 0, [(0, len)])
    | some (scale, payload, ws) =>
      let p := pressRow s r.team v scale payload
      (raiseMatrix none r.team 0 (countConfined s0 r.coreId r.ctx ws) p.2, p.1, [])
  else
    match rowScale s r.places r.got f v.cols tok with
    | none => (s0, List.replicate len 0, [(0, len)])
    | some (scale, past) =>
      let head := leBytes 4 scale.toNat ++ List.replicate 12 0
      if past then (s0, head ++ List.replicate tok.bytes 0, [])
      else
        let ps := rowParts s r.places r.got r.ctx f tok
        (countConfined s0 r.coreId r.ctx (ps.flatMap RowPart.words), head ++ ps.flatMap RowPart.bytes, badParts 16 ps)

/-! ### Landing -/

def State.request (s : State) (id : Nat) : Option Request := s.requests.find? (fun r => r.id = id)
def State.modRequest (s : State) (id : Nat) (f : Request → Request) : State :=
  { s with requests := s.requests.map (fun r => if r.id = id then f r else r) }
def State.dropRequest (s : State) (id : Nat) : State := { s with requests := s.requests.filter (fun r => decide (r.id ≠ id)) }

/-- A dependence-graph node marked as ended with a status: 0 finished, else the failure (R76). -/
def markNode (s : State) (ctx : Nat) (addr : DWord) (status : Nat) : State :=
  { s with nodes := s.nodes.map (fun n => if n.ctx = ctx ∧ n.addr = addr then { n with done := some status } else n) }

/-- A request fails for good: no further byte, its registrations withdrawn with an error (R410). -/
def failRequest (s : State) (id : Nat) : State :=
  match s.request id with
  | none => s
  | some r =>
    let s1 := freeUnits (withdraw true (s.dropRequest id) r.regs) r.team
    match r.node with
    | some a => markNode s1 r.ctx a 0x1FF
    | none => s1

/-- The failed-member mask written to the record of a multicast (R297). -/
def writeMask (s : State) (r : Request) : State :=
  if r.multicast then writeBytes s (.scratch r.team (r.record + 34)) (leBytes 2 r.failed) else s

/-- The wait and the acquire before a request's first read (R239). -/
def startRequest (s : State) (id : Nat) : State :=
  match s.request id with
  | none => s
  | some r =>
    if r.ready then s
    else
      let gid := grpOf r.tid
      let s1 := if r.acquire && r.node.isNone then engineAcquire (leaveN (r.before - (s.group gid).left) s gid) r.team r.scope else s
      writeMask (s1.modRequest id (fun r => { r with ready := true })) r

/-- One read beat: a granule of a source read and kept, if it has not been (R223, R225). -/
def readBeat (s : State) (id g : Nat) : State :=
  match s.request id with
  | none => s
  | some r =>
    if (mfind r.got g).isSome then s
    else
      match refLoc s r (granuleRef g) with
      | none => s
      | some l =>
        (if refAtHome r (granuleRef g) then noteHomeReads s l 32 else noteReads s r.die l 32).modRequest id
          (fun q => { q with got := mput q.got g (takeGranule s l) })

/-- One piece written at its destination. -/
def landPiece (s : State) (r : Request) (p : Piece) : State :=
  match refLoc s r p.2.1 with
  | none => s
  | some l =>
    let d := refBytes s r p.1 p.2.2
    if p.2.2 = 0 then s
    else writeBeat (if refAtHome r p.2.1 then noteHome s l else noteWrite s r.die l) l d.1 d.2

def landPieces : State → Request → List Piece → State
  | s, _, [] => s
  | s, r, p :: ps => landPieces (landPiece s r p) r ps

/-- The granule that the pieces of a beat write whole, with data that is not poisoned (R274). -/
def wholeGranule (s : State) (r : Request) (ps : List Piece) : Option Loc :=
  let qs := ps.filter (fun p => decide (p.2.2 ≠ 0))
  if (qs.map (fun p => p.2.2)).sum = 32 ∧ qs.all (fun p => !(refBytes s r p.1 p.2.2).2) then
    (qs.head?.bind (fun p => refLoc s r p.2.1)).filter (fun l => decide (l.granule = 0))
  else none

/-- A beat written: a granule that it writes whole loses its poison. -/
def landWhole (s : State) (r : Request) (ps : List Piece) : State :=
  match wholeGranule s r ps with
  | some l => setPoison (landPieces s r ps) l false
  | none => landPieces s r ps

/-- The bytes of pieces whose destination still takes them. -/
def landedBytes (s : State) (r : Request) (ps : List Piece) : Nat :=
  (ps.map (fun p => if (refLoc s r p.2.1).isSome then p.2.2 else 0)).sum

/-- The team on whose barrier the pieces of a beat count: the member of a window destination, else the issuing team (R290). -/
def countTeam (s : State) (r : Request) (ps : List Piece) : Nat :=
  match (ps.head?.map (fun (p : Piece) => p.2.1) : Option Ref) with
  | some (Ref.window rank o) => (match windowPlace s r.team rank o with
    | some (.scratch m _) => m
    | _ => r.team)
  | _ => r.team

/-- Landed bytes subtracted from a registration and its barrier. -/
def countLanded (s : State) (id team n : Nat) : State :=
  match (s.request id).bind (fun r => r.regs.find? (fun g => g.team = team)) with
  | none => s
  | some g =>
    let k := min n g.left
    landBytes (s.modRequest id (fun r => { r with regs := r.regs.map (fun x => if x = g then { x with left := x.left - k } else x) })) team g.k k false

/-- A walk's row is formed before its first beat lands. -/
def formRow (s : State) (r : Request) (b : Nat) : State × (List Byte × List (Nat × Nat)) :=
  match r.op with
  | .walk _ _ tokens _ v _ through =>
    let i := b / rowBeats (walkLen (r.fmt s) v through)
    (match mfind r.rows i, tokens[i]? with
     | some x, _ => (s, x)
     | none, some (t, block) =>
       let w := walkRow s r v through t block
       (w.1.modRequest r.id (fun r => { r with rows := mput r.rows i w.2 }), w.2)
     | none, none => (s, ([], [])))
  | _ => (s, ([], []))

/-- The global bytes that a walk's row reads, for its holds (R378). -/
def walkReads (f : Fmt) (op : ReqOp) (b : Nat) : List (Nat × Bool) :=
  match op with
  | .walk _ _ tokens _ v _ through =>
    let rb := rowPitch v.cols (viewEs f)
    (match tokens[b / rowBeats (walkLen f v through)]? with
     | some (t, block) =>
       [(block.toNat, false), (block.toNat + 127, false), (block.toNat + 128 + t % 16 * rb, false),
        (block.toNat + 127 + (t % 16 + 1) * rb, false)]
     | none => [])
  | _ => []

/-- Whether a beat goes to the window of a member that is evicted: it waits (R220). -/
def awayTarget (s : State) (r : Request) (ps : List Piece) : Bool :=
  ps.any (fun p => match p.2.1 with
    | .window rank _ => (anyMember s r.team rank).any (fun m => m.2.joined && decide (m.2.life = .evicted))
    | _ => false)

/-- The unit that sends a request's beats (R418): the streamer's core, or the dependence-graph walker of a die. -/
def Request.unit (r : Request) : UnitId := if r.node.isSome then ⟨5, 256 * r.die + 1⟩ else ⟨1, r.coreId⟩

/-- The first global address that pieces name, for a record of a message dropped. -/
def firstGlobal (ps : List Piece) : Nat := ((touchedPages ps).head?.map Prod.fst).getD 0

/-- A beat whose streamer's core, or whose walker, has been declared dead since the request was sent is dropped and logged (R271). -/
def dropBeat (s : State) (r : Request) (b : Nat) (ps : List Piece) : State :=
  (logStale s r.unit (firstGlobal ps)).modRequest r.id (fun r => { r with done := sadd r.done b })

/-- A malformed page-table entry that a request met is recorded (R201). -/
def logBad (s : State) (r : Request) (bad : Option Nat) : State := logEntry s r.unit r.ctx bad

/-- A beat's pieces written, with a row of a walk as it has been formed, from the granules that the request holds: a write beat (R225, R241). -/
def landFormed (s : State) (id b : Nat) (row : List Byte × List (Nat × Nat)) : State :=
  match s.request id with
  | none => s
  | some r =>
    let ps := beatPieces (r.fmt s) (fun _ => row) r.op b
    let n := landedBytes s r ps
    countLanded ((landWhole s r ps).modRequest id (fun r => { r with wrote := r.wrote || decide (n ≠ 0) })) id (countTeam s r ps) n

/-- The beat of a request whose pages have been reached lands: what it has not read of its source is read now. -/
def landReached (s : State) (id b : Nat) : State :=
  match s.request id with
  | none => s
  | some r =>
    let w := formRow s r b
    landFormed (eachLane (fun s g => readBeat s id g) w.1 (sourceGranules (beatPieces (r.fmt s) (fun _ => w.2) r.op b))) id b w.2

/-- A beat lands (R241), or the request is held at a page or fails there. -/
def landBeat (s : State) (id b : Nat) : State :=
  match s.request id with
  | none => s
  | some r0 =>
    let f := r0.fmt s
    let ps0 := beatPieces f (fun _ => ([], [])) r0.op b
    if r0.held.isSome || r0.done.contains b || decide (r0.total ≤ b) || ps0.all (fun p => p.2.2 = 0) || awayTarget s r0 ps0 then s
    else if r0.inc ≠ incarnation s r0.unit then dropBeat s r0 b ps0
    else
      let s1 := startRequest s id
      match s1.request id with
      | none => s1
      | some r1 =>
        match reachPages s1 r1 r1.pages (touchedPages (beatPieces f (fun _ => ([], [])) r1.op b) ++ walkReads f r1.op b) with
        | .fail bad => failRequest (logBad s1 r1 bad) id
        | .hold p acc =>
          (reportReplay s1 r1.die r1.ctx p (if r1.node.isSome then 3 else 2) acc 0).modRequest id (fun r => { r with held := some p })
        | .ok pages => landReached (s1.modRequest id (fun r => { r with pages := pages, done := sadd r.done b })) id b

/-- Whether a granule is one of a request's source: of a walk's rows, or of a beat that has not landed. -/
def readsGranule (s : State) (r : Request) (g : Nat) : Bool :=
  match r.op with
  | .walk _ _ tokens _ v _ _ =>
    tokens.any (fun p => (walkToken (r.fmt s) v p.1 p.2).ranges.any (fun x => decide (x.1 / 32 ≤ g) && decide (32 * g < x.1 + x.2)))
  | op => (List.range r.total).any (fun b => !r.done.contains b && (sourceGranules (beatPieces (r.fmt s) (fun _ => ([], [])) op b)).contains g)

/-- A read beat of a request, ahead of the write beats that need it: a granule of a copy's source, or of the latents of a walk (R225, R375, R378). It
waits at a page that holds or refuses it for the write beat to say so; one of a unit that has been declared dead since is dropped (R271). -/
def readPart (s : State) (id g : Nat) : State :=
  match s.request id with
  | none => s
  | some r0 =>
    if r0.held.isSome || !readsGranule s r0 g || r0.inc ≠ incarnation s r0.unit then s
    else
      let s1 := startRequest s id
      match s1.request id with
      | none => s1
      | some r =>
        match reachPages s1 r r.pages (touchedPages [(granuleRef g, .data [] false, 32)]) with
        | .ok pages => readBeat (s1.modRequest id (fun r => { r with pages := pages })) id g
        | _ => s1

/-- A granule of latents read for a load through a view ahead of its end, as the loading thread reads it (R229, R375). -/
def viewPart (s : State) (id g : Nat) : State :=
  match s.loads.find? (fun l => l.id = id) with
  | none => s
  | some l =>
    match l.parts with
    | none => s
    | some r =>
      if r.tokens.any (fun t => t.granules.contains g) then
        let x := ownGranule s (grpOf l.tid) (r.places s (teamOf l.tid)) r.got g
        x.1.modLoad id (fun l => { l with parts := some { r with got := x.2 } })
      else s

/-- One granule read for the load through a view or the request that an identity names. -/
def latentPart (s : State) (id g : Nat) : State := readPart (viewPart s id g) id g

/-- Whether every beat that moves a byte has landed. -/
def allLanded (s : State) (r : Request) : Bool :=
  (List.range r.total).all (fun b => r.done.contains b ||
    (beatPieces (r.fmt s) (fun _ => ([], [])) r.op b).all (fun p => p.2.2 = 0))

/-- A request whose beats have all landed ends, and releases when its flag is set (R240). -/
def endRequest (s : State) (id : Nat) : State :=
  match s.request id with
  | none => s
  | some r =>
    if !allLanded s r || r.held.isSome then s
    else
      let s1 := (startRequest s id).dropRequest id
      let s2 := if r.release && r.node.isNone then endPrivatised s1 r.coreId r.scope else s1
      let s3 := freeUnits s2 r.team
      match r.node with
      | some a => markNode s3 r.ctx a 0
      | none => s3

/-- A request run to its end as far as no page holds it. -/
def runRequest (s : State) (id : Nat) : State :=
  match s.request id with
  | none => s
  | some r => endRequest (eachLane (fun s b => landBeat s id b) s (List.range r.total)) id

def runRequests : State → List Nat → State
  | s, [] => s
  | s, i :: is => runRequests (runRequest s i) is

/-! ### Leaving a sharing group (R219, R297) -/

/-- Whether a request writes a window of a member with a rank in a team's cluster. -/
def Request.toRank (r : Request) (rank : Nat) : Bool :=
  match r.op with
  | .linear _ _ (.window ranks _) => ranks.contains rank
  | .tensor false _ (.window ranks _) _ => ranks.contains rank
  | _ => false

/-- Whether a request has delivered the share of a member with a rank: every beat to its window has landed. -/
def shareDone (s : State) (r : Request) (rank : Nat) : Bool :=
  (List.range r.total).all (fun b => r.done.contains b || (beatPieces (r.fmt s) (fun _ => ([], [])) r.op b).all (fun p =>
    decide (p.2.2 = 0) || (match p.2.1 with
      | .window k _ => decide (k ≠ rank)
      | _ => true)))

/-- A leaving member fails in a multicast that has not delivered its share. -/
def failMember (s : State) (r : Request) (uid rank : Nat) : State :=
  if shareDone s r rank then s
  else match r.regs.find? (fun g => g.team = uid) with
  | none => writeMask (s.modRequest r.id (fun q => { q with failed := q.failed ||| 2 ^ rank })) { r with failed := r.failed ||| 2 ^ rank }
  | some g =>
    let s1 := s.modRequest r.id (fun q => { q with failed := q.failed ||| 2 ^ rank, regs := q.regs.filter (fun x => decide (x ≠ g)) })
    withdraw true (writeMask s1 { r with failed := r.failed ||| 2 ^ rank }) [g]

/-- How many entries of a queue of team `own` must leave before none accesses a window of or from team `uid`, its own among them. -/
def windowEntries (uid own : Nat) : List QEntry → Nat
  | [] => 0
  | e :: es =>
    let rest := windowEntries uid own es
    if rest ≠ 0 then rest + 1
    else
      match e.loc with
      | .scratch t _ => if e.flags.getLsbD 2 ∧ (t = uid ∨ own = uid) then 1 else 0
      | .phys _ => 0

/-- Window accesses in store queues, to or from a team, are performed (R219). -/
def drainWindows (s : State) (uid : Nat) : State :=
  s.groups.foldl (fun s p => leaveN (windowEntries uid (p.1 / 64) p.2.queue) s p.1) s

/-- Whether a request writes windows. -/
def Request.windows (r : Request) : Bool :=
  match r.op with
  | .linear _ _ (.window _ _) => true
  | .tensor false _ (.window _ _) _ => true
  | _ => false

/-- The copies that a leave waits for: those of a team to windows, and those of others to its window but for multicasts (R219, R297). -/
def windowCopies (s : State) (uid : Nat) : List Nat :=
  let t := s.team uid
  (s.requests.filter (fun r => r.node.isNone && ((decide (r.team = uid) && r.windows) ||
    (!r.multicast && sameCluster (s.team r.team) t && r.toRank t.clRank)))).map (fun r => r.id)

/-- Whether a drain to a window, of a team or to its own, stands in a matrix queue. -/
def windowDrain (s : State) (uid : Nat) : Bool :=
  let t := s.team uid
  s.teams.any (fun p => sameCluster p.2 t && p.2.queue.any (fun e => match e.op with
    | .drain _ d => decide (d.space = 2) &&
        (decide (p.1 = uid) || decide (d.dest.toNat / 2 ^ 21 = t.clRank) || decide (d.counter.toNat / 2 ^ 21 = t.clRank))
    | _ => false))

/-- Whether a leave must wait for a copy or a drain (R219). -/
def leaveWaits (s : State) (uid : Nat) : Bool := (s.team uid).joined && (!(windowCopies s uid).isEmpty || windowDrain s uid)

/-- What a leave waits for goes on as far as it can: window accesses in store queues, and copies no page holds. -/
def windUp (s : State) (uid : Nat) : State :=
  if (s.team uid).joined then let s1 := drainWindows s uid; runRequests s1 (windowCopies s1 uid) else s

/-- A team leaves its sharing group: what its windows or others' windows await runs to its end; in a multicast that has not delivered its
share it fails. -/
def leaveSharing (s0 : State) (uid : Nat) : State :=
  let t := s0.team uid
  if !t.joined then s0
  else
    let s1 := windUp s0 uid
    let toMe (r : Request) : Bool := r.multicast && r.node.isNone && sameCluster (s1.team r.team) t && r.toRank t.clRank
    let s2 := (s1.requests.filter toMe).foldl (fun s r => failMember s r uid t.clRank) s1
    s2.modTeam uid (fun t => { t with joined := false })

end Sys2Proof.Machine
end

