-- ==== Sys2Proof/Machine/Ops.lean ====
section
/-! DEFINITION. The shared operations of threads and teams: load data returning, rejoin registers, exits, holds at replayable
faults, taking an exception and returning from it, kills and fault records (R111 to R116, R147, R209, R398 to R414). -/

namespace Sys2Proof.Machine

/-- The address that R80 gives after a word. -/
def nextAddr (a : DWord) : DWord := if bits a.toNat 6 2 < 29 then a + 4 else (a &&& ~~~0x7F#64) + 128

/-- Whether a code address names an instruction slot (R80). -/
def badSlot (a : DWord) : Bool := decide (30 ≤ bits a.toNat 6 2)

/-! ### Load data -/

/-- The words of a value, low first. -/
def wordsOf (v n : Nat) : List Word := (List.range n).map (fun i => wd (v / 2 ^ (32 * i)))

/-- Registers set from a number on. -/
def Thread.setRegs (t : Thread) (c : Nat) : List Word → Thread
  | [] => t
  | w :: ws => Thread.setRegs (t.setReg c w) (c + 1) ws

/-- A value of `8 * size` bits extended as the size code tells (R87). -/
def extended (sz : BitVec 3) (w v : Nat) : BitVec w :=
  match sz.toNat with
  | 1 => (BitVec.ofNat 8 v).signExtend w
  | 3 => (BitVec.ofNat 16 v).signExtend w
  | _ => BitVec.ofNat w v

/-- What a load writes to its destination register (R277, R337); the latch apart. -/
def Thread.loaded (t : Thread) (burin n : Bool) (d : Code) (sz : BitVec 3) (v : Nat) : Thread :=
  if n then t
  else if burin then t.setG d.toNat (extended sz 64 v)
  else if d.toNat < 120 then
    (match sz.toNat with
     | 5 => t.setRegs d.toNat (wordsOf v 2)
     | 6 => t.setRegs d.toNat (wordsOf v 4)
     | _ => t.setReg d.toNat (extended sz 32 v))
  else t

/-- The data of a load or atomic returns to its destination and q3, or is reported as poisoned (R111, R401). -/
def returnLoad (s0 : State) (id : Nat) : State :=
  let s := finishView s0 id
  match s.loads.find? (fun l => l.id = id) with
  | none => s
  | some l =>
    match l.value with
    | none => s
    | some v =>
      let s1 := { s with loads := s.loads.filter (fun l => decide (l.id ≠ id)) }
      let burin := isBurin l.tid
      let t := s.thread l.tid
      let owner := decide (t.q3 = some id)
      let s2 :=
        if t.cond = .exited then s1
        else if l.poison then
          pendFault (s1.setThread l.tid { t with q3 := if owner then none else t.q3, latch := if owner then mdel t.latch 3 else t.latch })
            l.tid { cause := 0x19, addr := l.addr, word := l.word, flags := l.flags ||| 1, trapNo := l.trapNo }
        else
          let t1 := t.loaded burin l.n l.d l.sz v
          s1.setThread l.tid (if owner && !burin then { t1 with q3 := none, latch := mput t1.latch 3 (extended l.sz 32 v) } else t1)
      freeUnits s2 (teamOf l.tid)

def returnLoads : State → List Nat → State
  | s, [] => s
  | s, i :: is => returnLoads (returnLoad s i) is

/-- The outstanding loads of threads. -/
def loadsOf (s : State) (tids : List Nat) : List Load := s.loads.filter (fun l => tids.contains l.tid)

/-- Every result that threads of a group await returns: what a chain that reads all of them waits for (R102). -/
def settleThreads (s : State) (gid : Nat) (tids : List Nat) : State :=
  let s1 := if (loadsOf s tids).any (fun l => l.value.isNone && l.parts.isNone) then drainQueue s gid else s
  returnLoads s1 ((loadsOf s1 tids).map (fun l => l.id))

/-! ### Latches and sets -/

/-- A may-block word invalidates the latches of its threads before the chain's results (R112); those that earlier words of the
chain wrote stay. -/
def invalidate (s : State) (tids : List Nat) : State :=
  eachLane (fun s l => s.modThread l (fun t =>
    { t with latch := t.latch.filter (fun p => s.issue.kept.contains p.1), q3 := if s.issue.kept.contains 3 then t.q3 else none })) s tids

/-- Whether two threads of one group belong to one issue set (R101, R399). -/
def sameSet (a b : Thread) : Bool :=
  decide (a.cond = .ready) && decide (b.cond = .ready) && decide (a.pc = b.pc) && decide (a.trapping = b.trapping) &&
    (a.trapping.isNone || decide (a.trapNo = b.trapNo))

/-- Sets that stand at one PC have merged: their threads take the smallest stamp and rank (R103), and a side of rank 1 returns to rank 0 (R104):
two sets differ in stamp or rank. The threads `out`, which wait for data, belong to no set (R101). -/
def mergeSets (s : State) (gid : Nat) (out : List Nat) : State :=
  let mine := s.threads.filter (fun p => decide (grpOf p.1 = gid) && !out.contains p.1)
  let mates (t : Thread) : List (Nat × Thread) := mine.filter (fun q => sameSet q.2 t)
  { s with threads := s.threads.map (fun p =>
      if grpOf p.1 = gid ∧ p.2.cond = .ready ∧ p.1 ∉ out then
        (p.1, { p.2 with stamp := (mates p.2).foldl (fun m q => min m q.2.stamp) p.2.stamp
                         rank := if (mates p.2).all (fun q => decide (q.2.stamp = p.2.stamp ∧ q.2.rank = p.2.rank)) then p.2.rank else 0 })
      else p) }

/-! ### Rejoin registers (R114 to R116) -/

def Group.mask (g : Group) (k : Nat) : Word × Word := mget (0, 0) g.jm k
def Group.setMask (g : Group) (k : Nat) (m : Word × Word) : Group := { g with jm := mset (0, 0) g.jm k m }

/-- The release test on one register (R116). -/
def releaseTest (s : State) (gid k : Nat) : State :=
  let m := (s.group gid).mask k
  if m.2 ≠ 0 ∧ m.2 = m.1 then
    let s1 := s.modGroup gid (fun g => g.setMask k (0, 0))
    { s1 with threads := s1.threads.map (fun p =>
        if grpOf p.1 = gid ∧ p.2.cond = .parked k then
          (p.1, { p.2.wake with pc := nextAddr p.2.pc, stamp := s.clock, rank := 0 })
        else p) }
  else s

/-- RJ.ENROL, the arrival of RJ.WAIT, RJ.STRIKE on the masks. -/
def enrolMask (s : State) (gid k : Nat) (l : Word) : State := s.modGroup gid (fun g => let m := g.mask k; g.setMask k (m.1 ||| l, m.2))
def arriveMask (s : State) (gid k : Nat) (l : Word) : State := s.modGroup gid (fun g => let m := g.mask k; g.setMask k (m.1, m.2 ||| l))
def strikeMask (s : State) (gid k : Nat) (l : Word) : State :=
  s.modGroup gid (fun g => let m := g.mask k; g.setMask k (m.1 &&& ~~~l, m.2 &&& ~~~l))

/-- Threads struck from one register, and its release test made if that changed it. -/
def strikeFrom (s : State) (gid k : Nat) (l : Word) : State :=
  let m := (s.group gid).mask k
  if (m.1 ||| m.2) &&& l = 0 then s else releaseTest (strikeMask s gid k l) gid k

/-- Threads struck from every register. -/
def strikeAll (s : State) (gid : Nat) (l : Word) : State := eachLane (fun s k => strikeFrom s gid k l) s [0, 1, 2, 3, 4, 5, 6, 7]

/-- Threads leave their trapping sub-groups: the masks of those that stay lose them (R119, R406). -/
def leaveTrap (s : State) (gid : Nat) (tids : List Nat) : State :=
  let out (run : Nat) : Word := laneMask (tids.filter (fun l => (s.thread l).trapping.isSome && decide ((s.thread l).trapNo = run)))
  { s with threads := s.threads.map (fun p =>
      if tids.contains p.1 then (p.1, { p.2 with trapping := none, wasParked := none })
      else if grpOf p.1 = gid then (p.1, { p.2 with trapping := p.2.trapping.map (fun m => m &&& ~~~(out p.2.trapNo)) })
      else p) }

/-! ### Exit (R147, R339) -/

/-- Whether a group has a live thread. -/
def groupAlive (s : State) (gid : Nat) : Bool := s.threads.any (fun p => decide (grpOf p.1 = gid) && decide (p.2.cond ≠ .exited))

/-- Threads of one group, or the burin core, end. Their unreturned data is discarded. -/
def exitThreads (s : State) (gid : Nat) (tids : List Nat) : State :=
  let s1 := eachLane (fun s l => s.modThread l (fun t => { t with cond := .exited, beneath := none })) (leaveTrap s gid tids) tids
  let s2 := freeUnits { s1 with loads := s1.loads.filter (fun l => !tids.contains l.tid) } (gid / 64)
  if groupIx gid = 32 then s2
  else
    let s3 := strikeAll s2 gid (laneMask tids)
    let s4 := match tids with
      | [] => s3
      | l :: _ => enqueue s3 gid [{ tid := l, word := 0, loc := .phys 0, addr := 0, rt := 0, flags := 0, op := .leave }]
    if groupAlive s4 gid then s4 else s4.modGroup gid (fun g => { g with active := false })

/-! ### Holds -/

/-- A thread held at a replayable fault before its chain takes effect. -/
def holdThread (s : State) (tid : Nat) (page : DWord) (requester access : Nat) (f : TrapInfo) : State :=
  let t := s.team (teamOf tid)
  (reportReplay s t.die t.ctx page requester access (s.thread tid).pc).modThread tid (fun t => { t with cond := .blocked (.replay page { f with trapNo := s.runOf tid }) })

/-! ### Fault records (R222, R412, R413) -/

def faultBytes (r : FaultRec) (teamIx : Word) : List Byte :=
  leBytes 2 r.cause ++ leBytes 1 r.lane ++ leBytes 1 r.group ++ leBytes 4 teamIx.toNat ++ leBytes 8 r.pc.toNat ++ leBytes 8 r.addr.toNat ++
    leBytes 4 r.word.toNat ++ leBytes 4 r.flags.toNat

/-- A count at a place raised by one, saturating. -/
def bumpSat (s : State) (l : Loc) : State := deviceOut s l (leBytes 4 (min (2 ^ 32 - 1) (readNat s l 4 + 1)))

/-- A fault record written to its context's queue and released at system scope, counted as lost, or discarded (R266, R412, R413). -/
def writeFault (s : State) (core ctx : Nat) (r : FaultRec) (teamIx : Word) : State :=
  let q := s.cx ctx 3
  if q = 0 ∨ q.toNat % 64 ≠ 0 then s
  else
    match checkNormal s core ctx q true true with
    | none => logWalk s core ctx q
    | some h =>
      let s := noteHomeReads s (.phys h) 64
      let k := readNat s (.phys h) 4
      if poisoned s (.phys h) 64 ∨ k < 4 ∨ 16 < k then s
      else
        let w := readNat s (.phys (h + 4)) 4
        let rd := readNat s (.phys (h + 8)) 4
        if (w + 2 ^ 32 - rd) % 2 ^ 32 = 2 ^ k then bumpSat s (.phys (h + 12))
        else
          match checkNormal s core ctx (q + dw (64 + 32 * (w % 2 ^ k))) true true with
          | none => bumpSat (logWalk s core ctx (q + dw (64 + 32 * (w % 2 ^ k)))) (.phys (h + 12))
          | some a =>
            let s1 := deviceOut (farRelease (deviceOut s (.phys a) (faultBytes r teamIx))) (.phys (h + 4)) (leBytes 4 (w + 1))
            { s1 with irqs := s1.irqs ++ [.fault ctx] }

/-! ### What a team holds outside itself -/

/-- One byte moved from scratchpad to the memory behind it. -/
def copyUnits (s : State) (team off pa : Nat) : Nat → State
  | 0 => s
  | n + 1 =>
    let s1 := copyUnits s team off pa n
    { s1 with mem := mset unwritten s1.mem (pa + n) (rawByte s1 (.scratch team (off + n))) }

/-- Poison of a unit goes with its bytes. -/
def copyPoison (s : State) (team off pa : Nat) : Nat → State
  | 0 => s
  | n + 1 =>
    let s1 := copyPoison s team off pa n
    let g := (pa + 32 * n) / 32
    { s1 with poison := if (s1.team team).scratchPoison.contains ((off + 32 * n) / 32) then sadd s1.poison g else sdel s1.poison g
              confined := s1.confined.filter (fun p => decide (p.1 / 4 ≠ g)) }

/-- One unit of 4 KiB copied with its poison. -/
@[irreducible] def copyUnit (s : State) (team off pa : Nat) : State := copyPoison (copyUnits s team off pa 4096) team off pa 128

def writeBackUnits (s : State) (team off : Nat) : List Nat → State
  | [] => s
  | u :: us => writeBackUnits (copyUnit s team off (u * 4096)) team (off + 4096) us

/-- The bound scratchpad bytes written to memory (R215). -/
def writeBack (s : State) (b : Bind) : State := writeBackUnits s b.team b.off b.units

/-- A binding written back and ended. -/
def endBind (s : State) (b : Bind) : State :=
  let s1 := writeBack s b
  { s1.modCore b.core (fun c => { c with spmap := mdel c.spmap b.entry }) with
    binds := s1.binds.filter (fun x => !(decide (x.core = b.core) && decide (x.entry = b.entry))) }

def endBinds : State → List Bind → State
  | s, [] => s
  | s, b :: bs => endBinds (endBind s b) bs

/-- Every binding of a team ended. -/
def endTeamBinds (s : State) (uid : Nat) : State := endBinds s (s.binds.filter (fun b => decide (b.team = uid)))

/-- A table slot's binding ended: users falls by one, and a version without users waits to be freed (R367, R368, R392). -/
def retireSlot (s : State) (uid slot : Nat) : State :=
  let t := s.team uid
  match mfind t.tslots slot with
  | none => s
  | some b =>
    let users := readNat s (.phys (b.pa + 4)) 4 - 1
    let s1 := (writeNat (noteHome s (.phys (b.pa + 4))) (.phys (b.pa + 4)) 4 users).modTeam uid (fun t => { t with tslots := mdel t.tslots slot })
    let v := (t.ctx, b.base, b.pa, b.version)
    if users = 0 ∧ ¬ s1.versions.contains v then { s1 with versions := s1.versions ++ [v] } else s1

/-- Held rows of a view dropped (R247). -/
def dropRows (s : State) (uid k : Nat) : State :=
  s.modCore (s.team uid).coreId (fun c => { c with press := c.press.filter (fun r => !(decide (r.team = uid) && decide (r.k = k))) })

def viewUnits (v : ViewReg) : Nat := ceilDiv v.data.length 1024

/-- A view register unbound: its units stay taken while a load or walk uses its matrix (R386). -/
def unbindView (s : State) (uid k : Nat) : State :=
  match mfind (s.team uid).views k with
  | none => s
  | some v =>
    dropRows (s.modTeam uid (fun t => { t with
      views := mdel t.views k
      oldUnits := if bindingUsed s v.binding then mput t.oldUnits v.binding (viewUnits v) else t.oldUnits })) uid k

/-- Everything a team holds at the device given up: bindings, membership, pins of armed lines, table slots, views (R411, R438). -/
def giveUp (s : State) (uid : Nat) : State :=
  let s1 := leaveSharing (endTeamBinds s uid) uid
  let s2 := { s1 with accPins := s1.accPins.filter (fun p => decide (p.team ≠ uid)) }
  eachLane (fun s k => unbindView s uid k) (eachLane (fun s k => retireSlot s uid k) s2 [0, 1, 2, 3, 4, 5, 6, 7]) [0, 1, 2, 3, 4, 5, 6, 7]

/-! ### Kills (R411) -/

def teamRequests (s : State) (uid : Nat) : List Request := s.requests.filter (fun r => decide (r.team = uid) && r.node.isNone)

/-- Steps 4 and 5 of R411: what the team holds given up, its fault record written. -/
def closeKill (s : State) (uid : Nat) : State :=
  let s1 := (giveUp s uid).modTeam uid (fun t => { t with closed := true })
  let t := s1.team uid
  match t.kill with
  | some r => writeFault s1 t.coreId t.ctx r t.teamIx
  | none => s1

/-- Steps 4 and 5 as far as they can go: once no request is left the bindings are written back and end, and once no access to or from the team's window is
left the rest follows. -/
def tryClose (s : State) (uid : Nat) : State :=
  if !(teamRequests s uid).isEmpty then s
  else
    let s1 := windUp (endTeamBinds s uid) uid
    if leaveWaits s1 uid then s1 else closeKill s1 uid

/-- A thread whose team is killed: what its word waits for is discarded (R431). -/
def Thread.dropWait (t : Thread) : Thread :=
  match t.cond with
  | .blocked _ => { t with cond := .ready, beneath := none }
  | _ => t

/-- A running team is killed: steps 1 to 5 of R411; the last two wait, as KILL_COMPLETE does, where a page holds a started request or an access to
the team's window is left. Its claims are freed by KILL_COMPLETE. -/
def kill (s : State) (uid : Nat) (r : FaultRec) : State :=
  if (s.team uid).life ≠ .running ∨ (mfind s.teams uid).isNone then s
  else
    let s0 := s.modTeam uid (fun t => { t with life := .dying, kill := some r })
    let s1 := drainTeam { s0 with threads := s0.threads.map (fun p => if teamOf p.1 = uid then (p.1, p.2.dropWait) else p) } uid
    let gone (q : Request) : Bool := decide (q.team = uid) && q.done.isEmpty && q.node.isNone
    let out := s1.requests.filter gone
    let s2 := withdrawAll false { s1 with
      loads := s1.loads.filter (fun l => decide (teamOf l.tid ≠ uid))
      requests := s1.requests.filter (fun q => !gone q) } out
    let s3 := s2.modTeam uid (fun t => { t with queue := t.queue.filter (fun e => e.started) })
    tryClose (runRequests s3 ((teamRequests s3 uid).map (fun r => r.id))) uid

/-- The record of a thread's trap (R222, R413). -/
def recordOf (s : State) (tid : Nat) (cause : Nat) (f : TrapInfo) : FaultRec :=
  if isBurin tid then
    { cause := cause, lane := 0xFF, group := 0xFF, pc := f.pc.getD (s.thread tid).pc, addr := f.addr, word := f.word, flags := f.flags ||| 0x20 }
  else
    { cause := cause, lane := laneOf tid, group := groupIx (grpOf tid), pc := f.pc.getD (s.thread tid).pc, addr := f.addr, word := f.word,
      flags := f.flags }

/-! ### Trap entry (R398 to R405) -/

/-- The address of a thread's trap frame (R404). -/
def frameAddr (s : State) (tid : Nat) : DWord := (s.team (teamOf tid)).area + dw (18432 * groupIx (grpOf tid) + 576 * laneOf tid)

/-- The places of a frame, page by page, under checks 1 to 5 of R208; when one fails or meets poison, the malformed page-table entry met, if
any (R201). -/
def framePlaces (s : State) (tid : Nat) (write : Bool) : Except (Option Nat) (List (Loc × Nat)) :=
  let uid := teamOf tid
  let t := s.team uid
  let a := frameAddr s tid
  let n := min 576 (65536 - a.toNat % 65536)
  let place (x : DWord) (n : Nat) : Except (Option Nat) (List (Loc × Nat)) :=
    if n = 0 then .ok []
    else
      match checkPage s t.coreId t.ctx uid x 16 (if write then .store else .load) (!write) write with
      | .at (.phys p) _ _ => if poisoned s (.phys p) n then .error none else .ok [(.phys p, n)]
      | .trap _ _ _ bad => .error bad
      | _ => .error none
  match place a n, place (a + dw n) (576 - n) with
  | .ok x, .ok y => .ok (x ++ y)
  | .error e, _ => .error e
  | _, .error e => .error e

/-- The places of a frame that can be written. -/
def framePlacesOr (s : State) (tid : Nat) : List (Loc × Nat) :=
  match framePlaces s tid true with
  | .ok ps => ps
  | .error _ => []

/-- Why a frame cannot be written: the malformed entry met, if any. -/
def frameBad (s : State) (tid : Nat) : Option (Option Nat) :=
  match framePlaces s tid true with
  | .ok _ => none
  | .error e => some e

/-- The state word of a frame (R402). -/
def stateWord (t : Thread) : Nat :=
  let k := match t.cond with
    | .parked k => 2 + 4 * k
    | _ => 0
  0x21 + k + ([0, 1, 2, 3].map (fun q => b1 (mfind t.latch q).isSome * 2 ^ (6 + q))).sum

/-- The 576 bytes of a frame (R402). -/
def frameBytes (regs : Nat) (t : Thread) (f : TrapInfo) : List Byte :=
  (List.range 120).flatMap (fun c => leBytes 4 (if c < regs then mget 0 t.regs c else 0).toNat) ++
  (List.range 4).flatMap (fun q => leBytes 4 ((mfind t.latch q).getD 0).toNat) ++
  leBytes 8 (f.pc.getD t.pc).toNat ++ leBytes 4 f.cause ++ leBytes 4 f.word.toNat ++ leBytes 8 f.addr.toNat ++ leBytes 4 (stateWord t) ++ leBytes 52 0

/-- Bytes written over a list of places, each line recalled to its home first (R259). -/
def writePlaces : State → List (Loc × Nat) → List Byte → State
  | s, [], _ => s
  | s, (l, n) :: ps, data => writePlaces (writeBytes (noteHomes s l n) l (data.take n)) ps (data.drop n)

/-- A thread enters the handler of its team as part of a sub-group (R399, R404, R407). -/
def Thread.enter (t : Thread) (handler : DWord) (mask : Word) (run stamp : Nat) : Thread :=
  { t with
    trapping := some mask
    trapNo := run
    wasParked := (match t.cond with
      | .parked k => some (k, t.pc)
      | _ => none)
    pc := handler, latch := [], q3 := none, cond := .ready, beneath := none, roomHeld := false, stamp := stamp, rank := 0 }

/-- One lane's frame is written and it enters the handler. -/
def enterLane (s : State) (tid : Nat) (mask : Word) (run : Nat) (f : TrapInfo) (ps : List (Loc × Nat)) : State :=
  let k := (s.team (teamOf tid)).kern
  let t := s.thread tid
  let s1 := match t.cond with
    | .parked j => s.modGroup (grpOf tid) (fun g => let m := g.mask j; g.setMask j (m.1, m.2 &&& ~~~(1#32 <<< laneOf tid)))
    | _ => s
  (writePlaces s1 ps (frameBytes k.regs t f)).modThread tid (fun t => t.enter k.handler mask run s.clock)

def enterLanes (mask : Word) (run : Nat) : State → List (Nat × TrapInfo × List (Loc × Nat)) → State
  | s, [] => s
  | s, (tid, f, ps) :: r => enterLanes mask run (enterLane s tid mask run f ps) r

/-- What the accesses of traps met is logged: malformed page-table entries (R201), poisoned block-table entries (R366). -/
def logMet (s : State) (fs : List (Nat × TrapInfo)) : State :=
  fs.foldl (fun s p =>
    let one (s : State) (kind : Nat) (a : Option Nat) : State := match a with
      | some a => logError s kind ⟨1, s.coreOf p.1⟩ a (some (s.ctxOf p.1)) 0
      | none => s
    one (one s 4 p.2.bad) 2 p.2.entry) s

/-- TAKING AN EXCEPTION. Threads of one group, or the burin core, trap together: the one outcome of R398. The handler is entered with a
frame for each thread, or the team is killed. -/
def takeTrap (s : State) (gid : Nat) (fs : List (Nat × TrapInfo)) : State :=
  let uid := gid / 64
  let team := s.team uid
  match fs with
  | [] => s
  | (t0, f0) :: _ =>
    if team.life ≠ .running then s
    else
      let s := logMet s fs
      if isBurin t0 ∨ team.kern.handler = 0 ∨ f0.cause = 0x22 ∨ f0.cause = 0x30 then kill s uid (recordOf s t0 f0.cause f0)
      else
        match fs.find? (fun p => (s.thread p.1).trapping.isSome) with
        | some (t, f) => kill s uid (recordOf s t 0x30 f)
        | none =>
          let tids := fs.map Prod.fst
          let s1 := mergeSets (settleThreads s gid tids) gid []
          match fs.find? (fun p => (frameBad s1 p.1).isSome) with
          | some (t, f) =>
            let g : TrapInfo := { f with addr := frameAddr s1 t, flags := mkFlags 16 .global false false false true false false false,
                                         bad := (frameBad s1 t).getD none, entry := none }
            kill (logMet s1 [(t, g)]) uid (recordOf s1 t 0x30 g)
          | none =>
            enterLanes (laneMask tids) s1.nextId { s1 with nextId := s1.nextId + 1 } (fs.map (fun p => (p.1, p.2, framePlacesOr s1 p.1)))

/-! ### Return from an exception (R406, R407) -/

/-- The registers and latches of a frame given to a thread. -/
def Thread.restore (t : Thread) (regs : Nat) (f : List Byte) : Thread :=
  let w (off : Nat) : Word := wd (leNat ((f.drop off).take 4))
  let st := leNat ((f.drop 520).take 4)
  let t1 := t.setRegs 0 ((List.range (min regs 120)).map (fun c => w (4 * c)))
  { t1 with
    latch := [0, 1, 2, 3].filterMap (fun q => if st.testBit (6 + q) then some (q, w (480 + 4 * q)) else none)
    q3 := none }

/-- One lane returns from its frame. -/
def eretLane (s : State) (tid : Nat) : State :=
  let uid := teamOf tid
  let gid := grpOf tid
  if (s.team uid).life ≠ .running then s
  else
    match framePlaces s tid false with
    | .error bad =>
      let f : TrapInfo := { cause := 0x30, addr := frameAddr s tid, word := s.issue.word, bad := bad, pc := some s.issue.pc,
                            flags := mkFlags 16 .global false false false false false false false }
      kill (logMet s [(tid, f)]) uid (recordOf s tid 0x30 f)
    | .ok ps =>
      let f := ps.flatMap (fun p => readBytes s p.1 p.2)
      let st := leNat ((f.drop 520).take 4)
      let pc := dw (leNat ((f.drop 496).take 8))
      let was := (s.thread tid).wasParked
      let back := writePlaces s ps (f.take 520 ++ leBytes 4 (st - 32 * b1 (st.testBit 5)) ++ f.drop 524)
      let s1 := (leaveTrap back gid [tid]).modThread tid (fun t => t.restore (s.team uid).kern.regs f)
      let k := bits st 4 2
      let bit : Word := 1#32 <<< laneOf tid
      if !st.testBit 0 then exitThreads (s1.modThread tid (fun t => { t with pc := s.issue.addr })) gid [tid]
      else if st.testBit 1 then
        if was = some (k, pc) then
          releaseTest (arriveMask (s1.modThread tid (fun t => { t.blockOn (.parked k) with pc := pc, stamp := s.clock, rank := 0 })) gid k bit) gid k
        else
          releaseTest (strikeMask (s1.modThread tid (fun t => { t with pc := pc, stamp := s.clock, rank := 0 })) gid k bit) gid k
      else s1.modThread tid (fun t => { t with pc := pc, stamp := s.clock, rank := 0 })

/-- RETURN FROM AN EXCEPTION: each lane from its own frame, once the group's queue holds no earlier entry. -/
def returnTrap (s : State) (gid : Nat) (tids : List Nat) : State := eachLane eretLane (settleThreads (drainQueue s gid) gid tids) tids

/-! ### After-issue faults (R401) -/

/-- The pending fault that a thread takes at its next boundary: the oldest; inside a handler the oldest of the words issued there, which is a
double fault (R405). DESIGN CHOICE, log 51: an EXIT in the handler takes effect although a fault from before trap entry is pending, and that
fault then kills the team; R147 and R401 would deliver it at the EXIT, R405 makes it wait until after ERET, and no ERET comes. -/
def Thread.dueFault (t : Thread) : Option TrapInfo :=
  if t.trapping.isSome then t.faults.find? (fun f => decide (f.trapNo = t.trapNo)) else t.faults.head?

/-- A list without its first entry equal to `f`. -/
def dropFault (f : TrapInfo) : List TrapInfo → List TrapInfo
  | [] => []
  | g :: gs => if g = f then gs else g :: dropFault f gs

/-- Whether a thread stands at a boundary: ready and not held by a word on a full queue, or parked with nothing else awaited (R401). -/
def Thread.atBoundary (t : Thread) : Bool :=
  match t.cond with
  | .ready => !t.roomHeld
  | .parked _ => t.beneath.isNone
  | _ => false

/-- The pending fault of a thread is delivered at its boundary, with those of the threads that stand with it at theirs and await one of the same word;
that of a thread that has exited kills its team. -/
def deliverFault (s : State) (tid : Nat) : State :=
  let t := s.thread tid
  let gid := grpOf tid
  match t.faults.head?, t.dueFault with
  | some f, due =>
    if (s.team (teamOf tid)).life ≠ .running then s
    else if t.cond = .exited then kill s (teamOf tid) (recordOf s tid f.cause f)
    else
      match due with
      | none => s
      | some f =>
        if !t.atBoundary then s
        else
          let fs := s.threads.filterMap (fun p =>
            if grpOf p.1 = gid ∧ p.2.cond = t.cond ∧ p.2.pc = t.pc ∧ p.2.trapping = t.trapping ∧ p.2.atBoundary then
              (match p.2.dueFault with
               | some g => if g.word = f.word then some (p.1, g) else none
               | none => none)
            else none)
          let s1 := { s with threads := s.threads.map (fun p =>
            match fs.find? (fun q => q.1 = p.1) with
            | some q => (p.1, { p.2 with faults := dropFault q.2 p.2.faults })
            | none => p) }
          takeTrap s1 gid fs
  | none, _ => s

/-! ### Fences -/

/-- A release by a thread of a group at a scope: its queue empties, its contributions are performed, and at device scope or wider the core's
privatisations end (R231, R234). -/
def releaseGroup (s : State) (gid scope : Nat) : State :=
  endPrivatised (settleGroup (drainQueue s gid) gid) (s.team (gid / 64)).coreId scope

end Sys2Proof.Machine
end

