-- ==== Sys2Proof/Machine/Streams.lean ====
section
/-! DEFINITION. Copy commands: reading and checking a request record and its layout record, the plan of a request, its registrations and
its place in the streamer (R38, R238, R290 to R296, R298). -/

namespace Sys2Proof.Machine

/-! ### Records -/

/-- The field of `n` bytes at an offset of a record. -/
def fld (r : List Byte) (off n : Nat) : Nat := leNat ((r.drop off).take n)
/-- Whether `n` bytes at an offset of a record are zero. -/
def zeroAt (r : List Byte) (off n : Nat) : Bool := ((r.drop off).take n).all (fun b => decide (b = 0))

/-- A record in the scratchpad of a team, as the memory holds it: entries of store queues are not seen (R238). -/
def scratchRecord (s : State) (uid off n : Nat) : List Byte := readBytes s (.scratch uid off) n

/-- The checks of an engine record in scratchpad: bounds, then alignment to 16. -/
def recordBounds (s : State) (tid off n : Nat) : Verdict := scratchBounds s tid off 1 n false false true
def recordAligned (s : State) (tid off : Nat) : Verdict := scratchAligned s tid off 1 16 false false true

/-- An engine command refused with a cause and an address. -/
def engineTrap (s : State) (tid cause : Nat) (addr : DWord) (sp : MemSpace) (write win : Bool) : Verdict :=
  s.trapAt cause addr (mkFlags 1 sp true (isBurin tid) false write win false false)
/-- A field out of its limits. -/
def fieldTrap (s : State) (tid : Nat) : Verdict := engineTrap s tid 0x02 0 .global false false

/-- A scratchpad range of an engine command. -/
def engineRange (s : State) (tid off n : Nat) (write : Bool) : Verdict := scratchBounds s tid off 1 n false write true

/-- A record whose bytes are poisoned is reported after issue at its first failing byte, as a load of it is (R208, R274, R449). -/
def notePoison (s : State) (tid : Nat) (l : Loc) (addr : DWord) (n : Nat) (sp : MemSpace) (engine : Bool) : State :=
  match firstPoison s l n with
  | none => s
  | some i =>
    pendFault s tid { cause := 0x19, addr := addr + dw i, word := s.issue.word, trapNo := s.runOf tid,
                      flags := mkFlags 1 sp engine (isBurin tid) false false false false true }

/-- Teams in a cluster (R60). -/
def Team.clSize (t : Team) : Nat := t.w * t.h

/-! ### The copy request record (R292) -/

/-- A copy request record. -/
structure CopyRec where
  kind : Nat
  cls : Nat
  acquire : Bool
  release : Bool
  scope : Nat
  space : Nat
  count : Nat
  src : Nat
  dst : Nat
  srcLay : Nat
  dstLay : Nat
  mask : Nat
  deriving DecidableEq, Repr

/-- The fields of a record, unchecked. -/
def readCopy (r : List Byte) : CopyRec :=
  let c := fld r 0 4
  { kind := bits c 3 0, cls := bits c 7 4, acquire := c.testBit 8, release := c.testBit 9, scope := bits c 12 10, space := bits c 15 13,
    count := fld r 4 4, src := fld r 8 8, dst := fld r 16 8, srcLay := fld r 24 4, dstLay := fld r 28 4, mask := fld r 32 2 }

/-- Whether a source address names scratchpad. -/
def CopyRec.fromScratch (c : CopyRec) : Bool := c.src.testBit 63
/-- A tensor kind, a multicast kind. -/
def CopyRec.tensor (c : CopyRec) : Bool := c.kind = 2 || c.kind = 4
def CopyRec.multi (c : CopyRec) : Bool := c.kind = 3 || c.kind = 4

/-- The limits of R292, R294 and R295 on a record for a cluster of `n` teams. -/
def copyLegal (r : List Byte) (c : CopyRec) (kinds : List Nat) (n : Nat) : Bool :=
  kinds.contains c.kind && decide (fld r 2 2 = 0) && decide (c.cls ≤ 3) && decide (c.scope ≤ 4) && decide (c.space ≤ 2) &&
  zeroAt r 36 28 && (!c.fromScratch || decide (bits c.src 62 32 = 0)) &&
  (if c.multi then decide (c.space = 2) && decide (c.dst < 2 ^ 21) && decide (c.mask ≠ 0) && decide (c.mask < 2 ^ n)
   else decide (c.mask = 0) && zeroAt r 34 2 && (decide (c.space ≠ 2) || (decide (c.dst < 2 ^ 25) && decide (c.dst / 2 ^ 21 < n)))) &&
  (if c.tensor then
     decide (c.count = 0) &&
     (if c.space = 0 then c.fromScratch && decide (c.dst = 0) && decide (c.srcLay = 0)
      else decide (c.src = 0) && decide (c.dstLay = 0))
   else
     decide (16 ≤ c.count) && decide (c.count ≤ 16777216) && decide (c.count % 16 = 0) && decide (c.dst % 16 = 0) &&
     decide (c.src % 16 = 0) && decide (c.srcLay = 0) && decide (c.dstLay = 0) && (!c.fromScratch || decide (c.space ≠ 1)))

/-- The ranks that a record names as destinations. -/
def CopyRec.ranks (c : CopyRec) : List Nat :=
  if c.multi then (List.range 12).filter (fun r => c.mask.testBit r) else if c.space = 2 then [c.dst / 2 ^ 21] else []

/-! ### The layout record (R296) -/

/-- The fields of a layout record. -/
def readLayout (r : List Byte) : Layout :=
  { base := dw (fld r 0 8), rank := fld r 8 1, slot := fld r 9 1, swizzle := fld r 10 1, fill := decide (fld r 11 1 = 1),
    dims := (List.range 5).map (fun j => fld r (16 + 4 * j) 4), strides := (List.range 4).map (fun j => fld r (40 + 8 * j) 8),
    box := (List.range 5).map (fun j => fld r (72 + 2 * j) 2),
    coords := (List.range 5).map (fun j => (wd (fld r (88 + 4 * j) 4)).toInt) }

/-- The limits of a layout record; `slot` gives a team's slot word. -/
def layoutLegal (r : List Byte) (l : Layout) (slot : Nat → Word) : Bool :=
  let f := slotFmt (slot l.slot)
  let es := elemSize f
  decide (1 ≤ l.rank) && decide (l.rank ≤ 5) && decide (l.slot ≤ 7) && decide (l.swizzle ≤ 3) && decide (fld r 11 1 ≤ 1) &&
  zeroAt r 12 4 && zeroAt r 36 4 && zeroAt r 82 6 && zeroAt r 108 20 && decide (l.base.toNat % 16 = 0) &&
  decide (fmtCode f ≠ 4) && !(l.fill && (decide (f = .i8) || decide (f = .n8))) &&
  (List.range l.rank).all (fun j => decide (1 ≤ l.dim j) && decide (1 ≤ l.boxOf j) && decide (l.boxOf j ≤ 256) &&
    (decide (j = 0) || decide (l.stride j % 16 = 0))) &&
  decide (l.boxOf 0 * es % 16 = 0) && (decide (l.swizzle = 0) || decide (l.bytes f % (16 * 2 ^ (l.swizzle + 1)) = 0))

/-- The global ranges of a box: one for each of its rows in bounds. -/
def Layout.ranges (l : Layout) (f : Fmt) : List (Nat × Nat) :=
  let es := elemSize f
  let sp := l.span
  if sp.2 = 0 then []
  else (List.range l.rowCount).flatMap (fun row => match l.rowAddr row with
    | some a => pieces ((a + es * (l.coord 0 + sp.1).toNat) % 2 ^ 64) (sp.2 * es)
    | none => [])

/-- The bytes of a box that lie in bounds. -/
def Layout.inBounds (l : Layout) (f : Fmt) : Nat := ((l.ranges f).map Prod.snd).sum

/-! ### The plan of a request -/

/-- What a request will do, as its record and the state at issue tell. -/
structure Plan where
  op : ReqOp
  cls : Nat
  acquire : Bool
  release : Bool
  scope : Nat
  record : Nat
  multicast : Bool
  mask : Nat
  failed : Nat
  /-- teams that take the bytes, and how many -/
  targets : List (Nat × Nat)
  /-- global ranges read, global ranges written -/
  reads : List (Nat × Nat)
  writes : List (Nat × Nat)
  table : Option (Nat × Word) := none
  deriving DecidableEq, Repr

/-- Whether any of several ranges lies on a page with far 1. -/
def anyFar (s : State) (core ctx : Nat) (l : List (Nat × Nat)) : Bool :=
  l.any (fun p => match translate s core ctx p.1 with
    | .leaf e _ => leafFar e
    | _ => false)

/-- The latency class of a request: 0 chooses by the pages (R294). -/
def chooseClass (s : State) (core ctx cls : Nat) (l : List (Nat × Nat)) : Nat :=
  if cls ≠ 0 then cls else if anyFar s core ctx l then 2 else 1

/-- The joined members among ranks of a team's cluster, by identity. -/
def joinedMembers (s : State) (t : Team) (ranks : List Nat) : List (Nat × Nat) :=
  ranks.filterMap (fun r => (member s t r).bind (fun m => if m.2.joined then some (r, m.1) else none))

/-- The plan of a checked record for team `uid`; `lay` is its layout record when it names one. DESIGN CHOICE, log 87: of a tensor copy to global memory the
bytes that lie in bounds and are written are what it registers. -/
def copyPlan (s : State) (uid record : Nat) (c : CopyRec) (lay : Layout) : Plan :=
  let t := s.team uid
  let f := slotFmt (slotWord s uid lay.slot)
  let own := c.src % 2 ^ 32
  let mem := joinedMembers s t c.ranks
  let off := c.dst % 2 ^ 21
  let space : Space := if c.space = 0 then .global (dw c.dst) else if c.space = 1 then .own c.dst else .window (mem.map Prod.fst) off
  let n := if c.tensor then (if c.space = 0 then lay.inBounds f else lay.bytes f) else c.count
  let reads := if c.tensor then (if c.space = 0 then [] else lay.ranges f) else if c.fromScratch then [] else pieces c.src c.count
  let writes := if c.space ≠ 0 then [] else if c.tensor then lay.ranges f else pieces c.dst c.count
  { op := if c.tensor then .tensor (decide (c.space = 0)) lay space own
          else .linear c.count (if c.fromScratch then .own own else .global (dw c.src)) space
    cls := chooseClass s t.coreId t.ctx c.cls (reads ++ writes)
    acquire := c.acquire, release := c.release, scope := c.scope, record := record, multicast := c.multi, mask := c.mask
    failed := if c.multi then c.mask - (mem.map (fun p => 2 ^ p.1)).sum else 0
    targets := if c.space = 2 then mem.map (fun p => (p.2, n)) else [(uid, n)]
    reads := reads, writes := writes }

/-- The layout record that a request record names. -/
def CopyRec.layoutAt (c : CopyRec) : Option Nat :=
  if c.tensor then some (if c.space = 0 then c.dstLay else c.srcLay) else none

/-- Step 3 of R293: the scratchpad ranges of `n` bytes that a record names. -/
def copyBounds (s : State) (tid : Nat) (c : CopyRec) (n : Nat) : Verdict :=
  let t := s.team (teamOf tid)
  (if c.fromScratch then engineRange s tid (c.src % 2 ^ 32) n false else .pass).andThen
    (if c.space = 1 then engineRange s tid c.dst n true
     else if c.space = 2 then
       (if t.kern.scratch < c.dst % 2 ^ 21 + n then engineTrap s tid 0x12 (dw (max (c.dst % 2 ^ 21) t.kern.scratch)) .scratch true true else .pass)
     else .pass)

/-- Steps 1 to 5 of R293 for a lane, the record at an offset of its scratchpad. DESIGN CHOICE, log 70: the record of a fault at a member window, which the
command names by rank and offset, says window with space scratchpad (0x12) or global (0x18). -/
def copyChecks (s : State) (tid off : Nat) (kinds : List Nat) : Except Verdict Plan :=
  let uid := teamOf tid
  let t := s.team uid
  let stop (v : Verdict) (k : Except Verdict Plan) : Except Verdict Plan := match v with
    | .pass => k
    | v => .error v
  stop (recordBounds s tid off 64) <|
  let raw := scratchRecord s uid off 64
  let c := readCopy raw
  let lo := c.layoutAt
  stop (match lo with
    | some o => recordBounds s tid o 128
    | none => .pass) <|
  stop (recordAligned s tid off) <|
  stop (match lo with
    | some o => recordAligned s tid o
    | none => .pass) <|
  let lraw := scratchRecord s uid (lo.getD 0) 128
  let lay := readLayout lraw
  if !copyLegal raw c kinds t.clSize || (lo.isSome && !layoutLegal lraw lay (slotWord s uid)) then .error (fieldTrap s tid)
  else
    let f := slotFmt (slotWord s uid lay.slot)
    let n := if c.tensor then lay.bytes f else c.count
    let p := copyPlan s uid off c lay
    stop (copyBounds s tid c n) <|
    stop (if c.space = 2 && (!t.joined || (!c.multi && p.targets.isEmpty)) then engineTrap s tid 0x18 (dw c.dst) .global true true
          else .pass) <|
    stop (rangeVerdict s tid .engineRead true false true true p.reads) <|
    stop (rangeVerdict s tid .engineWrite false true true true p.writes) <|
    .ok p

/-! ### Registration (R290) and issue (R291) -/

/-- The barrier a command names: X[5] and X[4:0]. -/
def namedBarrier (x : BitVec 6) : Option Nat := if x.getLsbD 5 then some (x.toNat % 32) else none

/-- Whether barrier `k` of a team can take a registration of `n` bytes. -/
def canRegister (s : State) (k : Nat) (p : Nat × Nat) : Bool :=
  decide (k < (s.team p.1).kern.phases) && (s.bar p.1 k).init && decide ((s.bar p.1 k).pending + p.2 < 2 ^ 31)

/-- Bytes registered on barrier `k` of each target. -/
def register (k : Nat) : State → List (Nat × Nat) → State
  | s, [] => s
  | s, p :: ps => register k (s.modBar p.1 k (fun b => { b with pending := b.pending + p.2 })) ps

/-- Step 6 of R293: index, initialised, registration. -/
def barrierVerdict (s : State) (tid : Nat) (bar : Option Nat) (targets : List (Nat × Nat)) : Verdict :=
  match bar with
  | none => .pass
  | some k =>
    if decide (k < (s.team (teamOf tid)).kern.phases) && targets.all (canRegister s k) then .pass
    else engineTrap s tid 0x0A 0 .global false false

/-- The identifier after one (R291). -/
def nextRid (r : Word) : Word := if r + 1 = 0 then 1 else r + 1

/-- The translations of a request's pages as they stand at issue (R207); an on-demand page is left for its beat. -/
def takePages (s : State) (r : Request) (p : Plan) : SMap (DWord × Nat) :=
  let one (m : SMap (DWord × Nat)) (a : Nat) (w : Bool) : SMap (DWord × Nat) := match reachPage s r m a w with
    | .ok m' => m'
    | _ => m
  p.writes.foldl (fun m x => one m x.1 true) (p.reads.foldl (fun m x => one m x.1 false) [])

/-- The request of a plan enters its class queue, registered on the barrier it names. -/
def addRequest (s : State) (tid : Nat) (bar : Option Nat) (p : Plan) : State :=
  let uid := teamOf tid
  let t := s.team uid
  let g := s.group (grpOf tid)
  let s0 := match bar with
    | some k => register k s p.targets
    | none => s
  let r0 : Request :=
    { id := s.nextId, team := uid, ctx := t.ctx, tid := tid, rid := t.rid, die := t.die, core := t.core, cls := p.cls, op := p.op,
      acquire := p.acquire, release := p.release, scope := p.scope, record := p.record, multicast := p.multicast, mask := p.mask,
      failed := p.failed, regs := match bar with
        | some k => p.targets.map (fun x => { team := x.1, k := k, left := x.2 })
        | none => [],
      before := g.left + g.queue.length, ready := false, done := [], total := 0, rows := [], pages := [], held := none, node := none,
      table := p.table, order := s.nextId, inc := incarnation s ⟨1, t.coreId⟩ }
  let r := { r0 with total := beatCount (r0.fmt s) p.op, pages := takePages s r0 p }
  { s0.modTeam uid (fun t => { t with rid := nextRid t.rid }) with requests := s0.requests ++ [r], nextId := s.nextId + 1 }

/-- Free places in a class queue of a core's streamer. -/
def freePlaces (s : State) (core cls : Nat) : Nat :=
  32 - (s.requests.filter (fun r => r.node.isNone && decide (r.coreId = core) && decide (r.cls = cls))).length

/-- Whether every class queue has a place for each of `n` threads (R291), and whether the near one has (R389). -/
def streamerRoom (s : State) (core n : Nat) : Bool := [1, 2, 3].all (fun c => decide (n ≤ freePlaces s core c))
def nearRoom (s : State) (core n : Nat) : Bool := decide (n ≤ freePlaces s core 1)

/-- The request of a team that an identifier names. -/
def ridRequest (s : State) (uid : Nat) (rid : Word) : Option Request :=
  s.requests.find? (fun r => r.node.isNone && decide (r.team = uid) && decide (r.rid = rid))

/-- CP.CANCEL for one identifier: the state and the value returned (R298). -/
def cancelRequest (s : State) (uid : Nat) (rid : Word) : State × Word :=
  match ridRequest s uid rid with
  | none => (s, 2)
  | some r => if !r.wrote then (freeUnits (withdraw true (s.dropRequest r.id) r.regs) uid, 0) else (s, 1)

/-- GA.STAT for one identifier (R390): 0 queued, 1 running, 2 gone. -/
def requestStatus (s : State) (uid : Nat) (rid : Word) : Word :=
  match ridRequest s uid rid with
  | none => 2
  | some r => if r.done.isEmpty then 0 else 1

end Sys2Proof.Machine
end

