-- ==== Sys2Proof/Machine/Views.lean ====
section
/-! DEFINITION. View registers, table slots and gather walks: descriptors, walk records, their checks, binding and refreshing a view,
planning a walk, binding and retiring a table version (R365 to R372, R377, R381 to R392). -/

namespace Sys2Proof.Machine

/-! ### View descriptors (R382) -/

/-- The fields of a view descriptor, without the matrix bytes. -/
def readView (r : List Byte) : ViewReg :=
  { matrix := dw (fld r 0 8), rows := fld r 8 2, cols := fld r 10 2, mslot := fld r 12 1, lslot := fld r 13 1,
    bf16 := decide (fld r 14 1 = 1), flags := fld r 15 1, aperture := dw (fld r 16 8), latentBase := dw (fld r 24 8),
    latentStride := fld r 32 4, tslot := if fld r 36 1 = 0xFF then none else some (fld r 36 1), data := [], binding := 0 }

/-- The limits of a view descriptor. -/
def viewLegal (r : List Byte) (v : ViewReg) (slot : Nat → Word) : Bool :=
  let mf := slotFmt (slot v.mslot)
  let lf := slotFmt (slot v.lslot)
  decide (1 ≤ v.rows) && decide (v.rows ≤ 256) && decide (1 ≤ v.cols) && decide (v.cols ≤ 1024) && decide (v.mslot ≤ 7) &&
  decide (v.lslot ≤ 7) && decide (fld r 14 1 ≤ 1) && decide (v.flags < 16) && decide (bits v.flags 3 1 ≤ 4) && zeroAt r 37 27 &&
  decide (v.aperture.toNat % 2 ^ 40 = 0) && viewFmt mf && viewFmt lf && decide (v.matrix.toNat % viewEs mf = 0) &&
  (match v.tslot with
   | some t => decide (t ≤ 7) && decide (v.latentBase = 0) && decide (v.latentStride = 0)
   | none => decide (v.latentBase.toNat % viewEs lf = 0) && decide (v.latentStride % viewEs lf = 0) &&
      decide (v.cols * viewEs lf ≤ v.latentStride))

/-- Bytes of a view's matrix. -/
def ViewReg.matrixBytes (s : State) (uid : Nat) (v : ViewReg) : Nat := v.rows * v.cols * viewEs (slotFmt (slotWord s uid v.mslot))
/-- The matrix as a list of ranges. -/
def ViewReg.matrixRanges (s : State) (uid : Nat) (v : ViewReg) : List (Nat × Nat) := pieces v.matrix.toNat (v.matrixBytes s uid)

/-- The checks of R37 on a view index. -/
def viewIndex (s : State) (tid k : Nat) : Verdict :=
  if k < (s.team (teamOf tid)).kern.views then .pass else s.plainTrap 0x0B

/-- The checks of VW.SET after the view index, in the order of R383. -/
def viewSetVerdict (s : State) (tid off : Nat) : Verdict :=
  let uid := teamOf tid
  let t := s.team uid
  let raw := scratchRecord s uid off 64
  let v := readView raw
  (scratchBounds s tid off 1 64 false false false).andThen <|
  (scratchAligned s tid off 1 16 false false false).andThen <|
  if !viewLegal raw v (slotWord s uid) then s.plainTrap 0x02
  else
    let leaf : Verdict :=
      if bits v.aperture.toNat 63 57 ≠ 0 then s.trapAt 0x10 v.aperture 0
      else match translate s t.coreId t.ctx v.aperture.toNat with
        | .leaf e _ =>
          if leafType e = 3 then .pass
          else s.trapAt 0x11 v.aperture (mkFlags 1 .global false false false false (leafType e == 4) (leafFar e) false)
        | .demand => s.trapAt 0x10 v.aperture 0
        | .none bad => .trap { cause := 0x10, addr := v.aperture, word := s.issue.word, flags := 0, bad := bad }
    leaf.andThen (rangeVerdict s tid .engineRead true false false false (v.matrixRanges s uid))

/-- Units of a core's view cache that no binding holds or keeps in use (R371, R386). -/
def freeViewUnits (s : State) (core : Nat) : Nat :=
  256 - ((s.teams.filter (fun p => decide (p.2.coreId = core ∧ p.2.life ≠ .evicted))).map (fun p =>
    ((p.2.views.map (fun v => viewUnits v.2)).sum + (p.2.oldUnits.map Prod.snd).sum))).sum

/-- The matrix read as loads of a thread: poison is reported after issue. -/
def readMatrix (s : State) (tid : Nat) (v : ViewReg) : State × List Byte :=
  let t := s.team (teamOf tid)
  let pl := threadPlaces s t.coreId t.ctx (teamOf tid)
  let ps := v.matrixRanges s (teamOf tid)
  let s1 := noteVirt pl (threadHome s t.coreId t.ctx (teamOf tid)) t.die s ps
  (match badByte s pl ps with
   | some a => pendFault s1 tid { cause := 0x19, addr := dw a, word := s.issue.word, trapNo := s.runOf tid, flags := poisonFlags s tid false (dw a) }
   | none => s1, (readVirt s pl [] ps).1)

/-- The acquire of a view's flags. -/
def viewAcquire (s : State) (uid : Nat) (v : ViewReg) : State := if v.flags.testBit 0 then acquire s uid (bits v.flags 3 1) else s

/-- VW.SET for one lane with its descriptor: the state and the status (R383). -/
def bindView (s : State) (tid k : Nat) (v : ViewReg) : State × Word :=
  let uid := teamOf tid
  let t := s.team uid
  if t.views.any (fun p => decide (p.1 ≠ k ∧ p.2.aperture = v.aperture)) then (s, 2)
  else
    let mine := match mfind t.views k with
      | some o => if bindingUsed s o.binding then 0 else viewUnits o
      | none => 0
    if freeViewUnits s t.coreId + mine < ceilDiv (v.matrixBytes s uid) 1024 then (s, 1)
    else
      let s1 := unbindView (viewAcquire s uid v) uid k
      let r := readMatrix s1 tid v
      let b := r.1.nextId
      ({ r.1.modTeam uid (fun t => { t with views := mput t.views k { v with data := r.2, binding := b } }) with nextId := b + 1 }, 0)

/-- VW.REFRESH for one lane (R384). -/
def refreshView (s : State) (tid k : Nat) : State × Word :=
  let uid := teamOf tid
  match mfind (s.team uid).views k with
  | none => (s, 1)
  | some v =>
    let r := readMatrix (viewAcquire s uid v) tid v
    (dropRows (r.1.modTeam uid (fun t => { t with views := mput t.views k { v with data := r.2 } })) uid k, 0)

/-- The view state word (R385). -/
def viewState (v : ViewReg) : Word :=
  wd (2 ^ 31 + b1 v.bf16 * 2 ^ 30 + b1 v.tslot.isNone * 2 ^ 29 + v.tslot.getD 0 * 2 ^ 26 + (v.rows - 1) * 2 ^ 18 + (v.cols - 1) * 2 ^ 8 +
    (viewUnits v - 1))

/-- The field of a binding that VW.GET returns. -/
def viewField (v : Option ViewReg) (sel : Nat) : Word :=
  match v with
  | none => 0
  | some v =>
    match sel with
    | 0 => viewState v
    | 1 => v.aperture.extractLsb' 0 32
    | 2 => v.aperture.extractLsb' 32 32
    | 3 => v.matrix.extractLsb' 0 32
    | _ => v.matrix.extractLsb' 32 32

/-! ### Gather walks (R377, R388, R389) -/

/-- The fields of a walk record. -/
structure WalkRec where
  k : Nat
  through : Bool
  acquire : Bool
  release : Bool
  scope : Nat
  start : Nat
  count : Nat
  slot : Nat
  dest : Nat
  stride : Nat
  deriving DecidableEq, Repr

def readWalk (r : List Byte) : WalkRec :=
  let c := fld r 0 4
  { k := bits c 2 0, through := c.testBit 3, acquire := c.testBit 4, release := c.testBit 5, scope := bits c 8 6, start := fld r 4 4,
    count := fld r 8 4, slot := fld r 12 1, dest := fld r 16 4, stride := fld r 20 4 }

/-- The limits of a walk record that do not depend on its view. -/
def walkLegal (r : List Byte) (w : WalkRec) : Bool :=
  decide (fld r 0 4 < 512) && decide (w.scope ≤ 4) && decide (1 ≤ w.count) && decide (w.start + w.count ≤ 2 ^ 32) &&
  decide ((w.start + w.count - 1) / 16 - w.start / 16 < 64) && decide (w.slot ≤ 7) && zeroAt r 13 3 && decide (w.dest % 16 = 0) &&
  decide (w.stride % 16 = 0) && zeroAt r 36 28

/-- Bytes of a row that a walk writes (R378). -/
def WalkRec.rowLen (w : WalkRec) (s : State) (uid : Nat) (v : ViewReg) : Nat :=
  if w.through then v.rowBytes else 16 + rowPitch v.cols (v.es s uid)

/-- The blocks that a walk covers. -/
def WalkRec.blocks (w : WalkRec) : List Nat :=
  (List.range ((w.start + w.count - 1) / 16 + 1 - w.start / 16)).map (fun i => w.start / 16 + i)

/-- The tokens of a block that a walk covers. -/
def WalkRec.tokens (w : WalkRec) (b : Nat) : List Nat :=
  (List.range 16).filterMap (fun i => if w.start ≤ 16 * b + i ∧ 16 * b + i < w.start + w.count then some (16 * b + i) else none)

/-- The entries of the covered blocks, or the trap of the first that is not usable. -/
def walkEntries (s : State) (tid : Nat) (b : TSlot) (span : Nat) : List Nat → Except Verdict (List (Nat × DWord))
  | [] => .ok []
  | k :: ks =>
    let info (c : Nat) (addr : DWord) (win far : Bool) : TrapInfo :=
      { cause := c, addr := addr, word := s.issue.word, flags := mkFlags 1 .global true (isBurin tid) false false win far false }
    match lookupBlock s tid b k span with
    | .bad addr p => .error (.trap { info 0x10 addr false false with entry := if p then some addr.toNat else none })
    | .refused addr c win far met => .error (.trap { info c addr win far with bad := met })
    | .hold addr => .error (.hold addr 1 (info 0x10 addr false false))
    | .entry e => (walkEntries s tid b span ks).map (fun l => (k, e) :: l)

/-- The plan of a walk with what it writes into its record: mask, near bytes. -/
structure WalkPlan where
  plan : Plan
  mask : Nat
  near : Nat
  entries : List (Nat × DWord)
  tslot : TSlot
  deriving DecidableEq, Repr

/-- Steps 1 to 5 of R389. -/
def walkChecks (s : State) (tid off : Nat) : Except Verdict WalkPlan :=
  let uid := teamOf tid
  let t := s.team uid
  let stop (v : Verdict) (k : Except Verdict WalkPlan) : Except Verdict WalkPlan := match v with
    | .pass => k
    | v => .error v
  stop (recordBounds s tid off 64) <|
  stop (recordAligned s tid off) <|
  let raw := scratchRecord s uid off 64
  let w := readWalk raw
  if !walkLegal raw w then .error (fieldTrap s tid)
  else if t.kern.views ≤ w.k then .error (engineTrap s tid 0x0B 0 .global false false)
  else
    match mfind t.views w.k with
    | none => .error (fieldTrap s tid)
    | some v =>
      let len := w.rowLen s uid v
      let rb := rowPitch v.cols (v.es s uid)
      let span := 128 + 16 * rb
      if w.stride < len then .error (fieldTrap s tid)
      else
        match mfind t.tslots w.slot with
        | none => .error (engineTrap s tid 0x10 0 .global false false)
        | some b =>
          match walkEntries s tid b span w.blocks with
          | .error v => .error v
          | .ok es =>
            let near := es.filter (fun p => !p.2.getLsbD 48)
            let blockOf (e : DWord) : DWord := dw (bits e.toNat 47 0)
            let tokens := near.flatMap (fun p => (w.tokens p.1).map (fun k => (k, blockOf p.2)))
            let reads := near.flatMap (fun p =>
              pieces ((blockOf p.2).toNat + 128 + (w.tokens p.1).headD 0 % 16 * rb) ((w.tokens p.1).length * rb))
            stop (engineRange s tid w.dest ((w.count - 1) * w.stride + len) true) <|
            stop (rangeVerdict s tid .engineRead true false true true reads) <|
            .ok { plan := { op := .walk w.dest w.stride tokens w.start v w.k w.through, cls := 1, acquire := w.acquire, release := w.release,
                            scope := w.scope, record := off, multicast := false, mask := 0, failed := 0,
                            targets := [(uid, tokens.length * len)], reads := reads, writes := [], table := some (b.pa, b.version) },
                  mask := (es.filter (fun p => p.2.getLsbD 48)).foldl (fun m p => m + 2 ^ (p.1 - w.start / 16)) 0
                  near := tokens.length * len, entries := es, tslot := b }

/-- The entries that a walk read stay in the block translation cache. -/
def fillBlocks (core ctx : Nat) (b : TSlot) : State → List (Nat × DWord) → State
  | s, [] => s
  | s, (k, e) :: r => fillBlocks core ctx b (fillBlock s core ctx b k e) r

/-- A store of a thread into its team's scratchpad, as an entry of its queue. -/
def scratchStore (s : State) (tid off : Nat) (data : List Byte) : QEntry :=
  { tid := tid, trapNo := s.runOf tid, word := s.issue.word, loc := .scratch (teamOf tid) off, addr := dw off, rt := 0,
    flags := mkFlags data.length .scratch false (isBurin tid) false true false false false, op := .store data }

/-- The table that a walk with a legal record looks its blocks up in: the slot bound, and the bytes of a block. -/
def WalkRec.table (w : WalkRec) (s : State) (uid : Nat) : Option (TSlot × Nat) :=
  (mfind (s.team uid).views w.k).bind (fun v => (mfind (s.team uid).tslots w.slot).map (fun b => (b, 128 + 16 * rowPitch v.cols (v.es s uid))))

/-- The lookups of a walk, as the directories see them, as far as one that stops it. -/
def noteWalk (s : State) (tid off : Nat) : State :=
  let raw := scratchRecord s (teamOf tid) off 64
  let w := readWalk raw
  match (if walkLegal raw w then w.table s (teamOf tid) else none) with
  | some (b, span) => noteBlocks tid b span s w.blocks
  | none => s

/-- A walk issues: entries cached, mask and near bytes stored, request queued. -/
def addWalk (s : State) (tid : Nat) (bar : Option Nat) (w : WalkPlan) : State :=
  let t := s.team (teamOf tid)
  let s1 := addRequest (fillBlocks t.coreId t.ctx w.tslot (noteWalk s tid w.plan.record) w.entries) tid bar w.plan
  enqueue s1 (grpOf tid) [scratchStore s tid (w.plan.record + 24) (leBytes 8 w.mask), scratchStore s tid (w.plan.record + 32) (leBytes 4 w.near)]

/-! ### Table slots (R391, R392) -/

/-- The checks of BT.BIND on a table base. -/
def bindVerdict (s : State) (tid : Nat) (h : DWord) : Verdict :=
  let t := s.team (teamOf tid)
  let fl (win far : Bool) : Word := mkFlags 1 .global false false false true win far false
  if h.toNat % 64 ≠ 0 then s.trapAt 0x16 h (fl false false)
  else if bits h.toNat 63 57 ≠ 0 then s.trapAt 0x10 h (fl false false)
  else
    match translate s t.coreId t.ctx h.toNat with
    | .demand => .hold h 3 { cause := 0x10, addr := h, word := s.issue.word, flags := fl false false }
    | .none bad => .trap { cause := 0x10, addr := h, word := s.issue.word, flags := fl false false, bad := bad }
    | .leaf e _ =>
      if !leafRead e || !leafWrite e || leafType e ≠ 0 || leafFar e then s.trapAt 0x11 h (fl (leafType e == 4) (leafFar e)) else .pass

/-- BT.BIND for one lane: one atomic step at the header's home slice (R391). -/
def bindTable (s : State) (tid slot : Nat) (h : DWord) (ver : Word) : State × Word :=
  let uid := teamOf tid
  let t := s.team uid
  if (mfind t.tslots slot).isSome then (s, 1)
  else
    match placeOf s t.coreId t.ctx h with
    | some (.phys pa) =>
      let count := readNat s (.phys (pa + 8)) 4
      let users := readNat s (.phys (pa + 4)) 4
      let s0 := noteHome s (.phys pa)
      if count = 0 ∨ 65536 < count then (s0, 3)
      else if wd (readNat s (.phys pa) 4) ≠ ver then (s0, 2)
      else if users = 0xFFFFFFFF then (s0, 4)
      else
        let s1 := if users = 0 then
            { writeNat s0 (.phys (pa + 12)) 4 0 with versions := s0.versions.filter (fun v => decide (v ≠ (t.ctx, h, pa, ver))) }
          else s0
        ((writeNat s1 (.phys (pa + 4)) 4 (users + 1)).modTeam uid (fun t =>
          { t with tslots := mput t.tslots slot { base := h, pa := pa, version := ver } }), 0)
    | _ => (s, 3)

/-- BT.RETIRE for one lane (R392). -/
def retireTable (s : State) (tid slot : Nat) : State × Word :=
  if (mfind (s.team (teamOf tid)).tslots slot).isSome then (retireSlot s (teamOf tid) slot, 0) else (s, 1)

end Sys2Proof.Machine
end

