-- ==== Sys2Proof/Machine/Matrix.lean ====
section
/-! DEFINITION. The matrix engine: descriptors and their checks, the matrix queue, plates, rows, the adapter path, arming, clearing and
draining of accumulator lines (R314 to R356). -/

namespace Sys2Proof.Machine

/-! ### Classes and sizes (R317) -/

/-- Bytes of a K-row of a plate, which also tell its class; none for a format without one. -/
def plateRow : Fmt → Option Nat
  | .t8 _ => some 32
  | .i8 => some 32
  | .n8 => some 32
  | .t6 _ => some 24
  | .bf16 => some 64
  | _ => none

/-- Whether K is in the limits of a format's class. -/
def plateK (f : Fmt) (k : Nat) : Bool :=
  match plateRow f with
  | some 32 => decide (1 ≤ k) && decide (k ≤ 1024)
  | some 24 => decide (4 ≤ k) && decide (k ≤ 2048) && decide (k % 4 = 0)
  | some 64 => decide (1 ≤ k) && decide (k ≤ 512)
  | _ => false

/-- Bytes of an activation row of K elements. -/
def rowBytes (f : Fmt) (k : Nat) : Nat := ceilDiv (k * f.width) 8

/-- Elements of dense storage, t6 as groups of four in three bytes (R318). -/
def denseElems (slot : Word) (n : Nat) (bs : List Byte) : List Val :=
  let w := (slotFmt slot).width
  (List.range n).map (fun i =>
    let o := i * w / 8
    slotVal slot (leNat ((bs.drop o).take 2) / 2 ^ (i * w % 8) % 2 ^ w))

/-- Patterns as dense storage. -/
def denseBytes (w : Nat) (ps : List Nat) : List Byte :=
  leBytes (ps.length * w / 8) (ps.foldr (fun p acc => acc * 2 ^ w + p % 2 ^ w) 0)

/-! ### Descriptors -/

/-- A plate descriptor (R343). -/
structure PlateRec where
  tile : Nat
  k : Nat
  slot : Nat
  tag : Word
  deriving DecidableEq, Repr

def readPlate (r : List Byte) : PlateRec := { tile := fld r 0 4, k := fld r 4 4, slot := fld r 8 1, tag := wd (fld r 12 4) }

def plateLegal (r : List Byte) (p : PlateRec) (slot : Nat → Word) : Bool :=
  decide (p.slot ≤ 7) && decide (p.tile % 16 = 0) && plateK (slotFmt (slot p.slot)) p.k && zeroAt r 9 3 && zeroAt r 16 16

/-- Bytes of a tile. -/
def PlateRec.bytes (s : State) (uid : Nat) (p : PlateRec) : Nat := p.k * (plateRow (slotFmt (slotWord s uid p.slot))).getD 0

/-- The fields of a stream descriptor (R346). -/
def readStream (r : List Byte) : StreamDesc :=
  { act := fld r 0 4, stride := fld r 4 4, rows := fld r 8 4, ids := if fld r 12 4 = 0xFFFFFFFF then none else some (fld r 12 4),
    acc := dw (fld r 16 8), accStride := fld r 24 4, kpass := fld r 28 2, aslot := fld r 30 1,
    phase := if fld r 31 1 = 0xFF then none else some (fld r 31 1), flags := fld r 32 1 }

/-- The limits of a stream descriptor for an active plate with slot and K. -/
def streamLegal (r : List Byte) (d : StreamDesc) (slot : Nat → Word) (mark : Mark) : Bool :=
  decide (d.act % 16 = 0) && decide (d.stride % 16 = 0) && decide (1 ≤ d.rows) && decide (d.rows ≤ 1048576) &&
  (match d.ids with
   | some i => decide (i % 2 = 0)
   | none => true) &&
  decide (d.acc.toNat % 128 = 0) && decide (d.accStride % 128 = 0) && decide (d.aslot ≤ 7) && decide (d.flags < 32) &&
  decide (bits d.flags 4 2 ≤ 4) && zeroAt r 33 31 &&
  (match mark with
   | some (ps, _, _) => (plateRow (slotFmt (slot d.aslot))).isSome && decide (plateRow (slotFmt (slot d.aslot)) = plateRow (slotFmt (slot ps)))
   | none => false)

/-- The address a_r of a row of a stream. -/
def StreamDesc.line (d : StreamDesc) (r : Nat) : DWord := d.acc + dw (r * d.accStride)
/-- The rows whose lines differ: one row when the stride is 0. -/
def StreamDesc.lineRows (d : StreamDesc) : Nat := if d.accStride = 0 then min 1 d.rows else d.rows
/-- Every line that a stream may reach, row by row. -/
def StreamDesc.lines (d : StreamDesc) : List DWord := (List.range d.lineRows).flatMap (fun r => [d.line r, d.line r + 128])

/-- A drain descriptor as read (R352). -/
structure DrainRec where
  src : DWord
  count : Nat
  desc : DrainDesc
  deriving DecidableEq, Repr

def readDrain (r : List Byte) (flags : Nat) : DrainRec :=
  { src := dw (fld r 0 8), count := fld r 8 4,
    desc := { slot := fld r 12 1, space := fld r 13 1, dest := dw (fld r 16 8), counter := dw (fld r 24 8), flags := flags, pages := [] } }

def drainLegal (r : List Byte) (d : DrainRec) (n : Nat) : Bool :=
  decide (d.src.toNat % 128 = 0) && decide (1 ≤ d.count) && decide (d.count ≤ 65535) && decide (d.desc.slot ≤ 7) &&
  decide (d.desc.space ≤ 2) && zeroAt r 14 2 && decide (d.desc.dest.toNat % 16 = 0) && decide (d.desc.counter.toNat % 4 = 0) &&
  (decide (d.desc.space ≠ 2) || (decide (d.desc.dest.toNat < 2 ^ 25) && decide (d.desc.dest.toNat / 2 ^ 21 < n) &&
    decide (d.desc.counter.toNat < 2 ^ 25) && decide (d.desc.counter.toNat / 2 ^ 21 < n)))

/-- Bytes of the largest range that a drain can need: 32 positions for each line. -/
def DrainRec.bytes (s : State) (uid : Nat) (d : DrainRec) : Nat := 4 * d.count * (slotFmt (slotWord s uid d.desc.slot)).width

/-! ### Checks at issue (R342) -/

/-- The addresses of a run of lines. -/
def runLines (a : DWord) (n : Nat) : List DWord := (List.range n).map (fun i => a + dw (128 * i))

/-- The virtual address of a line's metadata record (R328). -/
def recordAddr (s : State) (ctx : Nat) (a : DWord) : DWord := s.sysReg (0x4000 + 16 * ctx + 8) + dw (a.toNat / 128 * 32)

/-- R208 with type ACC for each line, as a read and, when `wr`, a write. -/
def linesVerdict (s : State) (tid : Nat) (wr : Bool) (l : List DWord) : Verdict :=
  rangeVerdict s tid .acc true wr true false (l.map (fun a => (a.toNat, 128)))

/-- R208 for the metadata record of each line. -/
def recordsVerdict (s : State) (tid : Nat) (l : List DWord) : Verdict :=
  rangeVerdict s tid .engineWrite true true true false (l.map (fun a => ((recordAddr s (s.ctxOf tid) a).toNat, 32)))

/-- The pin that a team holds on a line of its address space (R329). -/
def pinOf (s : State) (uid : Nat) (a : DWord) : Option AccPin :=
  s.accPins.find? (fun p => decide (p.team = uid) && decide (p.line = a.toNat / 128))

/-- Physical places of a line and of its record: under the translations of its pin while its team holds one, else as they translate now (R207). -/
def linePlace (s : State) (uid : Nat) (a : DWord) : Nat × Nat :=
  let t := s.team uid
  let at_ (x : DWord) : Nat := match placeOf s t.coreId t.ctx x with
    | some (.phys p) => p
    | _ => noRecord
  match pinOf s uid a with
  | some p => (p.pa, p.record)
  | none => (at_ a / 128 * 128, at_ (recordAddr s t.ctx a))

def runOf (s : State) (uid : Nat) (a : DWord) (n : Nat) : AccRun := (runLines a n).map (fun x => (x, linePlace s uid x))

/-- The checks of MX.LOAD (R344). -/
def mxLoadVerdict (s : State) (tid off : Nat) : Verdict :=
  let uid := teamOf tid
  let raw := scratchRecord s uid off 32
  let p := readPlate raw
  (recordBounds s tid off 32).andThen <|
  (recordAligned s tid off).andThen <|
  if !plateLegal raw p (slotWord s uid) then fieldTrap s tid else engineRange s tid p.tile (p.bytes s uid) false

/-- The first row of a strided set of rows that passes the declared size, as a verdict. -/
def rowsVerdict (s : State) (tid off stride rows n : Nat) : Verdict :=
  let d := (s.team (teamOf tid)).kern.scratch
  if off + (rows - 1) * stride + n ≤ d then .pass
  else
    -- the first row that passes it
    let r := if d < off + n then 0 else if stride = 0 then 0 else (d - off - n) / stride + 1
    engineRange s tid (off + r * stride) n false

/-- The checks of MX.STREAM in the order of R347, as R342 has it. DESIGN CHOICE, log 83: every check of a word of this major stands in step 7 of R86, those of
bounds and of the phase index too, as they do in the entry's own order. -/
def mxStreamVerdict (s : State) (tid off : Nat) : Verdict :=
  let uid := teamOf tid
  let t := s.team uid
  let raw := scratchRecord s uid off 64
  let d := readStream raw
  (recordBounds s tid off 64).andThen <|
  (recordAligned s tid off).andThen <|
  if !streamLegal raw d (slotWord s uid) t.markActive then fieldTrap s tid
  else
    let k := match t.markActive with
      | some (_, k, _) => k
      | none => 0
    (rowsVerdict s tid d.act d.stride d.rows (rowBytes (slotFmt (slotWord s uid d.aslot)) k)).andThen <|
    (match d.ids with
     | some i => engineRange s tid i (2 * d.rows) false
     | none => .pass).andThen <|
    (linesVerdict s tid true d.lines).andThen <|
    match d.phase with
    | none => .pass
    | some k => if decide (k < t.kern.phases) && (s.bar uid k).init then .pass else engineTrap s tid 0x0A 0 .global false false

/-- The checks of MX.ADAPT (R349). -/
def mxAdaptVerdict (s : State) (tid : Nat) (a : DWord) : Verdict :=
  if bits a.toNat 63 57 ≠ 0 then engineTrap s tid 0x10 a .global false false
  else if a.toNat % 32 ≠ 0 then engineTrap s tid 0x16 a .global false false
  else .pass

/-- The line address of an ACC word, step 1 of R351. -/
def accAligned (s : State) (tid : Nat) (a : DWord) : Verdict :=
  if a.toNat % 128 ≠ 0 then engineTrap s tid 0x16 a .global true false else .pass

/-- The checks of ACC.ARM (R351). -/
def accArmVerdict (s : State) (tid : Nat) (ctl a : DWord) : Verdict :=
  let n := bits ctl.toNat 15 0
  (accAligned s tid a).andThen <|
  if n = 0 ∨ bits ctl.toNat 63 25 ≠ 0 then fieldTrap s tid
  else (linesVerdict s tid true (runLines a n)).andThen (recordsVerdict s tid (runLines a n))

/-- The checks of ACC.CLEAR: the count and the zero bits, then those of ACC.ARM's steps 1 and 3, as its entry has them (R354). -/
def accClearVerdict (s : State) (tid : Nat) (ctl a : DWord) : Verdict :=
  let n := bits ctl.toNat 15 0
  if n = 0 ∨ bits ctl.toNat 63 16 ≠ 0 then fieldTrap s tid else (accAligned s tid a).andThen (linesVerdict s tid true (runLines a n))

/-- The checks of ACC.STAT (R355). -/
def accStatVerdict (s : State) (tid : Nat) (a : DWord) : Verdict := (accAligned s tid a).andThen (linesVerdict s tid true [a])

/-- A drain's destination and counter word as engine writes: bounds, membership, global checks (R353). DESIGN CHOICE, log 70: what the record of a fault at a
member window says of space and window. -/
def drainDestVerdict (s : State) (tid : Nat) (d : DrainDesc) (n : Nat) : Verdict :=
  let t := s.team (teamOf tid)
  let win (a : DWord) (n : Nat) : Verdict :=
    if t.kern.scratch < a.toNat % 2 ^ 21 + n then engineTrap s tid 0x12 (dw (max (a.toNat % 2 ^ 21) t.kern.scratch)) .scratch true true else .pass
  let mem (a : DWord) : Verdict :=
    if t.joined && !(joinedMembers s t [a.toNat / 2 ^ 21]).isEmpty then .pass else engineTrap s tid 0x18 a .global true true
  match d.space with
  | 0 =>
    (rangeVerdict s tid .engineWrite false true true false (pieces d.dest.toNat n)).andThen
      (rangeVerdict s tid .engineWrite false true true false (pieces d.counter.toNat 4))
  | 1 => (engineRange s tid d.dest.toNat n true).andThen (engineRange s tid d.counter.toNat 4 true)
  | _ => ((win d.dest n).andThen (win d.counter 4)).andThen ((mem d.dest).andThen (mem d.counter))

/-- The checks of ACC.DRAIN (R353). -/
def accDrainVerdict (s : State) (tid off : Nat) : Verdict :=
  let uid := teamOf tid
  let raw := scratchRecord s uid off 32
  let d := readDrain raw 0
  (recordBounds s tid off 32).andThen <|
  (recordAligned s tid off).andThen <|
  if !drainLegal raw d (s.team uid).clSize then fieldTrap s tid
  else (linesVerdict s tid false (runLines d.src d.count)).andThen (drainDestVerdict s tid d.desc (d.bytes s uid))

/-! ### Entering the matrix queue (R315) -/

/-- Base and size of the page under whose translation an access to an address is made now. -/
def pageAt (s : State) (uid : Nat) (a : DWord) : List (Nat × Nat) :=
  let t := s.team uid
  match translate s t.coreId t.ctx a.toNat with
  | .leaf _ size => [(a.toNat / size * size, size)]
  | _ => []

/-- The pages of a line and of its record. -/
def linePages (s : State) (uid : Nat) (a : DWord) : List (Nat × Nat) := pageAt s uid a ++ pageAt s uid (recordAddr s (s.team uid).ctx a)

/-- The pages under whose translations an entry that is made now takes places: lines and their records, each for the line while an armed run pins it, and a
drain's destination (R207, R433). -/
def MOp.takes (s : State) (uid : Nat) (op : MOp) : List (Option Nat × Nat × Nat) :=
  let line (a : DWord) : Nat := a.toNat / 128
  let both (a : DWord) : List (Option Nat × Nat × Nat) :=
    match pinOf s uid a with
    | some p => p.pages.map (fun x => (some (line a), x))
    | none => (linePages s uid a).map (fun x => (none, x))
  match op with
  | .stream _ lines => lines.flatMap (fun p => both (dw (128 * p.1)))
  | .clear run => run.flatMap (fun x => both x.1)
  | .arm run _ => run.flatMap (fun x => (((pinOf s uid x.1).map AccPin.pages).getD (linePages s uid x.1)).map (fun y => (some (line x.1), y)))
  | .drain run d => run.flatMap (fun x => both x.1) ++ d.pages.map (fun p => (none, 65536 * p.1 / p.2.2 * p.2.2, p.2.2))
  | .load _ _ _ _ => []
  | .swap => []
  | .adapt _ => []

/-- An entry at the young end of a team's matrix queue. -/
def pushMatrix (s : State) (tid : Nat) (op : MOp) : State :=
  let g := s.group (grpOf tid)
  let e : MEntry := { id := s.nextId, team := teamOf tid, word := s.issue.word, op := op, started := false, row := 0,
                      before := g.left + g.queue.length, held := none, inc := incarnation s ⟨1, (s.team (teamOf tid)).coreId⟩,
                      took := op.takes s (teamOf tid) }
  { s.modTeam (teamOf tid) (fun t => { t with queue := t.queue ++ [e] }) with nextId := s.nextId + 1 }

/-- Pins of ACC.ARM on the lines of a run and on their records, with the translations taken (R207, R329). -/
def pinRun (s : State) (uid : Nat) (run : AccRun) : State :=
  run.foldl (fun s x =>
    if (pinOf s uid x.1).isSome then s
    else { s with accPins := s.accPins ++ [{ team := uid, line := x.1.toNat / 128, pa := x.2.1, record := x.2.2, pages := linePages s uid x.1 }] }) s

/-- MX.LOAD enters: the shadow plate is marked loaded at issue (R318, R344). -/
def pushLoad (s : State) (tid off : Nat) : State :=
  let uid := teamOf tid
  let p := readPlate (scratchRecord s uid off 32)
  let s1 := pushMatrix (notePoison s tid (.scratch uid off) (dw off) 32 .scratch true) tid (.load p.tile p.slot p.k p.tag)
  s1.modTeam uid (fun t => { t with markShadow := some (p.slot, p.k, p.tag) })

/-- MX.SWAP enters: the marks are exchanged at issue (R345). -/
def pushSwap (s : State) (tid : Nat) : State :=
  (pushMatrix s tid .swap).modTeam (teamOf tid) (fun t => { t with markActive := t.markShadow, markShadow := t.markActive })

/-- MX.STREAM enters with the places of its lines. -/
def pushStream (s : State) (tid off : Nat) : State :=
  let uid := teamOf tid
  let d := readStream (scratchRecord s uid off 64)
  let lines : SMap (Nat × Nat) := d.lines.foldl (fun m a => mput m (a.toNat / 128) (linePlace s uid a)) []
  pushMatrix (notePoison s tid (.scratch uid off) (dw off) 64 .scratch true) tid (.stream d lines)

/-- ACC.ARM enters, its lines pinned (R207, R351). -/
def pushArm (s : State) (tid : Nat) (ctl a : DWord) : State :=
  let run := runOf s (teamOf tid) a (bits ctl.toNat 15 0)
  pinRun (pushMatrix s tid (.arm run ctl)) (teamOf tid) run

/-- ACC.CLEAR enters (R354). -/
def pushClear (s : State) (tid : Nat) (ctl a : DWord) : State :=
  pushMatrix s tid (.clear (runOf s (teamOf tid) a (bits ctl.toNat 15 0)))

/-- Translations of a drain's global destination as they stand at issue. -/
def drainPages (s : State) (uid : Nat) (d : DrainDesc) (n : Nat) : SMap (DWord × Nat) :=
  let t := s.team uid
  if d.space ≠ 0 then []
  else (pieces d.dest.toNat n ++ pieces d.counter.toNat 4).foldl (fun m p =>
    match translate s t.coreId t.ctx (p.1 % 2 ^ 64) with
    | .leaf e size => mput m (p.1 % 2 ^ 64 / 65536) (e, size)
    | _ => m) []

/-- ACC.DRAIN enters (R353). -/
def pushDrain (s : State) (tid off flags : Nat) : State :=
  let uid := teamOf tid
  let d := readDrain (scratchRecord s uid off 32) flags
  pushMatrix (notePoison s tid (.scratch uid off) (dw off) 32 .scratch true) tid
    (.drain (runOf s uid d.src d.count) { d.desc with pages := drainPages s uid d.desc (d.bytes s uid) })

/-! ### Starting entries (R315) -/

def MOp.isLoad : MOp → Bool
  | .load _ _ _ _ => true
  | _ => false
def MOp.isSwap : MOp → Bool
  | .swap => true
  | _ => false
def MOp.isStream : MOp → Bool
  | .stream _ _ => true
  | _ => false
def MOp.isAdapt : MOp → Bool
  | .adapt _ => true
  | _ => false
def MOp.isArm : MOp → Bool
  | .arm _ _ => true
  | _ => false
def MOp.isClear : MOp → Bool
  | .clear _ => true
  | _ => false

/-- Whether a stream has issued its last main row. -/
def MEntry.rowsDone (e : MEntry) : Bool :=
  match e.op with
  | .stream d _ => decide (d.rows ≤ e.row)
  | _ => true

/-- The start condition of an entry, given those before it that have not left; of two MX.ADAPT the earlier starts first (log 47). -/
def MEntry.mayStart (e : MEntry) (earlier : List MEntry) : Bool :=
  match e.op with
  | .load _ _ _ _ => !earlier.any (fun x => x.op.isLoad || x.op.isSwap)
  | .swap => !earlier.any (fun x => !x.op.isArm)
  | .stream _ _ => !earlier.any (fun x => x.op.isSwap || x.op.isAdapt || x.op.isArm || x.op.isClear || !x.rowsDone)
  | .adapt _ => !earlier.any (fun x => x.op.isStream || (x.op.isAdapt && !x.started))
  | _ => earlier.isEmpty

/-- An entry of a matrix queue by identity, with those before it. -/
def splitQueue (id : Nat) : List MEntry → Option (List MEntry × MEntry)
  | [] => none
  | e :: es => if e.id = id then some ([], e) else (splitQueue id es).map (fun p => (e :: p.1, p.2))

def State.entry (s : State) (id : Nat) : Option (List MEntry × MEntry) := s.teams.findSome? (fun p => splitQueue id p.2.queue)
def State.modEntry (s : State) (uid id : Nat) (f : MEntry → MEntry) : State :=
  s.modTeam uid (fun t => { t with queue := t.queue.map (fun e => if e.id = id then f e else e) })

/-- An engine acquire of an entry, the burin core's queue emptied of what was entered before its issue (R239, R321). -/
def entryAcquire (s : State) (e : MEntry) (scope : Nat) : State :=
  let gid := gidOf e.team 32
  engineAcquire (leaveN (e.before - (s.group gid).left) s gid) e.team scope

/-- A fault of the burin core found after issue, in what an entry reads (R222, R342). -/
def entryFault (s : State) (e : MEntry) (cause : Nat) (addr : DWord) (sp : MemSpace) : State :=
  pendFault s (burinOf e.team) { cause := cause, addr := addr, word := e.word, flags := mkFlags 1 sp true true false false false false true }

/-- The pins that a team holds on the lines of a run end (R329, R356). -/
def unpinRun (s : State) (uid : Nat) (run : AccRun) : State :=
  { s with accPins := s.accPins.filter (fun p => !(decide (p.team = uid) && run.any (fun x => decide (x.2.1 = p.pa)))) }

/-- The unit that sends an entry's messages: its team's core. -/
def MEntry.unit (s : State) (e : MEntry) : UnitId := ⟨1, (s.team e.team).coreId⟩
/-- A message of an entry about a physical address: performed, or dropped and logged when its core has been declared dead since the issue (R271). -/
def sendMessage (s : State) (e : MEntry) (pa : Nat) (act : State → State) : State :=
  if e.inc ≠ incarnation s (e.unit s) then logStale s (e.unit s) pa else act s

/-- One line armed, its pin held, or cleared, its team's pin ended: one event (R329, R351, R354, R356). -/
def armLine (e : MEntry) (ctl : DWord) (s : State) (x : DWord × Nat × Nat) : State :=
  sendMessage s e x.2.1 (fun s => pinRun (setAcc s x.2.1 (accZero true (ctl.getLsbD 24) (ctl.extractLsb' 16 8) x.2.2)) e.team [x])
/-- DESIGN CHOICE, log 88: a line cleared has kind and q 0. -/
def clearLine (e : MEntry) (s : State) (x : DWord × Nat × Nat) : State :=
  sendMessage s e x.2.1 (fun s => unpinRun (setAcc s x.2.1 (accZero false false 0 x.2.2)) e.team [x])

/-- The lines of a run armed, or cleared, one after the other. -/
def armRun (s : State) (e : MEntry) (ctl : DWord) (run : AccRun) : State := run.foldl (armLine e ctl) s
def clearRun (s : State) (e : MEntry) (run : AccRun) : State := run.foldl (clearLine e) s

/-! ### Drains (R330, R331, R353) -/

/-- The value of an element that a drain converts (R174). -/
def drainVal (l : AccLine) (j : Nat) : Val :=
  if l.float then inF32 (mget 0 l.elems j)
  else
    match (mget 0 l.special j).toNat with
    | 3 => .nan
    | 1 => .inf false
    | 2 => .inf true
    | _ =>
      let b := (mget 0 l.body j).toInt
      if b = 0 then .fin false 0 0 else .fin (decide (b < 0)) b.natAbs l.q.toInt

/-- Positions that a line takes. -/
def AccLine.positions (l : AccLine) : Nat := if l.armed && !l.float then 16 else 32

/-- One line read as one event and converted. DESIGN CHOICE, log 73: the clamps of a poisoned exact line count in the counter word. -/
def drainLine (s : State) (uid : Nat) (slot : Word) (a : DWord) (pa rec_ : Nat) (o : Drained) : State × Drained :=
  let l := accLine s pa rec_
  let w := (slotFmt slot).width
  let n := l.positions
  let s1 := setAcc s pa l
  let s2 := if l.poisoned then logError s1 9 ⟨1, (s.team uid).coreId⟩ pa (some (s.team uid).ctx) (s.team uid).teamIx else s1
  let off := o.pos * w / 8
  if !l.armed || l.overfull then (s2, { o with lines := o.lines + 1, pos := o.pos + n, bad := o.bad.orElse (fun _ => some a) })
  else
    let clamps := if l.float then 0 else l.clamps
    if l.poisoned then
      (s2, { o with lines := o.lines + 1, segs := o.segs ++ [(off, List.replicate (n * w / 8) 0, true)], pos := o.pos + n, sats := o.sats + clamps })
    else
      let es := (List.range n).map (fun j => encodeVal slot .rne true (drainVal l j))
      let evs := es.flatMap Prod.snd
      (s2, { o with lines := o.lines + 1, segs := o.segs ++ [(off, denseBytes w (es.map Prod.fst), false)], pos := o.pos + n,
                    sats := o.sats + clamps + classCount 0 evs, events := o.events ++ evs })

def drainLines (uid : Nat) (slot : Word) : State → Drained → AccRun → State × Drained
  | s, o, [] => (s, o)
  | s, o, (a, pa, rec_) :: r =>
    let x := drainLine s uid slot a pa rec_ o
    drainLines uid slot x.1 x.2 r

/-- Pieces that adjoin are written together. -/
def joinSegs : List Seg → List Seg
  | [] => []
  | (o, bs, p) :: r =>
    match joinSegs r with
    | (o', bs', p') :: r' => if o + bs.length = o' ∧ p = p' then (o, bs ++ bs', p) :: r' else (o, bs, p) :: (o', bs', p') :: r'
    | [] => [(o, bs, p)]

/-- The place of a byte of a drain's destination space. -/
def drainLoc (s : State) (uid : Nat) (d : DrainDesc) (a : Nat) : Option Loc :=
  match d.space with
  | 0 => (mfind d.pages (a % 2 ^ 64 / 65536)).map (fun p => .phys (leafPhys p.1 p.2 (a % 2 ^ 64)))
  | 1 => some (.scratch uid a)
  | _ => windowPlace s uid (a / 2 ^ 21) (a % 2 ^ 21)

/-- Whether a byte of a drain's destination lies on a page of domain system, whose accesses are performed at the home slice (R267). -/
def drainHome (d : DrainDesc) (a : Nat) : Bool :=
  decide (d.space = 0) && (mfind d.pages (a % 2 ^ 64 / 65536)).any (fun p => decide (leafDomain p.1 = 1))

/-- A run of bytes in one beat written to a drain's destination; poison alone for the output of a poisoned line (R225, R332). -/
def drainBytes (s : State) (uid : Nat) (d : DrainDesc) (a : Nat) (data : List Byte) (bad : Bool) : State :=
  match drainLoc s uid d a with
  | some l =>
    let s1 := if drainHome d a then noteHome s l else noteWrite s (s.team uid).die l
    if bad then setPoison s1 l true else writeBeat s1 l data false
  | none => s

/-- The pieces of a drain's output that lie in its g-th granule of memory written: one beat (R225, R330). -/
def drainGranule (uid : Nat) (d : DrainDesc) (g : Nat) (s : State) (segs : List Seg) : State :=
  segs.foldl (fun s x =>
    let a := d.dest.toNat + x.1
    let lo := max a (32 * g)
    let hi := min (a + x.2.1.length) (32 * (g + 1))
    if lo < hi then drainBytes s uid d lo ((x.2.1.drop (lo - a)).take (hi - lo)) x.2.2 else s) s

/-- A write of an entry to a byte of its drain's destination on: a message, but to the team's own scratchpad (R271). -/
def drainSend (s : State) (e : MEntry) (d : DrainDesc) (a : Nat) (act : State → State) : State :=
  if d.space = 1 then act s
  else sendMessage s e (match drainLoc s e.team d a with
    | some (.phys p) => p
    | _ => a) act

/-- The bytes that a drain's lines read so far take. -/
def Drained.bytes (o : Drained) (w : Nat) : Nat := o.pos * w / 8

/-- The granules of a drain's destination, of what has been read so far. -/
def drainGranules (d : DrainDesc) (o : Drained) (w : Nat) : List Nat :=
  (List.range (granules d.dest.toNat (o.bytes w))).map (fun i => d.dest.toNat / 32 + i)

/-- Whether the granule's content is settled: the lines that reach into it, or all of the run, have been read. -/
def granuleSettled (d : DrainDesc) (o : Drained) (n w g : Nat) : Bool :=
  decide (n ≤ o.lines) || decide (32 * (g + 1) ≤ d.dest.toNat + o.bytes w)

/-- One beat of a drain's output. -/
def drainBeat (s : State) (e : MEntry) (run : AccRun) (d : DrainDesc) (g : Nat) : State :=
  let w := (slotFmt (slotWord s e.team d.slot)).width
  if e.out.landed.contains g || !(drainGranules d e.out w).contains g || !granuleSettled d e.out run.length w g then s
  else
    (drainSend s e d (max d.dest.toNat (32 * g)) (fun s => drainGranule e.team d g s (joinSegs e.out.segs))).modEntry e.team e.id (fun e => { e with out := { e.out with landed := sadd e.out.landed g } })

/-- The next line of a drain read. -/
def drainNext (s : State) (e : MEntry) (run : AccRun) (d : DrainDesc) : State :=
  match run[e.out.lines]? with
  | none => s
  | some (a, pa, rec_) =>
    let x := drainLine s e.team (slotWord s e.team d.slot) a pa rec_ e.out
    x.1.modEntry e.team e.id (fun e => { e with out := x.2 })

/-- What is left of a drain: its lines read, its beats written, the counter word, events and release, the report of the first line without
output (R353). -/
def endDrain (s : State) (e : MEntry) (run : AccRun) (d : DrainDesc) : State :=
  let uid := e.team
  let slot := slotWord s uid d.slot
  let x := drainLines uid slot s e.out (run.drop e.out.lines)
  let segs := joinSegs x.2.segs
  let s1 := ((drainGranules d x.2 (slotFmt slot).width).filter (fun g => !e.out.landed.contains g)).foldl
    (fun s g => drainSend s e d (max d.dest.toNat (32 * g)) (fun s => drainGranule uid d g s segs)) x.1
  let s2 := drainSend s1 e d d.counter.toNat (fun s => drainBytes s uid d d.counter.toNat (leBytes 4 (min (2 ^ 32 - 1) x.2.sats)) false)
  let s3 := raiseMatrix (some slot) uid e.word s2 x.2.events
  let s4 := if d.flags.testBit 4 then endPrivatised s3 (s.team uid).coreId (bits d.flags 2 0) else s3
  match x.2.bad with
  | some a => entryFault s4 e 0x14 a .global
  | none => s4

/-! ### Bank rows (R319, R347) -/

/-- The burin core's store queue. -/
def MEntry.gid (e : MEntry) : Nat := gidOf e.team 32
/-- How many entries of the burin core's store queue, oldest first, were made before an entry's issue. -/
def MEntry.earlier (s : State) (e : MEntry) : Nat := e.before - (s.group e.gid).left

/-- Scratchpad as an entry reads it, as loads of the burin core: past what its store queue took after the entry's issue, and once the atomics there that write
the bytes have left (R229, R239, R319). -/
def settleBank (s : State) (e : MEntry) (off n : Nat) : State :=
  leaveN (mustLeave s (.scratch e.team off) n ((s.group e.gid).queue.take (e.earlier s))) s e.gid

/-- Bytes of scratchpad as an entry reads them, with their poison: the burin core's own stores made before its issue are seen (R226, R229, R239).
DESIGN CHOICE, log 71: one made after it is seen once it has left the queue. -/
def bankBytes (s : State) (e : MEntry) (off n : Nat) : List Byte × Bool :=
  (loadBytes (s.modGroup e.gid (fun g => { g with queue := g.queue.take (e.earlier s) })) e.gid (.scratch e.team off) n, poisoned s (.scratch e.team off) n)

/-- The i-th of the bank rows of 16 bytes that `n` bytes of scratchpad from an aligned offset take, with its poison. -/
def bankRow (s : State) (e : MEntry) (off n i : Nat) : List Byte × Bool := bankBytes s e (off + 16 * i) (min 16 (n - 16 * i))

/-- Bank rows as an entry has read them, the others as they stand. -/
def bankRows (s : State) (e : MEntry) (off n : Nat) : List (List Byte × Bool) :=
  (List.range (ceilDiv n 16)).map (fun i => (mfind e.got i).getD (bankRow s e off n i))

/-- One bank row read, if it is one of `n` bytes and has not been read. -/
def readBank (s : State) (e : MEntry) (off n i : Nat) : State :=
  if decide (16 * i < n) && (mfind e.got i).isNone then
    let s1 := settleBank s e (off + 16 * i) (min 16 (n - 16 * i))
    s1.modEntry e.team e.id (fun e => { e with got := mput e.got i (bankRow s1 e off n i) })
  else s

/-- The key under which an entry keeps a row's adapter id. -/
def idKey : Nat := 1000

/-- The adapter id of an entry's next row as two bytes with their poison: 0 without a vector (R321). -/
def idBytes (s : State) (e : MEntry) (d : StreamDesc) : List Byte × Bool :=
  match d.ids with
  | none => ([0, 0], false)
  | some i =>
    (mfind e.got idKey).getD (bankBytes s e (i + 2 * e.row) 2)

/-- The atomics of the burin core's own queue that write a row's activations or its id have left, as far as the entry has not read them. -/
def settleRow (s : State) (e : MEntry) (d : StreamDesc) (n : Nat) : State :=
  let s1 := settleBank s e (d.act + e.row * d.stride) n
  match d.ids with
  | some i => settleBank s1 e (i + 2 * e.row) 2
  | none => s1

/-- A tile's bytes. -/
def tileBytes (s : State) (uid slot k : Nat) : Nat := k * (plateRow (slotFmt (slotWord s uid slot))).getD 0

/-- The report of poison in the bank rows of `rows` at an offset, if any has it. -/
def reportBank (s : State) (e : MEntry) (off : Nat) (rows : List (List Byte × Bool)) : State :=
  match (rows.zipIdx.find? (fun r => r.1.2)).map Prod.snd with
  | some i => entryFault s e 0x19 (dw (off + 16 * i)) .scratch
  | none => s

/-- The whole tile is in the shadow plate (R315, R318). -/
def endLoad (s0 : State) (e : MEntry) (tile slot k : Nat) (tag : Word) : State :=
  let n := tileBytes s0 e.team slot k
  let s := settleBank s0 e tile n
  let rows := bankRows s e tile n
  (reportBank s e tile rows).modTeam e.team (fun t =>
    { t with shadow := some { slot := slot, k := k, tag := tag, tile := rows.flatMap Prod.fst } })

/-- What an entry does when it starts, but for its parts: tile reads, rows, lines and beats follow one by one. -/
def startOp (s : State) (e : MEntry) : State :=
  let uid := e.team
  match e.op with
  | .swap => s.modTeam uid (fun t => { t with active := t.shadow, shadow := t.active })
  | .stream d _ => if d.flags.testBit 0 then entryAcquire s e (bits d.flags 4 2) else s
  | .adapt table => s.modTeam uid (fun t => { t with adapter := table, slices := [] })
  | .drain _ d => if d.flags.testBit 3 then entryAcquire s e (bits d.flags 2 0) else s
  | .load _ _ _ _ => s
  | .arm _ _ => s
  | .clear _ => s

/-- An entry starts once its condition holds. -/
def startEntry (s : State) (id : Nat) : State :=
  match s.entry id with
  | some (earlier, e) => if e.started || !e.mayStart earlier then s else startOp (s.modEntry e.team id (fun e => { e with started := true })) e
  | none => s

/-! ### The adapter path (R323 to R326) -/

/-- Bytes of an adapter element. -/
def adapterEs (f : Fmt) : Nat := viewEs f

/-- A read of the burin core under R208: bytes with the first poisoned one, a hold, or a trap; poison is reported and the bytes are used. -/
inductive Got where
  | bytes (bs : List Byte) (poison : Option Nat)
  | hold (page : DWord)
  | trap (f : TrapInfo)
  deriving DecidableEq, Repr

/-- Where the burin core of a team finds global bytes. -/
def burinPlaces (s : State) (uid : Nat) : Places := threadPlaces s (s.team uid).coreId (s.team uid).ctx uid

/-- What a verdict other than a pass lets a read of an engine have: its flags name no access size, and an engine (R449). -/
def Verdict.refuses : Verdict → Option Got
  | .pass => none
  | .hold p _ _ => some (.hold p)
  | .trap f => some (.trap { f with flags := (f.flags &&& ~~~0xE00#32) ||| 0x40 })

/-- A read of the burin core at an aperture address, through the press as its loads are (R202, R278, R373). -/
def burinView (s : State) (uid a n : Nat) : State × Got :=
  match (viewVerdict s (burinOf uid) (dw a) n).refuses, viewRead s (burinOf uid) (dw a) n with
  | some g, _ => (s, g)
  | none, some r =>
    let x := viewLoad (fillView n s (burinOf uid) (dw a)) (grpOf (burinOf uid)) uid r
    (x.1, .bytes x.2.1 ((x.2.2.map (fun t => a + (t * r.view.rowBytes - r.off)))))
  | none, none => (s, .bytes [] none)

/-- A read of one range of a page by the burin core, for an adapter table entry or a slice: as its loads read, its own queue seen (R229, R239, R325, R348). -/
def burinPiece (s : State) (uid a n : Nat) : State × Got :=
  let t := s.team uid
  match checkPage s t.coreId t.ctx uid (dw a) n .load true false with
  | .view _ => burinView s uid a n
  | _ =>
    match (rangeVerdict s (burinOf uid) .load true false true false [(a, n)]).refuses with
    | some g => (s, g)
    | none =>
      let pl := burinPlaces s uid
      let x := ownGranules (gidOf uid 32) pl s [] ((cuts 32 a n).map (fun c => c.1 / 32))
      (noteVirt pl (threadHome s t.coreId t.ctx uid) t.die x.1 [(a, n)], .bytes (readVirt x.1 pl x.2 [(a, n)]).1 (badByte x.1 pl [(a, n)]))

/-- A read of several ranges: the state, and the bytes; nothing is read when one of them is held or refused. -/
def burinPieces (s : State) (uid : Nat) : List (Nat × Nat) → State × Got
  | [] => (s, .bytes [] none)
  | (a, n) :: ps =>
    match burinPiece s uid a n with
    | (s1, .bytes bs bad) =>
      (match burinPieces s1 uid ps with
       | (s2, .bytes cs worse) => (s2, .bytes (bs ++ cs) (bad.or worse))
       | (_, g) => (s, g))
    | (_, g) => (s, g)

/-- The same for a row of a stream: of the burin core's own queue what it held when the stream was issued is seen. DESIGN CHOICE, log 71: a store made after that
is seen once it has left the queue. -/
def burinRead (s : State) (uid id : Nat) (ps : List (Nat × Nat)) : State × Got :=
  match s.entry id with
  | some (_, e) => underFirst s e.gid (e.earlier s) (fun s => burinPieces s uid ps)
  | none => burinPieces s uid ps

/-- The fields of an adapter table entry (R348). -/
structure AdapterRec where
  a : Nat
  b : Nat
  rank : Nat
  slot : Nat
  alpha : Int
  bcols : Nat
  deriving DecidableEq, Repr

def readAdapter (r : List Byte) : AdapterRec :=
  { a := fld r 0 8, b := fld r 8 8, rank := fld r 16 1, slot := fld r 17 1, alpha := (BitVec.ofNat 8 (fld r 20 1)).toInt, bcols := fld r 24 4 }

/-- The limits of an entry for a plate tag (R324). -/
def adapterLegal (r : List Byte) (x : AdapterRec) (slot : Nat → Word) (tag : Word) : Bool :=
  let f := slotFmt (slot x.slot)
  decide (1 ≤ x.rank) && decide (x.rank ≤ 64) && decide (x.slot ≤ 7) && viewFmt f && zeroAt r 18 2 && zeroAt r 21 3 && zeroAt r 28 4 &&
  decide (x.bcols % 32 = 0) && decide (32 ≤ x.bcols) && decide (x.bcols ≤ 2 ^ 21) && decide (32 * (tag.toNat % 65536 + 1) ≤ x.bcols)

/-- Slices of rank columns, and all slices, that a row needs. -/
def AdapterRec.rankSlices (x : AdapterRec) : Nat := ceilDiv x.rank 8
def AdapterRec.sliceCount (x : AdapterRec) (k : Nat) : Nat := ceilDiv k 1024 * x.rankSlices

/-- The ranges of a slice: rows of A, then rows of B. -/
def AdapterRec.ranges (x : AdapterRec) (es : Nat) (q : Replay) (i : Nat) : List (Nat × Nat) × List (Nat × Nat) :=
  let kb := i / x.rankSlices
  let rb := i % x.rankSlices
  let cols := min 8 (x.rank - 8 * rb)
  let t := q.tag.toNat % 65536
  ((List.range (min 1024 (q.k - 1024 * kb))).flatMap (fun k =>
      pieces ((x.a + ((q.kpass * q.k + 1024 * kb + k) * x.rank + 8 * rb) * es) % 2 ^ 64) (cols * es)),
   (List.range cols).flatMap (fun j => pieces ((x.b + ((8 * rb + j) * x.bcols + 32 * t) * es) % 2 ^ 64) (32 * es)))

/-- Whether a cached slice is the i-th of a row: its tag is the row's, and it holds the rows of A that R323 names for the row's K (log 13). -/
def Slice.serves (c : Slice) (table : DWord) (q : Replay) (i : Nat) : Bool :=
  decide (c.table = table ∧ c.id = q.id ∧ c.tag = q.tag ∧ c.kpass = q.kpass ∧ c.index = i ∧ q.k ≤ c.k ∧ c.kpass * c.k = q.kpass * q.k)

/-- The slices that a row needs, as far as the cache holds them. -/
def haveSlices (t : Team) (q : Replay) (n : Nat) : List (Option Slice) :=
  (List.range n).map (fun i => t.slices.find? (fun c => c.serves t.adapter q i))

/-- Elements of a slice's matrix. -/
def sliceElem (slot : Word) (bs : List Byte) (i : Nat) : Val :=
  let es := adapterEs (slotFmt slot)
  slotVal slot (leNat ((bs.drop (i * es)).take es))

/-- AdapterPart of R323 over the slices of a row. -/
def adapterPart (x : AdapterRec) (fslot : Word) (xs : List Val) (k : Nat) (sl : List Slice) : List Word × List Nat :=
  let rs := x.rankSlices
  let elemA (i j : Nat) : Val :=
    match sl[i / 1024 * rs + j / 8]? with
    | some c => sliceElem fslot c.adata (i % 1024 * min 8 (x.rank - j / 8 * 8) + j % 8)
    | none => .fin false 0 0
  let elemB (j n : Nat) : Val :=
    match sl[j / 8]? with
    | some c => sliceElem fslot c.bdata (j % 8 * 32 + n)
    | none => .fin false 0 0
  let hs := (List.range x.rank).map (fun j => passSum .f32 (((List.range k).zip xs).map (fun p => (p.2, elemA p.1 j))))
  let hv := hs.map (fun h => inF32 (wd h.1))
  let outs := (List.range 32).map (fun n =>
    let z := passSum .f32 (((List.range x.rank).zip hv).map (fun p => (p.2, elemB p.1 n)))
    let o := outVal .f32 .rne ((inF32 (wd z.1)).scale x.alpha)
    (wd o.1, z.2 ++ o.2))
  (outs.map Prod.fst, hs.flatMap Prod.snd ++ outs.flatMap Prod.snd)

/-- A contribution of 32 outputs of a row sent to its lines (R322). -/
def sendRow (s : State) (uid entry : Nat) (word : Word) (acc : DWord) (pa rec_ pa2 rec2 : Nat) (data : List Word) : State :=
  { s with
    contributions := s.contributions ++
      [{ id := s.nextId, team := uid, tid := burinOf uid, trapNo := 0, entry := some entry, word := word, addr := acc, pa := pa, record := rec_,
         next := some (pa2, rec2), data := data, offset := 0, inc := incarnation s ⟨1, (s.team uid).coreId⟩ }]
    nextId := s.nextId + 1 }

/-- A row whose slices are all present: its adapter part computed and sent, the slices used last. -/
def computePart (s : State) (uid : Nat) (q : Replay) (x : AdapterRec) (sl : List Slice) : State :=
  let r := adapterPart x (slotWord s uid x.slot) (denseElems (slotWord s uid q.slot) q.k q.x) q.k sl
  let s1 := raiseMatrix none uid q.word s r.2
  let s2 := s1.modTeam uid (fun t => { t with slices := sl ++ t.slices.filter (fun c => !sl.contains c) })
  sendRow s2 uid q.entry q.word q.acc q.pa q.record q.next q.nextRecord r.1

/-- The fault of a row whose entry breaks its limits, or whose matrices are misaligned: cause and address (R324, R348). -/
def adapterBad (s : State) (uid : Nat) (q : Replay) (raw : List Byte) : Option (Nat × DWord) :=
  let x := readAdapter raw
  let es := adapterEs (slotFmt (slotWord s uid x.slot))
  if !adapterLegal raw x (slotWord s uid) q.tag then some (0x02, (s.team uid).adapter + dw (32 * q.id))
  else if x.a % es ≠ 0 then some (0x16, dw (x.a + q.kpass * q.k * x.rank * es))
  else if x.b % es ≠ 0 then some (0x16, dw (x.b + 32 * (q.tag.toNat % 65536) * es))
  else none

/-- What becomes of a row's adapter part. -/
inductive Part where
  /-- computed now -/
  | done (s : State)
  /-- it waits in the replay buffer -/
  | wait (s : State) (q : Replay)

/-- A report of the burin core on an adapter read: what its check found, after issue (R324, R449). What the read met in a table is recorded as it meets it,
whatever becomes of the report (R201, R366). -/
def adapterFault (s : State) (uid : Nat) (q : Replay) (f : TrapInfo) : State :=
  pendFault (logMet s [(burinOf uid, f)]) (burinOf uid) { f with word := q.word, flags := f.flags ||| 1, bad := none, entry := none }
/-- A report with a cause and an address. -/
def adapterReport (s : State) (uid : Nat) (q : Replay) (c : Nat) (a : DWord) : State :=
  adapterFault s uid q { cause := c, addr := a, word := q.word, flags := mkFlags 1 .global true true false false false false true }
/-- Poison that an adapter read met, if any. -/
def adapterPoison (s : State) (uid : Nat) (q : Replay) : Option Nat → State
  | some a => adapterFault s uid q { cause := 0x19, addr := dw a, word := q.word, flags := poisonFlags s (burinOf uid) true (dw a) }
  | none => s

/-- The entry of a row read: the row goes on to its slices, waits at a page, or is given up with a report. -/
def tryPart (s : State) (uid : Nat) (q : Replay) : Part :=
  let ea := (s.team uid).adapter + dw (32 * q.id)
  let rest (s : State) (raw : List Byte) : Part :=
    match adapterBad s uid q raw with
    | some (c, a) => .done (adapterReport s uid q c a)
    | none =>
      let x := readAdapter raw
      let have_ := haveSlices (s.team uid) q (x.sliceCount q.k)
      if have_.all Option.isSome then .done (computePart s uid q x (have_.filterMap id))
      else .wait s { q with desc := some raw }
  match q.desc with
  | some raw => rest s raw
  | none =>
    if (s.team uid).adapter = 0 then .done (adapterReport s uid q 0x02 ea)
    else
      match burinRead s uid q.entry (pieces ea.toNat 32) with
      | (_, .trap f) => .done (adapterFault s uid q f)
      | (_, .hold _) => .wait s q
      | (s1, .bytes raw bad) => rest (adapterPoison s1 uid q bad) raw

/-- Entries of the adapter cache that a list of slices takes. -/
def sliceWeight (l : List Slice) : Nat := (l.map (fun c => 1 + b1 c.double)).sum

/-- Whether a row needs a cached slice. -/
def needsSlice (table : DWord) (c : Slice) (q : Replay) : Bool :=
  decide (c.table = table ∧ c.id = q.id ∧ c.tag = q.tag ∧ c.kpass = q.kpass ∧ q.k ≤ c.k ∧ c.kpass * c.k = q.kpass * q.k)

/-- A slice enters the cache of 64 entries: the last used last leaves first, but for what a held row needs; none when there is no room (R325). -/
def insertSlice (t : Team) (c : Slice) : Option (List Slice) :=
  let held (x : Slice) : Bool := t.replays.any (needsSlice t.adapter x)
  -- from the least recently used on
  let l := t.slices.reverse.foldl (fun acc x => if sliceWeight (c :: acc) ≤ 64 ∨ held x then acc else acc.filter (fun y => decide (y ≠ x))) t.slices
  if sliceWeight (c :: l) ≤ 64 then some (c :: l) else none

/-- The rows of a replay buffer, oldest first, whose needs fit in the cache together: the rows that may fetch what they miss (DESIGN CHOICE, log 72). -/
def fitting (s : State) (uid : Nat) : Nat → List Replay → List Replay
  | _, [] => []
  | room, q :: qs =>
    match q.desc with
    | none => q :: fitting s uid room qs
    | some raw =>
      let x := readAdapter raw
      let w := x.sliceCount q.k * adapterEs (slotFmt (slotWord s uid x.slot))
      if w ≤ room then q :: fitting s uid (room - w) qs else []

/-- Rows of the replay buffer whose slices are all present are computed, in order. -/
def replayRows (uid : Nat) : State → List Replay → State
  | s, [] => s
  | s, q :: qs =>
    if q.desc.isNone then replayRows uid s qs
    else
      match tryPart s uid q with
      | .done s1 => replayRows uid (s1.modTeam uid (fun t => { t with replays := t.replays.filter (fun r => decide (r ≠ q)) })) qs
      | .wait s1 _ => replayRows uid s1 qs

/-- The next missing slice of the n-th row of a replay buffer arrives (R325, R326), or its read is held or fails. -/
def sliceArrives (s : State) (uid n : Nat) : State :=
  let t := s.team uid
  match t.replays[n]? with
  | none => s
  | some q =>
    if t.queue.any (fun e => decide (e.id = q.entry) && e.held.isSome) then s
    else
      let drop (s : State) : State := s.modTeam uid (fun t => { t with replays := t.replays.filter (fun r => decide (r ≠ q)) })
      let hold (p : DWord) : State :=
        (reportReplay s t.die t.ctx p 1 1 0).modEntry uid q.entry (fun e => { e with held := some p })
      match q.desc with
      | none =>
        (match tryPart s uid q with
         | .done s1 => drop s1
         | .wait s1 q1 =>
           if q1.desc.isSome then s1.modTeam uid (fun t => { t with replays := t.replays.map (fun r => if r = q then q1 else r) })
           else
             match (burinRead s uid q.entry (pieces (t.adapter + dw (32 * q.id)).toNat 32)).2 with
             | .hold p => hold p
             | _ => s)
      | some raw =>
        let x := readAdapter raw
        let slot := slotWord s uid x.slot
        let es := adapterEs (slotFmt slot)
        let keep := fitting s uid 64 t.replays
        match ((haveSlices t q (x.sliceCount q.k)).zipIdx.find? (fun p => p.1.isNone)).map Prod.snd with
        | none => replayRows uid s t.replays
        | some i =>
          if !keep.contains q then s
          else
            let rg := x.ranges es q i
            let x1 := burinRead s uid q.entry rg.1
            let x2 := burinRead x1.1 uid q.entry rg.2
            match x1.2, x2.2 with
            | .trap f, _ => drop (adapterFault s uid q f)
            | .hold p, _ => hold p
            | _, .trap f => drop (adapterFault s uid q f)
            | _, .hold p => hold p
            | .bytes da pa, .bytes db pb =>
              let c : Slice := { table := t.adapter, id := q.id, tag := q.tag, kpass := q.kpass, k := q.k, index := i, adata := da, bdata := db,
                                 double := decide (es = 2) }
              (match insertSlice t c with
               | none => s
               | some l =>
                 let s1 := x2.1.modTeam uid (fun t => { t with slices := l })
                 let s2 := adapterPoison s1 uid q (pa.or pb)
                 replayRows uid s2 t.replays)

/-! ### Main rows (R321, R322, R333) -/

/-- GOVCTL of a die: limit and step, each acting as 256 outside 1 to 256. -/
def govLimits (s : State) (die : Nat) : Nat × Nat :=
  let v := (s.sysReg (0x5000 + 64 * die + 1)).toNat
  let f (n : Nat) : Nat := if 1 ≤ n ∧ n ≤ 256 then n else 256
  (f (bits v 8 0), f (bits v 24 16))

/-- Rows that a core's array may still issue in this window. -/
def allowance (s : State) (core : Nat) : Nat :=
  let g := govLimits s (core / 256)
  let c := s.core core
  min g.1 (c.lastRows + g.2) - c.rows

/-- The replay record of a row of a stream, before its adapter entry is read. -/
def rowReplay (s : State) (e : MEntry) (d : StreamDesc) (lines : SMap (Nat × Nat)) (p : Plate) : Replay :=
  let a := d.line e.row
  let l1 := mget (noRecord, noRecord) lines (a.toNat / 128)
  let l2 := mget (noRecord, noRecord) lines ((a + 128).toNat / 128)
  let n := rowBytes (slotFmt (slotWord s e.team d.aslot)) p.k
  let id := leNat (idBytes s e d).1
  { entry := e.id, word := e.word, id := id, acc := a, pa := l1.1, record := l1.2, next := l2.1, nextRecord := l2.2,
    x := (bankRows s e (d.act + e.row * d.stride) n).flatMap Prod.fst, slot := d.aslot, kpass := d.kpass, k := p.k, tag := p.tag, desc := none }

/-- The 32 outputs of a row through a plate with their events. -/
def rowOutputs (s : State) (uid : Nat) (p : Plate) (aslot : Nat) (x : List Byte) : List Word × List Nat :=
  let pslot := slotWord s uid p.slot
  let rb := (plateRow (slotFmt pslot)).getD 0
  let xs := denseElems (slotWord s uid aslot) p.k x
  let ws := (List.range p.k).map (fun k => denseElems pslot 32 ((p.tile.drop (k * rb)).take rb))
  let outs := (List.range 32).map (fun n => passSum .f32 ((xs.zip ws).map (fun q => (q.1, q.2.getD n (.fin false 0 0)))))
  (outs.map (fun o => wd o.1), outs.flatMap Prod.snd)

/-- Whether a stream's next row is ready but for the governor: the replay buffer has room when the row misses. -/
def rowReady (s : State) (e : MEntry) : Bool :=
  match e.op, (s.team e.team).active with
  | .stream d lines, some p =>
    e.started && decide (e.row < d.rows) &&
      (decide ((s.team e.team).replays.length < 64) ||
        let s1 := settleRow s e d (rowBytes (slotFmt (slotWord s e.team d.aslot)) p.k)
        let q := rowReplay s1 e d lines p
        decide (q.id = 0) ||
        (match tryPart s1 e.team q with
         | .done _ => true
         | .wait _ _ => false))
  | _, _ => false

/-- Poison met in a row's activations or in its id is reported at its first failing byte (R208, R449). -/
def rowPoison (s : State) (e : MEntry) (d : StreamDesc) (p : Plate) : State :=
  let off := d.act + e.row * d.stride
  let s1 := reportBank s e off (bankRows s e off (rowBytes (slotFmt (slotWord s e.team d.aslot)) p.k))
  if (idBytes s e d).2 then entryFault s1 e 0x19 (dw (d.ids.getD 0 + 2 * e.row)) .scratch else s1

/-- The array issues one main row. -/
def issueRow (s : State) (id : Nat) : State :=
  match s.entry id with
  | none => s
  | some (_, e) =>
    match e.op, (s.team e.team).active with
    | .stream d lines, some p =>
      let uid := e.team
      let core := (s.team uid).coreId
      if !rowReady s e || decide (allowance s core = 0) then s
      else
        let sr := settleRow s e d (rowBytes (slotFmt (slotWord s e.team d.aslot)) p.k)
        let q := rowReplay sr e d lines p
        let s0 := rowPoison sr e d p
        let y := rowOutputs s0 uid p d.aslot q.x
        let s1 := raiseMatrix none uid e.word (countUnits s0 uid true 1) y.2
        let s2 := (s1.modEntry uid id (fun e => { e with row := e.row + 1, got := [] })).modCore core (fun c => { c with rows := c.rows + 1 })
        let s3 := sendRow s2 uid id e.word q.acc q.pa q.record q.next q.nextRecord y.1
        if q.id = 0 then s3
        else
          match tryPart s3 uid q with
          | .done s4 => s4
          | .wait s4 q1 => s4.modTeam uid (fun t => { t with replays := t.replays ++ [q1] })
    | _, _ => s

/-! ### Completion -/

/-- Whether everything an entry has to do is done. -/
def entryDone (s : State) (e : MEntry) : Bool :=
  e.started && e.rowsDone && !(s.team e.team).replays.any (fun q => decide (q.entry = e.id)) &&
    !s.contributions.any (fun c => decide (c.entry = some e.id))

/-- What is left of an entry at its end: the parts that it has not done, a stream's release and arrival (R315, R347). -/
def endEntry (s : State) (e : MEntry) : State :=
  match e.op with
  | .load tile slot k tag => endLoad s e tile slot k tag
  | .arm run ctl => armRun s e ctl (run.drop e.armed)
  | .clear run => clearRun s e (run.drop e.armed)
  | .drain run d => endDrain s e run d
  | .stream d _ =>
    let s0 := if d.flags.testBit 1 then endPrivatised s (s.team e.team).coreId (bits d.flags 4 2) else s
    (match d.phase with
     | none => s0
     | some k => if (s0.bar e.team k).init then countMember s0 e.team k false else entryFault s0 e 0x0A 0 .global)
  | .swap => s
  | .adapt _ => s

/-- One part of an entry that has started, each an event of its own: a bank row read, a line armed, cleared or read, a beat written; of a drain, part 0
reads its next line and part i + 1 is the i-th beat (R225, R244, R319, R347). -/
def entryPart (s : State) (id part : Nat) : State :=
  match s.entry id with
  | none => s
  | some (_, e) =>
    if !e.started then s
    else
      match e.op, (s.team e.team).active with
      | .load tile slot k _, _ => readBank s e tile (tileBytes s e.team slot k) part
      | .stream d _, some p =>
        if d.rows ≤ e.row then s
        else if part = idKey then
          let s1 := settleBank s e (d.ids.getD 0 + 2 * e.row) (if d.ids.isSome then 2 else 0)
          s1.modEntry e.team e.id (fun e => { e with got := mput e.got idKey (idBytes s1 e d) })
        else readBank s e (d.act + e.row * d.stride) (rowBytes (slotFmt (slotWord s e.team d.aslot)) p.k) part
      | .arm run ctl, _ =>
        (match run[e.armed]? with
         | some x => (armLine e ctl s x).modEntry e.team e.id (fun e => { e with armed := e.armed + 1 })
         | none => s)
      | .clear run, _ =>
        (match run[e.armed]? with
         | some x => (clearLine e s x).modEntry e.team e.id (fun e => { e with armed := e.armed + 1 })
         | none => s)
      | .drain run d, _ => if part = 0 then drainNext s e run d else drainBeat s e run d (d.dest.toNat / 32 + part - 1)
      | _, _ => s

/-- An entry completes and leaves. -/
def completeEntry (s : State) (id : Nat) : State :=
  match s.entry id with
  | none => s
  | some (_, e) =>
    if !entryDone s e then s
    else
      let uid := e.team
      let s1 := endEntry s e
      s1.modTeam uid (fun t => { t with queue := t.queue.filter (fun x => decide (x.id ≠ id)) })

/-- A governor window of a core ends (R333). -/
def nextWindow (s : State) (core : Nat) : State :=
  if (s.core core).govDue then s.modCore core (fun c => { c with lastRows := c.rows, rows := 0, govDue := false }) else s

/-- ACC.STAT: the line read as one event at its home slice (R355). -/
def statLine (s : State) (uid : Nat) (a : DWord) : State × DWord :=
  let p := linePlace s uid a
  let l := accLine s p.1 p.2
  (setAcc s p.1 l, accStatus l)

end Sys2Proof.Machine
end

