-- ==== Sys2Proof/Machine/Checks.lean ====
section
/-! DEFINITION. The issue checks of one word for one lane (steps 3 to 7 of R86), which lanes of the issuing set pass them, and what becomes of
the others: a hold, or one trap together (R86, R209, R398). -/

namespace Sys2Proof.Machine

/-! ### Addresses that a word names -/

/-- The address of a global access (R276): reduced modulo 2^64. -/
def memAddr (s : State) (tid : Nat) (a : Code) (sz : BitVec 3) (off : BitVec 5) : DWord :=
  BitVec.ofInt 64 (effAddr (s.wide tid a).toNat off (szBytes sz))
/-- The offset of a scratchpad or private access (R276, R337), not reduced. -/
def memOff (s : State) (tid : Nat) (a : Code) (sz : BitVec 3) (off : BitVec 5) : Int := effAddr (s.amount tid a) off (szBytes sz)

/-- The target of a static transfer (R87, R141, R142). -/
def staticTarget {v : Nat} (pc : DWord) (slot : BitVec 5) (dline : BitVec v) : DWord :=
  (pc &&& ~~~0x7F#64) + dline.signExtend 64 * 128 + 4 * slot.setWidth 64

/-- The private offset of a return address: the new sp of a call, the sp of RET (R122). -/
def pushOffset (t : Thread) : Word := t.sp - 8

/-! ### Step 3: the word may run here -/

/-- The majors and functions that the burin core runs (R93). -/
def burinRuns (i : Instr) : Bool :=
  match encode i with
  | none => false
  | some w =>
    let m := (major w).toNat
    let fn := bits w.toNat 24 20
    (decide (1 ≤ m) && decide (m ≤ 5)) || m = 7 || m = 8 || (decide (0x10 ≤ m) && decide (m ≤ 0x1B)) ||
    (m = 0x1C && (decide (fn < 6) || decide (9 < fn))) || (decide (0x30 ≤ m) && decide (m ≤ 0x33)) || m = 0x39 || m = 0x3C ||
    (m = 0x3E && fn = 0)

/-- The size code of a load or store. -/
def sizeCode : Instr → Option (BitVec 3)
  | .ldg _ _ _ _ sz _ => some sz
  | .stg _ _ _ sz _ => some sz
  | .lds _ _ _ sz _ => some sz
  | .sts _ _ sz _ => some sz
  | .ldp _ _ _ sz _ => some sz
  | .stp _ _ sz _ => some sz
  | _ => none

/-- Whether only a vector thread's major 0x3C stands in the way (R93). -/
def burinOnly (i : Instr) : Bool :=
  match encode i with
  | none => false
  | some w => decide (major w = 0x3C)

/-- The mode of major 0x3E (R422), the special registers (R134, R178 of the kinds of core), the position of NARROW (R191). -/
def mayRun (s : State) (tid : Nat) (i : Instr) : Bool :=
  let t := s.team (teamOf tid)
  let burin := isBurin tid
  (if burin then burinRuns i && decide (sizeCode i ≠ some 6) else !burinOnly i) &&
  (match i with
   | .illegalInstruction _ => false
   | .movs _ imm => if burin then decide (imm.toNat ≤ 0x11) else decide (imm.toNat ≤ 0x11) && decide (imm.toNat ≠ 0x10)
   | .narrowPack _ _ _ k p => narrowLegal (slotFmt (slotWord s (teamOf tid) k.toNat)) p.toNat
   | .narrowUnpack _ _ _ k p => narrowLegal (slotFmt (slotWord s (teamOf tid) k.toNat)) p.toNat
   | .eret => (s.pre tid).trapping.isSome
   | .movsys _ _ => t.service
   | .movsysW _ _ => t.service
   | .movtsysSlim _ => t.service
   | .movtsysRunclr => t.service
   | .tlbinv _ _ => t.service
   | .halt _ _ => t.service
   | .haltRes _ _ => t.service
   | .proof _ _ => t.service
   | _ => true)

def check3 (s : State) (tid : Nat) (i : Instr) : Verdict := if mayRun s tid i then .pass else s.plainTrap 0x01

/-! ### Steps 4 and 5 -/

def check4 (s : State) (tid : Nat) (i : Instr) : Verdict := if legalOperands s tid i then .pass else s.plainTrap 0x02

/-- The slot of a static transfer and its target. -/
def staticSlot (s : State) : Instr → Option (BitVec 5 × DWord)
  | .bnz _ _ slot dline => some (slot, staticTarget s.issue.pc slot dline)
  | .bz _ _ slot dline => some (slot, staticTarget s.issue.pc slot dline)
  | .jmp _ slot dline => some (slot, staticTarget s.issue.pc slot dline)
  | .call _ slot dline => some (slot, staticTarget s.issue.pc slot dline)
  | _ => none

/-- A transfer whose target fails: the trap PC is the address of the word that transfers (R80, R145; log 52). -/
def State.transferTrap (s : State) (cause : Nat) (t : DWord) : Verdict :=
  .trap { cause := cause, addr := t, word := s.issue.word, flags := 0, pc := some s.issue.addr }

def check5 (s : State) (_tid : Nat) (i : Instr) : Verdict :=
  match staticSlot s i with
  | some (slot, t) => if 30 ≤ slot.toNat then s.transferTrap 0x06 t else .pass
  | none => .pass

/-! ### Step 6 -/

def latchCheck (s : State) (tid : Nat) (i : Instr) : Verdict :=
  if isBurin tid || latchesValid (s.pre tid) i then .pass else s.plainTrap 0x04

/-- Whether a lane takes a conditional branch: BNZ when `onZero` is false. -/
def branchTaken (s : State) (tid : Nat) (a : Code) (onZero : Bool) : Bool :=
  decide (s.amount tid a = 0) == onZero

/-- Hint agreement (R105) among the lanes whose latches pass. -/
def hintCheck (s : State) (tid : Nat) (i : Instr) (h : BitVec 2) (a : Code) (onZero : Bool) : Verdict :=
  let ls := s.issue.lanes.filter (fun l => latchesValid (s.pre l) i)
  if !isBurin tid && decide (h = 3) && (s.team (teamOf tid)).kern.hintchk &&
      ls.any (fun l => branchTaken s l a onZero) && ls.any (fun l => !branchTaken s l a onZero) then s.plainTrap 0x08 else .pass

/-- Only the producer group commands the streamer (R37). -/
def producerCheck (s : State) (tid : Nat) : Verdict :=
  if (s.team (teamOf tid)).kern.producer = some (groupIx (grpOf tid)) then .pass else s.plainTrap 0x09

/-- The barrier of a SYNC word: index, and the barrier initialised where the word needs it (R287). -/
def phaseCheck (s : State) (tid : Nat) (k : BitVec 5) (live : Bool) : Verdict :=
  let uid := teamOf tid
  if (s.team uid).kern.phases ≤ k.toNat then s.plainTrap 0x0A
  else if live && !(s.bar uid k.toNat).init then s.plainTrap 0x0A else .pass

/-- A thread arrives once in a phase (R288). -/
def arriveCheck (s : State) (tid : Nat) (k : BitVec 5) : Verdict :=
  (phaseCheck s tid k true).andThen <|
  if !isBurin tid && (mget 0 (s.bar (teamOf tid) k.toNat).lanes (groupIx (grpOf tid))).getLsbD (laneOf tid) then s.plainTrap 0x0A else .pass

/-- A scratchpad access of a thread is in bounds. -/
def lsBounds (s : State) (tid : Nat) (a : Code) (sz : BitVec 3) (off : BitVec 5) (write : Bool) : Verdict :=
  scratchBounds s tid (memOff s tid a sz off) (szBytes sz) (szBytes sz) false write false
def atomsBounds (s : State) (tid : Nat) (a : Code) : Verdict := scratchBounds s tid (s.src tid a).toNat 4 4 true true false

def copyAt (a : Code) (kinds : List Nat) (s : State) (tid : Nat) : Except Verdict Plan := copyChecks s tid (s.src tid a).toNat kinds
def walkAt (a : Code) (s : State) (tid : Nat) : Except Verdict Plan := (walkChecks s tid (s.src tid a).toNat).map (fun w => w.plan)

/-- Registrations of the lanes below one, in ascending order (R275, R290). -/
def regBefore (chk : State → Nat → Except Verdict Plan) (bar : Option Nat) (tid : Nat) : State → List Nat → State
  | s, [] => s
  | s, l :: ls =>
    if tid ≤ l then s
    else
      match chk s l with
      | .error _ => regBefore chk bar tid s ls
      | .ok p =>
        match barrierVerdict s l bar p.targets, bar with
        | .pass, some k => regBefore chk bar tid (register k s p.targets) ls
        | _, _ => regBefore chk bar tid s ls

/-- What stands before a streamer command's own checks (R86): steps 3 to 5, the latches and the right to the streamer. -/
def beforeCommand (s : State) (tid : Nat) (i : Instr) : Verdict :=
  ((((check3 s tid i).andThen (check4 s tid i)).andThen (check5 s tid i)).andThen (latchCheck s tid i)).andThen (producerCheck s tid)

/-- The checks of a streamer command in the order of R293 and R389: its record, then its barrier, after the lanes below. -/
def commandCheck (s : State) (tid : Nat) (i : Instr) (chk : State → Nat → Except Verdict Plan) (bar : Option Nat) : Verdict :=
  match chk s tid with
  | .error v => v
  | .ok p => barrierVerdict (regBefore chk bar tid s (s.issue.lanes.filter (fun l => decide (beforeCommand s l i = .pass)))) tid bar p.targets

def check6 (s : State) (tid : Nat) (i : Instr) : Verdict :=
  (latchCheck s tid i).andThen <|
  match i with
  | .bnz h a _ _ => hintCheck s tid i h a false
  | .bz h a _ _ => hintCheck s tid i h a true
  | .rjWait k => if ((s.group (grpOf tid)).mask k.toNat).1.getLsbD (laneOf tid) then .pass else s.plainTrap 0x07
  | .cpIssue _ a x => (producerCheck s tid).andThen (commandCheck s tid i (copyAt a [1, 2]) (namedBarrier x)).ofStep6
  | .cpMcast _ a x => (producerCheck s tid).andThen (commandCheck s tid i (copyAt a [3, 4]) (namedBarrier x)).ofStep6
  | .gaWalk _ a x => (producerCheck s tid).andThen (commandCheck s tid i (walkAt a) (namedBarrier x)).ofStep6
  | .phInit _ _ k => phaseCheck s tid k false
  | .phArrive _ k => arriveCheck s tid k
  | .phWait _ k => phaseCheck s tid k true
  | .phTest _ _ k => phaseCheck s tid k true
  | .phEnd _ k => arriveCheck s tid k
  | .phStat _ k => phaseCheck s tid k false
  | .phInval _ k => phaseCheck s tid k false
  | .vwSet _ a k => (viewIndex s tid k.toNat).andThen (scratchBounds s tid (s.src tid a).toNat 1 64 false false false)
  | .vwRefresh _ k => viewIndex s tid k.toNat
  | .vwGet _ _ k => viewIndex s tid k.toNat
  | .vwClear _ k => viewIndex s tid k.toNat
  | .lds _ _ a sz off => lsBounds s tid a sz off false
  | .sts _ a sz off => lsBounds s tid a sz off true
  | .atomsAdd _ _ a _ => atomsBounds s tid a
  | .atomsMinI _ _ a _ => atomsBounds s tid a
  | .atomsMaxI _ _ a _ => atomsBounds s tid a
  | .atomsAnd _ _ a _ => atomsBounds s tid a
  | .atomsOr _ _ a _ => atomsBounds s tid a
  | .atomsXor _ _ a _ => atomsBounds s tid a
  | .atomsXchg _ _ a _ => atomsBounds s tid a
  | .atomsCas _ _ a _ => atomsBounds s tid a
  | .xbTload a _ => scratchBounds s tid (s.src tid a).toNat 1 128 false false false
  | _ => .pass

/-- Steps 3 to 6. -/
def early (s : State) (tid : Nat) (i : Instr) : Verdict :=
  (((check3 s tid i).andThen (check4 s tid i)).andThen (check5 s tid i)).andThen (check6 s tid i)

/-! ### Step 7 -/

/-- The stack access of a call or a return (R143, R146): alignment, bounds, backing store. -/
def stackCheck (s : State) (tid : Nat) (write : Bool) : Verdict :=
  let t := s.pre tid
  let fl := mkFlags 8 .priv false (isBurin tid) false write false false false
  let o := if write then pushOffset t else t.sp
  if t.sp.toNat % 8 ≠ 0 then s.trapAt 0x16 (t.sp.setWidth 64) (mkFlags 8 .priv false (isBurin tid) false false false false false)
  else if (if write then t.sp.toInt - 8 else t.sp.toInt) < stackLow s (teamOf tid) ∨
      ((s.team (teamOf tid)).kern.stack : Int) < (if write then t.sp.toInt - 8 else t.sp.toInt) + 8 then s.trapAt 0x17 (o.setWidth 64) fl
  else privBacked s tid o.toNat 8 write

/-- The target of an indirect transfer (R80, R145). -/
def targetCheck (s : State) (t : DWord) : Verdict :=
  if t.toNat % 4 ≠ 0 then s.transferTrap 0x16 t else if badSlot t then s.transferTrap 0x06 t else .pass

/-- The return address at sp (R146). DESIGN CHOICE, log 53: the bytes are those at the start of the chain, as every source is (R82, R99), though an
STP of the same chain comes before RET in program order (R121). -/
def popped (t : Thread) : DWord := dw (leNat (t.privBytes t.sp.toNat 8))

/-- A new value of sp (R122, R151). -/
def spCheck (s : State) (tid : Nat) (n : Int) : Verdict :=
  if n < stackLow s (teamOf tid) ∨ ((s.team (teamOf tid)).kern.stack : Int) < n then
    s.trapAt 0x17 ((BitVec.ofInt 32 n).setWidth 64) 0
  else .pass
def spaddValue (s : State) (tid : Nat) (a : Code) (x : BitVec 6) : Int := (s.pre tid).sp.toInt + x.toInt * 16 + (s.narrow tid a).toInt

def ldgCheck (s : State) (tid : Nat) (a : Code) (sz : BitVec 3) (off : BitVec 5) : Verdict :=
  let va := memAddr s tid a sz off
  accessVerdict s tid va (szBytes sz) .load (fun _ => viewVerdict s tid va (szBytes sz))
/-- An access that no VIEW page takes. -/
def plainAccess (s : State) (tid : Nat) (va : DWord) (size : Nat) (u : Use) : Verdict :=
  accessVerdict s tid va size u (fun _ => s.trapAt 0x11 va (mkFlags size .global false (isBurin tid) false u.writes false false false))

def lsAligned (s : State) (tid : Nat) (a : Code) (sz : BitVec 3) (off : BitVec 5) (write : Bool) : Verdict :=
  scratchAligned s tid (memOff s tid a sz off) (szBytes sz) (szBytes sz) false write false
def atomsAligned (s : State) (tid : Nat) (a : Code) : Verdict := scratchAligned s tid (s.src tid a).toNat 4 4 true true false

/-- Checks 1 to 4 of R208 on the lines of a maintenance range, with read permission (R301). -/
def linesReadable (s : State) (tid : Nat) : List (Nat × Nat) → Verdict
  | [] => .pass
  | (a, _) :: ps =>
    let t := s.team (teamOf tid)
    let fl (win far : Bool) : Word := mkFlags 1 .global false false false false win far false
    let v : Verdict :=
      if bits a 63 57 ≠ 0 then s.trapAt 0x10 (dw a) (fl false false)
      else match translate s t.coreId t.ctx a with
        | .leaf e _ => if leafRead e then .pass else s.trapAt 0x11 (dw a) (fl (leafType e == 4) (leafFar e))
        | .demand => .hold (dw a) 1 { cause := 0x10, addr := dw a, word := s.issue.word, flags := fl false false }
        | .none bad => .trap { cause := 0x10, addr := dw a, word := s.issue.word, flags := fl false false, bad := bad }
    v.andThen (linesReadable s tid ps)
/-- The range of whole lines that a length of bytes touches (R301). -/
def lineRange (va : DWord) (n : Nat) : Nat × Nat :=
  if n = 0 then (0, 0) else (va.toNat / 128 * 128, (va.toNat + n + 127) / 128 * 128 - va.toNat / 128 * 128)
def rangeCheck (s : State) (tid : Nat) (a d : Code) : Verdict :=
  let r := lineRange (s.wide tid a) (s.narrow tid d).toNat
  linesReadable s tid (pieces r.1 r.2)

/-- An address that a word needs aligned, nothing else checked. -/
def alignedTo (s : State) (va : DWord) (n : Nat) : Verdict := if va.toNat % n ≠ 0 then s.trapAt 0x16 va 0 else .pass

/-- The first check of SYSCALL that fails: the queue's header, its order, the next entry (R431): the address of the failing check, with the malformed
page-table entry met (R201, R222). -/
def syscallBad (s : State) (t : Team) : Option (DWord × Option Nat) :=
  let q := s.cx t.ctx 4
  if q = 0 ∨ q.toNat % 64 ≠ 0 then some (q, none)
  else
    match checkNormal s t.coreId t.ctx q true true with
    | none => some (q, metBad s t.coreId t.ctx q)
    | some h =>
      let k := readNat s (.phys h) 4
      let e := q + dw (64 + 64 * (readNat s (.phys (h + 4)) 4 % 2 ^ k))
      match firstPoison s (.phys h) 64 with
      | some i => some (q + dw i, none)
      | none =>
        if k < 4 ∨ 12 < k then some (q, none)
        else if (checkNormal s t.coreId t.ctx e true true).isNone then some (e, metBad s t.coreId t.ctx e) else none

/-- The trap of a failing check of SYSCALL for a thread whose word is given. DESIGN CHOICE, log 63: the record's flags say no access size, and write. -/
def syscallFault (s : State) (tid : Nat) (word : Word) (x : DWord × Option Nat) : TrapInfo :=
  let b := pageBits s (s.coreOf tid) (s.ctxOf tid) (teamOf tid) x.1
  { cause := 0x11, addr := x.1, word := word, flags := mkFlags 1 .global false false false true b.1 b.2 false, bad := x.2 }

/-- The checks of SYSCALL. -/
def syscallCheck (s : State) (tid : Nat) : Verdict :=
  match syscallBad s (s.team (teamOf tid)) with
  | some x => .trap (syscallFault s tid s.issue.word x)
  | none => .pass

/-- A system register that belongs to the system cores alone (R426). -/
def sysRegCheck (s : State) (tid : Nat) (a : Code) : Verdict :=
  let n := (s.src tid a).toNat
  if 0x3000 ≤ n ∧ n ≤ 0x33FF then s.plainTrap 0x11 else .pass

/-- The control word of TLBINV (R433). -/
def tlbCheck (s : State) (tid : Nat) (d a : Code) : Verdict :=
  let c := (s.src tid d).toNat
  let kind := bits c 13 12
  if bits c 31 14 ≠ 0 ∨ kind = 3 ∨ (kind ≠ 0 ∧ a ≠ codeZ) then s.plainTrap 0x02 else .pass

/-- Step 7. DESIGN CHOICE, log 68: CALLI's store of the return address is checked, its translation included, before the target; and BRK and TRAP, whose
0x21 no row of R86's table names, stand here, as do TLBINV's control word (0x02, R433) and MOVSYS's register number (0x11, R426), for both are values that
the word reads. -/
def check7 (s : State) (tid : Nat) (i : Instr) : Verdict :=
  match i with
  | .call _ _ _ => stackCheck s tid true
  | .jmpi a => targetCheck s (s.wide tid a)
  | .calli a => (stackCheck s tid true).andThen (targetCheck s (s.wide tid a))
  | .ret => (stackCheck s tid false).andThen (targetCheck s (popped (s.pre tid)))
  | .spadd a x => spCheck s tid (spaddValue s tid a x)
  | .spset a => spCheck s tid (s.narrow tid a).toInt
  | .brk _ => s.plainTrap 0x21
  | .trap a _ => s.trapAt 0x21 (if isBurin tid then s.gsrc tid a else (s.src tid a).setWidth 64) 0
  | .ldg _ _ a _ sz off => ldgCheck s tid a sz off
  | .stg _ a _ sz off => plainAccess s tid (memAddr s tid a sz off) (szBytes sz) .store
  | .lds _ _ a sz off => lsAligned s tid a sz off false
  | .sts _ a sz off => lsAligned s tid a sz off true
  | .ldp _ _ a sz off => privVerdict s tid (memOff s tid a sz off) (szBytes sz) false
  | .stp _ a sz off => privVerdict s tid (memOff s tid a sz off) (szBytes sz) true
  | .atomgAdd _ _ a _ => plainAccess s tid (s.src64 tid a) 4 .atomic
  | .atomgMinI _ _ a _ => plainAccess s tid (s.src64 tid a) 4 .atomic
  | .atomgMaxI _ _ a _ => plainAccess s tid (s.src64 tid a) 4 .atomic
  | .atomgAnd _ _ a _ => plainAccess s tid (s.src64 tid a) 4 .atomic
  | .atomgOr _ _ a _ => plainAccess s tid (s.src64 tid a) 4 .atomic
  | .atomgXor _ _ a _ => plainAccess s tid (s.src64 tid a) 4 .atomic
  | .atomgXchg _ _ a _ => plainAccess s tid (s.src64 tid a) 4 .atomic
  | .atomgCas _ _ a _ => plainAccess s tid (s.src64 tid a) 4 .atomic
  | .atomsAdd _ _ a _ => atomsAligned s tid a
  | .atomsMinI _ _ a _ => atomsAligned s tid a
  | .atomsMaxI _ _ a _ => atomsAligned s tid a
  | .atomsAnd _ _ a _ => atomsAligned s tid a
  | .atomsOr _ _ a _ => atomsAligned s tid a
  | .atomsXor _ _ a _ => atomsAligned s tid a
  | .atomsXchg _ _ a _ => atomsAligned s tid a
  | .atomsCas _ _ a _ => atomsAligned s tid a
  | .redfFadd a _ => plainAccess s tid (s.src64 tid a) 4 .redf
  | .redfFmin a _ => plainAccess s tid (s.src64 tid a) 4 .redf
  | .redfFmax a _ => plainAccess s tid (s.src64 tid a) 4 .redf
  | .redfHadd2 a _ => plainAccess s tid (s.src64 tid a) 4 .redf
  | .redfAddI a _ => plainAccess s tid (s.src64 tid a) 4 .redf
  | .redfAccred a _ => plainAccess s tid (s.src64 tid a) 4 .acc
  | .cpIssue _ a x => commandCheck s tid i (copyAt a [1, 2]) (namedBarrier x)
  | .cpMcast _ a x => commandCheck s tid i (copyAt a [3, 4]) (namedBarrier x)
  | .gaWalk _ a x => commandCheck s tid i (walkAt a) (namedBarrier x)
  | .pin _ a _ => alignedTo s (s.src64 tid a) 128
  | .unpin a _ => alignedTo s (s.src64 tid a) 128
  | .cwb d a _ => rangeCheck s tid a d
  | .cinv d a => rangeCheck s tid a d
  | .iinv d a => rangeCheck s tid a d
  | .xbTload a _ => scratchAligned s tid (s.src tid a).toNat 1 16 false false false
  | .shWin _ a _ => alignedTo s (s.src64 tid a) (2 ^ 25)
  | .launch _ a => (alignedTo s (s.src64 tid a) 64).andThen (rangeVerdict s tid .engineRead true false false false (pieces (s.src64 tid a).toNat 128))
  | .dgSignal _ a => (alignedTo s (s.src64 tid a) 64).andThen (rangeVerdict s tid .atomic true true false false [((s.src64 tid a).toNat, 64)])
  | .spmap _ a => alignedTo s (s.src64 tid a) 4096
  | .mxLoad a => mxLoadVerdict s tid (s.gsrc tid a).toNat
  | .mxStream a => mxStreamVerdict s tid (s.gsrc tid a).toNat
  | .mxAdapt a => mxAdaptVerdict s tid (s.gsrc tid a)
  | .accArm d a => accArmVerdict s tid (s.gsrc tid d) (s.gsrc tid a)
  | .accDrain a _ => accDrainVerdict s tid (s.gsrc tid a).toNat
  | .accClear d a => accClearVerdict s tid (s.gsrc tid d) (s.gsrc tid a)
  | .accStat _ a => accStatVerdict s tid (s.gsrc tid a)
  | .vwSet _ a _ => viewSetVerdict s tid (s.src tid a).toNat
  | .vwRefresh _ k =>
    (match mfind (s.team (teamOf tid)).views k.toNat with
     | some v => rangeVerdict s tid .engineRead true false false false (v.matrixRanges s (teamOf tid))
     | none => .pass)
  | .btBind _ a _ => bindVerdict s tid (s.src64 tid a)
  | .movsys _ a => sysRegCheck s tid a
  | .movsysW _ a => sysRegCheck s tid a
  | .syscall _ _ _ => syscallCheck s tid
  | .waitev _ a => (alignedTo s (s.src64 tid a) 64).andThen (rangeVerdict s tid .engineRead true false false false [((s.src64 tid a).toNat, 64)])
  | .tlbinv d a => tlbCheck s tid d a
  | _ => .pass

/-- One step of R86 by number. -/
def checkStep (k : Nat) (s : State) (tid : Nat) (i : Instr) : Verdict :=
  match k with
  | 3 => check3 s tid i
  | 4 => check4 s tid i
  | 5 => check5 s tid i
  | 6 => check6 s tid i
  | _ => check7 s tid i

/-- What the issue checks of a word find for a lane (R86). -/
def verdict (s : State) (tid : Nat) (i : Instr) : Verdict := (early s tid i).andThen (check7 s tid i)

/-! ### The issuing set -/

/-- The lanes of the issuing set that pass the checks of a word: all of them when the checks have been made for the whole chain. -/
def passing (s : State) (i : Instr) : List Nat :=
  if s.issue.checked then s.issue.lanes else s.issue.lanes.filter (fun l => decide (verdict s l i = .pass))

/-- Lanes that do not pass, each with what stopped it. -/
def failing (s : State) (i : Instr) : List (Nat × Verdict) :=
  if s.issue.checked then [] else (s.issue.lanes.map (fun l => (l, verdict s l i))).filter (fun p => decide (p.2 ≠ .pass))

/-- Lanes held at replayable faults wait; the others trap together (R209, R398). -/
def stopLanes (s : State) (vs : List (Nat × Verdict)) : State :=
  let s1 := vs.foldl (fun s p => match p.2 with
    | .hold page acc f => holdThread s p.1 page (b1 (isBurin p.1)) acc f
    | _ => s) s
  takeTrap s1 s1.issue.group (vs.filterMap (fun p => match p.2 with
    | .trap f => some (p.1, { f with trapNo := s.runOf p.1 })
    | _ => none))

/-- The meaning of a word: its effect for the lanes that pass, then what becomes of the others. -/
def issueWord (i : Instr) (s : State) (eff : State → List Nat → State) : State :=
  stopLanes (if (passing s i).isEmpty then s else eff s (passing s i)) (failing s i)

/-- An issued word always leads to a next state. -/
def issued (i : Instr) (s : State) (eff : State → List Nat → State) : Host.Outcome State Fault Refusal := .next (issueWord i s eff)

end Sys2Proof.Machine
end

