-- ==== Sys2Proof/Machine/Control.lean ====
section
/-! DEFINITION. The control words: majors 0x18 to 0x1C. Branches, jumps and calls, rejoin registers, the stack pointer, EXIT, YIELD, NOP and
BRK (R104, R106, R114 to R118, R122, R141 to R153, R338, R339). -/

namespace Sys2Proof.Machine

/-- Where a thread goes next. -/
def State.goto (s : State) (tid : Nat) (pc : DWord) : State := s.modThread tid (fun t => { t with pc := pc })

/-! ### Conditional branches (R104, R141) -/

/-- The side of a split that takes rank 1 under a hint: the other has rank 0 (R104). -/
def rankOne (h : BitVec 2) (taken fall : List Nat) : List Nat :=
  if taken.isEmpty || fall.isEmpty then []
  else if h = 1 then fall
  else if h = 2 then taken
  else if fall.length < taken.length then fall else taken

/-- BNZ and BZ. -/
def branchLanes (h : BitVec 2) (a : Code) (slot : BitVec 5) (dline : BitVec 11) (onZero : Bool) (s : State) (ls : List Nat) : State :=
  let t := staticTarget s.issue.pc slot dline
  let yes := ls.filter (fun l => branchTaken s l a onZero)
  let late := rankOne h yes (ls.filter (fun l => !branchTaken s l a onZero))
  eachLane (fun s l => s.modThread l (fun th =>
    { th with pc := if yes.contains l then t else s.issue.next, rank := if late.contains l then 1 else th.rank })) s ls

def execBnz (h : BitVec 2) (a : Code) (slot : BitVec 5) (dline : BitVec 11) (s : State) :=
  issued (.bnz h a slot dline) s (branchLanes h a slot dline false)
def execBz (h : BitVec 2) (a : Code) (slot : BitVec 5) (dline : BitVec 11) (s : State) :=
  issued (.bz h a slot dline) s (branchLanes h a slot dline true)

/-! ### Jumps and calls (R142 to R146) -/

/-- The return address pushed on a thread's private stack. -/
def Thread.push (t : Thread) (sp : Word) (next : DWord) : Thread := { t.setPriv sp.toNat (leBytes 8 next.toNat) with sp := sp }

/-- A call of a lane: the sp is that of the start of the chain (R153). -/
def callLane (target : State → Nat → DWord) (s : State) (l : Nat) : State :=
  s.modThread l (fun t => { t.push (pushOffset (s.pre l)) s.issue.next with pc := target s l })

/-- RET of a lane; a poisoned return address is reported after issue (R208). -/
def retLane (s : State) (l : Nat) : State :=
  let p := s.pre l
  let s1 := s.modThread l (fun t => { t with sp := p.sp + 8, pc := popped p })
  if p.privPoison.contains (p.sp.toNat / 32) then
    pendFault s1 l { cause := 0x19, addr := p.sp.setWidth 64, word := s.issue.word, trapNo := s.runOf l,
                     flags := mkFlags 8 .priv false (isBurin l) false false false false true }
  else s1

def execJmp (h : BitVec 2) (slot : BitVec 5) (dline : BitVec 18) (s : State) :=
  issued (.jmp h slot dline) s (eachLane (fun s l => s.goto l (staticTarget s.issue.pc slot dline)))
def execCall (h : BitVec 2) (slot : BitVec 5) (dline : BitVec 18) (s : State) :=
  issued (.call h slot dline) s (eachLane (callLane (fun s _ => staticTarget s.issue.pc slot dline)))
def execJmpi (a : Code) (s : State) := issued (.jmpi a) s (eachLane (fun s l => s.goto l (s.wide l a)))
def execCalli (a : Code) (s : State) := issued (.calli a) s (eachLane (callLane (fun s l => s.wide l a)))
def execRet (s : State) := issued .ret s (eachLane retLane)

/-! ### EXIT, YIELD, NOP (R147 to R149) -/

/-- The exiting threads keep the address of their EXIT as PC (R222). -/
def exitLanes (s : State) (ls : List Nat) : State :=
  exitThreads (eachLane (fun s l => s.goto l s.issue.addr) s ls) s.issue.group ls

def execExit (s : State) := issued .exit s exitLanes
/-- YIELD: the newest stamp, rank 0, latches invalid; on the burin core nothing (R118, R338). -/
def execYield (s : State) :=
  issued .yield s (fun s ls =>
    let vs := ls.filter (fun l => !isBurin l)
    eachLane (fun s l => s.modThread l (fun t => { t with rank := 0, stamp := s.clock })) (invalidate s vs) vs)
def execNop (s : State) := issued .nop s (fun s _ => s)

/-! ### Rejoin registers (R115, R116, R150) -/

/-- RJ.WAIT: the lanes arrive and park, and the register is tested. -/
def waitLanes (k : Nat) (s : State) (ls : List Nat) : State :=
  let s1 := eachLane (fun s l => s.modThread l (fun t => { t.blockOn (.parked k) with pc := s.issue.addr })) s ls
  releaseTest (arriveMask s1 s.issue.group k (laneMask ls)) s.issue.group k

def execRjEnrol (k : BitVec 3) (s : State) := issued (.rjEnrol k) s (fun s ls => enrolMask s s.issue.group k.toNat (laneMask ls))
def execRjWait (k : BitVec 3) (s : State) := issued (.rjWait k) s (waitLanes k.toNat)
def execRjStrike (k : BitVec 3) (s : State) := issued (.rjStrike k) s (fun s ls => strikeFrom s s.issue.group k.toNat (laneMask ls))
def execRjQuery (d : Code) (k : BitVec 3) (s : State) :=
  issued (.rjQuery d k) s (eachLane (fun s l => s.put .k l false d ((s.group (grpOf l)).mask k.toNat).1))

/-! ### The stack pointer (R151, R338) -/

def execSpadd (a : Code) (x : BitVec 6) (s : State) :=
  issued (.spadd a x) s (eachLane (fun s l => s.modThread l (fun t => { t with sp := BitVec.ofInt 32 (spaddValue s l a x) })))
def execSpget (d : Code) (s : State) := issued (.spget d) s (eachLane (fun s l => s.put .k l false d (s.pre l).sp))
def execSpset (a : Code) (s : State) :=
  issued (.spset a) s (eachLane (fun s l => s.modThread l (fun t => { t with sp := s.narrow l a })))

/-! ### BRK (R152) -/

/-- Lanes that trap by their word's own effect. -/
def trapLanes (v : State → Nat → Verdict) (s : State) (ls : List Nat) : State := stopLanes s (ls.map (fun l => (l, v s l)))

def execBrk (x : BitVec 6) (s : State) := issued (.brk x) s (trapLanes (fun s _ => s.plainTrap 0x21))

end Sys2Proof.Machine
end

