-- ==== Sys2Proof/Machine/Integer.lean ====
section
/-! DEFINITION. The integer words: majors 0x01 to 0x08 and 0x10 to 0x17, on 32-bit registers of a vector thread and on 64-bit registers of the
burin core (R127 to R140, R336). -/

namespace Sys2Proof.Machine

/-! ### Operations at both widths -/

/-- Floor of a signed or unsigned double-width product, its high word (R127). -/
def mulhiSigned {w : Nat} (a b : BitVec w) : BitVec w := BitVec.ofInt w (a.toInt * b.toInt / 2 ^ w)
def mulhiUnsigned {w : Nat} (a b : BitVec w) : BitVec w := BitVec.ofNat w (a.toNat * b.toNat / 2 ^ w)

/-- Saturate32 of R128, at the width of the register. -/
def saturate (w : Nat) (y : Int) : BitVec w := BitVec.ofInt w (max (-(2 ^ (w - 1))) (min (2 ^ (w - 1) - 1) y))

/-- The magnitude modulo 2^w. -/
def magnitude {w : Nat} (a : BitVec w) : BitVec w := if a.toInt < 0 then -a else a

/-- Leading zeros, one bits, reversed bits. -/
def leadingZeros {w : Nat} (a : BitVec w) : BitVec w := BitVec.ofNat w (w - bitLen a.toNat)
def oneBits {w : Nat} (a : BitVec w) : Nat := ((List.range w).filter (fun k => a.getLsbD k)).length
def reversed {w : Nat} (a : BitVec w) : BitVec w :=
  BitVec.ofNat w ((List.range w).map (fun k => if a.getLsbD k then 2 ^ (w - 1 - k) else 0)).sum

/-- Shifts by an unsigned amount (R130). -/
def shiftLeft {w : Nat} (a : BitVec w) (b : Nat) : BitVec w := if b < w then a <<< b else 0
def shiftRight {w : Nat} (a : BitVec w) (b : Nat) : BitVec w := if b < w then a >>> b else 0
def shiftArith {w : Nat} (a : BitVec w) (b : Nat) : BitVec w := a.sshiftRight (min b (w - 1))
def rotate {w : Nat} (a : BitVec w) (b : Nat) : BitVec w := a.rotateLeft (b % w)

/-- The bitfield control word (R131, R336): position, width, sign. -/
def fieldPos (w b : Nat) : Nat := b % w
def fieldWidth (w b : Nat) : Nat := min w (if w = 64 then bits b 14 8 else bits b 13 8)

/-- BitExtract. -/
def bitExtract {w : Nat} (a : BitVec w) (b : Nat) : BitVec w :=
  let n := fieldWidth w b
  let f := a.toNat / 2 ^ fieldPos w b % 2 ^ n
  if b.testBit 15 ∧ 0 < n ∧ 2 ^ (n - 1) ≤ f then BitVec.ofInt w ((f : Int) - 2 ^ n) else BitVec.ofNat w f

/-- BitInsert. -/
def bitInsert {w : Nat} (d a : BitVec w) (b : Nat) : BitVec w :=
  let p := fieldPos w b
  let m : BitVec w := BitVec.ofNat w ((2 ^ fieldWidth w b - 1) * 2 ^ p)
  (d &&& ~~~m) ||| ((a <<< p) &&& m)

/-- MOVHI (R140): the low 14 bits of D and the immediate above them. -/
def moveHigh {w : Nat} (d : BitVec w) (imm : BitVec 18) : BitVec w := (d &&& 0x3FFF) ||| (imm.setWidth w <<< 14)

/-! ### Lanes -/

/-- A word whose result is one function of registers at either width: `f` is given a lane's register reader. -/
def aluWord (i : Instr) (n : Bool) (d : Code) (f : (w : Nat) → (Code → BitVec w) → BitVec w) (s : State) : Host.Outcome State Fault Refusal :=
  issued i s (eachLane (fun s l => if isBurin l then s.put64 .i l n d (f 64 (s.gsrc l)) else s.put .i l n d (f 32 (s.src l))))

/-- A word with a 64-bit result from 64-bit operands: pairs on a vector thread. -/
def pairWord (i : Instr) (n : Bool) (d : Code) (f : State → Nat → DWord) (s : State) : Host.Outcome State Fault Refusal :=
  issued i s (eachLane (fun s l => s.put64 .i l n d (f s l)))

/-- A word with a condition of 64-bit operands as its result. -/
def testWord (i : Instr) (n : Bool) (d : Code) (f : State → Nat → Bool) (s : State) : Host.Outcome State Fault Refusal :=
  issued i s (eachLane (fun s l => s.put .i l n d (flagWord (f s l))))

/-! ### IARITH (R127) -/

def execAdd (n : Bool) (d a b : Code) (s : State) := aluWord (.add n d a b) n d (fun _ r => r a + r b) s
def execSub (n : Bool) (d a b : Code) (s : State) := aluWord (.sub n d a b) n d (fun _ r => r a - r b) s
def execMul (n : Bool) (d a b : Code) (s : State) := aluWord (.mul n d a b) n d (fun _ r => r a * r b) s
def execMulhiI (n : Bool) (d a b : Code) (s : State) := aluWord (.mulhiI n d a b) n d (fun _ r => mulhiSigned (r a) (r b)) s
def execMulhiN (n : Bool) (d a b : Code) (s : State) := aluWord (.mulhiN n d a b) n d (fun _ r => mulhiUnsigned (r a) (r b)) s
def execMad (n : Bool) (d a b : Code) (s : State) := aluWord (.mad n d a b) n d (fun _ r => r d + r a * r b) s
def execMinI (n : Bool) (d a b : Code) (s : State) := aluWord (.minI n d a b) n d (fun _ r => if (r a).sle (r b) then r a else r b) s
def execMaxI (n : Bool) (d a b : Code) (s : State) := aluWord (.maxI n d a b) n d (fun _ r => if (r b).sle (r a) then r a else r b) s

/-! ### IMISC (R128) -/

def execMinN (n : Bool) (d a b : Code) (s : State) := aluWord (.minN n d a b) n d (fun _ r => if r a ≤ r b then r a else r b) s
def execMaxN (n : Bool) (d a b : Code) (s : State) := aluWord (.maxN n d a b) n d (fun _ r => if r b ≤ r a then r a else r b) s
def execAbsInt (n : Bool) (d a : Code) (s : State) := aluWord (.absInt n d a) n d (fun _ r => magnitude (r a)) s
def execAddsatI (n : Bool) (d a b : Code) (s : State) :=
  aluWord (.addsatI n d a b) n d (fun w r => saturate w ((r a).toInt + (r b).toInt)) s
def execSubsatI (n : Bool) (d a b : Code) (s : State) :=
  aluWord (.subsatI n d a b) n d (fun w r => saturate w ((r a).toInt - (r b).toInt)) s
def execClz (n : Bool) (d a : Code) (s : State) := aluWord (.clz n d a) n d (fun _ r => leadingZeros (r a)) s
def execPopc (n : Bool) (d a : Code) (s : State) := aluWord (.popc n d a) n d (fun w r => BitVec.ofNat w (oneBits (r a))) s
def execBrev (n : Bool) (d a : Code) (s : State) := aluWord (.brev n d a) n d (fun _ r => reversed (r a)) s

/-! ### LOGIC (R129) -/

def execAndW (n : Bool) (d a b : Code) (s : State) := aluWord (.andW n d a b) n d (fun _ r => r a &&& r b) s
def execOrW (n : Bool) (d a b : Code) (s : State) := aluWord (.orW n d a b) n d (fun _ r => r a ||| r b) s
def execXorW (n : Bool) (d a b : Code) (s : State) := aluWord (.xorW n d a b) n d (fun _ r => r a ^^^ r b) s
def execAndn (n : Bool) (d a b : Code) (s : State) := aluWord (.andn n d a b) n d (fun _ r => r a &&& ~~~r b) s
def execOrn (n : Bool) (d a b : Code) (s : State) := aluWord (.orn n d a b) n d (fun _ r => r a ||| ~~~r b) s
def execXnor (n : Bool) (d a b : Code) (s : State) := aluWord (.xnor n d a b) n d (fun _ r => ~~~(r a ^^^ r b)) s
def execSel (n : Bool) (d a b : Code) (s : State) := aluWord (.sel n d a b) n d (fun _ r => if r d = 0 then r b else r a) s
def execMov (n : Bool) (d a : Code) (s : State) := aluWord (.mov n d a) n d (fun _ r => r a) s

/-! ### SHIFT (R130, R131) -/

def execShl (n : Bool) (d a b : Code) (s : State) := aluWord (.shl n d a b) n d (fun _ r => shiftLeft (r a) (r b).toNat) s
def execShr (n : Bool) (d a b : Code) (s : State) := aluWord (.shr n d a b) n d (fun _ r => shiftRight (r a) (r b).toNat) s
def execSar (n : Bool) (d a b : Code) (s : State) := aluWord (.sar n d a b) n d (fun _ r => shiftArith (r a) (r b).toNat) s
def execRol (n : Bool) (d a b : Code) (s : State) := aluWord (.rol n d a b) n d (fun _ r => rotate (r a) (r b).toNat) s
def execShl64 (n : Bool) (d a b : Code) (s : State) :=
  pairWord (.shl64 n d a b) n d (fun s l => shiftLeft (s.wide l a) (s.amount l b)) s
def execShr64 (n : Bool) (d a b : Code) (s : State) :=
  pairWord (.shr64 n d a b) n d (fun s l => shiftRight (s.wide l a) (s.amount l b)) s
def execBfx (n : Bool) (d a b : Code) (s : State) := aluWord (.bfx n d a b) n d (fun _ r => bitExtract (r a) (r b).toNat) s
def execBfi (n : Bool) (d a b : Code) (s : State) := aluWord (.bfi n d a b) n d (fun _ r => bitInsert (r d) (r a) (r b).toNat) s

/-! ### ICMP (R132) -/

def execCmpEq (n : Bool) (d a b : Code) (s : State) := aluWord (.cmpEq n d a b) n d (fun _ r => flagWord (decide (r a = r b))) s
def execCmpNe (n : Bool) (d a b : Code) (s : State) := aluWord (.cmpNe n d a b) n d (fun _ r => flagWord (decide (r a ≠ r b))) s
def execLtI (n : Bool) (d a b : Code) (s : State) := aluWord (.ltI n d a b) n d (fun _ r => flagWord ((r a).slt (r b))) s
def execLeI (n : Bool) (d a b : Code) (s : State) := aluWord (.leI n d a b) n d (fun _ r => flagWord ((r a).sle (r b))) s
def execLtN (n : Bool) (d a b : Code) (s : State) := aluWord (.ltN n d a b) n d (fun _ r => flagWord ((r a).ult (r b))) s
def execLeN (n : Bool) (d a b : Code) (s : State) := aluWord (.leN n d a b) n d (fun _ r => flagWord ((r a).ule (r b))) s
def execTst (n : Bool) (d a b : Code) (s : State) := aluWord (.tst n d a b) n d (fun _ r => flagWord (decide (r a &&& r b ≠ 0))) s

/-! ### GROUP: votes (R133) -/

/-- The voting lanes with A nonzero. -/
def yesLanes (s : State) (ls : List Nat) (a : Code) : List Nat := ls.filter (fun m => decide (s.src m a ≠ 0))

/-- A word of the X pipe whose result for a lane is a function of the sources of every passing lane, read before any is written. -/
def crossWord (i : Instr) (n : Bool) (d : Code) (f : State → List Nat → Nat → Word) (s : State) : Host.Outcome State Fault Refusal :=
  issued i s (fun s0 ls => eachLane (fun s l => s.put .x l n d (f s0 ls l)) s0 ls)

def execVoteAny (n : Bool) (d a : Code) (s : State) :=
  crossWord (.voteAny n d a) n d (fun s ls _ => flagWord (ls.any (fun m => decide (s.src m a ≠ 0)))) s
def execVoteAll (n : Bool) (d a : Code) (s : State) :=
  crossWord (.voteAll n d a) n d (fun s ls _ => flagWord (ls.all (fun m => decide (s.src m a ≠ 0)))) s
def execVoteBal (n : Bool) (d a : Code) (s : State) := crossWord (.voteBal n d a) n d (fun s ls _ => laneMask (yesLanes s ls a)) s
def execMatchLanes (n : Bool) (d a : Code) (s : State) :=
  crossWord (.matchLanes n d a) n d (fun s ls l => laneMask (ls.filter (fun m => decide (s.src m a = s.src l a)))) s
def execActmask (n : Bool) (d : Code) (s : State) := crossWord (.actmask n d) n d (fun _ ls _ => laneMask ls) s

/-! ### MOVS (R119, R120, R134) -/

/-- The revision of the part (R1). -/
def revision : Word := 0x414E5A38

/-- The address of lane 0's trap frame in a thread's group; 0 on the burin core (R119). -/
def frameBase (s : State) (tid : Nat) : DWord :=
  if isBurin tid then 0 else (s.team (teamOf tid)).area + dw (18432 * groupIx (grpOf tid))

/-- The value of a special register (R119). -/
def specialReg (s : State) (tid k : Nat) : Word :=
  let t := s.team (teamOf tid)
  match k with
  | 0x00 => if isBurin tid then 0 else wd (laneOf tid)
  | 0x01 => if isBurin tid then 0xFFFFFFFF else wd (groupIx (grpOf tid))
  | 0x02 => t.teamIx
  | 0x03 => t.teamCnt
  | 0x04 => wd t.clRank
  | 0x05 => wd (t.w * t.h)
  | 0x06 => wd t.core
  | 0x07 => wd t.die
  | 0x08 => wd (s.core t.coreId).cycles
  | 0x09 => (s.pre tid).cycHi
  | 0x0A => t.arg.extractLsb' 0 32
  | 0x0B => t.arg.extractLsb' 32 32
  | 0x0C => wd t.kern.scratch
  | 0x0D => (frameBase s tid).extractLsb' 0 32
  | 0x0E => (frameBase s tid).extractLsb' 32 32
  | 0x0F => if isBurin tid then 0 else ((s.pre tid).trapping).getD 0
  | 0x10 => t.govStat
  | 0x11 => revision
  | _ => 0

/-- A read of CYCLES captures the high word for the reading thread (R120). -/
def captureCycles (s : State) (tid k : Nat) : State :=
  if k = 8 then s.modThread tid (fun t => { t with cycHi := wd ((s.core (s.coreOf tid)).cycles / 2 ^ 32) }) else s

def execMovs (d : Code) (imm : BitVec 18) (s : State) :=
  issued (.movs d imm) s (eachLane (fun s l => (captureCycles s l imm.toNat).put .i l false d (specialReg s l imm.toNat)))

/-! ### ADDR64 (R135) -/

def execAdd64 (n : Bool) (d a b : Code) (s : State) := pairWord (.add64 n d a b) n d (fun s l => s.wide l a + s.wide l b) s
def execSub64 (n : Bool) (d a b : Code) (s : State) := pairWord (.sub64 n d a b) n d (fun s l => s.wide l a - s.wide l b) s
def execAddxI (n : Bool) (d a b : Code) (s : State) :=
  pairWord (.addxI n d a b) n d (fun s l => s.wide l a + (s.narrow l b).signExtend 64) s
def execAddxN (n : Bool) (d a b : Code) (s : State) :=
  pairWord (.addxN n d a b) n d (fun s l => s.wide l a + (s.narrow l b).setWidth 64) s
def execCmplt64 (n : Bool) (d a b : Code) (s : State) := testWord (.cmplt64 n d a b) n d (fun s l => (s.wide l a).ult (s.wide l b)) s
def execCmpeq64 (n : Bool) (d a b : Code) (s : State) := testWord (.cmpeq64 n d a b) n d (fun s l => decide (s.wide l a = s.wide l b)) s
def execMov64 (n : Bool) (d a : Code) (s : State) := pairWord (.mov64 n d a) n d (fun s l => s.wide l a) s

/-! ### Immediate forms (R136 to R140) -/

def execAddi (n : Bool) (d a : Code) (imm : BitVec 10) (s : State) := aluWord (.addi n d a imm) n d (fun w r => r a + imm.signExtend w) s
def execAndi (n : Bool) (d a : Code) (imm : BitVec 10) (s : State) := aluWord (.andi n d a imm) n d (fun w r => r a &&& imm.setWidth w) s
def execOri (n : Bool) (d a : Code) (imm : BitVec 10) (s : State) := aluWord (.ori n d a imm) n d (fun w r => r a ||| imm.setWidth w) s
def execXori (n : Bool) (d a : Code) (imm : BitVec 10) (s : State) := aluWord (.xori n d a imm) n d (fun w r => r a ^^^ imm.setWidth w) s
def execShli (n : Bool) (d a : Code) (imm : BitVec 5) (s : State) := aluWord (.shli n d a imm) n d (fun _ r => shiftLeft (r a) imm.toNat) s
def execShri (n : Bool) (d a : Code) (imm : BitVec 5) (s : State) := aluWord (.shri n d a imm) n d (fun _ r => shiftRight (r a) imm.toNat) s
def execSari (n : Bool) (d a : Code) (imm : BitVec 5) (s : State) := aluWord (.sari n d a imm) n d (fun _ r => shiftArith (r a) imm.toNat) s
def execRoli (n : Bool) (d a : Code) (imm : BitVec 5) (s : State) := aluWord (.roli n d a imm) n d (fun _ r => rotate (r a) imm.toNat) s
def execCmpiEq (n : Bool) (d a : Code) (imm : BitVec 7) (s : State) :=
  aluWord (.cmpiEq n d a imm) n d (fun w r => flagWord (decide (r a = imm.signExtend w))) s
def execCmpiNe (n : Bool) (d a : Code) (imm : BitVec 7) (s : State) :=
  aluWord (.cmpiNe n d a imm) n d (fun w r => flagWord (decide (r a ≠ imm.signExtend w))) s
def execCmpiLtI (n : Bool) (d a : Code) (imm : BitVec 7) (s : State) :=
  aluWord (.cmpiLtI n d a imm) n d (fun w r => flagWord ((r a).slt (imm.signExtend w))) s
def execCmpiLeI (n : Bool) (d a : Code) (imm : BitVec 7) (s : State) :=
  aluWord (.cmpiLeI n d a imm) n d (fun w r => flagWord ((r a).sle (imm.signExtend w))) s
def execCmpiLtN (n : Bool) (d a : Code) (imm : BitVec 7) (s : State) :=
  aluWord (.cmpiLtN n d a imm) n d (fun w r => flagWord ((r a).ult (imm.signExtend w))) s
def execCmpiLeN (n : Bool) (d a : Code) (imm : BitVec 7) (s : State) :=
  aluWord (.cmpiLeN n d a imm) n d (fun w r => flagWord ((r a).ule (imm.signExtend w))) s
def execCmpiGtI (n : Bool) (d a : Code) (imm : BitVec 7) (s : State) :=
  aluWord (.cmpiGtI n d a imm) n d (fun w r => flagWord ((imm.signExtend w).slt (r a))) s
def execCmpiGeI (n : Bool) (d a : Code) (imm : BitVec 7) (s : State) :=
  aluWord (.cmpiGeI n d a imm) n d (fun w r => flagWord ((imm.signExtend w).sle (r a))) s
def execMovi (d : Code) (imm : BitVec 18) (s : State) := aluWord (.movi d imm) false d (fun w _ => imm.signExtend w) s
def execMovhi (d : Code) (imm : BitVec 18) (s : State) := aluWord (.movhi d imm) false d (fun _ r => moveHigh (r d) imm) s

end Sys2Proof.Machine
end

