-- ==== Sys2Proof/Machine/FloatWords.lean ====
section
/-! DEFINITION. The float, bf16-pair, conversion and crossbar words: majors 0x20 to 0x28. Their arithmetic is in Float.lean; here each lane's
result is written and the events of the word are counted (R175 to R177, R183 to R195). -/

namespace Sys2Proof.Machine

/-- The results of a list of lanes written in turn. -/
def putAll (p : Pipe) (n : Bool) (d : Code) : State → List (Nat × FRes) → State
  | s, [] => s
  | s, r :: rs => putAll p n d (s.put p r.1 n d r.2.1) rs

/-- A float word: every passing lane's result from the sources at the start of the chain, then its events, routed by a slot when the word
names one (R183). -/
def floatWord (i : Instr) (p : Pipe) (n : Bool) (d : Code) (slot : Option (BitVec 3)) (f : State → Nat → FRes) (s : State) :
    Host.Outcome State Fault Refusal :=
  issued i s (fun s0 ls =>
    let rs := ls.map (fun l => (l, f s0 l))
    raiseEvents (putAll p n d s0 rs) s0.issueTeam (slot.map (fun k => slotWord s0 s0.issueTeam k.toNat))
      (rs.map (fun r => ((r.1, s0.runOf r.1), r.2.2))) s0.issue.word)

/-- Words of two sources, of three, of one. -/
def float2 (i : Instr) (n : Bool) (d a b : Code) (f : Word → Word → FRes) (s : State) :=
  floatWord i .f n d none (fun s l => f (s.src l a) (s.src l b)) s
def float3 (i : Instr) (n : Bool) (d a b : Code) (f : Word → Word → Word → FRes) (s : State) :=
  floatWord i .f n d none (fun s l => f (s.src l d) (s.src l a) (s.src l b)) s
def float1 (i : Instr) (p : Pipe) (n : Bool) (d a : Code) (f : Word → FRes) (s : State) := floatWord i p n d none (fun s l => f (s.src l a)) s

/-! ### FARITH (R184) -/

def execFadd (n : Bool) (d a b : Code) (s : State) := float2 (.fadd n d a b) n d a b faddOp s
def execFsub (n : Bool) (d a b : Code) (s : State) := float2 (.fsub n d a b) n d a b fsubOp s
def execFmul (n : Bool) (d a b : Code) (s : State) := float2 (.fmul n d a b) n d a b fmulOp s
def execFmin (n : Bool) (d a b : Code) (s : State) := float2 (.fmin n d a b) n d a b fminOp s
def execFmax (n : Bool) (d a b : Code) (s : State) := float2 (.fmax n d a b) n d a b fmaxOp s
def execFcpsgn (n : Bool) (d a b : Code) (s : State) := float2 (.fcpsgn n d a b) n d a b fcpsgnOp s

def execFfma (n : Bool) (d a b : Code) (s : State) := float3 (.ffma n d a b) n d a b ffmaOp s
def execFfms (n : Bool) (d a b : Code) (s : State) := float3 (.ffms n d a b) n d a b ffmsOp s

/-! ### FCMP (R185, R186) -/

def execFeq (n : Bool) (d a b : Code) (s : State) := float2 (.feq n d a b) n d a b feqOp s
def execFlt (n : Bool) (d a b : Code) (s : State) := float2 (.flt n d a b) n d a b fltOp s
def execFle (n : Bool) (d a b : Code) (s : State) := float2 (.fle n d a b) n d a b fleOp s
def execFunord (n : Bool) (d a b : Code) (s : State) := float2 (.funord n d a b) n d a b funordOp s

def execFclass (n : Bool) (d a : Code) (s : State) := float1 (.fclass n d a) .f n d a fclassOp s
def execFabs (n : Bool) (d a : Code) (s : State) := float1 (.fabs n d a) .f n d a fabsOp s
def execFneg (n : Bool) (d a : Code) (s : State) := float1 (.fneg n d a) .f n d a fnegOp s

/-! ### FSPEC (R187) -/

def execFrcp (n : Bool) (d a : Code) (s : State) := float1 (.frcp n d a) .x n d a (fspecOp 0) s
def execFrsq (n : Bool) (d a : Code) (s : State) := float1 (.frsq n d a) .x n d a (fspecOp 1) s
def execFsqrt (n : Bool) (d a : Code) (s : State) := float1 (.fsqrt n d a) .x n d a (fspecOp 2) s
def execFexp2 (n : Bool) (d a : Code) (s : State) := float1 (.fexp2 n d a) .x n d a (fspecOp 3) s
def execFlog2 (n : Bool) (d a : Code) (s : State) := float1 (.flog2 n d a) .x n d a (fspecOp 4) s
def execFtanh (n : Bool) (d a : Code) (s : State) := float1 (.ftanh n d a) .x n d a (fspecOp 5) s
def execFsin (n : Bool) (d a : Code) (s : State) := float1 (.fsin n d a) .x n d a (fspecOp 6) s
def execFcos (n : Bool) (d a : Code) (s : State) := float1 (.fcos n d a) .x n d a (fspecOp 7) s

/-! ### HPAIR (R188) -/

def execHadd2 (n : Bool) (d a b : Code) (s : State) := float2 (.hadd2 n d a b) n d a b hadd2Op s
def execHsub2 (n : Bool) (d a b : Code) (s : State) := float2 (.hsub2 n d a b) n d a b hsub2Op s
def execHmul2 (n : Bool) (d a b : Code) (s : State) := float2 (.hmul2 n d a b) n d a b hmul2Op s
def execHmin2 (n : Bool) (d a b : Code) (s : State) := float2 (.hmin2 n d a b) n d a b hmin2Op s
def execHmax2 (n : Bool) (d a b : Code) (s : State) := float2 (.hmax2 n d a b) n d a b hmax2Op s

def execHfma2 (n : Bool) (d a b : Code) (s : State) := float3 (.hfma2 n d a b) n d a b hfma2Op s
def execHdot2 (n : Bool) (d a b : Code) (s : State) := float3 (.hdot2 n d a b) n d a b hdot2Op s

/-! ### CVT (R189, R190) -/

def execCvtF2i (n : Bool) (d a : Code) (r : BitVec 2) (s : State) := float1 (.cvtF2i n d a r) .f n d a (cvtF2iOp (modeOf r)) s
def execCvtF2n (n : Bool) (d a : Code) (r : BitVec 2) (s : State) := float1 (.cvtF2n n d a r) .f n d a (cvtF2nOp (modeOf r)) s
def execCvtI2f (n : Bool) (d a : Code) (r : BitVec 2) (s : State) := float1 (.cvtI2f n d a r) .f n d a (cvtI2fOp (modeOf r)) s
def execCvtN2f (n : Bool) (d a : Code) (r : BitVec 2) (s : State) := float1 (.cvtN2f n d a r) .f n d a (cvtN2fOp (modeOf r)) s
def execCvtF2bf (n : Bool) (d a : Code) (r : BitVec 2) (s : State) := float1 (.cvtF2bf n d a r) .f n d a (cvtF2bfOp (modeOf r)) s
def execCvtF2h (n : Bool) (d a : Code) (r : BitVec 2) (s : State) := float1 (.cvtF2h n d a r) .f n d a (cvtF2hOp (modeOf r)) s
def execCvtFrnd (n : Bool) (d a : Code) (r : BitVec 2) (s : State) := float1 (.cvtFrnd n d a r) .f n d a (cvtFrndOp (modeOf r)) s
def execCvtBf2f (n : Bool) (d a : Code) (s : State) := float1 (.cvtBf2f n d a) .f n d a cvtBf2fOp s
def execCvtH2f (n : Bool) (d a : Code) (s : State) := float1 (.cvtH2f n d a) .f n d a cvtH2fOp s
def execCvtEnc (n : Bool) (d a : Code) (k : BitVec 3) (r : BitVec 2) (s : State) :=
  floatWord (.cvtEnc n d a k r) .f n d (some k) (fun s l => cvtEncOp (slotWord s (teamOf l) k.toNat) (modeOf r) (s.src l a)) s
def execCvtDec (n : Bool) (d a : Code) (k : BitVec 3) (r : BitVec 2) (s : State) :=
  floatWord (.cvtDec n d a k r) .f n d (some k) (fun s l => cvtDecOp (slotWord s (teamOf l) k.toNat) (modeOf r) (s.src l a)) s

/-! ### NARROW (R191) -/

def execNarrowPack (n : Bool) (d a : Code) (k : BitVec 3) (p : BitVec 2) (s : State) :=
  floatWord (.narrowPack n d a k p) .f n d (some k)
    (fun s l => narrowPackOp (slotWord s (teamOf l) k.toNat) p.toNat (s.src l d) (s.src l a)) s
def execNarrowUnpack (n : Bool) (d a : Code) (k : BitVec 3) (p : BitVec 2) (s : State) :=
  floatWord (.narrowUnpack n d a k p) .f n d (some k) (fun s l => narrowUnpackOp (slotWord s (teamOf l) k.toNat) p.toNat (s.src l a)) s

/-! ### XBAR (R192 to R195) -/

/-- Src2: the source of a lane number, zero unless that lane is active. -/
def laneSrc (s : State) (ls : List Nat) (m : Nat) (c : Code) : Word :=
  match ls.find? (fun l => decide (laneOf l = m)) with
  | some l => s.src l c
  | none => 0

/-- Entry e of a team's pattern table (R193), as the table stood at the start of the chain (R82, R99, R194). -/
def patternEntry (s : State) (uid t e : Nat) : Byte := mget 0x80 (s.issue.pt.getD (s.team uid).pt) (128 * t + e)

/-- The control value of the lowest active lane. -/
def lowestSrc (s : State) (ls : List Nat) (c : Code) : Nat :=
  match ls with
  | [] => 0
  | l :: _ => (s.src l c).toNat % 32

def permValue (a b : Code) (s : State) (ls : List Nat) (l : Nat) : Word :=
  let e := patternEntry s (teamOf l) b.toNat (4 * laneOf l)
  if e.getLsbD 7 then 0 else laneSrc s ls (e.toNat % 32) a
def perm2Value (d a b : Code) (s : State) (ls : List Nat) (l : Nat) : Word :=
  let i := (s.src l b).toNat
  if i ≤ 31 then laneSrc s ls i a else if i ≤ 63 then laneSrc s ls (i - 32) d else 0
def shflValue (a b : Code) (s : State) (ls : List Nat) (l : Nat) : Word := laneSrc s ls (laneOf l ^^^ (s.src l b).toNat % 32) a
def bcastValue (a b : Code) (s : State) (ls : List Nat) (_ : Nat) : Word := laneSrc s ls (lowestSrc s ls b) a
def rotValue (a b : Code) (s : State) (ls : List Nat) (l : Nat) : Word := laneSrc s ls ((laneOf l + 32 - lowestSrc s ls b) % 32) a
def trnValue (a b : Code) (s : State) (ls : List Nat) (l : Nat) : Word :=
  wd (leNat ((List.range 4).map (fun j =>
    let e := patternEntry s (teamOf l) b.toNat (4 * laneOf l + j)
    if e.getLsbD 7 then 0 else BitVec.ofNat 8 ((laneSrc s ls (e.toNat % 32) a).toNat / 256 ^ (e.toNat / 32 % 4) % 256))))

def execXbPerm (n : Bool) (d a b : Code) (s : State) := crossWord (.xbPerm n d a b) n d (permValue a b) s
def execXbPerm2 (n : Bool) (d a b : Code) (s : State) := crossWord (.xbPerm2 n d a b) n d (perm2Value d a b) s
def execXbShfl (n : Bool) (d a b : Code) (s : State) := crossWord (.xbShfl n d a b) n d (shflValue a b) s
def execXbBcast (n : Bool) (d a b : Code) (s : State) := crossWord (.xbBcast n d a b) n d (bcastValue a b) s
def execXbRot (n : Bool) (d a b : Code) (s : State) := crossWord (.xbRot n d a b) n d (rotValue a b) s
def execXbTrn (n : Bool) (d a b : Code) (s : State) := crossWord (.xbTrn n d a b) n d (trnValue a b) s

end Sys2Proof.Machine
end

