-- ==== Sys2Proof/Machine/Memory.lean ====
section
/-! DEFINITION. Loads, stores, atomics, reductions and fences: majors 0x30 to 0x38 and FENCE (R275 to R283, R337, R340). -/

namespace Sys2Proof.Machine

/-! ### Data -/

/-- Four registers as one 128-bit source, low first. -/
def quadSrc (t : Thread) (c : Code) : List Word := (List.range 4).map (fun i => if c.toNat < 120 then mget 0 t.regs (c.toNat + i) else 0)

/-- The bytes that a store writes (R277, R337). -/
def storeBytes (s : State) (tid : Nat) (d : Code) (sz : BitVec 3) : List Byte :=
  match sz.toNat with
  | 6 => (quadSrc (s.pre tid) d).flatMap (fun w => leBytes 4 w.toNat)
  | 5 => leBytes 8 (s.wide tid d).toNat
  | _ => leBytes (szBytes sz) (s.narrow tid d).toNat

/-- The translation that an access of a thread took is held in the TLBs (R205). -/
def noteTrans (s : State) (tid : Nat) (va : DWord) : State :=
  let t := s.team (teamOf tid)
  fillTrans s t.coreId t.ctx va.toNat

/-! ### Loads -/

/-- A load or atomic begins: its result is awaited at its destination and, on a vector thread, at q3. -/
def beginLoad (s : State) (l : Load) : State :=
  let s1 := { s with loads := s.loads ++ [l], nextId := s.nextId + 1 }
  if isBurin l.tid then s1 else s1.modThread l.tid (fun t => { t with q3 := some l.id, latch := mdel t.latch 3 })

/-- A load record of a word. -/
def loadOf (s : State) (tid : Nat) (n : Bool) (d : Code) (sz : BitVec 3) (addr : DWord) (flags : Word) (value : Option Nat) (poison : Bool) : Load :=
  { id := s.nextId, tid := tid, d := d, n := n, sz := sz, value := value, poison := poison, addr := addr, word := s.issue.word, flags := flags,
    view := none, table := none, slow := false, trapNo := s.runOf tid }

/-- LDG of one lane, with the translations of the state that the word issued in: the value is that of this moment, the group's own queue seen
(R229); a VIEW page answers through the press, whose rows are read by the load's end (R375, R387),
at the table entries that the checks at issue found (R369, R374). -/
def ldgLane (s0 : State) (n : Bool) (d a : Code) (rt : BitVec 2) (sz : BitVec 3) (off : BitVec 5) (s : State) (tid : Nat) : State :=
  let va := memAddr s tid a sz off
  let size := szBytes sz
  let uid := teamOf tid
  let t := s.team uid
  let fl (win far : Bool) : Word := mkFlags size .global false (isBurin tid) false false win far false
  match checkAccess s0 t.coreId t.ctx uid va size .load with
  | .at loc leaf _ =>
    let s1 := settleLoad (noteTrans s tid va) (grpOf tid) loc size
    let v := leNat (loadBytes s1 (grpOf tid) loc size)
    let s2 := noteLoad s1 t.coreId rt loc leaf size
    beginLoad s2 { loadOf s2 tid n d sz va (fl (decide (leafType leaf = 4)) (leafFar leaf)) (some v) (poisoned s1 loc size) with slow := decide (leafType leaf = 4) || leafFar leaf }
  | .view leaf =>
    let s1 := drainQueue (noteTrans s tid va) (grpOf tid)
    let b := viewAt s uid va
    beginLoad s1 { loadOf s1 tid n d sz va (fl false (leafFar leaf)) none false with
      view := b.map (fun p => (p.1, p.2.binding))
      table := (b.bind (fun p => p.2.tslot)).bind (fun k => (mfind t.tslots k).map (fun x => (x.pa, x.version)))
      parts := viewRead s0 tid va size }
  | _ => s

/-- LDS of one lane, complete at once. -/
def ldsLane (n : Bool) (d a : Code) (sz : BitVec 3) (off : BitVec 5) (s : State) (tid : Nat) : State :=
  let o := (memOff s tid a sz off).toNat
  let size := szBytes sz
  let loc := Loc.scratch (teamOf tid) o
  let s1 := settleLoad s (grpOf tid) loc size
  let v := leNat (loadBytes s1 (grpOf tid) loc size)
  returnLoad (beginLoad s1 (loadOf s1 tid n d sz (dw o) (mkFlags size .scratch false (isBurin tid) false false false false false) (some v)
    (poisoned s1 loc size))) s1.nextId

/-- LDP of one lane. -/
def ldpLane (n : Bool) (d a : Code) (sz : BitVec 3) (off : BitVec 5) (s : State) (tid : Nat) : State :=
  let o := (memOff s tid a sz off).toNat
  let size := szBytes sz
  let t := s.thread tid
  beginLoad s (loadOf s tid n d sz (dw o) (mkFlags size .priv false false false false false false false) (some (leNat (t.privBytes o size)))
    (t.privPoison.contains (o / 32)))

/-! ### Stores -/

/-- An entry of a word for the store queue. -/
def entryOf (s : State) (tid : Nat) (loc : Loc) (addr : DWord) (rt : BitVec 2) (flags : Word) (op : QOp) : QEntry :=
  { tid := tid, trapNo := s.runOf tid, word := s.issue.word, loc := loc, addr := addr, rt := rt, flags := flags, op := op,
    inc := incarnation s ⟨1, s.coreOf tid⟩ }

def stgLane (s0 : State) (d a : Code) (rt : BitVec 2) (sz : BitVec 3) (off : BitVec 5) (s : State) (tid : Nat) : State :=
  let va := memAddr s tid a sz off
  let p := accessPlace s0 tid va (szBytes sz) .store
  enqueue (noteTrans s tid va) (grpOf tid) [{ entryOf s tid p.1 va (effRt s p.1 p.2 rt)
    (mkFlags (szBytes sz) .global false (isBurin tid) false true (decide (leafType p.2 = 4)) (leafFar p.2) false)
    (.store (storeBytes s tid d sz)) with normal := decide (leafType p.2 = 0), atHome := decide (leafDomain p.2 = 1) }]

def stsLane (d a : Code) (sz : BitVec 3) (off : BitVec 5) (s : State) (tid : Nat) : State :=
  let o := (memOff s tid a sz off).toNat
  enqueue s (grpOf tid) [entryOf s tid (.scratch (teamOf tid) o) (dw o) 0
    (mkFlags (szBytes sz) .scratch false (isBurin tid) false true false false false) (.store (storeBytes s tid d sz))]

def stpLane (d a : Code) (sz : BitVec 3) (off : BitVec 5) (s : State) (tid : Nat) : State :=
  s.modThread tid (fun t => t.setPriv (memOff s tid a sz off).toNat (storeBytes s tid d sz))

def execLdg (n : Bool) (d a : Code) (r : BitVec 2) (sz : BitVec 3) (off : BitVec 5) (s : State) :=
  issued (.ldg n d a r sz off) s (fun s ls =>
    eachLane (ldgLane s n d a r sz off) (invalidate (eachLane (fun s l => fillView (szBytes sz) s l (memAddr s l a sz off)) s ls) ls) ls)
def execStg (d a : Code) (r : BitVec 2) (sz : BitVec 3) (off : BitVec 5) (s : State) :=
  issued (.stg d a r sz off) s (fun s ls => eachLane (stgLane s d a r sz off) s ls)
def execLds (n : Bool) (d a : Code) (sz : BitVec 3) (off : BitVec 5) (s : State) :=
  issued (.lds n d a sz off) s (eachLane (ldsLane n d a sz off))
def execSts (d a : Code) (sz : BitVec 3) (off : BitVec 5) (s : State) := issued (.sts d a sz off) s (eachLane (stsLane d a sz off))
def execLdp (n : Bool) (d a : Code) (sz : BitVec 3) (off : BitVec 5) (s : State) :=
  issued (.ldp n d a sz off) s (fun s ls => eachLane (ldpLane n d a sz off) (invalidate s ls) ls)
def execStp (d a : Code) (sz : BitVec 3) (off : BitVec 5) (s : State) := issued (.stp d a sz off) s (eachLane (stpLane d a sz off))

/-! ### Atomics (R279, R280) -/

/-- An entry added to a list of requests: lanes that name one word, by whatever address, join the request of the first of them (R235). -/
def joinRequest (s : State) (e : QEntry) : List QEntry → List QEntry
  | [] => [e]
  | f :: fs =>
    match f.op, e.op with
    | .atomic fn ls, .atomic _ [x] =>
      if resolve s f.loc = resolve s e.loc then { f with op := .atomic fn (ls ++ [x]) } :: fs else f :: joinRequest s e fs
    | .redf fn ls b, .redf _ [x] _ =>
      if resolve s f.loc = resolve s e.loc then { f with op := .redf fn (ls ++ [x]) b } :: fs else f :: joinRequest s e fs
    | _, _ => f :: joinRequest s e fs

/-- The leaf of an atomic's word, 0 in scratchpad. -/
def atomicLeaf (global : Bool) (s : State) (tid : Nat) (a : Code) : DWord :=
  if global then (accessPlace s tid (s.src64 tid a) 4 .atomic).2 else 0

/-- The place and address of an atomic's word. -/
def atomicPlace (global : Bool) (s : State) (tid : Nat) (a : Code) : Loc × DWord :=
  if global then ((accessPlace s tid (s.src64 tid a) 4 .atomic).1, s.src64 tid a)
  else (.scratch (teamOf tid) (s.src tid a).toNat, dw (s.src tid a).toNat)

/-- The lanes of an atomic in turn: each begins a load, and joins a request. -/
def atomicIssue (s0 : State) (global n : Bool) (fn : BitVec 3) (d a b : Code) : State → List QEntry → List Nat → State × List QEntry
  | s, es, [] => (s, es)
  | s, es, l :: ls =>
    let p := atomicPlace global s0 l a
    let leaf := atomicLeaf global s0 l a
    let fl := mkFlags 4 (if global then .global else .scratch) false false true true (decide (leafType leaf = 4)) (leafFar leaf) false
    let s1 := if global then noteTrans s l p.2 else s
    let e := entryOf s1 l p.1 p.2 0 fl (.atomic fn [(s1.nextId, s.src l b, s.src l d)])
    atomicIssue s0 global n fn d a b (beginLoad s1 (loadOf s1 l n d 4 p.2 fl none false)) (joinRequest s e es) ls

def atomicWord (i : Instr) (global n : Bool) (fn : BitVec 3) (d a b : Code) (s : State) : Host.Outcome State Fault Refusal :=
  issued i s (fun s ls =>
    let r := atomicIssue s global n fn d a b (invalidate s ls) [] ls
    enqueue r.1 s.issue.group r.2)

def execAtomgAdd (n : Bool) (d a b : Code) (s : State) := atomicWord (.atomgAdd n d a b) true n 0 d a b s
def execAtomgMinI (n : Bool) (d a b : Code) (s : State) := atomicWord (.atomgMinI n d a b) true n 1 d a b s
def execAtomgMaxI (n : Bool) (d a b : Code) (s : State) := atomicWord (.atomgMaxI n d a b) true n 2 d a b s
def execAtomgAnd (n : Bool) (d a b : Code) (s : State) := atomicWord (.atomgAnd n d a b) true n 3 d a b s
def execAtomgOr (n : Bool) (d a b : Code) (s : State) := atomicWord (.atomgOr n d a b) true n 4 d a b s
def execAtomgXor (n : Bool) (d a b : Code) (s : State) := atomicWord (.atomgXor n d a b) true n 5 d a b s
def execAtomgXchg (n : Bool) (d a b : Code) (s : State) := atomicWord (.atomgXchg n d a b) true n 6 d a b s
def execAtomgCas (n : Bool) (d a b : Code) (s : State) := atomicWord (.atomgCas n d a b) true n 7 d a b s
def execAtomsAdd (n : Bool) (d a b : Code) (s : State) := atomicWord (.atomsAdd n d a b) false n 0 d a b s
def execAtomsMinI (n : Bool) (d a b : Code) (s : State) := atomicWord (.atomsMinI n d a b) false n 1 d a b s
def execAtomsMaxI (n : Bool) (d a b : Code) (s : State) := atomicWord (.atomsMaxI n d a b) false n 2 d a b s
def execAtomsAnd (n : Bool) (d a b : Code) (s : State) := atomicWord (.atomsAnd n d a b) false n 3 d a b s
def execAtomsOr (n : Bool) (d a b : Code) (s : State) := atomicWord (.atomsOr n d a b) false n 4 d a b s
def execAtomsXor (n : Bool) (d a b : Code) (s : State) := atomicWord (.atomsXor n d a b) false n 5 d a b s
def execAtomsXchg (n : Bool) (d a b : Code) (s : State) := atomicWord (.atomsXchg n d a b) false n 6 d a b s
def execAtomsCas (n : Bool) (d a b : Code) (s : State) := atomicWord (.atomsCas n d a b) false n 7 d a b s

/-! ### Reductions (R281, R282) -/

/-- Flags of a reduction. -/
def redfFlags : Word := mkFlags 4 .global false false true true false false false

/-- The last entry of an issue marked: with it the word has been performed whole. -/
def markLast : List QEntry → List QEntry
  | [] => []
  | [e] => [match e.op with
    | .redf fn ls _ => { e with op := .redf fn ls true }
    | _ => e]
  | e :: es => e :: markLast es

/-- The lanes of a reduction gathered by place. -/
def redfEntries (fn : BitVec 3) (a b : Code) (s : State) (ls : List Nat) : List QEntry :=
  markLast (ls.foldl (fun es l =>
    joinRequest s (entryOf s l (accessPlace s l (s.src64 l a) 4 .redf).1 (s.src64 l a) 0 redfFlags (.redf fn [(l, s.src l b)] false)) es) [])

def redfWord (i : Instr) (fn : BitVec 3) (a b : Code) (s : State) : Host.Outcome State Fault Refusal :=
  issued i s (fun s ls => enqueue (eachLane (fun s l => noteTrans s l (s.src64 l a)) s ls) s.issue.group (redfEntries fn a b s ls))

/-- One ACCRED: a contribution of its lane (R282). -/
def accredEntry (a b : Code) (s : State) (l : Nat) : QEntry :=
  let va := s.src64 l a
  let p := linePlace s (teamOf l) va
  entryOf s l (.phys (p.1 + va.toNat % 128)) va 0 redfFlags (.accred (s.src l b) va p.2)

def execRedfFadd (a b : Code) (s : State) := redfWord (.redfFadd a b) 0 a b s
def execRedfFmin (a b : Code) (s : State) := redfWord (.redfFmin a b) 1 a b s
def execRedfFmax (a b : Code) (s : State) := redfWord (.redfFmax a b) 2 a b s
def execRedfHadd2 (a b : Code) (s : State) := redfWord (.redfHadd2 a b) 3 a b s
def execRedfAccred (a b : Code) (s : State) :=
  issued (.redfAccred a b) s (fun s ls => enqueue (eachLane (fun s l => noteTrans s l (s.src64 l a)) s ls) s.issue.group (ls.map (accredEntry a b s)))
def execRedfAddI (a b : Code) (s : State) := redfWord (.redfAddI a b) 5 a b s

/-! ### FENCE (R231, R283) -/

/-- Whether an entry is an atomic of one of some threads: what an acquire orders before every later event of theirs (R227, R231). -/
def QEntry.atomicOf (s : State) (tids : List Nat) (e : QEntry) : Bool :=
  match e.op with
  | .atomic _ lanes => lanes.any (fun x => s.loads.any (fun l => decide (l.id = x.1) && tids.contains l.tid))
  | _ => false

/-- The atomics that the issuing threads have queued are performed. -/
def performAtomics (s : State) : State := leaveThrough s s.issue.group (QEntry.atomicOf s s.issue.lanes)

/-- A fence of a group: kinds 1 to 3 release, kinds 0, 2 and 3 acquire. -/
def fenceGroup (s : State) (kind scope : Nat) : State :=
  let s1 := if kind = 0 then performAtomics s else releaseGroup s s.issue.group scope
  if kind = 1 then s1 else acquire s1 s.issueTeam scope

def execFence (x : BitVec 6) (s : State) := issued (.fence x) s (fun s _ => fenceGroup s (x.toNat / 8) (x.toNat % 8))

end Sys2Proof.Machine
end

