-- ==== Sys2Proof/Machine/Launch.lean ====
section
/-! DEFINITION. Hardware queues and the dependence graph: appending a record, completion entries that wait, starting, finishing and failing nodes
(R48 to R54, R72 to R76). -/

namespace Sys2Proof.Machine

/-! ### Accesses of the device itself -/

/-- The physical place of a virtual byte in a context, for a unit on no core: system cores, queues, walkers. -/
def devicePlace (s : State) (ctx : Nat) (va : DWord) : Option Nat :=
  if bits va.toNat 63 57 ≠ 0 then none
  else
    match unitWalk s ctx va.toNat with
    | .leaf e size => if leafType e = 3 ∨ leafType e = 4 then none else some (leafPhys e size va.toNat)
    | _ => none

/-- `n` bytes within one page; a range without translation reads as zeros, and a write to it is lost. -/
def deviceRead (s : State) (ctx : Nat) (va : DWord) (n : Nat) : List Byte :=
  match devicePlace s ctx va with
  | some p => readBytes s (.phys p) n
  | none => List.replicate n 0
def deviceNat (s : State) (ctx : Nat) (va : DWord) (n : Nat) : Nat := leNat (deviceRead s ctx va n)

/-- A malformed page-table entry that an access of a unit of the device itself meets is recorded (R201). DESIGN CHOICE, log 90: which unit the record names. -/
def logDevice (u : UnitId) (s : State) (ctx : Nat) (va : DWord) : State :=
  if bits va.toNat 63 57 ≠ 0 then s
  else
    match unitWalk s ctx va.toNat with
    | .none bad => logEntry s u ctx bad
    | _ => s

def deviceWrite (u : UnitId) (s : State) (ctx : Nat) (va : DWord) (data : List Byte) : State :=
  match devicePlace s ctx va with
  | some p => deviceOut s (.phys p) data
  | none => logDevice u s ctx va
/-- The same range as the directories see it read. -/
def deviceSees (u : UnitId) (s : State) (ctx : Nat) (va : DWord) (n : Nat) : State :=
  match devicePlace s ctx va with
  | some p => noteHomeReads s (.phys p) n
  | none => logDevice u s ctx va
/-- Bytes of a context by virtual address as the directories see them read by the device, page by page: privatised copies merge (R259). -/
def deviceReads (u : UnitId) (s : State) (ctx : Nat) (va : DWord) (n : Nat) : State :=
  (pieces va.toNat n).foldl (fun s p => deviceSees u s ctx (dw p.1) p.2) s

/-- Bytes of a context by virtual address, page by page, as the device reads them. -/
def deviceBytes (s : State) (ctx : Nat) (va : DWord) (n : Nat) : List Byte :=
  (pieces va.toNat n).flatMap (fun p => deviceRead s ctx (dw p.1) p.2)

/-- The placement unit of a die, and its dependence-graph walker (R418). -/
def placementUnit (die : Nat) : UnitId := ⟨5, 256 * die⟩
def walkerUnit (die : Nat) : UnitId := ⟨5, 256 * die + 1⟩

/-! ### Queue descriptors (R48) -/

def State.qdBits (s : State) (q w hi lo : Nat) : Nat := bits (s.qd q w).toNat hi lo
def State.setQd (s : State) (q w : Nat) (v : Nat) : State := s.setSys (0x1000 + 8 * q + w) (dw v)
def qEnabled (s : State) (q : Nat) : Bool := s.qdBits q 1 13 13 = 1
def qOwner (s : State) (q : Nat) : Nat := s.qdBits q 1 21 16
def qOrder (s : State) (q : Nat) : Nat := s.qdBits q 1 3 0
def qPriority (s : State) (q : Nat) : Nat := s.qdBits q 1 6 4
def qGraph (s : State) (q : Nat) : Bool := s.qdBits q 1 7 7 = 1
def qSerial (s : State) (q : Nat) : Bool := s.qdBits q 1 8 8 = 1
def qHead (s : State) (q : Nat) : Nat := s.qdBits q 2 31 0
def qTail (s : State) (q : Nat) : Nat := s.qdBits q 2 63 32
/-- Bytes of a slot. -/
def slotSize (s : State) (q : Nat) : Nat := if qGraph s q then 64 else 128
def contextValid (s : State) (c : Nat) : Bool := (s.cx c 1).getLsbD 12
/-- Slots appended and not taken. -/
def qCount (s : State) (q : Nat) : Nat := (qHead s q + 2 ^ 32 - qTail s q) % 2 ^ 32
def setHead (s : State) (q h : Nat) : State := s.setQd q 2 (qTail s q * 2 ^ 32 + h % 2 ^ 32)
def setTail (s : State) (q t : Nat) : State := s.setQd q 2 (t % 2 ^ 32 * 2 ^ 32 + qHead s q)
/-- The address of a slot by count. -/
def slotAddr (s : State) (q count : Nat) : DWord := s.qd q 0 + dw (slotSize s q * (count % 2 ^ qOrder s q))

/-! ### Appends (R49, R50) -/

/-- The feeds that append, by their bit in QD1. -/
inductive Feed where
  | system | network | device
  deriving DecidableEq, Repr

/-- The unit through which a feed writes a slot, as a record of it says. -/
def Feed.unit : Feed → UnitId
  | .system => ⟨6, 0⟩
  | .network => ⟨7, 66⟩
  | .device => placementUnit 0

def Feed.bit : Feed → Nat
  | .system => 9
  | .network => 10
  | .device => 11

/-- The outcome of an append (R50): the highest that applies. -/
def appendOutcome (s : State) (q : Nat) (feed : Feed) (ctx : Nat) : Nat :=
  if 1023 < q then 2
  else if !qEnabled s q || !contextValid s (qOwner s q) then 3
  else if s.qdBits q 1 feed.bit feed.bit = 0 ∨ ctx ≠ qOwner s q then 2
  else if qCount s q = 2 ^ qOrder s q then 1
  else 0

/-- The key of a queue slot in the tables of feeds. -/
def slotKey (s : State) (q count : Nat) : Nat := q * 4096 + count % 2 ^ qOrder s q

/-- A record appended to a queue by a feed, from a launch node when one is named: the state and the outcome. DESIGN CHOICE, log 55: of a record of
128 bytes that comes to a graph queue, whose slots hold 64, the first 64 are copied. -/
def appendSlot (s : State) (q : Nat) (feed : Feed) (ctx : Nat) (data : List Byte) (node : Option (Nat × DWord)) : State × Nat :=
  let o := appendOutcome s q feed ctx
  if o ≠ 0 then (s, o)
  else
    let h := qHead s q
    let key := slotKey s q h
    let s1 := deviceWrite feed.unit s ctx (slotAddr s q h) (data.take (slotSize s q))
    (setHead { s1 with
      feeds := match node with
        | some n => mput s1.feeds key n
        | none => mdel s1.feeds key
      systemFeed := if feed = .system then sadd s1.systemFeed key else sdel s1.systemFeed key } q (h + 1), 0)

/-! ### Completion entries (R53, R54) -/

/-- An entry that waits for room in its queue's completion ring; a graph that no queue started has none (log 75). -/
def addCompletion (s : State) (q : Nat) (seq : Word) (status killed : Nat) (final : Bool) : State :=
  if 1023 < q then s
  else { s with completions := s.completions ++ [{ q := q, seq := seq, status := status, killed := killed, final := final }] }

/-! ### Nodes (R72 to R76) -/

def State.node (s : State) (ctx : Nat) (addr : DWord) : Option Node := s.nodes.find? (fun n => decide (n.ctx = ctx ∧ n.addr = addr))
def State.dropNode (s : State) (n : Node) : State := { s with nodes := s.nodes.filter (fun m => decide (m ≠ n)) }

/-- What a walker's release and acquire at system scope do to copies of far lines (R74, R266). -/
def walkerRelease (s : State) : State := farRelease s
def walkerAcquire (s : State) : State := s.eachDir (fun l d => if farLine l then d.dropClean else d)

/-- A node's status word written by a die's walker, where its address then leads (R433). -/
def setStatus (die : Nat) (s : State) (ctx : Nat) (addr : DWord) (status : Nat) : State := deviceWrite (walkerUnit die) s ctx (addr + 26) (leBytes 2 status)

/-- A running node fails: its status, and a completion entry to the queue that started its graph (R76). -/
def failNode (s : State) (n : Node) (status : Nat) : State :=
  addCompletion ((setStatus n.die s n.ctx n.addr status).dropNode n) n.q n.seq 0x10 0 n.root

/-- The kind, zero fields and payload alignment of a node record (R72, R76). DESIGN CHOICE, log 56: a successor count above 4,096, which R72 does
not allow and R76 does not name, fails the node as a bad field does. -/
def nodeLegal (r : List Byte) : Bool :=
  let kind := fld r 0 1
  let pay := fld r 8 8
  decide (1 ≤ kind) && decide (kind ≤ 5) && decide (fld r 2 1 < 4) && zeroAt r 3 1 && zeroAt r 28 4 && zeroAt r 40 24 &&
  decide (fld r 24 2 ≤ 4096) &&
  (match kind with
   | 1 => decide (pay % 64 = 0)
   | 2 => decide (pay % 64 = 0)
   | 3 => decide (pay % 8 = 0)
   | _ => decide (pay = 0))

/-- The copy of a graph node as a request of the walkers' own channel (R73). -/
def nodeCopy (s : State) (ctx die : Nat) (addr : DWord) (c : CopyRec) : State :=
  let op : ReqOp := .linear c.count (.global (dw c.src)) (.global (dw c.dst))
  let r : Request :=
    { id := s.nextId, team := 0, ctx := ctx, tid := 0, rid := 0, die := die, core := 0, cls := 1, op := op, acquire := c.acquire,
      release := c.release, scope := c.scope, record := 0, multicast := false, mask := 0, failed := 0, regs := [], before := 0, ready := false,
      done := [], total := beatCount .n8 op, rows := [], pages := [], held := none, node := some addr, table := none, order := s.nextId,
      inc := incarnation s ⟨5, 256 * die + 1⟩ }
  { s with requests := s.requests ++ [r], nextId := s.nextId + 1 }

/-- A node starts with an acquire at system scope (R73, R74): `root` when a queue slot names it. Its fields are read here, its successor list's
place among them (R72). A failure here is left for its NODE_FINISH. DESIGN CHOICE, log 56: the slot of a root whose address does not translate
gets its final entry with status 0x10. -/
def startNode (s0 : State) (ctx die q : Nat) (seq : Word) (addr : DWord) (root : Bool) : State :=
  let u := walkerUnit die
  if (devicePlace s0 ctx addr).isNone then (if root then addCompletion (logDevice u s0 ctx addr) q seq 0x10 0 true else logDevice u s0 ctx addr)
  else
    let s := deviceSees u (walkerAcquire s0) ctx addr 64
    let r := deviceRead s ctx addr 64
    let n : Node := { ctx := ctx, die := die, addr := addr, q := q, seq := seq, root := root, slot := none, done := none,
                      list := dw (fld r 16 8), succs := fld r 24 2 }
    let add (s : State) (n : Node) : State := { (setStatus die s ctx addr 1) with nodes := s.nodes ++ [n] }
    if !nodeLegal r || fld r 4 4 ≠ 0 then add s { n with done := some 0x1FF }
    else
      match fld r 0 1 with
      | 1 =>
        let raw := deviceRead s ctx (dw (fld r 8 8)) 64
        let c := readCopy raw
        let s1 := deviceReads u s ctx (dw (fld r 8 8)) 64
        if copyLegal raw c [1] 1 && decide (c.space = 0) && !c.fromScratch && (devicePlace s ctx (dw (fld r 8 8))).isSome then
          nodeCopy (add s1 n) ctx die addr c
        else add s1 { n with done := some 0x1FF }
      | 2 =>
        let dest := fld r 1 2
        let h := qHead s dest
        let x := appendSlot (deviceReads u s ctx (dw (fld r 8 8)) 128) dest .device ctx (deviceBytes s ctx (dw (fld r 8 8)) 128) (some (ctx, addr))
        if x.2 = 0 then add x.1 { n with slot := some (dest, h % 2 ^ qOrder s dest) } else add s { n with done := some (0x100 + x.2) }
      | 3 => add (deviceWrite u s ctx (dw (fld r 8 8)) (leBytes 8 (fld r 32 8))) { n with done := some 0 }
      | 4 => add s n
      | _ => add s { n with done := some 0 }

/-- A node whose count would fall below zero is marked failed and not started; one that runs fails, a root with its slot's final entry (R54, R76). -/
def failSuccessor (s : State) (n : Node) (succ : DWord) : State :=
  match s.node n.ctx succ with
  | some m => failNode s m 0x1FE
  | none => addCompletion (setStatus n.die s n.ctx succ 0x1FE) n.q n.seq 0x10 0 false

/-- One successor's count lowered; the one that reaches zero starts (R74, R76). DESIGN CHOICE, log 56: a successor address that does not translate
is passed over, and one that is not 64-byte aligned is used as it stands. -/
def lowerCount (n : Node) (s : State) (succ : DWord) : State :=
  if (devicePlace s n.ctx succ).isNone then logDevice (walkerUnit n.die) s n.ctx succ
  else
    let k := deviceNat s n.ctx (succ + 4) 4
    if k = 0 then failSuccessor s n succ
    else
      let s1 := deviceWrite (walkerUnit n.die) s n.ctx (succ + 4) (leBytes 4 (k - 1))
      if k = 1 then startNode s1 n.ctx n.die n.q n.seq succ false else s1

def lowerCounts (n : Node) : State → List DWord → State
  | s, [] => s
  | s, x :: xs => lowerCounts n (lowerCount n s x) xs

/-- The addresses in a node's successor list. -/
def Node.successors (s : State) (n : Node) : List DWord :=
  (List.range n.succs).map (fun i => dw (deviceNat s n.ctx (n.list + dw (8 * i)) 8))

/-- A running node finishes: a release at system scope, status 2, a completion for the root, its successors in list order (R74, R439). -/
def finishNode (s : State) (n : Node) : State :=
  let s1 := (setStatus n.die (walkerRelease s) n.ctx n.addr 2).dropNode n
  let s2 := if n.root then addCompletion s1 n.q n.seq 0 0 true else s1
  lowerCounts n (deviceReads (walkerUnit n.die) s2 n.ctx n.list (8 * n.succs)) (n.successors s)

/-- The node that a walker runs at an address of a context, by that address or by another one of the same memory. -/
def runningAt (s : State) (ctx : Nat) (addr : DWord) (pa : Nat) : Option Node :=
  (s.node ctx addr).or (s.nodes.find? (fun n => decide (devicePlace s n.ctx n.addr = some pa)))

/-- An event node whose record says that it runs though no walker has it: DESIGN CHOICE, log 75: no queue has started its graph, and the walker of the home die
of its record runs it. -/
def strayNode (s : State) (ctx : Nat) (addr : DWord) (pa : Nat) : Node :=
  { ctx := ctx, die := homeOf s (pa / 128), addr := addr, q := 1024, seq := 0, root := false, slot := none, done := none,
    list := dw (readNat s (.phys (pa + 16)) 8), succs := readNat s (.phys (pa + 24)) 2 }

/-- DG.SIGNAL on a node of a context whose record lies at a physical place: the state and the result (R307). An event node with status 1 finishes under R74;
DESIGN CHOICE, log 75, for one whose record broke R72 when it started and whose failure has not been written yet: result 3. -/
def signalNode (s : State) (ctx : Nat) (addr : DWord) (pa : Nat) : State × Nat :=
  if readNat s (.phys pa) 1 ≠ 4 then (s, 1)
  else
    match readNat s (.phys (pa + 26)) 2 with
    | 0 => (s, 2)
    | 1 =>
      let n := (runningAt s ctx addr pa).getD (strayNode s ctx addr pa)
      if n.done.isNone then (finishNode s n, 0) else (s, 3)
    | _ => (s, 3)

end Sys2Proof.Machine
end

