-- ==== Sys2Proof/Machine/Sync.lean ====
section
/-! DEFINITION. Phase barriers, streamer commands, maintenance, sharing and scratchpad bindings: FN 1 to 7 of major 0x39, majors 0x3A and 0x3B
(R213 to R219, R268, R284 to R310). -/

namespace Sys2Proof.Machine

/-! ### Phase barriers (R287 to R289) -/

/-- PH.INIT of a lane: the status, and the barrier started in phase 0 when it is 0. -/
def phInitLane (d a : Code) (k : Nat) (s : State) (l : Nat) : State :=
  let uid := teamOf l
  let q := s.amount l a
  if (s.bar uid k).init then s.put .m l false d 1
  else if q < 1 ∨ 255 < q then s.put .m l false d 2
  else (s.modBar uid k (fun _ => { init := true, quota := q })).put .m l false d 0

/-- PH.ARRIVE and PH.END of a lane: mark and phase at issue, the count when the arrival has passed the queue. -/
def arriveLane (d : Code) (k : Nat) (leaving : Bool) (s : State) (l : Nat) : State :=
  let uid := teamOf l
  let g := groupIx (grpOf l)
  let b := s.bar uid k
  let bit (m : SMap Word) : SMap Word := mput m g (mget 0 m g ||| (1#32 <<< laneOf l))
  let s1 := if isBurin l then s
    else s.modBar uid k (fun b => { b with lanes := bit b.lanes, ended := if leaving then bit b.ended else b.ended })
  enqueue (s1.put .m l false d b.phase) (grpOf l) [entryOf s l (.phys 0) 0 0 0 (.arrive k b.phase leaving)]

/-- PH.WAIT of a lane. -/
def waitPhase (a : Code) (k : Nat) (s : State) (l : Nat) : State :=
  if phaseDone (s.bar (teamOf l) k).phase (s.narrow l a) then acquire s (teamOf l) 1
  else s.modThread l (fun t => { t with cond := .blocked (.phase k (s.narrow l a)) })

/-- PH.TEST of a lane. -/
def testPhase (d a : Code) (k : Nat) (s : State) (l : Nat) : State :=
  if phaseDone (s.bar (teamOf l) k).phase (s.narrow l a) then (acquire s (teamOf l) 1).put .m l false d 1
  else s.put .m l false d 0

/-- The barrier status word (R289). -/
def Barrier.status (b : Barrier) : Word :=
  wd (b1 b.lastError * 2 ^ 31 + b1 b.init * 2 ^ 30 + b1 b.error * 2 ^ 29 + b1 (decide (b.pending ≠ 0)) * 2 ^ 28 +
    (b.quota + 256 - b.arrived) % 256 * 2 ^ 16 + b.phase.toNat % 65536)

/-- Whether an agent waits on barrier `k`, bytes are pending or a thread has arrived in its current phase. -/
def barrierBusy (s : State) (uid k : Nat) : Bool :=
  let b := s.bar uid k
  s.threads.any (fun p => decide (teamOf p.1 = uid) && p.2.awaits (fun j _ => decide (j = k))) ||
  decide (b.pending ≠ 0) || decide (b.arrived ≠ 0) || b.lanes.any (fun p => decide (p.2 ≠ 0))

/-- PH.INVAL of a lane. -/
def invalPhase (d : Code) (k : Nat) (s : State) (l : Nat) : State :=
  let uid := teamOf l
  if !(s.bar uid k).init then s.put .m l false d 2
  else if barrierBusy s uid k then s.put .m l false d 1
  else (s.modBar uid k (fun b => { b with init := false })).put .m l false d 0

def execPhInit (d a : Code) (k : BitVec 5) (s : State) := issued (.phInit d a k) s (eachLane (phInitLane d a k.toNat))
def execPhArrive (d : Code) (k : BitVec 5) (s : State) := issued (.phArrive d k) s (eachLane (arriveLane d k.toNat false))
def execPhWait (a : Code) (k : BitVec 5) (s : State) :=
  issued (.phWait a k) s (fun s ls => eachLane (waitPhase a k.toNat) (invalidate s ls) ls)
def execPhTest (d a : Code) (k : BitVec 5) (s : State) := issued (.phTest d a k) s (eachLane (testPhase d a k.toNat))
def execPhEnd (d : Code) (k : BitVec 5) (s : State) := issued (.phEnd d k) s (eachLane (arriveLane d k.toNat true))
def execPhStat (d : Code) (k : BitVec 5) (s : State) :=
  issued (.phStat d k) s (eachLane (fun s l => s.put .m l false d (s.bar (teamOf l) k.toNat).status))
def execPhInval (d : Code) (k : BitVec 5) (s : State) := issued (.phInval d k) s (eachLane (invalPhase d k.toNat))

/-! ### Copies (R291 to R298) -/

/-- A copy command of a lane: the request enters its class queue, its identifier reaches D. -/
def copyLane (d a : Code) (x : BitVec 6) (kinds : List Nat) (s : State) (l : Nat) : State :=
  let off := (s.src l a).toNat
  match copyAt a kinds s l with
  | .error _ => s
  | .ok p =>
    let uid := teamOf l
    let s1 := notePoison s l (.scratch uid off) (dw off) 64 .scratch true
    let s2 := match (readCopy (scratchRecord s uid off 64)).layoutAt with
      | some o => notePoison s1 l (.scratch uid o) (dw o) 128 .scratch true
      | none => s1
    (addRequest s2 l (namedBarrier x) p).put .m l false d (s.team uid).rid

def execCpIssue (d a : Code) (x : BitVec 6) (s : State) :=
  issued (.cpIssue d a x) s (fun s ls => eachLane (copyLane d a x [1, 2]) (invalidate s ls) ls)
def execCpMcast (d a : Code) (x : BitVec 6) (s : State) :=
  issued (.cpMcast d a x) s (fun s ls => eachLane (copyLane d a x [3, 4]) (invalidate s ls) ls)
def execCpCancel (d a : Code) (s : State) :=
  issued (.cpCancel d a) s (eachLane (fun s l =>
    let r := cancelRequest s (teamOf l) (s.src l a)
    r.1.put .m l false d r.2))

/-! ### Prefetch and pins (R268, R299, R300) -/

/-- PREF of a lane: the line reaches the L2, or the L1 as a write-through copy; dropped when a check would fail. -/
def prefLane (a : Code) (x : BitVec 1) (s : State) (l : Nat) : State :=
  let t := s.team (teamOf l)
  let va := s.src64 l a
  match checkPage s t.coreId t.ctx (teamOf l) va 1 .load true false with
  | .at loc leaf _ =>
    if leafType leaf = 0 ∨ leafType leaf = 1 then noteLoad (noteTrans s l va) t.coreId (if x = 1 then 1 else 3) loc leaf 1 else s
  | _ => logWalk s t.coreId t.ctx va

/-- The physical line of an address whose page can be pinned (R268). -/
def pinLine (s : State) (core ctx : Nat) (va : DWord) : Option Nat :=
  if bits va.toNat 63 57 ≠ 0 then none
  else
    match translate s core ctx va.toNat with
    | .leaf e size => if leafType e < 2 ∧ leafDomain e = 0 then some (leafPhys e size va.toNat / 128) else none
    | _ => none

/-- Lines pinned in the set that a line falls in at its home slice. -/
def pinnedWays (s : State) (line : Nat) : Nat :=
  let home := homeOf s line
  ((s.pins.map Prod.snd).eraseDups.filter (fun m =>
    decide (homeOf s m = home ∧ sliceOf s home m = sliceOf s home line ∧ setOf m = setOf line))).length

/-- The status of one line of a PIN: the highest of those that apply; a line that the context already pins adds nothing to its count (R268). -/
def pinStatus (s : State) (core ctx : Nat) (va : DWord) : Nat :=
  match pinLine s core ctx va with
  | none => 3
  | some line =>
    if !s.pins.contains (ctx, line) && decide (bits (s.cx ctx 5).toNat 31 0 < (s.pins.filter (fun p => decide (p.1 = ctx))).length + 1) then 2
    else if 14 ≤ pinnedWays s line then 1
    else 0

/-- Consecutive lines pinned from an address on: the state, lines granted, highest status. DESIGN CHOICE, log 99: a pin does not bring a line into its home
slice, where it takes one of the ways only once it has come there. -/
def pinLines (core ctx : Nat) : Nat → State → DWord → State × Nat × Nat
  | 0, s, _ => (s, 0, 0)
  | n + 1, s, va =>
    let st := pinStatus s core ctx va
    let s1 := match pinLine s core ctx va with
      | some line =>
        let s0 := s.modDir line Dir.merge
        if st = 0 ∧ ¬ s0.pins.contains (ctx, line) then { s0 with pins := s0.pins ++ [(ctx, line)] } else s0
      | none => logWalk s core ctx va
    let r := pinLines core ctx n s1 (va + 128)
    (r.1, (if st = 0 then 1 else 0) + r.2.1, max st r.2.2)

def pinLane (d a : Code) (x : BitVec 6) (s : State) (l : Nat) : State :=
  let t := s.team (teamOf l)
  let r := pinLines t.coreId t.ctx (x.toNat + 1) s (s.src64 l a)
  r.1.put .m l false d (wd (r.2.2 * 65536 + r.2.1))

/-- The pins of a context on consecutive lines end. -/
def unpinLines (core ctx : Nat) : Nat → State → DWord → State
  | 0, s, _ => s
  | n + 1, s, va =>
    let s1 := match pinLine s core ctx va with
      | some line => { s with pins := s.pins.filter (fun p => decide (p ≠ (ctx, line))) }
      | none => logWalk s core ctx va
    unpinLines core ctx n s1 (va + 128)

def unpinLane (a : Code) (x : BitVec 6) (s : State) (l : Nat) : State :=
  let t := s.team (teamOf l)
  unpinLines t.coreId t.ctx (x.toNat + 1) s (s.src64 l a)

def execPref (a : Code) (x : BitVec 1) (s : State) := issued (.pref a x) s (eachLane (prefLane a x))
def execPin (d a : Code) (x : BitVec 6) (s : State) := issued (.pin d a x) s (eachLane (pinLane d a x))
def execUnpin (a : Code) (x : BitVec 6) (s : State) := issued (.unpin a x) s (eachLane (unpinLane a x))

/-! ### Cache and code maintenance (R301, R302) -/

/-- The physical lines of the range that a maintenance word names; pages without memory of their own have none. -/
def rangeLines (s : State) (tid : Nat) (a d : Code) : List Nat :=
  let t := s.team (teamOf tid)
  let r := lineRange (s.wide tid a) (s.narrow tid d).toNat
  (List.range (r.2 / 128)).filterMap (fun i =>
    match translate s t.coreId t.ctx (r.1 + 128 * i) with
    | .leaf e size => if leafType e = 3 ∨ leafType e = 4 then none else some (leafPhys e size (r.1 + 128 * i) / 128)
    | _ => none)

/-- A maintenance entry of a lane. -/
def maintain (d a : Code) (op : List Nat → QOp) (s : State) (l : Nat) : State :=
  enqueue s (grpOf l) [entryOf s l (.phys 0) (s.wide l a) 0 0 (op (rangeLines s l a d))]

def execCwb (d a : Code) (x : BitVec 3) (s : State) := issued (.cwb d a x) s (eachLane (maintain d a (.cwb x.toNat)))
def execCinv (d a : Code) (s : State) := issued (.cinv d a) s (eachLane (maintain d a .cinv))
def execIinv (d a : Code) (s : State) := issued (.iinv d a) s (eachLane (maintain d a .iinv))
/-- FETCHB waits for its threads' earlier CWB and IINV, and discards the words that these threads have fetched ahead: the core's instruction cache
keeps its copies (log 36). DESIGN CHOICE, log 95: the line in which the FETCHB stands is checked again for the chain after it. -/
def execFetchb (s : State) :=
  issued .fetchb s (fun s ls => eachLane (fun s l => s.modThread l (fun t => { t with line := none, ahead := [] }))
    (drainQueue s s.issue.group) ls)

/-! ### Pattern tables (R303) -/

/-- Bytes stored as pattern table entries from a key on. -/
def setPattern (m : SMap Byte) (key : Nat) : List Byte → SMap Byte
  | [] => m
  | v :: vs => setPattern (mset 0x80 m key v) (key + 1) vs

def tloadLane (a : Code) (k : BitVec 4) (s : State) (l : Nat) : State :=
  let uid := teamOf l
  let off := (s.src l a).toNat
  let loc := Loc.scratch uid off
  let s1 := settleLoad s (grpOf l) loc 128
  (notePoison s1 l loc (dw off) 128 .scratch false).modTeam uid (fun t => { t with pt := setPattern t.pt (128 * k.toNat) (loadBytes s1 (grpOf l) loc 128) })

def execXbTload (a : Code) (k : BitVec 4) (s : State) := issued (.xbTload a k) s (eachLane (tloadLane a k))

/-! ### Sharing groups (R217 to R219, R304, R305) -/

def execShJoin (s : State) := issued .shJoin s (fun s _ => s.modTeam s.issueTeam (fun t => { t with joined := true }))
def execShLeave (s : State) := issued .shLeave s (fun s _ => leaveSharing s s.issueTeam)
def execShWin (d a : Code) (r : BitVec 4) (s : State) :=
  issued (.shWin d a r) s (eachLane (fun s l => s.put64 .m l false d (s.src64 l a + dw (r.toNat * 2 ^ 21))))

/-! ### Launches and graph events (R306, R307) -/

/-- LAUNCH of a lane, its release made. -/
def launchLane (d a : Code) (s : State) (l : Nat) : State :=
  let t := s.team (teamOf l)
  let va := s.src64 l a
  let pl := threadPlaces s t.coreId t.ctx (teamOf l)
  let ps := pieces va.toNat 128
  let r := readVirt s pl [] ps
  let s0 := noteVirt pl (threadHome s t.coreId t.ctx (teamOf l)) t.die s ps
  let s1 := match badByte s pl ps with
    | some a => pendFault s0 l { cause := 0x19, addr := dw a, word := s.issue.word, trapNo := s.runOf l, flags := poisonFlags s l false (dw a) }
    | none => s0
  let x := appendSlot s1 (s.src l d).toNat .device t.ctx r.1 none
  x.1.put .m l false d (wd x.2)

/-- DG.SIGNAL of a lane. No node runs in a cluster window: there only its kind and status count. -/
def signalLane (d a : Code) (s : State) (l : Nat) : State :=
  let t := s.team (teamOf l)
  match checkPage s t.coreId t.ctx (teamOf l) (s.src64 l a) 64 .atomic true true with
  | .at (.phys pa) _ _ =>
    let x := signalNode (noteHome s (.phys pa)) t.ctx (s.src64 l a) pa
    x.1.put .m l false d (wd x.2)
  | .at loc _ _ => s.put .m l false d (if readNat s loc 1 ≠ 4 then 1 else if readNat s (loc.plus 26) 2 = 0 then 2 else 3)
  | _ => s

def execLaunch (d a : Code) (s : State) :=
  issued (.launch d a) s (fun s ls => eachLane (launchLane d a) (releaseGroup s s.issue.group 3) ls)
def execDgSignal (d a : Code) (s : State) := issued (.dgSignal d a) s (eachLane (signalLane d a))

/-! ### Scratchpad bindings (R213 to R216, R308 to R310) -/

/-- The physical units of a run of 4 KiB global units, each on a page that can be bound; none when one is not. -/
def bindUnits (s : State) (core ctx : Nat) (va : Nat) : Nat → Option (List Nat)
  | 0 => some []
  | n + 1 =>
    let a := va % 2 ^ 64
    if bits a 63 57 ≠ 0 then none
    else
      match translate s core ctx a with
      | .leaf e size =>
        if leafType e = 0 ∧ leafRead e ∧ leafWrite e ∧ ¬ leafFar e ∧ ¬ leafCompressed e ∧ leafDomain e = 0 then
          (bindUnits s core ctx (va + 4096) n).map (fun us => leafPhys e size a / 4096 :: us)
        else none
      | _ => none

/-- The malformed page-table entry that the walks of a run of units meet first, recorded (R201). -/
def logUnits (s : State) (core ctx : Nat) (va n : Nat) : State :=
  logEntry s ⟨1, core⟩ ctx ((List.range n).findSome? (fun i => metBad s core ctx (dw (va + 4096 * i))))

/-- The lowest free entry of a core's mapping table: R308 leaves open which free entry is taken (DESIGN CHOICE, log 59). -/
def freeEntry (s : State) (core : Nat) : Option Nat := (List.range 16).find? (fun i => (mfind (s.core core).spmap i).isNone)

/-- The control word of SPMAP. -/
structure MapCtl where
  unit : Nat
  count : Nat
  fill : Bool
  legal : Bool
  deriving DecidableEq, Repr

def readMapCtl (c : Nat) : MapCtl :=
  { unit := bits c 6 0, count := bits c 14 8 + 1, fill := c.testBit 16,
    legal := decide (c.testBit 7 = false ∧ c.testBit 15 = false ∧ bits c 31 17 = 0) }

/-- The status of SPMAP: the first that applies (R308). -/
def mapStatus (s : State) (uid : Nat) (c : MapCtl) (va : DWord) : Nat :=
  let t := s.team uid
  if (freeEntry s t.coreId).isNone then 1
  else if t.kern.scratch < (c.unit + c.count) * 4096 then 2
  else
    match bindUnits s t.coreId t.ctx va.toNat c.count with
    | none => 3
    | some us => if us.any (fun u => s.binds.any (fun b => b.units.contains u)) then 4 else if !c.legal then 5 else 0

/-- A mapping table entry (R213). -/
def mapEntry (t : Team) (c : MapCtl) (va : DWord) : DWord :=
  dw (bits va.toNat 56 12 * 2 ^ 19 + (c.count - 1) * 2 ^ 12 + c.unit * 16 + t.slot * 2 + 1)

/-- `n` bytes of memory copied to scratchpad, and the poison of `n / 32` granules. -/
def fillBytesFrom (s : State) (team off pa : Nat) : Nat → State
  | 0 => s
  | n + 1 =>
    let s1 := fillBytesFrom s team off pa n
    s1.modTeam team (fun t => { t with scratch := mset 0 t.scratch (off + n) (mget unwritten s1.mem (pa + n)) })
def fillPoison (s : State) (team off pa : Nat) : Nat → State
  | 0 => s
  | n + 1 =>
    let s1 := fillPoison s team off pa n
    let g := off / 32 + n
    let bad := poisonAt s1 (.phys (pa + 32 * n))
    s1.modTeam team (fun t => { t with scratchPoison := (if bad then sadd t.scratchPoison g else sdel t.scratchPoison g) })

/-- Units filled one after the other. -/
def fillUnits (s : State) (team off : Nat) : List Nat → State
  | [] => s
  | u :: us => fillUnits (fillPoison (fillBytesFrom s team off (u * 4096) 4096) team off (u * 4096) 128) team (off + 4096) us

/-- No cache holds a line of a unit (R214). -/
def dropUnits (s : State) (us : List Nat) : State := { s with dir := s.dir.filter (fun p => !us.contains (p.1 / 32)) }

/-- A binding of units made (R214). -/
def makeBind (s : State) (uid entry : Nat) (word : DWord) (fill : Bool) (off : Nat) (us : List Nat) : State :=
  let core := (s.team uid).coreId
  let s1 := dropUnits (if fill then fillUnits s uid off us else s) us
  { s1.modCore core (fun c => { c with spmap := mput c.spmap entry word }) with
    binds := s1.binds ++ [{ core := core, entry := entry, team := uid, off := off, units := us }] }

/-- The entries of a group's queue that write scratchpad bytes of a team, or memory units that are to be bound, leave: the copies of a binding are
accesses of the issuing thread, in its program order (R227, R242, R309). -/
def settleUnits (s : State) (gid off : Nat) (us : List Nat) : State :=
  leaveThrough s gid (fun e => e.writes s (.scratch (gid / 64) off) (4096 * us.length) || us.any (fun u => e.writes s (.phys (u * 4096)) 4096))

/-- SPMAP of a lane. -/
def spmapLane (d a : Code) (s0 : State) (l : Nat) : State :=
  let uid := teamOf l
  let t := s0.team uid
  let va := s0.src64 l a
  let c := readMapCtl (s0.src l d).toNat
  let s := match bindUnits s0 t.coreId t.ctx va.toNat c.count with
    | some us => settleUnits s0 (grpOf l) (c.unit * 4096) us
    | none => s0
  let st := mapStatus s uid c va
  match st, freeEntry s t.coreId, bindUnits s t.coreId t.ctx va.toNat c.count with
  | 0, some e, some us => (makeBind s uid e (mapEntry t c va) c.fill (c.unit * 4096) us).put .m l false d (wd (16 * e))
  | _, _, _ => (if st = 3 then logUnits s t.coreId t.ctx va.toNat c.count else s).put .m l false d (wd st)

/-- The binding of a team that an entry index names. -/
def bindOf (s : State) (uid entry : Nat) : Option Bind :=
  s.binds.find? (fun b => decide (b.core = (s.team uid).coreId ∧ b.entry = entry ∧ b.team = uid))

/-- SPUNMAP and SPWB of a lane. -/
def mapLane (act : State → Bind → State) (d : Code) (s : State) (l : Nat) : State :=
  match bindOf s (teamOf l) (s.src l d).toNat with
  | some b => (act (settleUnits s (grpOf l) b.off b.units) b).put .m l false d 0
  | none => s.put .m l false d 1

def execSpmap (d a : Code) (s : State) := issued (.spmap d a) s (eachLane (spmapLane d a))
def execSpunmap (d : Code) (s : State) := issued (.spunmap d) s (eachLane (mapLane endBind d))
def execSpwb (d : Code) (s : State) := issued (.spwb d) s (eachLane (mapLane writeBack d))

end Sys2Proof.Machine
end

