-- ==== Sys2Proof/Machine/MatrixWords.lean ====
section
/-! DEFINITION. The words of major 0x3C, which the burin core runs (R341 to R355): each enters the matrix queue, waits for it or reads a line. -/

namespace Sys2Proof.Machine

def execMxLoad (a : Code) (s : State) := issued (.mxLoad a) s (eachLane (fun s l => pushLoad s l (s.gsrc l a).toNat))
def execMxSwap (s : State) := issued .mxSwap s (eachLane pushSwap)
def execMxStream (a : Code) (s : State) := issued (.mxStream a) s (eachLane (fun s l => pushStream s l (s.gsrc l a).toNat))
def execMxAdapt (a : Code) (s : State) := issued (.mxAdapt a) s (eachLane (fun s l => pushMatrix s l (.adapt (s.gsrc l a))))
/-- MX.WAIT completes once the queue is empty: it issues only then (R350). -/
def execMxWait (s : State) := issued .mxWait s (fun s _ => s)
def execAccArm (d a : Code) (s : State) := issued (.accArm d a) s (eachLane (fun s l => pushArm s l (s.gsrc l d) (s.gsrc l a)))
def execAccDrain (a : Code) (x : BitVec 5) (s : State) :=
  issued (.accDrain a x) s (eachLane (fun s l => pushDrain s l (s.gsrc l a).toNat x.toNat))
def execAccClear (d a : Code) (s : State) := issued (.accClear d a) s (eachLane (fun s l => pushClear s l (s.gsrc l d) (s.gsrc l a)))
/-- ACC.STAT reads the line once every earlier entry has completed (R355). -/
def execAccStat (d a : Code) (s : State) :=
  issued (.accStat d a) s (eachLane (fun s l =>
    let r := statLine s (teamOf l) (s.gsrc l a)
    r.1.put64 .m l false d r.2))

end Sys2Proof.Machine
end

