-- ==== Sys2Proof/Machine/ViewWords.lean ====
section
/-! DEFINITION. The words of major 0x3D: view registers, gather walks, table slots (R381 to R392). -/

namespace Sys2Proof.Machine

/-- VW.SET of the lanes in turn, each with its descriptor as read at issue (R383). -/
def setViews (d : Code) (k : Nat) : State → List (Nat × ViewReg) → State
  | s, [] => s
  | s, (l, v) :: r =>
    let x := bindView s l k v
    setViews d k (x.1.put .m l false d x.2) r

/-- The descriptor of a lane, as memory holds it at issue (R238). -/
def laneView (a : Code) (s : State) (l : Nat) : ViewReg := readView (scratchRecord s (teamOf l) (s.src l a).toNat 64)

def execVwSet (d a : Code) (k : BitVec 3) (s : State) :=
  issued (.vwSet d a k) s (fun s ls =>
    let s1 := eachLane (fun s l => notePoison s l (.scratch (teamOf l) (s.src l a).toNat) (dw (s.src l a).toNat) 64 .scratch false) s ls
    setViews d k.toNat (drainQueue s1 s.issue.group) (ls.map (fun l => (l, laneView a s l))))
def execVwRefresh (d : Code) (k : BitVec 3) (s : State) :=
  issued (.vwRefresh d k) s (fun s ls => eachLane (fun s l =>
    let x := refreshView s l k.toNat
    x.1.put .m l false d x.2) (drainQueue s s.issue.group) ls)
def execVwGet (d : Code) (fsel k : BitVec 3) (s : State) :=
  issued (.vwGet d fsel k) s (eachLane (fun s l =>
    s.put .m l false d (viewField (mfind (s.team (teamOf l)).views k.toNat) fsel.toNat)))
def execVwClear (d : Code) (k : BitVec 3) (s : State) :=
  issued (.vwClear d k) s (eachLane (fun s l =>
    let bound := (mfind (s.team (teamOf l)).views k.toNat).isSome
    (unbindView s (teamOf l) k.toNat).put .m l false d (flagWord (!bound))))

/-- GA.WALK of a lane (R389). -/
def walkLane (d a : Code) (x : BitVec 6) (s : State) (l : Nat) : State :=
  let off := (s.src l a).toNat
  match walkChecks s l off with
  | .error _ => s
  | .ok w =>
    (addWalk (notePoison s l (.scratch (teamOf l) off) (dw off) 64 .scratch true) l (namedBarrier x) w).put .m l false d (s.team (teamOf l)).rid

def execGaWalk (d a : Code) (x : BitVec 6) (s : State) :=
  issued (.gaWalk d a x) s (fun s ls => eachLane (walkLane d a x) (invalidate s ls) ls)
def execGaStat (d a : Code) (s : State) :=
  issued (.gaStat d a) s (eachLane (fun s l => s.put .m l false d (requestStatus s (teamOf l) (s.src l a))))

def execBtBind (d a : Code) (slot : BitVec 3) (s : State) :=
  issued (.btBind d a slot) s (fun s ls => eachLane (fun s l =>
    let x := bindTable s l slot.toNat (s.src64 l a) (s.src l d)
    x.1.put .m l false d x.2) (drainQueue s s.issue.group) ls)
def execBtRetire (d : Code) (slot : BitVec 3) (s : State) :=
  issued (.btRetire d slot) s (fun s ls => eachLane (fun s l =>
    let x := retireTable s l slot.toNat
    x.1.put .m l false d x.2) (drainQueue s s.issue.group) ls)

end Sys2Proof.Machine
end

