-- ==== Sys2Proof/Machine/Registers.lean ====
section
/-! DEFINITION. Reads and writes of system registers, whoever makes them, with the effect of each register: queue descriptors, append registers,
replay answers, event node requests, eviction requests (R46, R48 to R50, R66, R75, R178, R333, R364, R410, R425 to R428). -/

namespace Sys2Proof.Machine

/-! ### Masks (R426) -/

/-- The bits [hi:lo] of a register. -/
def maskBits (hi lo : Nat) : DWord := dw (2 ^ (hi + 1) - 2 ^ lo)
/-- The base register of a ring (R427). -/
def ringMask : DWord := maskBits 56 12 ||| maskBits 4 0

/-- The bits of a register without behaviour of its own that a write changes. -/
def regMask (n : Nat) : DWord :=
  if n < 0x200 then
    (match n % 8 with
     | 1 => maskBits 13 0
     | 5 => maskBits 31 0
     | 7 => maskBits 15 0
     | _ => maskBits 63 0)
  else if 0x4000 ≤ n ∧ n < 0x4400 then
    (match n % 16 with
     | 0 => maskBits 57 0
     | 1 => maskBits 57 0
     | 2 => maskBits 57 0
     | 3 => maskBits 57 0
     | 4 => maskBits 63 0
     | 5 => maskBits 63 0
     | 6 => maskBits 63 0
     | 7 => maskBits 63 0
     | 8 => maskBits 56 12
     | 9 => maskBits 3 0
     | 10 => maskBits 63 0
     | _ => 0)
  else if 0x5000 ≤ n ∧ n < 0x5080 then
    (match n % 64 with
     | 0 => maskBits 31 0
     | 1 => maskBits 24 16 ||| maskBits 8 0
     | 3 => ringMask
     | 4 => maskBits 63 32
     | 5 => ringMask
     | 6 => maskBits 31 0
     | _ => 0)
  else
    (match n with
     | 0x6010 => ringMask
     | 0x6011 => maskBits 31 0
     | 0x6012 => ringMask
     | 0x6013 => maskBits 63 32
     | 0x6014 => maskBits 31 0
     | _ => 0)

/-- Bits under a mask replaced. -/
def merge (mask old new : DWord) : DWord := (old &&& ~~~mask) ||| (new &&& mask)

/-- A register's masked write; an action of 3 in NEVCTL leaves that field (R178). -/
def plainWrite (s : State) (n : Nat) (v : DWord) : State :=
  let old := s.sysReg n
  let m := if 0x4000 ≤ n ∧ n < 0x4400 ∧ n % 16 < 4 ∧ bits v.toNat 57 56 = 3 then maskBits 55 0 else regMask n
  s.setSys n (merge m old v)

/-! ### The context table (R46, R268) -/

/-- A write of a context table word; clearing valid ends the context's pins. -/
def writeContext (s : State) (n : Nat) (v : DWord) : State :=
  let s1 := plainWrite s n v
  if n % 8 = 1 ∧ (s.sysReg n).getLsbD 12 ∧ ¬ v.getLsbD 12 then { s1 with pins := s1.pins.filter (fun p => decide (p.1 ≠ n / 8)) } else s1

/-! ### Queue descriptors (R48) -/

/-- Whether a queue's descriptor lets it be enabled. -/
def mayEnable (s : State) (q : Nat) : Bool :=
  decide (4 ≤ qOrder s q) && decide (qOrder s q ≤ 12) && decide (s.qdBits q 1 15 14 ≠ 3) && decide (4 ≤ s.qdBits q 5 3 0) &&
  decide (s.qdBits q 5 3 0 ≤ 12) && decide (s.qdBits q 0 11 0 = 0) && decide (s.qdBits q 3 11 0 = 0)

/-- The enable bit set to a value. -/
def setEnable (s : State) (q : Nat) (on : Bool) : State :=
  s.setQd q 1 ((s.qd q 1).toNat - b1 (qEnabled s q) * 2 ^ 13 + b1 on * 2 ^ 13)

/-- Every record between tail and head is discarded with a completion entry of status 0x11, in slot order. -/
def discardSlots (s : State) (q : Nat) : State :=
  let tail := qTail s q
  let n := qCount s q
  let key (i : Nat) : Nat := slotKey s q (tail + i)
  let keys := (List.range n).map key
  let s1 := (List.range n).foldl (fun s i => addCompletion s q (wd (tail + i)) 0x11 0 true) s
  setTail { s1 with feeds := s1.feeds.filter (fun p => !keys.contains p.1), systemFeed := s1.systemFeed.filter (fun k => !keys.contains k) } q
    (qHead s q)

/-- A write of QD1. -/
def writeQd1 (s : State) (q : Nat) (v : DWord) : State :=
  let on := v.getLsbD 13
  if qEnabled s q then (if on then s else discardSlots (setEnable s q false) q)
  else
    let s1 := s.setQd q 1 (bits v.toNat 21 14 * 2 ^ 14 + bits v.toNat 12 0)
    if on && mayEnable s1 q then setEnable s1 q true else s1

/-- A write of a queue descriptor word. -/
def writeQueue (s : State) (q w : Nat) (v : DWord) : State :=
  match w with
  | 0 => if qEnabled s q then s else s.setSys (0x1000 + 8 * q) v
  | 1 => writeQd1 s q v
  | 3 => if qEnabled s q then s else s.setSys (0x1000 + 8 * q + 3) v
  | 4 => s.setQd q 4 (s.qdBits q 4 63 32 * 2 ^ 32 + v.toNat % 2 ^ 32)
  | 5 => if qEnabled s q then s else s.setQd q 5 (v.toNat % 16)
  | _ => s

/-! ### The append register (R49, R50) -/

/-- A system core writes the address of a record to a queue's append register, which releases its earlier writes at system scope (R70, R266). DESIGN CHOICE, log 55: a record address that is not 64-byte aligned has
no outcome of its own, and the 128 bytes from that address are appended. -/
def appendRegister (s : State) (q : Nat) (record : DWord) : State :=
  let ctx := qOwner s q
  let x := appendSlot (deviceReads ⟨6, 0⟩ (farRelease s) ctx record 128) q .system ctx (deviceBytes s ctx record 128) none
  { x.1.setSys (0x3000 + q) (dw x.2) with replies := x.1.replies ++ [.append q x.2] }

/-! ### Event nodes (R75) -/

/-- A write to DGEVd places a request; while one is pending it is ignored. -/
def placeDgev (s : State) (die : Nat) (v : DWord) : State :=
  s.modDie die (fun d => if d.dgev.isSome then d else { d with dgev := some (v &&& maskBits 56 0) })

/-- The pending request of a die is carried out. -/
def carryDgev (s : State) (die : Nat) : State :=
  match (s.die die).dgev with
  | none => s
  | some v =>
    let ctx := bits v.toNat 5 0
    let addr := v &&& maskBits 56 6
    let r := match devicePlace s ctx addr with
      | some pa => signalNode (noteHome s (.phys pa)) ctx addr pa
      | none => (logDevice (walkerUnit die) s ctx addr, 1)
    r.1.modDie die (fun d => { d with dgev := none, dgevResult := r.2 })

/-! ### Eviction requests (R428) -/

/-- The resident team in a slot of a core. -/
def teamIn (s : State) (die core slot : Nat) : Option Nat :=
  (s.teams.find? (fun p => decide (p.2.die = die ∧ p.2.core = core ∧ p.2.slot = slot ∧ p.2.life ≠ .evicted))).map Prod.fst

/-- EVICTREQ with its fields and a status. -/
def evictStatus (s : State) (fields status : Nat) : State := s.setSys 0x6018 (dw (fields % 4096 + status * 65536))

def writeEvictreq (s : State) (v : DWord) : State :=
  let old := (s.sysReg 0x6018).toNat
  let f := bits v.toNat 11 0
  if bits old 17 16 = 1 then s
  else if v.getLsbD 12 then
    match teamIn s (bits f 8 8) (bits f 7 0) (bits f 11 9) with
    | none => evictStatus s f 2
    | some uid => evictStatus (s.modTeam uid (fun t => { t with evictAsked := true })) f 1
  else evictStatus s f (bits old 17 16)

/-- A request that its team can no longer meet, or that is done (R428). -/
def endEvictreq (s : State) (uid status : Nat) : State :=
  if (s.team uid).evictAsked then
    evictStatus (s.modTeam uid (fun t => { t with evictAsked := false })) (s.sysReg 0x6018).toNat status
  else s

/-! ### Replay answers (R410) -/

/-- Whether a team runs on a die in a context. -/
def onDie (s : State) (die ctx uid : Nat) : Bool := decide ((s.team uid).die = die ∧ (s.team uid).ctx = ctx)

/-- Threads held on a page, each with the trap of a failing answer. -/
def heldThreads (s : State) (die ctx : Nat) (page : DWord) : List (Nat × TrapInfo) :=
  s.threads.filterMap (fun p => match p.2.cond with
    | .blocked (.replay q f) => if pageBase q = page ∧ onDie s die ctx (teamOf p.1) then some (p.1, f) else none
    | _ => none)

/-- Threads of a list trap, those of one group at one PC together. -/
def trapTogether : Nat → State → List (Nat × TrapInfo) → State
  | 0, s, _ => s
  | _, s, [] => s
  | fuel + 1, s, (t, f) :: r =>
    let same (p : Nat × TrapInfo) : Bool :=
      decide (grpOf p.1 = grpOf t ∧ (s.thread p.1).pc = (s.thread t).pc ∧ (s.thread p.1).trapping = (s.thread t).trapping)
    trapTogether fuel (takeTrap s (grpOf t) ((t, f) :: r.filter same)) (r.filter (fun p => !same p))

/-- The matrix queue entry of a team that is held on a page. -/
def heldEntry (s : State) (die ctx : Nat) (page : DWord) : List (Nat × MEntry) :=
  s.teams.flatMap (fun p => if onDie s die ctx p.1 then
    (p.2.queue.filter (fun e => decide (e.held.map pageBase = some page))).map (fun e => (p.1, e)) else [])

/-- The row of a matrix queue entry that has failed for good waits for no slice any more (R410). -/
def dropReplay (s : State) (uid entry : Nat) : State :=
  s.modTeam uid (fun t => { t with replays := t.replays.filter (fun q => decide (q.entry ≠ entry)) })

/-- The answer of the system cores for a page; with fail 1 what it held fails for good (R410). -/
def answerReplay (s : State) (die : Nat) (v : DWord) : State :=
  let ctx := bits v.toNat 5 0
  let page := dw (bits v.toNat 56 16 * 65536)
  let ts := heldThreads s die ctx page
  let rs := (s.requests.filter (fun r => decide (r.die = die ∧ r.ctx = ctx ∧ r.held.map pageBase = some page))).map (fun r => r.id)
  let es := heldEntry s die ctx page
  let s1 := eachLane (fun s l => s.modThread l Thread.wake) s (ts.map Prod.fst)
  let s2 := { s1 with requests := s1.requests.map (fun r => if rs.contains r.id then { r with held := none } else r) }
  let s3 := es.foldl (fun s e => s.modEntry e.1 e.2.id (fun e => { e with held := none })) s2
  if !v.getLsbD 8 then s3
  else
    let s4 := trapTogether ts.length s3 ts
    let s5 := rs.foldl failRequest s4
    es.foldl (fun s e => kill (dropReplay s e.1 e.2.id) e.1 (recordOf s (burinOf e.1) 0x10
      { cause := 0x10, addr := (e.2.held).getD page, word := e.2.word, flags := mkFlags 1 .global true true false false false false true })) s5

/-! ### All registers -/

/-- What a read of a register returns (R426). -/
def readReg (s : State) (n : Nat) : DWord :=
  if 0x5000 ≤ n ∧ n < 0x5080 ∧ n % 64 = 2 then 0
  else if 0x5000 ≤ n ∧ n < 0x5080 ∧ n % 64 = 7 then
    let d := s.die ((n - 0x5000) / 64)
    dw (b1 d.dgev.isSome * 4 + d.dgevResult)
  else s.sysReg n

/-- A write of a register with its effect. -/
def writeReg (s : State) (n : Nat) (v : DWord) : State :=
  if n < 0x200 then writeContext s n v
  else if 0x1000 ≤ n ∧ n < 0x3000 then writeQueue s ((n - 0x1000) / 8) (n % 8) v
  else if 0x3000 ≤ n ∧ n < 0x3400 then appendRegister s (n - 0x3000) v
  else if 0x5000 ≤ n ∧ n < 0x5080 then
    let die := (n - 0x5000) / 64
    (match n % 64 with
     | 2 => answerReplay s die v
     | 3 => flushReports (plainWrite s n v) die
     | 4 => flushReports (plainWrite s n v) die
     | 7 => placeDgev s die v
     | _ => plainWrite s n v)
  else if n = 0x6018 then writeEvictreq s v
  else plainWrite s n v

end Sys2Proof.Machine
end

