-- ==== Sys2Proof/Machine/SystemWords.lean ====
section
/-! DEFINITION. The words of major 0x3E: TRAP, ERET, system registers, team system state, SYSCALL, WAITEV, TLBINV, HALT, PROOF (R421 to R435). -/

namespace Sys2Proof.Machine

/-! ### TRAP and ERET (R423, R424) -/

def execTrap (a : Code) (x : BitVec 6) (s : State) :=
  issued (.trap a x) s (trapLanes (fun s l => s.trapAt 0x21 (if isBurin l then s.gsrc l a else (s.src l a).setWidth 64) 0))
def execEret (s : State) := issued .eret s (fun s ls => returnTrap s s.issue.group ls)

/-! ### MOVSYS and MOVTSYS (R425 to R429) -/

/-- MOVSYS of a lane between its two fences. -/
def movsysLane (d a : Code) (s : State) (l : Nat) : State :=
  let s1 := fenceGroup s 2 3
  fenceGroup (s1.put64 .k l false d (readReg s1 (s.src l a).toNat)) 2 3
def movsysWLane (d a : Code) (s : State) (l : Nat) : State :=
  fenceGroup (writeReg (fenceGroup s 2 3) (s.src l a).toNat (s.src64 l d)) 2 3

def execMovsys (d a : Code) (s : State) := issued (.movsys d a) s (eachLane (movsysLane d a))
def execMovsysW (d a : Code) (s : State) := issued (.movsysW d a) s (eachLane (movsysWLane d a))
def execMovtsysSlim (a : Code) (s : State) :=
  issued (.movtsysSlim a) s (eachLane (fun s l => s.modTeam (teamOf l) (fun t => { t with slim := s.src l a })))
def execMovtsysRunclr (s : State) := issued .movtsysRunclr s (fun s _ => s.modTeam s.issueTeam (fun t => { t with runCount := 0 }))

/-! ### SYSCALL (R430, R431) -/

/-- The header of a team's syscall queue: its physical place, order, write index and read index. -/
def syscallHeader (s : State) (t : Team) : Option (Nat × Nat × Nat × Nat) :=
  let q := s.cx t.ctx 4
  if q = 0 ∨ q.toNat % 64 ≠ 0 then none
  else (checkNormal s t.coreId t.ctx q true true).map (fun h => (h, readNat s (.phys h) 4, readNat s (.phys (h + 4)) 4, readNat s (.phys (h + 8)) 4))

/-- Another blocked lane of the same issue stands below: its action is not complete (R421). -/
def lowerBlocked (s : State) (tid : Nat) (waits : Cond → Bool) : Bool :=
  s.threads.any (fun p => decide (grpOf p.1 = grpOf tid ∧ p.1 < tid ∧ p.2.stamp = (s.thread tid).stamp) && waits p.2.cond)

def Cond.inSyscall : Cond → Bool
  | .blocked (.room _ _ _ _ _) => true
  | .blocked (.reply _ _) => true
  | _ => false
def Cond.inWaitev : Cond → Bool
  | .blocked (.event _ _) => true
  | _ => false

/-- The parts of an entry that the device writes before its reply, and after it (R430). -/
def syscallFront (t : Team) (tid code : Nat) (pc : DWord) (args : List Word) : List Byte :=
  leBytes 1 code ++ leBytes 1 (laneOf tid) ++ leBytes 1 (groupIx (grpOf tid)) ++ leBytes 1 0 ++ leBytes 4 t.teamIx.toNat ++
    leBytes 8 pc.toNat ++ args.flatMap (fun w => leBytes 4 w.toNat)

/-- A lane waiting in SYSCALL acts when its turn has come: it traps, waits for room, or writes its entry. -/
def syscallTurn (s : State) (tid : Nat) : State :=
  match (s.thread tid).cond with
  | .blocked (.room d args code pc word) =>
    if lowerBlocked s tid Cond.inSyscall then s
    else
      let t := s.team (teamOf tid)
      let bad (x : DWord × Option Nat) : State := takeTrap (s.modThread tid (fun th => { th with cond := .ready, beneath := none, pc := pc })) (grpOf tid)
        [(tid, { syscallFault s tid word x with trapNo := s.runOf tid })]
      match syscallBad s t, syscallHeader s t with
      | some x, _ => bad x
      | none, none => bad (0, none)
      | none, some (h, k, w, r) =>
        if (w + 2 ^ 32 - r) % 2 ^ 32 = 2 ^ k then noteHomeReads s (.phys h) 64
        else
          match checkNormal s t.coreId t.ctx (s.cx t.ctx 4 + dw (64 + 64 * (w % 2 ^ k))) true true with
          | none => bad (0, none)
          | some e =>
            let s1 := deviceOut (deviceOut s (.phys e) (syscallFront t tid code pc args)) (.phys (e + 40)) (leBytes 4 0 ++ leBytes 20 0)
            let s2 := (deviceOut s1 (.phys (h + 4)) (leBytes 4 ((w + 1) % 2 ^ 32))).modThread tid (fun th =>
              { th with cond := .blocked (.reply d (s.cx t.ctx 4 + dw (64 + 64 * (w % 2 ^ k)))) })
            { s2 with irqs := s2.irqs ++ [.syscall t.ctx] }
  | _ => s

/-- SYSCALL of the issuing lanes: the first acts, the others wait for it in ascending order. -/
def syscallLanes (d a : Code) (x : BitVec 6) (s : State) (ls : List Nat) : State :=
  let s1 := invalidate (releaseGroup s s.issue.group 4) ls
  let s2 := eachLane (fun s l => s.modThread l (fun th =>
    th.blockOn (.blocked (.room d (quadSrc (s.pre l) a) x.toNat s.issue.pc s.issue.word)))) s1 ls
  eachLane syscallTurn s2 ls

/-- Where a blocked thread finds the header or entry that it waits on: under the translation that holds when it looks (R433). While the address does
not translate the thread waits on. DESIGN CHOICE, log 58. -/
def waitPlace (s : State) (tid : Nat) (va : DWord) : Option Loc := placeOf s (s.coreOf tid) (s.ctxOf tid) va

/-- The system cores' answer seen by a thread: status 1 in its entry (R431). Each look is a read of the entry at its home, whatever it finds (R259, R267),
and records a malformed page-table entry that it meets (R201). -/
def syscallWake (s : State) (tid : Nat) : State :=
  match (s.thread tid).cond with
  | .blocked (.reply d e) =>
    (match waitPlace s tid e with
     | none => logWalk s (s.coreOf tid) (s.ctxOf tid) e
     | some l =>
       let s0 := noteHomeReads s l 64
       if readNat s (l.plus 40) 4 = 1 then
         (acquire (s0.modThread tid Thread.wake) (teamOf tid) 4).put64 .k tid false d (dw (readNat s (l.plus 32) 8))
       else s0)
  | _ => syscallTurn s tid

def execSyscall (d a : Code) (x : BitVec 6) (s : State) := issued (.syscall d a x) s (syscallLanes d a x)

/-! ### WAITEV (R432) -/

/-- A lane waiting in WAITEV looks at the ring's header when its turn has come, and goes on when it holds entries. -/
def waitevTurn (s : State) (tid : Nat) : State :=
  match (s.thread tid).cond with
  | .blocked (.event d h) =>
    if lowerBlocked s tid Cond.inWaitev then s
    else
    (match waitPlace s tid h with
     | none => logWalk s (s.coreOf tid) (s.ctxOf tid) h
     | some l =>
       let w := readNat s (l.plus 4) 4
       let r := readNat s (l.plus 8) 4
       let s0 := noteHomeReads s l 64
       if w = r then s0 else (acquire (s0.modThread tid Thread.wake) (teamOf tid) 4).put .k tid false d (wd (w + 2 ^ 32 - r)))
  | _ => s

def waitevLanes (d a : Code) (s : State) (ls : List Nat) : State :=
  let s1 := eachLane (fun s l =>
    (noteTrans s l (s.src64 l a)).modThread l (fun th => th.blockOn (.blocked (.event d (s.src64 l a))))) (invalidate s ls) ls
  eachLane waitevTurn s1 ls

def execWaitev (d a : Code) (s : State) := issued (.waitev d a) s (waitevLanes d a)

/-! ### TLBINV (R433) -/

/-- Whether TLBINV of a kind drops a translation. -/
def dropsTrans (kind : Nat) (tag : BitVec 12) (va : Nat) (t : Trans) : Bool :=
  match kind with
  | 0 => decide (t.tag = tag) && decide (t.base ≤ va) && decide (va < t.base + t.size)
  | 1 => decide (t.tag = tag)
  | _ => true

/-- The translation of a page that a request has taken, as an entry under its context's tag. -/
def heldTrans (s : State) (ctx : Nat) (p : Nat × DWord × Nat) : Trans :=
  { tag := ctxTag s ctx, base := p.1 * 65536 / p.2.2 * p.2.2, size := p.2.2, leaf := p.2.1 }

/-- A pending walk as the translation that it may come to: of whatever size, it lies in one GiB. -/
def PendingWalk.reach (w : PendingWalk) : Trans := { tag := w.tag, base := 65536 * w.page / 2 ^ 30 * 2 ^ 30, size := 2 ^ 30, leaf := 0 }

/-- Translations dropped everywhere on the device, those of graph copies and of pending walks among them: a streamer request keeps its own (R207). -/
def dropAll (s : State) (gone : Trans → Bool) : State :=
  { s with
    requests := s.requests.map (fun r => if r.node.isSome then { r with pages := r.pages.filter (fun p => !gone (heldTrans s r.ctx p)) } else r)
    cores := (s.cores.map (fun p => (p.1, { p.2 with tlb := p.2.tlb.filter (fun t => !gone t) }))).filter (fun p => decide (p.2 ≠ ({} : Core)))
    dies := (s.dies.map (fun p => (p.1, { p.2 with tlb := p.2.tlb.filter (fun t => !gone t), walks := p.2.walks.filter (fun w => !gone w.reach) }))).filter (fun p => decide (p.2 ≠ ({} : Die))) }

/-- Every store queue of the device empties, the contributions of its ACCREDs are performed, and the loads through views read their rows to the end:
accesses that took a translation. -/
def drainDevice (s : State) : State :=
  let s1 := eachLane drainQueue s (s.groups.map Prod.fst)
  let s2 := applyContributions s1 ((s1.contributions.filter (fun c => c.entry.isNone)).map (fun c => c.id))
  finishViews s2 ((s2.loads.filter (fun l => l.parts.isSome)).map (fun l => l.id))

def tlbinvLane (d a : Code) (s : State) (l : Nat) : State :=
  let c := s.src l d
  dropAll (drainDevice (releaseGroup s s.issue.group 3)) (dropsTrans (bits c.toNat 13 12) (c.extractLsb' 0 12) (s.src64 l a).toNat)

def execTlbinv (d a : Code) (s : State) := issued (.tlbinv d a) s (eachLane (tlbinvLane d a))

/-! ### HALT (R434) -/

/-- The count of teams resident on a core. -/
def residents (s : State) (core : Nat) : Nat := (s.teams.filter (fun p => decide (p.2.coreId = core ∧ p.2.life ≠ .evicted))).length

def haltLane (on : Bool) (d a : Code) (s : State) (l : Nat) : State :=
  let c := (s.src l a).toNat
  if enabledUnit s ⟨1, c⟩ then (s.modCore c (fun k => { k with halted := on })).put .k l false d (wd (residents s c))
  else s.put .k l false d 0xFFFFFFFF

def execHalt (d a : Code) (s : State) := issued (.halt d a) s (eachLane (haltLane true d a))
def execHaltRes (d a : Code) (s : State) := issued (.haltRes d a) s (eachLane (haltLane false d a))

/-! ### PROOF (R419, R435) -/

/-- A kill that no thread's trap caused. -/
def killRecord (cause : Nat) : FaultRec := { cause := cause, lane := 0xFF, group := 0xFF, pc := 0, addr := 0, word := 0, flags := 0 }

/-- Pins as the sets of the slices that are left can hold them, 14 distinct lines in each: of more, those granted first stay, the others end (R268).
DESIGN CHOICE, log 79. -/
def capPins (s : State) : State :=
  let alike (a b : Nat) : Bool := decide (homeOf s a = homeOf s b) && sameSet2 s (homeOf s b) a b
  { s with pins := s.pins.foldl (fun kept p =>
      let set := ((kept.map Prod.snd).filter (fun l => alike l p.2)).eraseDups
      if set.contains p.2 || decide (set.length < 14) then kept ++ [p] else kept) [] }

/-- The context and TEAMIX that a record of an accumulator line names: those of the team that holds its pin (R329, R418). -/
def accHolder (s : State) (line : Nat) : Option Nat × Word :=
  match s.accPins.find? (fun x => decide (x.pa / 128 = line)) with
  | some x => (some (s.team x.team).ctx, (s.team x.team).teamIx)
  | none => (none, 0)

/-- A resident accumulator line leaves a retired slice: written back to its page and record where it can be read; else it is poisoned first, which is
recorded (R332, R419). -/
def retireAcc (u : UnitId) (lost : Bool) (s : State) (line : Nat) : State :=
  if !lost then accEvict s line
  else
    let s1 := { s with acc := mmod s.acc line (fun l => { l with poisoned := true }) }
    accEvict (logError s1 9 u (128 * line) (accHolder s line).1 (accHolder s line).2) line

/-- A slice retired: its lines are written back, the accumulator lines resident there too, and its addresses pass to the other slices of its die, whose sets
keep at most 14 pins. Which of its M and O lines and accumulator lines can be read no longer, and are poisoned, is a free value (log 29). -/
def retireSlice (s s1 : State) (die slice : Nat) : State :=
  let mine (line : Nat) : Bool := decide (sliceOf s die line = some slice)
  let lost (p : Nat × Dir) : Bool :=
    mine p.1 && decide (p.2.at die = .m ∨ p.2.at die = .o) && (Config.freeNat s.freeCount).testBit p.1
  let s2 := s1.eachDir (fun line d => if mine line then d.evictDie die else d)
  let s3 := poisonGranules { s2 with freeCount := s.freeCount + 1 } (((s.dir.filter lost).map Prod.fst).flatMap lineGranules)
  let held := (s.acc.map Prod.fst).filter (fun line => decide (homeOf s line = die) && mine line)
  capPins (held.foldl (fun t line => retireAcc ⟨2, die * 256 + slice⟩ ((Config.freeNat s.freeCount).testBit line) t line) s3)

/-- A unit retired: its inventory bit, its record, and what it held (R419). DESIGN CHOICE, log 86: an engine, a system core or a port has no inventory bit, and
goes on as before but for the record. -/
def retireUnit (s : State) (u : UnitId) : State :=
  let s1 := logError (clearUnit s u) 7 u 0 none 0
  match u.cls with
  | 1 => eachLane (fun s uid => kill s uid (killRecord 0x19)) s1
      ((s1.teams.filter (fun p => decide (p.2.coreId = u.number ∧ p.2.life ≠ .evicted))).map Prod.fst)
  | 2 => retireSlice s s1 (u.number / 256) (u.number % 256)
  | 3 => { s1 with deadChannels := sadd s1.deadChannels u.number }
  | _ => s1

/-- A proof run ends: its record, and the unit's retirement when it failed. -/
def endProof (s : State) (u : UnitId) (pass : Bool) : State :=
  let s1 := { s with proofs := s.proofs.filter (fun v => decide (v ≠ u)) }
  if pass then logError s1 6 u 0 none 0 else retireUnit s1 u

/-- PROOF of a lane: whether a run passes is a free value. -/
def proofLane (d a : Code) (s : State) (l : Nat) : State :=
  let v := (s.src64 l a).toNat
  let u : UnitId := ⟨bits v 47 32, bits v 31 0⟩
  if u.cls < 1 ∨ 5 < u.cls ∨ ¬ enabledUnit s u then s.put .k l false d 3
  else if u.cls = 1 ∧ (¬ (s.core u.number).halted ∨ residents s u.number ≠ 0) then s.put .k l false d 2
  else
    let pass := decide (Config.freeNat s.freeCount % 2 = 0)
    (endProof { s with freeCount := s.freeCount + 1 } u pass).put .k l false d (flagWord (!pass))

def execProof (d a : Code) (s : State) := issued (.proof d a) s (eachLane (proofLane d a))

/-! ### Words that the map does not define (R90) -/

/-- An undefined word traps each issuing thread with cause 0x01. -/
def execIllegalInstruction (w : Word) (s : State) := issued (.illegalInstruction w) s (trapLanes (fun s _ => s.plainTrap 0x01))

end Sys2Proof.Machine
end

