-- ==== Sys2Proof/Machine/Fetch.lean ====
section
/-! DEFINITION. Fetching a chain for a thread: the page, the line check, the words of the chain and its structure (steps 1 and 2 of R86, R77 to
R85), then steps 3 to 7 made step by step for every word (R86). -/

namespace Sys2Proof.Machine

/-- A chain as fetched: the physical address of its line, the words with their addresses, the address after it. -/
structure Chain where
  pa : Nat
  words : List (DWord × Word)
  next : DWord
  deriving DecidableEq, Repr

def lineBase (a : DWord) : DWord := a &&& ~~~0x7F#64

/-! ### The page and the bytes of a line (R78, R79, R248) -/

/-- A failing check of a fetch. -/
def fetchInfo (cause : Nat) (addr : DWord) (word : Word) (win far : Bool) (bad : Option Nat) : TrapInfo :=
  { cause := cause, addr := addr, word := word, flags := mkFlags 0 .fetch false false false false win far false, bad := bad }

/-- The physical address of the word at a thread's PC, or what stops the fetch. DESIGN CHOICE, log 54: a PC that no transfer word has checked, such
as one that ERET restored, is checked for cause 0x16, then 0x06, before its page is. -/
def fetchPage (s : State) (tid : Nat) : Except Verdict Nat :=
  let t := s.team (teamOf tid)
  let pc := (s.thread tid).pc
  if pc.toNat % 4 ≠ 0 then .error (.trap (fetchInfo 0x16 pc 0 false false none))
  else if badSlot pc then .error (.trap (fetchInfo 0x06 pc 0 false false none))
  else
    match checkPage s t.coreId t.ctx (teamOf tid) pc 4 .fetch true false with
    | .at (.phys p) _ _ => .ok p
    | .at (.scratch _ _) _ _ => .error (.trap (fetchInfo 0x11 pc 0 true false none))
    | .view e => .error (.trap (fetchInfo 0x11 pc 0 false (leafFar e) none))
    | .hold p => .error (.hold p 1 (fetchInfo 0x10 pc 0 false false none))
    | .trap c win far bad => .error (.trap (fetchInfo c pc 0 win far bad))

/-- The word at a slot of a physical line that a thread holds fetched ahead, or its core's instruction cache holds (R249). -/
def heldWord (s : State) (tid line slot : Nat) : Option Word :=
  (mfind (s.thread tid).ahead (line * 32 + slot)).or ((mfind (s.core (s.coreOf tid)).icache line).bind (fun ws => mfind ws slot))

/-- The word that a thread's fetch of a slot returns: each for itself as the thread or the core holds it, else as its home does (R248, R249). -/
def fetchedWord (s : State) (tid line slot : Nat) : Word := (heldWord s tid line slot).getD (homeWord s line slot)

/-- Poison met by a fetch of a slot: of a word that comes from memory (R273, R274). -/
def fetchPoison (s : State) (tid line slot : Nat) : Bool :=
  (heldWord s tid line slot).isNone && poisonAt s (.phys (line * 128 + 4 * slot))

/-! ### The words of a chain (R81) -/

/-- The words from a slot on, as far as chain bits tie them within the packet. -/
def chainFrom (s : State) (tid line : Nat) (base : DWord) : Nat → Nat → List (DWord × Word)
  | 0, _ => []
  | fuel + 1, slot =>
    let w := fetchedWord s tid line slot
    (base + dw (4 * slot), w) :: (if chainBit w ∧ slot % 3 ≠ 2 then chainFrom s tid line base fuel (slot + 1) else [])

/-- The chain at a thread's PC; the burin core takes one word (R85). -/
def chainAt (s : State) (tid : Nat) : Except Verdict Chain :=
  (fetchPage s tid).map (fun p =>
    let pc := (s.thread tid).pc
    let ws := chainFrom s tid (p / 128) (lineBase pc) (if isBurin tid then 1 else 3) (bits pc.toNat 6 2)
    { pa := p / 128 * 128, words := ws, next := nextAddr ((ws.getLast?.map Prod.fst).getD pc) })

/-! ### The line check and poison (R78, R274) -/

/-- The check of a line that a thread enters. DESIGN CHOICE, log 95: a thread enters a line each time that it comes to it from another line, and the line in
which a FETCHB stands again after the FETCHB. -/
def lineVerdict (s : State) (tid : Nat) (c : Chain) : Verdict :=
  let base := lineBase (s.thread tid).pc
  let line := c.pa / 128
  let tag := fetchedWord s tid line 30
  if (s.thread tid).line = some base then .pass
  else if fetchPoison s tid line 30 || fetchPoison s tid line 31 then .trap (fetchInfo 0x19 base 0 false false none)
  else if tag ≠ revision ∨ fetchedWord s tid line 31 ≠ 0 then .trap (fetchInfo 0x05 base tag false false none)
  else .pass

/-- A poisoned granule under a word of the chain. -/
def poisonVerdict (s : State) (tid : Nat) (c : Chain) : Verdict :=
  match c.words.find? (fun p => fetchPoison s tid (c.pa / 128) (p.1.toNat % 128 / 4)) with
  | some p => .trap (fetchInfo 0x19 p.1 p.2 false (pageBits s (s.coreOf tid) (s.ctxOf tid) (teamOf tid) p.1).2 none)
  | none => .pass

/-! ### Chain structure (R83 to R85) -/

/-- The pipe of a major opcode; an illegal one has none. -/
def pipeOfMajor (m : Nat) : Option Pipe :=
  if (1 ≤ m ∧ m ≤ 5) ∨ m = 7 ∨ m = 8 ∨ (0x10 ≤ m ∧ m ≤ 0x17) then some .i
  else if m = 0x20 ∨ m = 0x21 ∨ (0x23 ≤ m ∧ m ≤ 0x25) then some .f
  else if m = 6 ∨ m = 0x22 ∨ m = 0x28 then some .x
  else if 0x30 ≤ m ∧ m ≤ 0x3D then some .m
  else if (0x18 ≤ m ∧ m ≤ 0x1C) ∨ m = 0x3E then some .k
  else none

def wordPipe (w : Word) : Option Pipe := pipeOfMajor (major w).toNat

/-- The first word that shares its pipe with a later one, or is a K-pipe word before the last. -/
def sharesPipe : List Word → Option Word
  | [] => none
  | w :: ws =>
    if ((wordPipe w).isSome && ws.any (fun v => decide (wordPipe v = wordPipe w))) ||
        (decide (wordPipe w = some .k) && !ws.isEmpty) then some w
    else sharesPipe ws

/-- The first word that writes a register which an earlier one writes. -/
def rewrites : List Nat → List Word → Option Word
  | _, [] => none
  | rs, w :: ws =>
    let mine := writtenRegs (decodeWord w)
    if mine.any (fun r => rs.contains r) then some w else rewrites (mine ++ rs) ws

/-- The word at which a chain is broken, if it is. DESIGN CHOICE, log 82: a last word with C 1 comes before the other breaks, then the first of two words that
share a pipe, then the second of two that write one register. -/
def brokenWord (burin : Bool) (ws : List Word) : Option Word :=
  match ws.getLast? with
  | none => none
  | some last =>
    if chainBit last then some last
    else if burin then none
    else (sharesPipe ws).or (rewrites [] ws)

def structVerdict (tid : Nat) (c : Chain) : Verdict :=
  match brokenWord (isBurin tid) (c.words.map Prod.snd) with
  | some w => .trap { cause := 0x03, addr := 0, word := w, flags := 0 }
  | none => .pass

/-- Steps 1 and 2 for a thread whose chain has been fetched. -/
def fetchVerdict (s : State) (tid : Nat) (c : Chain) : Verdict :=
  ((lineVerdict s tid c).andThen (poisonVerdict s tid c)).andThen (structVerdict tid c)

/-! ### Steps 3 to 7 -/

/-- The steps with the words, in the order in which the checks are made. -/
def checkOrder (ws : List (DWord × Word)) : List (Nat × DWord × Word) :=
  [3, 4, 5, 6, 7].flatMap (fun k => ws.map (fun p => (k, p.1, p.2)))

/-- The word that stands as the one being issued. -/
def State.atWord (s : State) (a : DWord) (w : Word) : State := { s with issue := { s.issue with word := w, addr := a } }

/-- What a word that is stopped in step 7 has read of a block table before, as the directories see it (R259, R366). -/
def failedReads (k : Nat) (i : Instr) (s : State) (tid : Nat) : State :=
  match k, i with
  | 7, .ldg _ _ a _ sz off =>
    let va := memAddr s tid a sz off
    (match checkAccess s (s.coreOf tid) (s.ctxOf tid) (teamOf tid) va (szBytes sz) .load with
     | .view _ => noteView s tid va (szBytes sz)
     | _ => s)
  | 7, .gaWalk _ a _ => noteWalk s tid (s.src tid a).toNat
  | _, _ => s

/-- The checks made in order: each removes from the issuing lanes those that fail it. -/
def runChecks : State → List (Nat × DWord × Word) → State × List (Nat × Verdict)
  | s, [] => (s, [])
  | s, (k, a, w) :: r =>
    let s1 := s.atWord a w
    let vs := s1.issue.lanes.map (fun l => (l, checkStep k s1 l (decodeWord w)))
    let good := (vs.filter (fun p => decide (p.2 = .pass))).map Prod.fst
    let bad := vs.filter (fun p => decide (p.2 ≠ .pass))
    let s2 := eachLane (failedReads k (decodeWord w)) s1 (bad.map Prod.fst)
    let x := runChecks { s2 with issue := { s2.issue with lanes := good } } r
    (x.1, bad ++ x.2)

/-- Lanes whose fetch is held at a page (requester 4 of R409), or traps. -/
def stopFetch (s : State) (gid : Nat) (vs : List (Nat × Verdict)) : State :=
  let s1 := vs.foldl (fun s p => match p.2 with
    | .hold page acc f => holdThread s p.1 page 4 acc f
    | _ => s) s
  takeTrap s1 gid (vs.filterMap (fun p => match p.2 with
    | .trap f => some (p.1, { f with trapNo := s.runOf p.1 })
    | _ => none))

end Sys2Proof.Machine
end

