-- ==== Sys2Proof/Machine/Schedule.lean ====
section
/-! DEFINITION. The scheduler: issue sets, what keeps a set from issuing, selection, the active and pending groups of each quadrant
(R101 to R110, R291, R302, R315, R341, R350, R384, R433). -/

namespace Sys2Proof.Machine

/-! ### Data that a chain waits for (R102, R108) -/

/-- The registers and latches that an outstanding load of a thread will write, latch 3 as 203. -/
def owed (s : State) (tid : Nat) : List Nat :=
  ((loadsOf s [tid]).filter (fun l => !l.n && decide (l.d.toNat < 120))).flatMap
    (fun l => (List.range (if isBurin tid then 1 else (szWidth l.sz).count)).map (· + l.d.toNat)) ++
  (if (s.thread tid).q3.isSome then [203] else [])

/-- A chain names, among the registers that a function gives for each word, one that a load still owes. -/
def namesOwed (s : State) (lanes : List Nat) (f : Instr → List Nat) (ws : List Word) : Bool :=
  lanes.any (fun l => let o := owed s l; ws.any (fun w => (f (decodeWord w)).any (fun r => o.contains r)))

/-- Whether a fault is to be delivered to a thread at its boundary: not while its chain waits for room (R401). -/
def Thread.faultComes (t : Thread) : Bool := t.dueFault.isSome && !t.roomHeld

/-- A thread is blocked by a load or an atomic: its data has not returned and the chain at its PC reads the destination (R100, R108). Its issue set
goes on without it. -/
def awaitsData (s : State) (tid : Nat) : Bool :=
  !(owed s tid).isEmpty && !(s.thread tid).faultComes &&
  (match chainAt s tid with
   | .ok c => namesOwed s [tid] readRegs (c.words.map Prod.snd)
   | .error _ => false)

/-! ### Issue sets (R101) -/

/-- The threads of a group that neither are parked nor wait for an engine or a barrier, ascending. -/
def condReady (s : State) (gid : Nat) : List (Nat × Thread) :=
  s.threads.filter (fun p => decide (grpOf p.1 = gid) && decide (p.2.cond = .ready))

/-- The threads of a group that are neither parked nor blocked, ascending. -/
def readyThreads (s : State) (gid : Nat) : List (Nat × Thread) := (condReady s gid).filter (fun p => !awaitsData s p.1)

/-- The threads of a group that a load or an atomic blocks. -/
def dataBlocked (s : State) (gid : Nat) : List Nat := ((condReady s gid).map Prod.fst).filter (awaitsData s)

/-- The issue sets of a list of ready threads of one group, each by its lanes. -/
def setsOf : Nat → List (Nat × Thread) → List (List Nat)
  | 0, _ => []
  | _, [] => []
  | fuel + 1, p :: ps =>
    (p.1 :: (ps.filter (fun q => sameSet p.2 q.2)).map Prod.fst) :: setsOf fuel (ps.filter (fun q => !sameSet p.2 q.2))

/-- Issue sets of a group. -/
def issueSets (s : State) (gid : Nat) : List (List Nat) := let ts := readyThreads s gid; setsOf ts.length ts

/-! ### What a set waits for -/

/-- The chain reads or writes what a load still owes (R102). -/
def interlocked (s : State) (lanes : List Nat) (ws : List Word) : Bool := namesOwed s lanes touched ws

/-- Whether engine work under a translation that a TLBINV names is under way: a page that a matrix queue entry took, whether or not any cache still holds
its translation, and unless it took it for a line that its team still pins: an armed run keeps its translation and is not waited for (R207, R433). -/
def tlbinvWaits (s : State) (c : Word) (va : Nat) : Bool :=
  let kind := bits c.toNat 13 12
  let tag := c.extractLsb' 0 12
  s.teams.any (fun p => (decide (kind = 2) || decide (ctxTag s p.2.ctx = tag)) && p.2.queue.any (fun e =>
    e.took.any (fun x => !x.1.any (fun line => s.accPins.any (fun q => decide (q.team = p.1 ∧ q.line = line))) &&
      (decide (kind ≠ 0) || (decide (x.2.1 ≤ va) && decide (va < x.2.1 + x.2.2))))))

/-- A streamer word that waits for places (R291, R389). -/
def roomWaits (s : State) (lanes : List Nat) (i : Instr) : Bool :=
  let core := s.coreOf (lanes.headD 0)
  match i with
  | .cpIssue _ _ _ => !streamerRoom s core lanes.length
  | .cpMcast _ _ _ => !streamerRoom s core lanes.length
  | .gaWalk _ _ _ => !nearRoom s core lanes.length
  | _ => false

/-- A request of a word to a unit under a proof run, or to a page whose re-pack is pending, waits at its source: a load, and a word that lets its
group's queue leave (R204, R419, log 60). -/
def testWaits (s : State) (lanes : List Nat) (i : Instr) : Bool :=
  anyHeld s && mayBlock i && lanes.any (fun l =>
    (s.group (grpOf l)).queue.any (fun e => placeHeld s e.loc) ||
    (match i with
     | .ldg _ _ a _ sz off => placeHeld s (accessPlace s l (memAddr s l a sz off) (szBytes sz) .load).1
     | _ => false))

/-- A word that waits before it issues, whatever its class: for room in the streamer (R291), in the matrix queue or for its end (R315, R350),
for the uses of a view (R384), for copies to and from a window (R219), for engine work under a translation (R433). -/
def wordWaits (s : State) (lanes : List Nat) (i : Instr) : Bool :=
  roomWaits s lanes i || testWaits s lanes i ||
  let tid := lanes.headD 0
  let uid := teamOf tid
  let queue := (s.team uid).queue
  let deep : Bool := decide (8 ≤ queue.length)
  match i with
  | .mxLoad _ => deep
  | .mxSwap => deep
  | .mxStream _ => deep
  | .mxAdapt _ => deep
  | .accArm _ _ => deep
  | .accDrain _ _ => deep
  | .accClear _ _ => deep
  | .mxWait => !queue.isEmpty
  | .accStat _ _ => !queue.isEmpty
  | .vwRefresh _ k =>
    (match mfind (s.team uid).views k.toNat with
     | some v => bindingUsed s v.binding
     | none => false)
  | .shLeave => leaveWaits s uid
  | .tlbinv d a => lanes.any (fun l => tlbinvWaits s (s.src l d) (s.src64 l a).toNat)
  | _ => false

/-- How a set stands: it can issue, or it waits, by a may-block word or not (R108). -/
inductive Standing where
  | canIssue
  | waits (mayBlock : Bool)
  deriving DecidableEq, Repr

/-- Whether a fault is to be delivered to a thread of a set. -/
def faultDue (s : State) (lanes : List Nat) : Bool := lanes.any (fun l => (s.thread l).faultComes)

def standing (s : State) (lanes : List Nat) : Standing :=
  match lanes with
  | [] => .waits false
  | l :: _ =>
    if faultDue s lanes then .canIssue
    else
      match chainAt s l with
      | .error _ => .canIssue
      | .ok c =>
        let ws := c.words.map Prod.snd
        if interlocked s lanes ws then .waits (namesOwed s lanes readRegs ws)
        else
          match ws.find? (fun w => wordWaits s lanes (decodeWord w)) with
          | some w => .waits (mayBlock (decodeWord w))
          | none => .canIssue

/-- Issue sets of a group that can issue. -/
def readySets (s : State) (gid : Nat) : List (List Nat) :=
  (issueSets s gid).filter (fun ls => decide (standing s ls = .canIssue))

/-! ### Groups of a quadrant -/

/-- The core and quadrant of a group (R7). -/
def quadOf (s : State) (gid : Nat) : Nat × Nat := ((s.team (gid / 64)).coreId, groupIx gid % 4)

/-- The vector groups of running teams in a quadrant. -/
def quadGroups (s : State) (core quad : Nat) : List Nat :=
  (s.groups.map Prod.fst).filter (fun g =>
    decide (groupIx g ≠ 32) && decide ((s.team (g / 64)).life = .running) && decide (quadOf s g = (core, quad)))

def activeGroups (s : State) (core quad : Nat) : List Nat := (quadGroups s core quad).filter (fun g => (s.group g).active)
def pendingGroups (s : State) (core quad : Nat) : List Nat :=
  (quadGroups s core quad).filter (fun g => !(s.group g).active && groupAlive s g)

/-! ### Selection (R103) -/

/-- The keys of a set in order: stamp, rank, residence of its group, PC. -/
def setKey (s : State) (ls : List Nat) : List Nat :=
  let t := s.thread (ls.headD 0)
  [(ls.map (fun l => (s.thread l).stamp)).foldl min t.stamp, (ls.map (fun l => (s.thread l).rank)).foldl min t.rank,
   (s.group (grpOf (ls.headD 0))).born, t.pc.toNat]

/-- Lexicographic order of keys. -/
def keyLess : List Nat → List Nat → Bool
  | a :: as, b :: bs => decide (a < b) || (decide (a = b) && keyLess as bs)
  | _, _ => false

/-- The first of a list of sets by the keys. -/
def leastSet (s : State) : List (List Nat) → Option (List Nat)
  | [] => none
  | ls :: r =>
    match leastSet s r with
    | none => some ls
    | some ms => if keyLess (setKey s ms) (setKey s ls) then some ms else some ls

/-- The set that a quadrant selects. -/
def selectSet (s : State) (core quad : Nat) : Option (List Nat) := leastSet s ((activeGroups s core quad).flatMap (readySets s))

/-- The burin core's thread of a core, when it can issue. -/
def selectBurin (s : State) (core : Nat) : Option (List Nat) :=
  ((s.teams.find? (fun p => decide (p.2.coreId = core ∧ p.2.life = .running ∧ p.2.kern.burin ≠ 0))).map (fun p => [burinOf p.1])).filter
    (fun ls => decide ((s.thread (ls.headD 0)).cond = .ready) && decide (standing s ls = .canIssue))

/-! ### Active and pending (R107, R109) -/

/-- The pending group of a quadrant that has been ready longest. -/
def longestReady (s : State) (core quad : Nat) : Option Nat :=
  ((pendingGroups s core quad).filter (fun g => !(readySets s g).isEmpty)).foldl (fun b g =>
    match b with
    | none => some g
    | some h =>
      let k (g : Nat) : List Nat := [((s.group g).readyAt).getD s.clock, (s.group g).born]
      if keyLess (k g) (k h) then some g else some h) none

/-- Since when each pending group of a quadrant has been ready. -/
def noteReady (s : State) (core quad : Nat) : State :=
  (pendingGroups s core quad).foldl (fun s g =>
    s.modGroup g (fun x => { x with readyAt := if (readySets s g).isEmpty then none else some (x.readyAt.getD s.clock) })) s

def activate (s : State) (gid : Nat) : State := s.modGroup gid (fun x => { x with active := true, readyAt := none })

/-- Free active places taken by ready pending groups, `fuel` at most. -/
def fillPlaces : Nat → State → Nat → Nat → State
  | 0, s, _, _ => s
  | fuel + 1, s, core, quad =>
    if 8 ≤ (activeGroups s core quad).length then s
    else
      match longestReady s core quad with
      | none => s
      | some g => fillPlaces fuel (activate s g) core quad

/-- Pending groups of a quadrant noted and free places filled. -/
def settleQuad (s : State) (core quad : Nat) : State :=
  if (pendingGroups s core quad).isEmpty then s else fillPlaces 8 (noteReady s core quad) core quad

/-- The cores with running teams. -/
def busyCores (s : State) : List Nat :=
  (s.teams.filter (fun p => decide (p.2.life = .running))).foldl (fun l p => sadd l p.2.coreId) []

/-- The threads of a set that a streamer word holds before issue; a fault that was there first comes before it (R291, R401). -/
def roomHeldLanes (s : State) (ls : List Nat) : List Nat :=
  if faultDue s ls then []
  else
    match chainAt s (ls.headD 0) with
    | .error _ => []
    | .ok c =>
      let ws := c.words.map Prod.snd
      if !interlocked s ls ws && ws.any (fun w => roomWaits s ls (decodeWord w)) then ls else []

/-- Threads that wait for room in the streamer from now on: with no request under way there is room. -/
def noteRoom (s : State) : State :=
  if s.requests.isEmpty then s
  else
    eachLane (fun s l => s.modThread l (fun t => { t with roomHeld := true })) s
      ((s.groups.map Prod.fst).flatMap (fun g => (issueSets s g).flatMap (roomHeldLanes s)))

/-- Sets that stand together merge, sets that wait for room are held, and free places are taken: what follows every step. -/
def settleSchedule (s : State) : State :=
  let s1 := noteRoom ((s.groups.map Prod.fst).foldl (fun s g => if groupIx g = 32 then s else mergeSets s g (dataBlocked s g)) s)
  (busyCores s1).foldl (fun s c => [0, 1, 2, 3].foldl (fun s q => settleQuad s c q) s) s1

/-- Whether a thread is parked, or blocked by a may-block word. -/
def blockedMay (t : Thread) : Bool :=
  match t.cond with
  | .ready => false
  | .parked _ => true
  | .blocked (.replay _ f) => mayBlock (decodeWord f.word)
  | .blocked _ => true
  | .exited => true

/-- Every live thread of a group is parked or blocked by a may-block word, and none can issue: each set that is left waits before a may-block word. -/
def allBlocked (s : State) (gid : Nat) : Bool :=
  (s.threads.filter (fun p => decide (grpOf p.1 = gid))).all (fun p => decide (p.2.cond = .ready) || blockedMay p.2) &&
  (issueSets s gid).all (fun ls => decide (standing s ls = .waits true))

/-- The exchange after a group's thread has issued a may-block word. -/
def exchange (s : State) (gid : Nat) (yielded : Bool) : State :=
  let q := quadOf s gid
  if !(s.group gid).active || !groupAlive s gid then s
  else
    let s1 := noteReady s q.1 q.2
    match longestReady s1 q.1 q.2 with
    | none => s1
    | some h =>
      if yielded || allBlocked s1 gid then
        let s2 := (activate s1 h).modGroup gid (fun x => { x with active := false })
        s2.modGroup gid (fun x => { x with readyAt := if (readySets s2 gid).isEmpty then none else some s2.clock })
      else s1

end Sys2Proof.Machine
end

