-- ==== Sys2Proof/Machine/Placement.lean ====
section
/-! DEFINITION. Placement: the pools of each core and a team's claims, joint budgets, team areas, validation of a launch, rectangles, targets, and the
start of a cluster (R20, R34, R39 to R45, R51 to R67, R107, R249, R314). -/

namespace Sys2Proof.Machine

/-! ### Claims and pools (R57) -/

/-- Groups of a team in a quadrant. -/
def groupsIn (g q : Nat) : Nat := if q < g then ceilDiv (g - q) 4 else 0

/-- The claims of one team in the order of the pools: team slots, group slots of four quadrants, register bytes of four quadrants, scratchpad
units, barriers, views, burin core. -/
def claims (k : Kernel) : List Nat :=
  [1] ++ [0, 1, 2, 3].map (groupsIn k.groups) ++ [0, 1, 2, 3].map (fun q => groupsIn k.groups q * (128 * k.regs)) ++
    [ceilDiv k.scratch 4096, k.phases, k.views, b1 (decide (k.burin ≠ 0))]

def pools : List Nat := [8, 32, 32, 32, 32, 262144, 262144, 262144, 262144, 128, 64, 16, 1]

def addClaims (a b : List Nat) : List Nat := (a.zip b).map (fun p => p.1 + p.2)

/-- The claims that a list of kernels takes together. -/
def totalClaims (ks : List Kernel) : List Nat := ks.foldl (fun a k => addClaims a (claims k)) (pools.map (fun _ => 0))

/-- Who holds a target: the next cluster of a grid, or the teams that are to be placed again with an evicted team (R63, R417). -/
inductive Owner where
  | grid (gid : Nat)
  | team (uid : Nat)
  deriving DecidableEq, Repr

/-- A target with its owner, the grid whose teams it is for, and their kernel and shape. -/
structure Aim where
  owner : Owner
  gid : Nat
  prio : Nat
  kern : Kernel
  w : Nat
  h : Nat
  target : Target
  deriving DecidableEq, Repr

/-- The shape of the rectangle on which teams are placed again: that of a joined team's cluster, else one core (R417). -/
def Team.shape (t : Team) : Nat × Nat := if t.joined then (t.w, t.h) else (1, 1)

/-- Every target. DESIGN CHOICE, log 94: that of a grid which is not served, its queue disabled or its context no longer valid, stands among them, is held
against others and grows older. -/
def aims (s : State) : List Aim :=
  s.grids.filterMap (fun p => p.2.target.map (fun t =>
    { owner := .grid p.1, gid := p.1, prio := p.2.prio, kern := p.2.kern, w := p.2.w, h := p.2.h, target := t })) ++
  s.teams.filterMap (fun p => p.2.target.map (fun t =>
    { owner := .team p.1, gid := p.2.grid, prio := ((mfind s.grids p.2.grid).map Grid.prio).getD 0, kern := p.2.kern, w := p.2.shape.1,
      h := p.2.shape.2, target := t }))

/-- The targets that hold a reservation on a core. -/
def reservers (s : State) (core : Nat) : List Aim :=
  (aims s).filter (fun a => decide (a.target.die = core / 256) && a.target.reserved.contains (core % 256))

/-- What the pools of a core still hold for the owner of a target: its own reservation counts as free to it. -/
def freePools (s : State) (core : Nat) (own : Owner) : List Nat :=
  let held := ((s.teams.filter (fun p => decide (p.2.coreId = core ∧ p.2.life ≠ .evicted))).map (fun p => p.2.kern)) ++
    ((reservers s core).filter (fun a => decide (a.owner ≠ own))).map Aim.kern
  ((pools.zip (totalClaims held))).map (fun p => p.1 - p.2)

def fits (need free : List Nat) : Bool := (need.zip free).all (fun p => decide (p.1 ≤ p.2))

/-- Whether taking `n1` leaves what a cluster that needs `n2` still has to reserve (R65). -/
def leaves (n1 n2 free : List Nat) : Bool :=
  (n1.zip (n2.zip free)).all (fun p => decide (p.1 = 0) || decide (p.2.1 = 0) || decide (p.1 + p.2.1 ≤ p.2.2))

/-- A core that may take teams: enabled and not halted (R20, R434). -/
def coreOpen (s : State) (core : Nat) : Bool := enabledUnit s ⟨1, core⟩ && !(s.core core).halted

/-! ### Rectangles (R60) -/

/-- The CORE values of a rectangle in CLRANK order. -/
def rect (x0 y0 w h : Nat) : List Nat := (List.range h).flatMap (fun y => (List.range w).map (fun x => 12 * (y0 + y) + (x0 + x)))
/-- Every rectangle of a shape, by rising corner. -/
def rects (w h : Nat) : List (Nat × Nat) := (List.range (13 - h)).flatMap (fun y => (List.range (13 - w)).map (fun x => (x, y)))

/-- Whether every core of a rectangle is enabled: what a launch is refused for want of (R45), whatever is halted. -/
def enabledRect (s : State) (die : Nat) (cs : List Nat) : Bool := cs.all (fun c => enabledUnit s ⟨1, die * 256 + c⟩)
/-- A rectangle is placeable when its cores are enabled and none is halted (R20, R60, R434). -/
def placeable (s : State) (die : Nat) (cs : List Nat) : Bool := cs.all (fun c => coreOpen s (die * 256 + c))

/-- Whether an affinity allows a die (R48). -/
def affine (a die : Nat) : Bool := decide (a = 0) || decide (a = die + 1)

/-- A fixed target of another grid that covers a core and has not reserved it (R65). -/
def fixedOn (s : State) (core gid : Nat) : List Aim :=
  (aims s).filter (fun a => decide (a.gid ≠ gid) && a.target.fixed && decide (a.target.die = core / 256) &&
    (rect a.target.x0 a.target.y0 a.w a.h).contains (core % 256) && !a.target.reserved.contains (core % 256))

/-- Whether a core has room for one team that leaves some targets what they still need there; the reservation of `own` counts as free to it (R57, R65). -/
def roomLeaving (s : State) (core : Nat) (own : Owner) (k : Kernel) (keep : List Aim) : Bool :=
  coreOpen s core && fits (claims k) (freePools s core own) && keep.all (fun a => leaves (claims k) (claims a.kern) (freePools s core own))
/-- Whether a core has room for one team of a grid, other queues apart. What `own` has reserved there it may use, whatever other fixed targets need. -/
def roomWith (s : State) (core : Nat) (own : Owner) (gid : Nat) (k : Kernel) : Bool :=
  roomLeaving s core own k (if (reservers s core).any (fun a => decide (a.owner = own)) then [] else fixedOn s core gid)
/-- Room for a team of a grid's next cluster: its reservation is its own. -/
def roomRaw (s : State) (core gid : Nat) (k : Kernel) : Bool := roomWith s core (.grid gid) gid k

/-! ### Who is placed together, and what an evicted team brings back (R216, R220, R386, R416) -/

/-- The teams that are evicted or resumed together: the joined members of a cluster (R220). -/
def together (s : State) (uid : Nat) (life : Life) : List Nat :=
  let t := s.team uid
  if t.joined then (s.teams.filter (fun p => p.2.joined && sameCluster p.2 t && decide (p.2.life = life))).map Prod.fst else [uid]

/-- View-cache units that a team's bindings need. -/
def unitsNeeded (t : Team) : Nat := (t.views.map (fun v => viewUnits v.2)).sum

/-- Whether a core has what a saved team brings beside its claims: the mapping table entries that it has bound, by number, and view-cache units. -/
def bringsFit (s : State) (core uid : Nat) : Bool :=
  decide (unitsNeeded (s.team uid) ≤ freeViewUnits s core) && (s.team uid).savedMaps.all (fun m => (mfind (s.core core).spmap m.1).isNone)

/-- Room for an evicted team of a grid, placed again with team `uid`: what others have reserved is held for them (R63), and what one of the teams that
are placed together has saved finds room too. -/
def roomAgain (s : State) (core gid uid : Nat) (k : Kernel) : Bool :=
  roomWith s core (.team uid) gid k && (together s uid .evicted).any (bringsFit s core)

/-- The free rectangles of a grid's shape on a die under a test of cores; a fixed target allows itself alone (R64, R65). -/
def freeRects (s : State) (g : Grid) (die : Nat) (room : Nat → Bool) : List (Nat × Nat) :=
  let ok (p : Nat × Nat) : Bool :=
    let cs := rect p.1 p.2 g.w g.h
    placeable s die cs && cs.all (fun c => room (die * 256 + c))
  match g.target with
  | some t => if t.fixed then (if t.die = die ∧ ok (t.x0, t.y0) then [(t.x0, t.y0)] else []) else (rects g.w g.h).filter ok
  | none => (rects g.w g.h).filter ok

/-! ### Budgets (R55) and team areas (R59) -/

def powerOf (k : Kernel) : Nat := if k.burin ≠ 0 then 4 else 1

/-- Whether a context's budgets admit `n` teams of a kernel. -/
def budgetOk (s : State) (ctx n : Nat) (k : Kernel) : Bool :=
  let b := (s.cx ctx 2).toNat
  let mine := s.teams.filter (fun p => decide (p.2.ctx = ctx ∧ p.2.life ≠ .evicted))
  let within (used limit : Nat) : Bool := decide (limit = 0) || decide (used ≤ limit)
  within (mine.length + n) (bits b 15 0) && within ((mine.map (fun p => powerOf p.2.kern)).sum + n * powerOf k) (bits b 31 16) &&
    within (mget 0 s.hbm ctx) (bits b 63 32)

/-- A context's team area ring: the physical place of its header, order, area count, take and return index. -/
def areaRing (s : State) (ctx : Nat) : Option (Nat × Nat × Nat × Nat × Nat) :=
  let base := s.cx ctx 6
  if base = 0 ∨ base.toNat % 64 ≠ 0 then none
  else
    (devicePlace s ctx base).bind (fun p =>
      let k := readNat s (.phys p) 4
      let n := readNat s (.phys (p + 4)) 4
      if k < 4 ∨ 16 < k ∨ n < 1 ∨ 2 ^ k < n ∨ !zeroAt (readBytes s (.phys p) 64) 16 48 then none
      else some (p, k, n, readNat s (.phys (p + 8)) 4, readNat s (.phys (p + 12)) 4))

def freeAreas (s : State) (ctx : Nat) : Nat :=
  match areaRing s ctx with
  | some (_, _, n, t, r) => n - (t + 2 ^ 32 - r) % 2 ^ 32
  | none => 0

/-- Bytes a kernel needs in its team area. -/
def areaNeed (k : Kernel) : Nat := 655360 + ceilDiv (1025 * k.stack) 65536 * 65536 + 2097152

/-- A read of the ring's header, as the directories see it (R259); a malformed entry on the way to it is recorded (R201). -/
def noteRing (u : UnitId) (s : State) (ctx : Nat) : State :=
  if s.cx ctx 6 = 0 ∨ (s.cx ctx 6).toNat % 64 ≠ 0 then s else deviceSees u s ctx (s.cx ctx 6) 64

/-- One area taken from the ring by a die's placement unit. -/
def takeArea (die : Nat) (s : State) (ctx : Nat) : State × DWord :=
  match areaRing s ctx with
  | some (p, k, _, t, _) =>
    let e := s.cx ctx 6 + dw (64 + 8 * (t % 2 ^ k))
    (deviceOut (deviceSees (placementUnit die) (noteRing (placementUnit die) s ctx) ctx e 8) (.phys (p + 8)) (leBytes 4 ((t + 1) % 2 ^ 32)),
     dw (deviceNat s ctx e 8))
  | none => (noteRing (placementUnit die) s ctx, 0)

/-- One area returned to the ring. -/
def returnArea (die : Nat) (s : State) (ctx : Nat) (area : DWord) : State :=
  match areaRing s ctx with
  | some (p, k, n, _, r) =>
    deviceOut (deviceWrite (placementUnit die) (noteRing (placementUnit die) s ctx) ctx (s.cx ctx 6 + dw (64 + 8 * ((r + n) % 2 ^ k))) (leBytes 8 area.toNat)) (.phys (p + 12)) (leBytes 4 ((r + 1) % 2 ^ 32))
  | none => noteRing (placementUnit die) s ctx

/-! ### Validation (R34, R39, R45) -/

/-- The place of a byte on a page of one of some types that the context can read. -/
def pagePlace (s : State) (ctx : Nat) (va : DWord) (types : List Nat) : Option Nat :=
  if bits va.toNat 63 57 ≠ 0 then none
  else
    match unitWalk s ctx va.toNat with
    | .leaf e size => if leafRead e && types.contains (leafType e) then some (leafPhys e size va.toNat) else none
    | _ => none

/-- The fields of a kernel header. -/
def readKernel (r : List Byte) : Kernel :=
  let prod := fld r 27 1
  { entry := dw (fld r 0 8), burin := dw (fld r 8 8), handler := dw (fld r 16 8), regs := fld r 24 1, bregs := fld r 25 1, groups := fld r 26 1,
    producer := if prod = 0xFF then none else some prod, phases := fld r 28 1, views := fld r 29 1, hintchk := (fld r 30 2).testBit 0,
    scratch := fld r 32 4, stack := fld r 36 4 }

/-- Whether an address lies on a CODE page of a context. -/
def onCode (s : State) (ctx : Nat) (a : DWord) : Bool :=
  decide (bits a.toNat 63 57 = 0) && (match unitWalk s ctx a.toNat with
    | .leaf e _ => decide (leafType e = 1)
    | _ => false)

/-- A code address as a header may name it. -/
def entryLegal (s : State) (ctx : Nat) (a : DWord) : Bool := decide (a.toNat % 4 = 0) && !badSlot a && onCode s ctx a

/-- The limits of a kernel header. -/
def kernelLegal (s : State) (ctx : Nat) (r : List Byte) (k : Kernel) : Bool :=
  entryLegal s ctx k.entry && (decide (k.burin = 0) || entryLegal s ctx k.burin) && (decide (k.handler = 0) || entryLegal s ctx k.handler) &&
  decide (1 ≤ k.regs) && decide (k.regs ≤ 120) &&
  (if k.burin = 0 then decide (k.bregs = 0) else decide (1 ≤ k.bregs) && decide (k.bregs ≤ 32)) &&
  decide (1 ≤ k.groups) && decide (k.groups ≤ 32) && (match k.producer with
    | some p => decide (p < k.groups)
    | none => true) &&
  decide (k.phases ≤ 32) && decide (k.views ≤ 8) && decide (fld r 30 2 ≤ 1) &&
  decide (k.scratch ≤ 524288) && decide (k.scratch % 16 = 0) && decide (k.stack ≤ 262144) && decide (k.stack % 16 = 0) && zeroAt r 41 23

/-- The team count of a launch record: 0 stands for 2^32. -/
def teamCount (r : List Byte) : Nat := if fld r 8 4 = 0 then 2 ^ 32 else fld r 8 4

/-- The limits of a launch record. -/
def recordLegal (r : List Byte) : Bool :=
  let w := fld r 12 1
  let h := fld r 13 1
  decide (1 ≤ w) && decide (w ≤ 12) && decide (1 ≤ h) && decide (h ≤ 12) && decide (w * h ≤ 12) && decide (fld r 14 2 ≤ 1) &&
  decide (fld r 24 4 % 16 = 0) && zeroAt r 28 4 && decide (fld r 32 8 % 32 = 0) && zeroAt r 48 16 && zeroAt r 96 32 &&
  decide (teamCount r % (w * h) = 0)

/-- Whether a service launch has come the way it must (R43). -/
def serviceLegal (s : State) (q key : Nat) : Bool :=
  s.systemFeed.contains key && decide (s.qdBits q 1 12 12 = 1) && (s.cx (qOwner s q) 1).getLsbD 13

/-- The refusal code of a record that queue `q` holds in the slot `key`: the lowest that applies; none when the launch is legal. DESIGN CHOICE, log 67: of a
header or record in a poisoned granule the bytes are used as they stand. -/
def refusal (s : State) (q key : Nat) (r : List Byte) : Option Nat :=
  let ctx := qOwner s q
  let a := dw (fld r 0 8)
  match (if a.toNat % 64 = 0 then pagePlace s ctx a [0, 1] else none) with
  | none => some 1
  | some p =>
    let hd := readBytes s (.phys p) 64
    let k := readKernel hd
    let w := fld r 12 1
    let h := fld r 13 1
    if fld hd 40 1 ≠ revision.toNat / 2 ^ 24 then some 2
    else if !kernelLegal s ctx hd k then some 3
    else if !recordLegal r then some 4
    else if !(List.range 8).all (fun i => slotLegal (wd (fld r (64 + 4 * i) 4))) then some 5
    else if fld r 14 2 = 1 ∧ ¬ serviceLegal s q key then some 6
    else if !(([0, 1] : List Nat).any (fun d => affine (s.qdBits q 1 15 14) d && (rects w h).any (fun c => enabledRect s d (rect c.1 c.2 w h)))) then some 7
    else if (areaRing s ctx).isNone ∨ bits (s.cx ctx 7).toNat 15 0 * 65536 < areaNeed k then some 8
    else none

/-- What the checks of a launch record read beside it, as the directories see it: the kernel header and, where every check before it passes, the header of the
team area ring. A malformed page-table entry on the way to one of these or to a code address is recorded (R201, R259). -/
def noteLaunch (s : State) (die q key : Nat) (r : List Byte) : State :=
  let ctx := qOwner s q
  let u := placementUnit die
  let a := dw (fld r 0 8)
  if a.toNat % 64 ≠ 0 then s
  else
    match pagePlace s ctx a [0, 1] with
    | none => logDevice u s ctx a
    | some p =>
      let s1 := noteHomeReads s (.phys p) 64
      let k := readKernel (readBytes s (.phys p) 64)
      match refusal s q key r with
      | some 2 => s1
      | some 3 => [k.entry, k.burin, k.handler].foldl (fun t x => if x = 0 then t else logDevice u t ctx x) s1
      | some 8 => noteRing u s1 ctx
      | none => noteRing u s1 ctx
      | some _ => s1

/-- The grid of a legal record. -/
def readGrid (s : State) (q key : Nat) (r : List Byte) : Grid :=
  let ctx := qOwner s q
  let hd := match pagePlace s ctx (dw (fld r 0 8)) [0, 1] with
    | some p => readBytes s (.phys p) 64
    | none => []
  { q := q, seq := wd (qTail s q), ctx := ctx, prio := qPriority s q, affinity := s.qdBits q 1 15 14, kern := readKernel hd, teams := teamCount r,
    w := fld r 12 1, h := fld r 13 1, argBase := dw (fld r 16 8), argStride := fld r 24 4, adapter := dw (fld r 32 8), runLimit := fld r 40 8,
    slots := (List.range 8).map (fun i => wd (fld r (64 + 4 * i) 4)), service := decide (fld r 14 2 = 1), node := mfind s.feeds key }

/-! ### Taking a slot (R51, R52) -/

def takenOf (s : State) (q : Nat) : Nat := mget 0 s.taken q

/-- Room for the final entry of one more slot, after every slot taken and without one (R51, R54). -/
def completionRoom (s : State) (q : Nat) : Bool :=
  decide ((s.qdBits q 4 63 32 + 2 ^ 32 - s.qdBits q 4 31 0) % 2 ^ 32 + takenOf s q + 1 ≤ 2 ^ s.qdBits q 5 3 0)

/-- Whether the next slot of a queue may be taken for a die. -/
def takeable (s : State) (die q : Nat) : Bool :=
  qEnabled s q && contextValid s (qOwner s q) && affine (s.qdBits q 1 15 14) die && decide (qHead s q ≠ qTail s q) && completionRoom s q

/-- Whether the next grid of a launch queue may begin (R51): on a serial queue the one before has retired, else all its teams have started. -/
def mayBegin (s : State) (die q : Nat) : Bool :=
  takeable s die q && !qGraph s q &&
    s.grids.all (fun p => decide (p.2.q ≠ q) || (!qSerial s q && decide (p.2.teams ≤ p.2.next * (p.2.w * p.2.h))))

/-- A queue's place in the round of its priority: those that keep their turn come first, the others by how far they stand behind the pointer (R52). -/
def roundPlace (s : State) (die prio q : Nat) : Nat :=
  match indexIn (mget [] (s.die die).kept prio) q with
  | some i => i
  | none => 1024 + (q + 1024 - mget 0 (s.die die).turn prio) % 1024

/-- The queue whose next grid a placement unit begins: highest priority, then round robin (R52). -/
def nextQueue (s : State) (die : Nat) : Option Nat :=
  let ready := (List.range 1024).filter (mayBegin s die)
  let best := (ready.filter (fun q => ready.all (fun r => decide (qPriority s r ≤ qPriority s q))))
  match best.head? with
  | none => none
  | some q0 =>
    best.find? (fun q => best.all (fun r => decide (roundPlace s die (qPriority s q0) q ≤ roundPlace s die (qPriority s q0) r)))

/-! ### Targets (R63 to R65) -/

/-- Whether a grid's target has every claim of its cluster reserved (R63, R65). -/
def allReserved (g : Grid) : Bool := g.target.any (fun t => decide (t.reserved.length = g.w * g.h))

/-- Whether a grid may start clusters: one that waits in a queue disabled since, or in a context no longer valid, is not served until that ends; one
already begun, or placed, runs to its end (R46, R48, R51, log 61). -/
def served (s : State) (g : Grid) : Bool :=
  decide (g.next ≠ 0) || (contextValid s g.ctx && (qEnabled s g.q || allReserved g))

/-- Whether a grid still has clusters to start. -/
def unstarted (s : State) (g : Grid) : Bool := served s g && decide (g.next * (g.w * g.h) < g.teams)

/-- The rectangle of a shape with the most cores that have room: ties go to the lowest corner, then to die 0 (R63). `room` says whether a core has room
for the team that stands there in the rectangle with a corner. -/
def chooseTarget (s : State) (affinity w h : Nat) (room : Nat × Nat → Nat → Bool) : Option (Nat × Nat × Nat) :=
  let all := ([0, 1].filter (affine affinity)).flatMap (fun d =>
    ((rects w h).filter (fun c => placeable s d (rect c.1 c.2 w h))).map (fun c => (d, c.1, c.2)))
  let free (t : Nat × Nat × Nat) : Nat := ((rect t.2.1 t.2.2 w h).filter (fun x => room t.2 (t.1 * 256 + x))).length
  let key (t : Nat × Nat × Nat) : List Nat := [144 - free t, 12 * t.2.2 + t.2.1, t.1]
  all.foldl (fun b t => match b with
    | none => some t
    | some u => if keyLess (key t) (key u) then some t else some u) none

def State.modGrid (s : State) (gid : Nat) (f : Grid → Grid) : State := { s with grids := mmod s.grids gid f }

/-! ### Who asks for cores (R52, R68, R220, R417) -/

/-- The threads of a team, its burin core's only where it runs one. -/
def teamThreads (s : State) (uid : Nat) : List (Nat × Thread) := s.threads.filter (fun p => decide (teamOf p.1 = uid))

/-- Whether the event ring that a thread waits on holds entries; a header that does not translate shows none. -/
def ringMoved (s : State) (tid : Nat) (h : DWord) : Bool :=
  match waitPlace s tid h with
  | some l => decide (readNat s (l.plus 4) 4 ≠ readNat s (l.plus 8) 4)
  | none => false

/-- Whether an evicted team can go on: a thread ready, a wait met, or requests saved (R417). -/
def resumable (s : State) (uid : Nat) : Bool :=
  !(s.team uid).savedReqs.isEmpty ||
  (teamThreads s uid).any (fun p => match p.2.cond with
    | .ready => true
    | .blocked (.event _ h) => ringMoved s p.1 h
    | _ => false)

/-- What asks for cores: the next cluster of a grid, or an evicted team of it that can go on, with its joined members. -/
structure Claim where
  gid : Nat
  grid : Grid
  team : Option Nat
  deriving DecidableEq, Repr

/-- The claims on a die. -/
def claimants (s : State) (die : Nat) : List Claim :=
  s.grids.flatMap (fun p =>
    if !affine p.2.affinity die then []
    else
      ((s.teams.filter (fun x => decide (x.2.grid = p.1 ∧ x.2.life = .evicted) && decide ((together s x.1 .evicted).head? = some x.1) &&
        (together s x.1 .evicted).any (resumable s))).map (fun x => ({ gid := p.1, grid := p.2, team := some x.1 } : Claim))) ++
      (if unstarted s p.2 then [{ gid := p.1, grid := p.2, team := none }] else []))

/-- The keys of a claim in the order in which placement serves claims: priority, the round of queues, and in one grid its evicted teams first, which
R68 promises to make resident again. -/
def Claim.key (s : State) (die : Nat) (c : Claim) : List Nat :=
  [7 - c.grid.prio, roundPlace s die c.grid.prio c.grid.q, c.gid, b1 c.team.isNone, c.team.getD 0]

def insertClaim (s : State) (die : Nat) (c : Claim) : List Claim → List Claim
  | [] => [c]
  | d :: ds => if keyLess (c.key s die) (d.key s die) then c :: d :: ds else d :: insertClaim s die c ds

/-- The claims on a die in the order of service. -/
def claimOrder (s : State) (die : Nat) : List Claim := (claimants s die).foldl (fun l c => insertClaim s die c l) []

/-- Teams that a claim places at once. -/
def Claim.size (s : State) (c : Claim) : Nat :=
  match c.team with
  | some u => (together s u .evicted).length
  | none => c.grid.w * c.grid.h

/-- Whether budgets and team areas admit a claim: an evicted team keeps its area (R55, R59). -/
def Claim.admitted (s : State) (c : Claim) : Bool :=
  budgetOk s c.grid.ctx (c.size s) c.grid.kern && (c.team.isSome || decide (c.size s ≤ freeAreas s c.grid.ctx))

/-- Whether a core has room for a team of a claim, other claims apart. -/
def Claim.fitsOn (s : State) (c : Claim) (core : Nat) : Bool :=
  match c.team with
  | some u => roomAgain s core c.gid u c.grid.kern
  | none => roomRaw s core c.gid c.grid.kern

/-- Who holds the target of a claim. -/
def Claim.owner (c : Claim) : Owner := match c.team with
  | some u => .team u
  | none => .grid c.gid

/-- Whether what the team that a claim places on a core of the rectangle with a corner has saved finds room there; a core that no team takes needs none. -/
def Claim.bringsFit (s : State) (c : Claim) (corner : Nat × Nat) (core : Nat) : Bool :=
  c.team.all (fun u =>
    let t := s.team u
    if t.joined then
      ((together s u .evicted).filter (fun x => decide ((rect corner.1 corner.2 t.w t.h)[(s.team x).clRank]? = some (core % 256)))).all (Machine.bringsFit s core)
    else Machine.bringsFit s core u)

/-- Whether a core has room for the team that a claim places there in the rectangle with a corner, other claims apart, beside targets that keep theirs. -/
def Claim.fitsAt (s : State) (c : Claim) (corner : Nat × Nat) (core : Nat) : Bool := c.fitsOn s core && c.bringsFit s corner core

/-- Whether a queue whose next grid may begin on a die, and is not yet taken, comes before a claim there: it is served first (R52). -/
def Claim.yields (s : State) (die : Nat) (c : Claim) : Bool :=
  (nextQueue s die).any (fun q => keyLess [7 - qPriority s q, roundPlace s die (qPriority s q) q] [7 - c.grid.prio, roundPlace s die c.grid.prio c.grid.q])

/-- Whether a claim may use a core beside claims that cannot be met: each keeps its turn, and the cores on which its team could be placed (R52). -/
def Claim.roomBeside (s : State) (blocked : List Claim) (c : Claim) (core : Nat) : Bool :=
  c.fitsOn s core && blocked.all (fun b => !b.admitted s || !b.fitsOn s core)

/-- The rectangles on a die where a grid's next cluster may start beside claims that cannot be met. -/
def clusterRects (s : State) (die : Nat) (blocked : List Claim) (c : Claim) : List (Nat × Nat) :=
  if c.admitted s then freeRects s c.grid die (c.roomBeside s blocked) else []

/-! ### Places for evicted teams (R417) -/

/-- The lowest free team slot of a core: which free slot a team takes is the model's choice (DESIGN CHOICE, log 65). -/
def freeSlot (s : State) (core : Nat) : Nat :=
  ((List.range 8).find? (fun i => !s.teams.any (fun p => decide (p.2.coreId = core ∧ p.2.slot = i ∧ p.2.life ≠ .evicted)))).getD 0

/-- Whether a place can take an evicted team. -/
def placeFits (s : State) (blocked : List Claim) (c : Claim) (uid : Nat) (p : Place) : Bool :=
  let core := p.die * 256 + p.core
  decide (p.die < 2) && affine c.grid.affinity p.die && c.roomBeside s blocked core && decide (p.slot < 8) &&
    !s.teams.any (fun q => decide (q.2.coreId = core ∧ q.2.slot = p.slot ∧ q.2.life ≠ .evicted)) && bringsFit s core uid

/-- Whether places take the joined members of a cluster, in one rectangle of its shape with the same CLRANK values; a team that is not joined
goes to any core that has room. -/
def shapeFits (s : State) (us : List Nat) (ps : List Place) : Bool :=
  match us, ps with
  | u :: _, p :: _ =>
    let t := s.team u
    !t.joined || (rects t.w t.h).any (fun c => placeable s p.die (rect c.1 c.2 t.w t.h) &&
      (us.zip ps).all (fun x => decide (x.2.die = p.die) && decide ((rect c.1 c.2 t.w t.h)[(s.team x.1).clRank]? = some x.2.core)))
  | _, _ => false

/-- Whether a list of places can take the teams that resume together, beside claims that cannot be met. -/
def placesBeside (s : State) (blocked : List Claim) (c : Claim) (us : List Nat) (ps : List Place) : Bool :=
  decide (us.length = ps.length) && c.admitted s && (us.zip ps).all (fun x => placeFits s blocked c x.1 x.2) && shapeFits s us ps

/-- The first of some rectangles of a die on which the teams that resume together can be placed, as their places: joined members stand in the rectangle,
another team on its one core. -/
def placesOn (s : State) (die : Nat) (blocked : List Claim) (c : Claim) (us : List Nat) (tries : List (Nat × Nat)) : Option (List Place) :=
  let t := s.team (us.headD 0)
  let at_ (core : Nat) : Place := { die := die, core := core, slot := freeSlot s (die * 256 + core) }
  let on (r : Nat × Nat) : List Place :=
    if t.joined then us.map (fun u => at_ ((rect r.1 r.2 t.w t.h).getD (s.team u).clRank 0)) else [at_ (12 * r.2 + r.1)]
  (tries.map on).find? (placesBeside s blocked c us)

/-- Places on a die for the teams that resume together, if there are any: any core that has room, whatever their target (R417). DESIGN CHOICE, log 78: of
several the one with the lowest corner, and a fixed target does not hold them to it. -/
def resumePlaces (s : State) (die : Nat) (blocked : List Claim) (c : Claim) (us : List Nat) : Option (List Place) :=
  placesOn s die blocked c us (rects (s.team (us.headD 0)).shape.1 (s.team (us.headD 0)).shape.2)

/-- Whether a target has every claim of what waits for it reserved (R63, R65). -/
def Target.whole (t : Target) (shape : Nat × Nat) : Bool := decide (t.reserved.length = shape.1 * shape.2)

/-- Places on its target for the teams that are placed again with a team, once the last claim there is reserved (R65, R417). -/
def reservedPlaces (s : State) (die : Nat) (c : Claim) (us : List Nat) : Option (List Place) :=
  let t := s.team (us.headD 0)
  match t.target with
  | some x =>
    if x.die = die ∧ x.whole t.shape then placesOn s die [] c us [(x.x0, x.y0)] else none
  | none => none

/-! ### Targets are chosen and claims reserved (R63, R417) -/

/-- The ageing threshold of a die (R66). -/
def ageThreshold (s : State) (die : Nat) : Nat := (s.sysReg (0x5000 + 64 * die)).toNat % 2 ^ 32

/-- A target that is fixed once its age has reached the threshold (R65). -/
def Target.ripened (t : Target) (threshold : Nat) : Target := { t with fixed := t.fixed || decide (threshold ≤ t.age) }

/-- A new target at a place. -/
def newTarget (c : Nat × Nat × Nat) : Target := { die := c.1, x0 := c.2.1, y0 := c.2.2, age := 0, fixed := false, reserved := [] }

/-- A target with what is free on it reserved. -/
def Target.reserve (t : Target) (w h : Nat) (room : Nat → Bool) : Target :=
  { t with reserved := ((rect t.x0 t.y0 w h).filter (fun c => !t.reserved.contains c && room (t.die * 256 + c))).foldl sadd t.reserved }

/-- Whether a claim with a fixed target has room on a core of it: what it takes leaves the fixed targets of claims before it what they need, and no other
keeps it from it (R63, R65; log 64). -/
def Claim.fixedRoom (s : State) (c : Claim) (before : List Claim) (core : Nat) : Bool :=
  roomLeaving s core c.owner c.grid.kern ((fixedOn s core c.gid).filter (fun a => before.any (fun b => decide (b.owner = a.owner))))

/-- Whether a grid's next cluster finds a wholly free rectangle, other queues apart. -/
def hasRect (s : State) (gid : Nat) (g : Grid) : Bool :=
  [0, 1].any (fun d => affine g.affinity d && !(freeRects s g d (fun c => roomRaw s c gid g.kern)).isEmpty)

/-- What the claims of a die before one leave to it: each keeps its turn (R52). -/
def Claim.before (s : State) (die : Nat) (c : Claim) : List Claim := (claimOrder s die).takeWhile (fun b => decide ((b.gid, b.team) ≠ (c.gid, c.team)))

/-- A target with what a claim may reserve there: beside the claims whose turn comes before it (R52), on a fixed target whatever these need (R65). -/
def Claim.reserve (s : State) (die : Nat) (c : Claim) (w h : Nat) (t : Target) : Target :=
  if t.die ≠ die then t
  else t.reserve w h (fun core => c.bringsFit s (t.x0, t.y0) core &&
    (if t.fixed then c.fixedRoom s (c.before s die) core else !c.yields s die && c.roomBeside s (c.before s die) core))

/-- A grid without a free rectangle chooses its target and reserves what is free there. DESIGN CHOICE, log 93: a target stays where it is when one of its
cores is retired, and a fixed one then keeps what it has reserved and never starts. -/
def settleTarget (s : State) (die : Nat) (c : Claim) : State :=
  match mfind s.grids c.gid with
  | none => s
  | some g =>
    if g.target.isNone && hasRect s c.gid g then s
    else
      match g.target.or ((chooseTarget s g.affinity g.w g.h (c.fitsAt s)).map newTarget) with
      | none => s
      | some t => s.modGrid c.gid (fun g => { g with target := some (c.reserve s die g.w g.h t) })

/-- An evicted team that can go on is placed as a team of its grid is: without a place it chooses a target, with its joined members, and reserves what is
free there (R63, R417). -/
def settleAgain (s : State) (die : Nat) (c : Claim) (uid : Nat) : State :=
  let t := s.team uid
  if t.target.isNone && [0, 1].any (fun d => affine c.grid.affinity d && (resumePlaces s d [] c (together s uid .evicted)).isSome) then s
  else
    match t.target.or ((chooseTarget s c.grid.affinity t.shape.1 t.shape.2 (c.fitsAt s)).map newTarget) with
    | none => s
    | some x => s.modTeam uid (fun t => { t with target := some ((c.reserve s die t.shape.1 t.shape.2 x).ripened (ageThreshold s x.die)) })

/-- One claim settled on a die. -/
def settleClaim (die : Nat) (s : State) (c : Claim) : State :=
  match c.team with
  | some u => settleAgain s die c u
  | none => settleTarget s die c

/-- A team that waits for no place holds no target. -/
def dropTargets (s : State) : State :=
  { s with teams := s.teams.map (fun p =>
      if p.2.target.isSome && !(decide (p.2.life = .evicted) && decide ((together s p.1 .evicted).head? = some p.1) &&
          (together s p.1 .evicted).any (resumable s)) then (p.1, { p.2 with target := none }) else p) }

/-- What waits for cores reserves in the order in which R52 serves it, on each die: none takes what a claim before it could use. DESIGN CHOICE, log 64, of
the order among the claims of one grid and among the queues of a round. -/
def settleTargets (s : State) : State :=
  let s0 := dropTargets s
  let s1 := (claimOrder s0 0).foldl (settleClaim 0) s0
  (claimOrder s1 1).foldl (settleClaim 1) s1

/-! ### The turn (R52) -/

/-- Whether a claim can be met on a die now. -/
def Claim.met (s : State) (die : Nat) (blocked : List Claim) (c : Claim) : Bool :=
  match c.team with
  | some u => (resumePlaces s die blocked c (together s u .evicted)).isSome
  | none => !(clusterRects s die blocked c).isEmpty

/-- The claim that a test names, with those before it, which cannot be met; none when one of these can be, or the grid of a queue before it is still to be
taken, whose turn it is. -/
def turnOf (s : State) (die : Nat) (mine : Claim → Bool) : List Claim → List Claim → Option (Claim × List Claim)
  | _, [] => none
  | blocked, c :: cs => if c.yields s die then none else if mine c then some (c, blocked) else if c.met s die blocked then none else turnOf s die mine (c :: blocked) cs

/-- A queue of a priority has been served: the round goes on behind it. Those that stood before it keep their turn, and so do those that kept one already
and still ask for cores (R52). -/
def passTurn (s : State) (die prio q : Nat) : State :=
  let order := (((claimOrder s die).filter (fun c => decide (c.grid.prio = prio))).map (fun c => c.grid.q)).eraseDups.filter (fun r => decide (r ≠ q))
  let kept := mget [] (s.die die).kept prio
  let stay := order.filter (fun r => kept.contains r || decide (roundPlace s die prio r < roundPlace s die prio q))
  s.modDie die (fun d => { d with
    turn := if kept.contains q then d.turn else mset 0 d.turn prio ((q + 1) % 1024)
    kept := mset [] d.kept prio stay })

/-- Whether a list of places, in CLRANK order, can take the teams that resume together, in their turn. -/
def placesFit (s : State) (us : List Nat) (ps : List Place) : Bool :=
  let die := (ps.head?.map Place.die).getD 0
  let mine (c : Claim) : Bool := c.team.any (fun u => us.contains u)
  ((claimOrder s die).find? mine).any (fun c => decide (reservedPlaces s die c us = some ps)) ||
  (match turnOf s die mine [] (claimOrder s die) with
   | some (c, blocked) => placesBeside s blocked c us ps
   | none => false)

/-- Places found for the teams that resume with a team, if there are any: their target once it is reserved, else a place in their turn, on die 0 first
(DESIGN CHOICE, log 78). -/
def findPlaces (s : State) (uid : Nat) : Option (List Place) :=
  let us := together s uid .evicted
  let mine (c : Claim) : Bool := c.team.any (fun u => us.contains u)
  [0, 1].findSome? (fun die =>
    (((claimOrder s die).find? mine).bind (fun c => reservedPlaces s die c us)).or
      (match turnOf s die mine [] (claimOrder s die) with
       | some (c, blocked) => resumePlaces s die blocked c us
       | none => none))

/-! ### Starting a cluster (R52, R55, R58, R61, R62) -/

/-- The rectangles on a die where a grid's next cluster may start now: its target as soon as the last claim there is reserved (R65), else what its
turn leaves it. -/
def startRects (s : State) (die gid : Nat) (g : Grid) : List (Nat × Nat) :=
  let c : Claim := { gid := gid, grid := g, team := none }
  if unstarted s g && affine g.affinity die then
    (match g.target with
     | some t =>
       if allReserved g && decide (t.die = die) && c.admitted s && placeable s die (rect t.x0 t.y0 g.w g.h) then [(t.x0, t.y0)]
       else ((turnOf s die (fun x => decide (x.gid = gid) && x.team.isNone) [] (claimOrder s die)).map (fun x => clusterRects s die x.2 c)).getD []
     | none => ((turnOf s die (fun x => decide (x.gid = gid) && x.team.isNone) [] (claimOrder s die)).map (fun x => clusterRects s die x.2 c)).getD [])
  else []

/-- The groups of a new team become resident, those that find a free active place active, in ascending GROUPIX (R107). DESIGN CHOICE, log 80: they
count as resident in that order too (`born`), by which R103 and R109 settle ties, though all come in one cycle. -/
def addGroups (uid core : Nat) : State → List Nat → State
  | s, [] => s
  | s, g :: gs =>
    let gid := gidOf uid g
    let free := decide (g = 32) || decide ((activeGroups s core (g % 4)).length < 8)
    addGroups uid core (s.setGroup gid { active := free, born := s.nextId * 64 + g, readyAt := if free then none else some s.clock }) gs

/-- The threads of a list of thread numbers stand at an entry (R58, R122), with the step of the start as stamp and rank 0: DESIGN CHOICE, log 57. -/
def addThreads (entry : DWord) (sp : Word) (s : State) (tids : List Nat) : State :=
  { s with threads := tids.foldl (fun m t => mput m t { pc := entry, sp := sp, stamp := s.clock }) s.threads }

/-- One team starts (R58). -/
def startTeam (s : State) (gid : Nat) (g : Grid) (rank die core : Nat) : State :=
  let uid := s.nextId
  let c := die * 256 + core
  let k := g.kern
  let ix := g.next * (g.w * g.h) + rank
  let a := takeArea die s g.ctx
  let t : Team :=
    { ctx := g.ctx, grid := gid, teamIx := wd ix, teamCnt := wd g.teams, clRank := rank, w := g.w, h := g.h, arg := g.argBase + dw (ix * g.argStride),
      kern := k, slots := g.slots, service := g.service, runLimit := g.runLimit, area := a.2, die := die, core := core, slot := freeSlot s c,
      adapter := g.adapter }
  let s1 := { (a.1.setTeam uid t) with nextId := uid + 1 }
  let s2 := addGroups uid c s1 (List.range k.groups ++ (if k.burin = 0 then [] else [32]))
  let s3 := addThreads k.entry (wd k.stack) s2 ((List.range k.groups).flatMap (fun x => (List.range 32).map (tidOf uid x)))
  let s4 := if k.burin = 0 then s3 else addThreads k.burin (wd k.stack) s3 [burinOf uid]
  acquire (dropStale s4 c) uid 3

/-- The teams of a cluster start, one on each core of its rectangle in CLRANK order. -/
def startTeams (gid : Nat) (g : Grid) (die : Nat) : State → List (Nat × Nat) → State
  | s, [] => s
  | s, (c, rank) :: cs => startTeams gid g die (startTeam s gid g rank die c) cs

end Sys2Proof.Machine
end

