-- ==== Sys2Proof/Machine/PlaceEvents.lean ====
section
/-! DEFINITION. The events of queues, placement units and dependence graphs: slots taken, clusters started, targets fixed, the memory controllers'
window, completion entries, nodes (R48 to R56, R61 to R67, R72 to R76, R439). -/

namespace Sys2Proof.Machine

/-! ### Queues and registers written from outside (R48 to R50, R75, R178, R268, R410, R425) -/

def execQappAppend (q : Nat) (record : DWord) (s : State) : Host.Outcome State Fault Refusal := .next (appendRegister s q record)
def execQueueEnable (q : Nat) (value : DWord) (s : State) : Host.Outcome State Fault Refusal := .next (writeQd1 s q value)
def execQueueDisable (q : Nat) (value : DWord) (s : State) : Host.Outcome State Fault Refusal := .next (writeQd1 s q value)
def execSystemRegisterWrite (number : Nat) (value : DWord) (s : State) : Host.Outcome State Fault Refusal := .next (writeReg s number value)
def execReplayAnswer (die : Nat) (value : DWord) (s : State) : Host.Outcome State Fault Refusal := .next (answerReplay s die value)
/-- CX1 written with valid clear, its other fields kept. -/
def execContextValidClear (ctx : Nat) (s : State) : Host.Outcome State Fault Refusal :=
  .next (writeContext s (8 * ctx + 1) (s.cx ctx 1 &&& ~~~(1#64 <<< 12)))
/-- A request placed in DGEV and carried out. -/
def execDgevRequest (die : Nat) (value : DWord) (s : State) : Host.Outcome State Fault Refusal := .next (carryDgev (placeDgev s die value) die)

/-! ### TAKE_LAUNCH_SLOT (R45, R51, R52) -/

/-- The slot at tail taken: the feed that appended it is forgotten, the final entry is owed. DESIGN CHOICE, log 55: a launch node whose payload
went to a graph queue is forgotten with its slot's feed, so that nothing ends it. -/
def takeSlot (s : State) (q : Nat) : State :=
  let key := slotKey s q (qTail s q)
  setTail { s with feeds := mdel s.feeds key, systemFeed := sdel s.systemFeed key, taken := mset 0 s.taken q (takenOf s q + 1) } q (qTail s q + 1)

/-- A launch queue's slot taken: a legal record is a grid that has the queue's turn until its cluster starts; a refused one has been served. -/
def takeLaunch (s : State) (die q : Nat) : State :=
  let key := slotKey s q (qTail s q)
  let r := deviceRead s (qOwner s q) (slotAddr s q (qTail s q)) 128
  let s0 := deviceSees (placementUnit die) s (qOwner s q) (slotAddr s q (qTail s q)) 128
  let s1 := takeSlot (noteLaunch s0 die q key r) q
  match refusal s q key r with
  | some c => passTurn { s1 with completions := s1.completions ++
      [{ q := q, seq := wd (qTail s q), status := c, killed := 0, final := true, node := mfind s.feeds key }] } die (qPriority s q) q
  | none => settleTargets { s1 with grids := mput s1.grids s1.nextId (readGrid s q key r), nextId := s1.nextId + 1 }

def execTakeLaunchSlot (die q : Nat) (s : State) : Host.Outcome State Fault Refusal :=
  .next (if nextQueue s die = some q then takeLaunch s die q else s)

/-! ### AGEING_EXPIRY, CLUSTER_START, HBM_WINDOW (R56, R61 to R65) -/

def fixTarget (s : State) (gid : Nat) : State :=
  match mfind s.grids gid with
  | none => s
  | some g =>
    match g.target with
    | none => s
    | some t => if t.age < ageThreshold s t.die then s else s.modGrid gid (fun g => { g with target := some { t with fixed := true } })

def execAgeingExpiry (grid : Nat) (s : State) : Host.Outcome State Fault Refusal := .next (fixTarget s grid)

/-- The next cluster of a grid starts on one of the rectangles that are free for it: which one is a free value (log 5). -/
def startCluster (s : State) (die gid : Nat) : State :=
  match mfind s.grids gid with
  | none => s
  | some g =>
    match startRects s die gid g with
    | [] => s
    | r :: rs =>
      let c := (r :: rs).getD (Config.freeNat s.freeCount % (rs.length + 1)) r
      let s1 := startTeams gid g die { passTurn s die g.prio g.q with freeCount := s.freeCount + 1 } (rect c.1 c.2 g.w g.h).zipIdx
      settleTargets (s1.modGrid gid (fun g => { g with next := g.next + 1, target := none }))

def execClusterStart (die grid : Nat) (s : State) : Host.Outcome State Fault Refusal := .next (startCluster s die grid)

/-- A window of the memory controllers closes: how many transfers each context made in it is a free value, within the allowance in force in it
where that limits; a write to CX2 since counts from the next window on. -/
def closeHbm (s : State) : State :=
  (List.range 64).foldl (fun s c =>
    let allow := mget 0 s.hbmAllow c
    let n := Config.freeNat s.freeCount
    { s with hbm := mset 0 s.hbm c (if allow = 0 then n else n % (allow + 1)), hbmAllow := mset 0 s.hbmAllow c (bits (s.cx c 2).toNat 63 32),
             freeCount := s.freeCount + 1 }) s

def execHbmWindow (s : State) : Host.Outcome State Fault Refusal := .next (closeHbm s)

/-! ### RUN_LIMIT_KILL (R44) -/

def runOut (s : State) (uid : Nat) : Bool :=
  match mfind s.teams uid with
  | some t => decide (t.life = .running ∧ t.runLimit ≠ 0 ∧ t.runLimit ≤ t.runCount)
  | none => false

def execRunLimitKill (team : Nat) (s : State) : Host.Outcome State Fault Refusal :=
  .next (if runOut s team then kill s team (killRecord 0x22) else s)

/-! ### COMPLETION_ENTRY_WRITE (R53, R54, R73, R76, R439) -/

/-- The status that a completion entry gives the launch node whose grid it ends: 0 finished. -/
def nodeStatus (status : Nat) : Nat := if status = 0 then 0 else if status = 0x10 then 0x120 else 0x110 + status

/-- A completion entry's 16 bytes. -/
def completionBytes (c : Completion) : List Byte := leBytes 8 c.seq.toNat ++ leBytes 1 c.status ++ leBytes 3 0 ++ leBytes 4 (min c.killed (2 ^ 32 - 1))

/-- The oldest entry that waits at a queue is written when its ring has room, and released at system scope before the write index moves (R53, R266), through what QD1, QD3 and QD5 hold then: DESIGN CHOICE, log 55, for a
queue that has been disabled and rewritten since. -/
def writeCompletion (s : State) (q : Nat) : State :=
  match s.completions.find? (fun c => decide (c.q = q)) with
  | none => s
  | some c =>
    let w := s.qdBits q 4 63 32
    let r := s.qdBits q 4 31 0
    let m := s.qdBits q 5 3 0
    if 2 ^ m ≤ (w + 2 ^ 32 - r) % 2 ^ 32 then s
    else
      let s1 := farRelease (deviceWrite (placementUnit 0) s (qOwner s q) (s.qd q 3 + dw (16 * (w % 2 ^ m))) (completionBytes c))
      let s2 := { s1.setQd q 4 ((w + 1) % 2 ^ 32 * 2 ^ 32 + r) with
        completions := s1.completions.erase c
        taken := if c.final ∧ c.status ≠ 0x11 then mset 0 s1.taken q (takenOf s1 q - 1) else s1.taken }
      match c.node with
      | some n => markNode s2 n.1 n.2 (nodeStatus c.status)
      | none => s2

def execCompletionEntryWrite (q : Nat) (s : State) : Host.Outcome State Fault Refusal := .next (writeCompletion s q)

/-! ### GRAPH_SLOT_TAKE, NODE_FINISH (R73, R74, R76) -/

/-- Whether the next slot of a graph queue may be taken by a die's walker. -/
def graphReady (s : State) (die q : Nat) : Bool := takeable s die q && qGraph s q

/-- A graph queue's slot taken: its node starts; a slot that names none is a root that fails. -/
def takeGraph (s : State) (die q : Nat) : State :=
  let r := deviceRead s (qOwner s q) (slotAddr s q (qTail s q)) 64
  let a := dw (fld r 0 8)
  let seq := wd (qTail s q)
  let s1 := takeSlot (deviceSees (walkerUnit die) s (qOwner s q) (slotAddr s q (qTail s q)) 64) q
  if a.toNat % 64 ≠ 0 ∨ !zeroAt r 8 56 then addCompletion s1 q seq 0x10 0 true else startNode s1 (qOwner s q) die q seq a true

def execGraphSlotTake (die q : Nat) (s : State) : Host.Outcome State Fault Refusal := .next (if graphReady s die q then takeGraph s die q else s)

/-- A node that has done its work finishes, or fails. -/
def endNode (s : State) (ctx : Nat) (addr : DWord) : State :=
  match s.node ctx addr with
  | none => s
  | some n =>
    match n.done with
    | none => s
    | some st => if st = 0 then finishNode s n else failNode s n st

def execNodeFinish (ctx : Nat) (node : DWord) (s : State) : Host.Outcome State Fault Refusal := .next (endNode s ctx node)

end Sys2Proof.Machine
end

