-- ==== Sys2Proof/Machine/TeamEvents.lean ====
section
/-! DEFINITION. How teams end, leave and come back: retirement, the end of a kill, eviction, resume (R67, R220, R316, R411, R415 to R417, R428,
R438, R439). -/

namespace Sys2Proof.Machine

/-- The contributions of a team performed. -/
def settleTeam (s : State) (uid : Nat) : State :=
  applyContributions s ((s.contributions.filter (fun c => decide (c.team = uid))).map (fun c => c.id))

/-! ### The end of a team and of its grid (R438, R439) -/

/-- A grid of which a team has ended: the last one gives the completion entry. -/
def endInGrid (s : State) (gid : Nat) (killed : Bool) : State :=
  match mfind s.grids gid with
  | none => s
  | some g =>
    let n := g.ended + 1
    let k := g.killed + b1 killed
    if n < g.teams then s.modGrid gid (fun g => { g with ended := n, killed := k })
    else { s with
      grids := mdel s.grids gid
      completions := s.completions ++
        [{ q := g.q, seq := g.seq, status := if k = 0 then 0 else 0x10, killed := k, final := true, node := g.node }] }

/-- The lines of a team's private windows leave its core's stack cache. -/
def dropStack (s : State) (uid : Nat) : State :=
  s.modCore (s.team uid).coreId (fun c => { c with stackLines := c.stackLines.filter (fun p => decide (teamOf p.1 ≠ uid)) })

/-- A team leaves the device: its claims are free, its area is returned, an eviction asked for it ends with status 3. -/
def removeTeam (s : State) (uid : Nat) (killed : Bool) : State :=
  let t := s.team uid
  let s1 := dropStack (returnArea t.die (endEvictreq s uid 3) t.ctx t.area) uid
  settleTargets (endInGrid { s1 with
    teams := mdel s1.teams uid
    threads := s1.threads.filter (fun p => decide (teamOf p.1 ≠ uid))
    groups := s1.groups.filter (fun p => decide (p.1 / 64 ≠ uid))
    loads := s1.loads.filter (fun l => decide (teamOf l.tid ≠ uid))
    accPins := s1.accPins.filter (fun p => decide (p.team ≠ uid)) } t.grid killed)

/-- Whether a team begins to retire: every thread exited, its matrix queue empty, no fault pending. -/
def mayRetire (s : State) (uid : Nat) : Bool :=
  match mfind s.teams uid with
  | some t => decide (t.life = .running) && t.queue.isEmpty && t.replays.isEmpty &&
      (teamThreads s uid).all (fun p => decide (p.2.cond = .exited) && p.2.faults.isEmpty)
  | none => false

/-- Retirement in the order of R438; it waits where a fault has come of the drained queues, a page still holds a request, or an access to the
team's window is left. -/
def retireTeam (s : State) (uid : Nat) : State :=
  if !mayRetire s uid then s
  else
    let s1 := settleTeam (drainTeam s uid) uid
    if (teamThreads s1 uid).any (fun p => !p.2.faults.isEmpty) then s1
    else
      let s2 := runRequests s1 ((teamRequests s1 uid).map (fun r => r.id))
      if !(teamRequests s2 uid).isEmpty ∨ (teamThreads s2 uid).any (fun p => !p.2.faults.isEmpty) then s2
      else
        let s3 := windUp (endTeamBinds s2 uid) uid
        if leaveWaits s3 uid then s3
        else
          let s4 := giveUp s3 uid
          removeTeam (endPrivatised s4 (s4.team uid).coreId 3) uid false

def execTeamRetire (team : Nat) (s : State) : Host.Outcome State Fault Refusal := .next (retireTeam s team)

/-- A kill is complete once the team's started work has ended (R411). -/
def endKill (s : State) (uid : Nat) : State :=
  match mfind s.teams uid with
  | some t =>
    if t.life = .dying then
      let s1 := if t.closed then s else tryClose s uid
      if (s1.team uid).closed ∧ t.queue.isEmpty ∧ t.replays.isEmpty ∧ (teamRequests s1 uid).isEmpty then removeTeam (settleTeam s1 uid) uid true else s1
    else s
  | none => s

def execKillComplete (team : Nat) (s : State) : Host.Outcome State Fault Refusal := .next (endKill s team)

/-! ### Pre-emptible points (R415) -/

/-- A ready thread waits at its next chain for the data of loads from window or far pages alone. -/
def slowWait (s : State) (lanes : List Nat) : Bool :=
  match lanes with
  | [] => false
  | l :: _ =>
    match chainAt s l with
    | .error _ => false
    | .ok c =>
      let ws := c.words.map Prod.snd
      namesOwed s lanes readRegs ws &&
        !interlocked { s with loads := s.loads.filter (fun l => !l.slow)
                              threads := lanes.foldl (fun m t => mmod m t (fun th =>
                                if s.loads.any (fun l => decide (th.q3 = some l.id) && l.slow) then { th with q3 := none } else th)) s.threads } lanes ws

/-- Whether a blocked thread's wait is one of those that permit eviction, and is not met. -/
def evictWait (s : State) (tid : Nat) (t : Thread) : Bool :=
  match t.cond with
  | .exited => true
  | .parked _ => true
  | .blocked (.phase _ _) => true
  | .blocked (.event _ h) => !ringMoved s tid h
  | _ => false

/-- Whether every group and the burin core of a team wait at pre-emptible points. -/
def atPoint (s : State) (uid : Nat) : Bool :=
  let t := s.team uid
  (teamThreads s uid).all (fun p => p.2.faults.isEmpty &&
    (if isBurin p.1 then
      t.queue.isEmpty && (match p.2.cond with
        | .exited => true
        | .blocked (.phase _ _) => true
        | _ => false)
    else evictWait s p.1 p.2 || decide (p.2.cond = .ready))) &&
  (List.range t.kern.groups).all (fun g => (condReady s (gidOf uid g)).all (fun p => slowWait s [p.1]))

/-! ### Eviction (R67, R416) -/

/-- A fixed target of higher priority covers a team's core (R67). -/
def placementAsks (s : State) (uid : Nat) : Bool :=
  let t := s.team uid
  match mfind s.grids t.grid with
  | none => false
  | some g => (aims s).any (fun a => decide (g.prio < a.prio) && a.target.fixed && decide (a.target.die = t.die) &&
      (rect a.target.x0 a.target.y0 a.w a.h).contains t.core)

/-- Whether an eviction of a team may start now; a joined member that is dying cannot be evicted with the others, who wait for its end (R220). -/
def mayEvict (s : State) (uid : Nat) : Bool :=
  (match mfind s.teams uid with
   | some t => decide (t.life = .running)
   | none => false) && (together s uid .dying).all (fun u => decide ((s.team u).life ≠ .dying)) &&
  (together s uid .running).any (fun u => (s.team u).evictAsked || placementAsks s u) && (together s uid .running).all (atPoint s)

/-- Steps 1 to 3: queues drain, loads return, requests that have written a beat run on. -/
def settleForSave (s : State) (uid : Nat) : State :=
  let s1 := settleTeam (drainTeam s uid) uid
  let s2 := returnLoads s1 ((s1.loads.filter (fun l => decide (teamOf l.tid = uid))).map (fun l => l.id))
  runRequests s2 (((teamRequests s2 uid).filter (fun r => r.wrote)).map (fun r => r.id))

/-- Steps 4 to 6: bindings written back and ended, the state saved, the claims freed. -/
def saveTeam (s : State) (uid : Nat) : State :=
  let t := s.team uid
  let c := s.core t.coreId
  let maps := (s.binds.filter (fun b => decide (b.team = uid))).filterMap (fun b => (mfind c.spmap b.entry).map (fun w => (b.entry, w)))
  let s1 := endTeamBinds s uid
  let reqs := teamRequests s1 uid
  let s2 := { s1 with requests := s1.requests.filter (fun r => !(decide (r.team = uid) && r.node.isNone)) }
  let s3 := (dropStack s2 uid).modCore t.coreId (fun c => { c with press := c.press.filter (fun r => decide (r.team ≠ uid)) })
  (endEvictreq s3 uid 0).modTeam uid (fun t => { t with
    life := .evicted
    savedMaps := maps.foldl (fun m p => mput m p.1 p.2) []
    savedReqs := reqs
    slices := []
    govRows := c.lastRows })

/-- An eviction; it is abandoned where a request that has written a beat is held at a page. -/
def evict (s : State) (uid : Nat) : State :=
  if !mayEvict s uid then s
  else
    let us := together s uid .running
    let s1 := us.foldl settleForSave s
    if us.any (fun u => (teamRequests s1 u).any (fun r => r.wrote)) then s1
    else settleTargets (us.foldl saveTeam s1)

def execEviction (team : Nat) (s : State) : Host.Outcome State Fault Refusal := .next (evict s team)
def execEvictreqWrite (value : DWord) (s : State) : Host.Outcome State Fault Refusal := .next (writeEvictreq s value)

/-! ### Resume (R417) -/

/-- A saved mapping table entry bound again with fill; one whose pages can no longer be bound, or that another binding holds meanwhile, stays away
(R216, log 18). -/
def rebind (uid : Nat) (s : State) (m : Nat × DWord) : State :=
  let t := s.team uid
  let w := m.2.toNat
  match bindUnits s t.coreId t.ctx (bits w 63 19 * 4096) (bits w 18 12 + 1) with
  | some us =>
    if us.any (fun u => s.binds.any (fun b => b.units.contains u)) then s
    else makeBind s uid m.1 (dw (w - bits w 3 1 * 2 + t.slot * 2)) true (bits w 10 4 * 4096) us
  | none => logUnits s t.coreId t.ctx (bits w 63 19 * 4096) (bits w 18 12 + 1)

/-- A saved request enters the streamer of its new core: its acquire is performed anew. -/
def reenter (s : State) (t : Team) (r : Request) : Request :=
  { r with die := t.die, core := t.core, ready := false, done := [], wrote := false, before := 0, pages := [], held := none, rows := [], got := [],
           inc := incarnation s ⟨1, t.coreId⟩ }

/-- The groups of a resumed team take free active places. DESIGN CHOICE, log 81: those that were active when it was saved, in ascending GROUPIX, as far
as places are free; the others are pending. -/
def placeGroups (uid core : Nat) (s : State) : State :=
  let gs := (s.groups.map Prod.fst).filter (fun g => decide (g / 64 = uid) && decide (groupIx g ≠ 32))
  let was := gs.filter (fun g => (s.group g).active)
  let s1 := gs.foldl (fun s g => s.modGroup g (fun x => { x with active := false, readyAt := none, born := s.nextId * 64 + groupIx g })) s
  was.foldl (fun s g => if (activeGroups s core (groupIx g % 4)).length < 8 then activate s g else s) s1

/-- One team made resident again. DESIGN CHOICE, log 81: its sets keep their stamps, so they count as older than what has issued since (R103, R416). -/
def restoreTeam (s : State) (uid : Nat) (p : Place) : State :=
  let s1 := s.modTeam uid (fun t => { t with life := .running, die := p.die, core := p.core, slot := p.slot, target := none })
  let t := s1.team uid
  let s2 := t.savedMaps.foldl (rebind uid) s1
  let s3 := { s2 with requests := s2.requests ++ t.savedReqs.map (reenter s t) }
  let s4 := if t.kern.burin = 0 then s3 else s3.modCore t.coreId (fun c => { c with lastRows := t.govRows })
  let s5 := placeGroups uid t.coreId { (s4.modTeam uid (fun t => { t with savedMaps := [], savedReqs := [] })) with nextId := s4.nextId + 1 }
  acquire (dropStale s5 t.coreId) uid 3

/-- Teams placed again: their queue has been served (R52). -/
def resume (s : State) (uid : Nat) (ps : List Place) : State :=
  match mfind s.teams uid with
  | none => s
  | some t =>
    let us := together s uid .evicted
    if t.life = .evicted ∧ us.any (resumable s) ∧ placesFit s us ps then
      let s1 := match mfind s.grids t.grid, ps.head? with
        | some g, some p => passTurn s p.die g.prio g.q
        | _, _ => s
      (us.zip ps).foldl (fun s x => (eachLane waitevTurn (restoreTeam s x.1 x.2)
        ((teamThreads s x.1).map Prod.fst))) s1
    else s

def execTeamResume (team : Nat) (places : List Place) (s : State) : Host.Outcome State Fault Refusal := .next (resume s team places)

end Sys2Proof.Machine
end

