-- ==== Sys2Proof/Machine/EngineEvents.lean ====
section
/-! DEFINITION. The steps of store queues, loads, the streamer, the matrix engine, the accumulators and pending faults, each one event: an event
that cannot happen now leaves the state as it is (R111, R172, R177, R228, R240, R241, R288, R315, R321, R326, R332, R333, R368, R401, R431, R432). -/

namespace Sys2Proof.Machine

def execLoadDataReturn (load : Nat) (s : State) : Host.Outcome State Fault Refusal := .next (returnLoad s load)

/-- Whether an entry is the mark of an arrival or of an exit. -/
def QOp.isMark : QOp → Bool
  | .arrive _ _ _ => true
  | .leave => true
  | _ => false

/-- Whether a group's oldest entry is such a mark. -/
def headMark (s : State) (gid : Nat) : Bool := (((s.group gid).queue.head?).map (fun e => e.op.isMark)).getD false

def execStoreQueueLeave (queue : Nat) (s : State) : Host.Outcome State Fault Refusal := .next (if headMark s queue then s else leaveHead s queue)
def execArrivalCounted (queue : Nat) (s : State) : Host.Outcome State Fault Refusal := .next (if headMark s queue then leaveHead s queue else s)

def execStreamerBeat (req beat : Nat) (s : State) : Host.Outcome State Fault Refusal := .next (landBeat s req beat)
def execCopyComplete (req : Nat) (s : State) : Host.Outcome State Fault Refusal := .next (endRequest s req)

def execMatrixEntryStart (entry : Nat) (s : State) : Host.Outcome State Fault Refusal := .next (startEntry s entry)
def execMatrixEntryComplete (entry : Nat) (s : State) : Host.Outcome State Fault Refusal := .next (completeEntry s entry)
def execMainRowIssue (entry : Nat) (s : State) : Host.Outcome State Fault Refusal := .next (issueRow s entry)
def execGovernorWindow (die core : Nat) (s : State) : Host.Outcome State Fault Refusal := .next (nextWindow s (die * 256 + core))
def execAccContribution (contribution : Nat) (s : State) : Host.Outcome State Fault Refusal := .next (applyContribution s contribution)
def execAdapterSliceArrival (team slice : Nat) (s : State) : Host.Outcome State Fault Refusal := .next (sliceArrives s team slice)
def execAccLineEvict (line : Nat) (s : State) : Host.Outcome State Fault Refusal := .next (accEvict s line)

/-- The matrix window, not the vector one. -/
def matrixWindow : WindowKind → Bool
  | .vector => false
  | .matrix => true
def execNumericWindowClose (team : Nat) (window : WindowKind) (cls : Fin 4) (s : State) : Host.Outcome State Fault Refusal :=
  .next (closeWindow s team (matrixWindow window) cls)
def execAfterIssueFaultDelivery (unit : Nat) (s : State) : Host.Outcome State Fault Refusal := .next (deliverFault s unit)

/-- A version without users, walks or loads, an evicted team's saved walks among them, is freed: freed := 1, and block translation caches drop its entries (R368, R370). -/
def freeVersion (s : State) (ctx : Nat) (base : DWord) (ver : Word) : State :=
  match s.versions.find? (fun v => decide (v.1 = ctx ∧ v.2.1 = base ∧ v.2.2.2 = ver)) with
  | none => s
  | some v =>
    let pa := v.2.2.1
    let mine (t : Option (Nat × Word)) : Bool := decide (t = some (pa, ver))
    let used : Bool := s.requests.any (fun r => mine r.table) || s.loads.any (fun l => mine l.table) ||
      s.teams.any (fun p => p.2.savedReqs.any (fun r => mine r.table))
    if readNat s (.phys (pa + 4)) 4 ≠ 0 ∨ used then s
    else
      let s1 := deviceOut { s with versions := s.versions.filter (fun x => decide (x ≠ v)) } (.phys (pa + 12)) (leBytes 4 1)
      (s1.cores.map Prod.fst).foldl (fun s c => s.modCore c (fun k => { k with
        btc := k.btc.filter (fun e => !(decide (e.tag = ctxTag s1 ctx ∧ e.base = base ∧ e.version = ver))) })) s1

def execVersionFreed (ctx : Nat) (base : DWord) (version : Word) (s : State) : Host.Outcome State Fault Refusal :=
  .next (freeVersion s ctx base version)

/-- A lane in SYSCALL acts: the first that waits for room, or the one whose reply has come. -/
def execSyscallAnswered (unit : Nat) (s : State) : Host.Outcome State Fault Refusal := .next (syscallWake s unit)
def execWaitevWake (unit : Nat) (s : State) : Host.Outcome State Fault Refusal := .next (waitevTurn s unit)

end Sys2Proof.Machine
end

