-- ==== Sys2Proof/Machine/Reliability.lean ====
section
/-! DEFINITION. Caches that evict, pages that move or are laid out again, dead agents, soft errors and proof runs (R255, R259, R260, R262 to R265, R268,
R270 to R274, R332, R364, R418, R419). -/

namespace Sys2Proof.Machine

/-! ### CACHE_LINE_EVICTION (R255, R259, R268) -/

def evictLine (s : State) (cache : CacheId) (line : Nat) : State :=
  match cache with
  | .l1 die core => s.modDir line (fun d => d.evictL1 (die * 256 + core))
  | .slice die => if homeOf s line = die ∧ s.pins.any (fun p => decide (p.2 = line)) then s else s.modDir line (fun d => d.evictDie die)

def execCacheLineEviction (cache : CacheId) (line : Nat) (s : State) : Host.Outcome State Fault Refusal := .next (evictLine s cache line)

/-! ### Moves (R262 to R265) -/

/-- A move record. -/
structure MoveRec where
  kind : Nat
  ctx : Nat
  va : Nat
  leafAt : Nat
  base : Nat
  zeros : Bool
  deriving DecidableEq, Repr

def readMove (r : List Byte) : MoveRec :=
  { kind := fld r 0 1, ctx := fld r 1 1, va := fld r 8 8, leafAt := fld r 16 8, base := fld r 24 8, zeros := zeroAt r 4 4 }

/-- The leaf and the page size that a record names, when it is valid for one of some kinds: the walk of the address ends at the leaf entry named, the bases
are aligned to the page, and every line of the new place lies where the kind says. DESIGN CHOICE, log 84: no other record is invalid, so that a rehoming
of a far page keeps far 1 and a tier move to the tier where the page stands is carried out. -/
def moveLeaf (s : State) (m : MoveRec) (kinds : List Nat) : Option (DWord × Nat) :=
  if !kinds.contains m.kind ∨ 64 ≤ m.ctx ∨ !m.zeros ∨ bits m.va 63 57 ≠ 0 then none
  else
    match unitWalk s m.ctx m.va with
    | .leaf e size =>
      if size ≤ 2 ^ 21 ∧ m.va % size = 0 ∧ m.base % size = 0 ∧ m.base < 2 ^ 56 ∧ m.leafAt = unitLast s m.ctx m.va ∧
          (List.range (size / 128)).all (fun i => farLine (m.base / 128 + i) == decide (m.kind = 2)) then some (e, size) else none
    | _ => none

/-- Whether a physical line lies in a page. -/
def lineIn (old size line : Nat) : Bool := decide (old ≤ 128 * line) && decide (128 * line < old + size)

/-- Where a physical address stands after a move. -/
def relocate (old size new a : Nat) : Nat := if old ≤ a ∧ a < old + size then a - old + new else a

/-- Bytes of a page copied to its new place, with its poison. No error is confined there any more: only a reader of a row tolerates one (R364). -/
def copyPage (s : State) (old size new : Nat) : State :=
  let keep (a : Nat) : Bool := !(decide (new ≤ a) && decide (a < new + size))
  let inOld (a : Nat) : Bool := decide (old ≤ a) && decide (a < old + size)
  { s with
    mem := (s.mem.filter (fun p => inOld p.1)).foldl (fun m p => mput m (relocate old size new p.1) p.2) (s.mem.filter (fun p => keep p.1))
    poison := (s.poison.filter (fun g => inOld (32 * g))).foldl (fun l g => sadd l (relocate old size new (32 * g) / 32))
      (s.poison.filter (fun g => keep (32 * g)))
    confined := s.confined.filter (fun p => keep (8 * p.1))
    dir := s.dir.filter (fun p => !lineIn old size p.1 && !lineIn new size p.1) }

/-- The lines of a page, by their offset in lines, in which its copy meets an uncorrectable error that stands there already: one in a payload word, confined or
not, which every read of the word meets again (R265, R364). -/
def errorLines (s : State) (old size : Nat) : List Nat :=
  ((s.confined.filter (fun p => decide (old ≤ 8 * p.1) && decide (8 * p.1 < old + size) && s.poison.contains (p.1 / 4))).map
    (fun p => (8 * p.1 - old) / 128)).eraseDups

/-- The poison of lines on retired channels goes with them (R274, R419). -/
def carryLost (s : State) (old size new : Nat) : State :=
  if s.deadChannels.isEmpty then s
  else poisonGranules s (((List.range (size / 128)).filter (fun i => lostChannel s (old + 128 * i))).flatMap (fun i => lineGranules (new / 128 + i)))

/-- The home die that software has selected for a page goes with it to its new place; a rehoming selects that of the new place's stack (R253,
R263). -/
def carryHome (s : State) (kind old size new : Nat) : State :=
  let n := size / 65536
  let kept := s.homes.filter (fun p => !(decide (old / 65536 ≤ p.1) && decide (p.1 < old / 65536 + n)) &&
    !(decide (new / 65536 ≤ p.1) && decide (p.1 < new / 65536 + n)))
  { s with homes := (List.range n).foldl (fun h i =>
      match (if kind = 1 then some (homeOf s (new / 128 + 512 * i)) else mfind s.homes (old / 65536 + i)) with
      | some d => mput h (new / 65536 + i) d
      | none => h) kept }

/-- What units hold by physical address follows a page: the old location forwards (R264, R332). -/
def followMove (s : State) (old size new : Nat) (e e' : DWord) : State :=
  let f := relocate old size new
  let run (r : AccRun) : AccRun := r.map (fun x => (x.1, f x.2.1, f x.2.2))
  let pages (m : SMap (DWord × Nat)) : SMap (DWord × Nat) := m.map (fun p => if p.2.1 = e then (p.1, (e', p.2.2)) else p)
  let req (r : Request) : Request := { r with pages := pages r.pages, table := r.table.map (fun t => (f t.1, t.2)) }
  { s with
    acc := s.acc.map (fun p => (p.1, { p.2 with record := f p.2.record }))
    versions := s.versions.map (fun v => (v.1, v.2.1, f v.2.2.1, v.2.2.2))
    loads := s.loads.map (fun l => { l with table := l.table.map (fun t => (f t.1, t.2)) })
    requests := s.requests.map req
    teams := s.teams.map (fun p => (p.1, { p.2 with
      tslots := p.2.tslots.map (fun t => (t.1, { t.2 with pa := f t.2.pa }))
      savedReqs := p.2.savedReqs.map req
      replays := p.2.replays.map (fun q => { q with pa := f q.pa, record := f q.record, next := f q.next, nextRecord := f q.nextRecord })
      queue := p.2.queue.map (fun x => { x with op := match x.op with
        | .stream d l => .stream d (l.map (fun y => (y.1, (f y.2.1, f y.2.2))))
        | .arm r c => .arm (run r) c
        | .clear r => .clear (run r)
        | .drain r d => .drain (run r) { d with pages := pages d.pages }
        | op => op }) })) }

/-- The work that a page's home slices have accepted is completed: store queues, contributions; its accumulator lines are evicted (R263, R332). -/
def settlePage (s : State) (old size : Nat) : State :=
  let s1 := drainDevice s
  let s2 := applyContributions s1 (s1.contributions.map (fun c => c.id))
  ((s2.acc.map Prod.fst).filter (lineIn old size)).foldl accEvict s2

/-- Whether a page has a pending re-pack, whichever mapping of it was found full (R263, R270). -/
def repackPending (s : State) (ctx va old size : Nat) : Bool :=
  s.repacks.any (fun p => decide (p.1 = ctx ∧ p.2.toNat = va)) || (repackRanges s).any (fun r => decide (r.1 < old + size) && decide (old < r.1 + r.2))

/-- A valid record carried out on the leaf that it names: the state, and the status with which the move ends: steps 1 to 5 of R263 as one event. Whether an
uncorrectable error strikes that did not stand in the page before, and which line, is a free value (log 5). -/
def moveFound (s : State) (m : MoveRec) (e : DWord) (size : Nat) : State × Nat :=
  let old := leafPhys e size m.va
  if s.pins.any (fun p => lineIn old size p.2) then (s, 2)
  else if s.binds.any (fun b => b.units.any (fun u => decide (old ≤ 4096 * u) && decide (4096 * u < old + size))) ||
      s.accPins.any (fun p => lineIn old size (p.pa / 128) || lineIn old size (p.record / 128)) then (s, 3)
  else if repackPending s m.ctx m.va old size then (s, 5)
  else
    let lines := size / 128
    let hit := Config.freeNat s.freeCount % (lines + 1)
    let far : DWord := if m.kind = 2 then 1#64 <<< 7 else if m.kind = 3 then 0 else e &&& (1#64 <<< 7)
    let e' := (e &&& ~~~(maskBits 56 16 ||| 1#64 <<< 7)) ||| (dw m.base &&& maskBits 56 16) ||| far
    let s1 := settlePage { s with freeCount := s.freeCount + 1 } old size
    let s2 := followMove (carryLost (copyPage s1 old size m.base) old size m.base) old size m.base e e'
    let bad := errorLines s1 old size ++ (if hit = 0 then [] else [hit - 1])
    let s3 := poisonGranules s2 (bad.flatMap (fun i => lineGranules (m.base / 128 + i)))
    let s4 := deviceOut s3 (.phys (relocate old size m.base m.leafAt)) (leBytes 8 e'.toNat)
    let s5 := dropAll s4 (dropsTrans 0 (ctxTag s4 m.ctx) m.va)
    (carryHome s5 m.kind old size m.base, if bad = [] then 1 else 6)

/-- A record carried out, or refused. -/
def movePage (s : State) (m : MoveRec) (kinds : List Nat) : State × Nat :=
  match moveLeaf s m kinds with
  | none => (s, 4)
  | some (e, size) => moveFound s m e size

/-- The record at the read index of a command ring. -/
def nextMove (s : State) (base index : Nat) : Option (Nat × MoveRec) :=
  match ringBase s base with
  | none => none
  | some (pa, k) =>
    let v := (s.sysReg index).toNat
    if v % 2 ^ 32 = v / 2 ^ 32 then none
    else
      let a := pa + 32 * (v / 2 ^ 32 % 2 ^ k)
      some (a, readMove (readBytes s (.phys a) 32))

/-- The engine's reads of a record and of the leaf that it names, as the directory sees them (R259). -/
def noteMove (s : State) (a : Nat) (m : MoveRec) (kinds : List Nat) : State :=
  let s1 := noteHomeReads s (.phys a) 32
  if (moveLeaf s1 m kinds).isSome then noteHomeReads s1 (.phys m.leafAt) 8 else s1

/-- An engine takes the record at its ring's read index. -/
def runMove (s : State) (base index : Nat) (kinds : List Nat) (mine : MoveRec → Bool) : State :=
  match nextMove s base index with
  | none => s
  | some (a, m) =>
    if !mine m then s
    else
      let r := movePage (noteMove s a m kinds) m kinds
      let s1 := deviceOut r.1 (.phys (a + 2)) (leBytes 2 r.2)
      let v := (s1.sysReg index).toNat
      s1.setSys index (dw ((v / 2 ^ 32 + 1) % 2 ^ 32 * 2 ^ 32 + v % 2 ^ 32))

def execMoveRehome (die : Nat) (s : State) : Host.Outcome State Fault Refusal :=
  .next (runMove s (0x5000 + 64 * die + 5) (0x5000 + 64 * die + 6) [1] (fun _ => true))
/-- The tier engine on a record that moves a page to the pool, or that is no move of its own. -/
def execMoveToPool (s : State) : Host.Outcome State Fault Refusal := .next (runMove s 0x6010 0x6011 [2] (fun m => decide (m.kind ≠ 3)))
def execMoveFromPool (s : State) : Host.Outcome State Fault Refusal := .next (runMove s 0x6010 0x6011 [3] (fun m => decide (m.kind = 3)))

/-! ### REPACK (R204, R270) -/

/-- A compressed page lays out again: its bytes and its poison stay as they are, what is pending ends. -/
def repackPage (s : State) (ctx : Nat) (page : DWord) : State := { s with repacks := s.repacks.filter (fun p => decide (p ≠ (ctx, page))) }
def execRepack (ctx : Nat) (page : DWord) (s : State) : Host.Outcome State Fault Refusal := .next (repackPage s ctx page)

/-- A compressed page's exception region is found full: its re-pack is pending. When that happens is not architectural (R204, log 4). -/
def pageFull (s : State) (ctx : Nat) (va : Nat) : State :=
  if bits va 63 57 ≠ 0 then s
  else
    match walkFrom s va (rootTable s ctx) 4 with
    | .leaf e size =>
      let p := (ctx, dw (va / size * size))
      if leafCompressed e ∧ ¬ s.repacks.contains p then { s with repacks := s.repacks ++ [p] } else s
    | _ => s

/-! ### Dead agents (R271, R272) -/

/-- Granules of a line that hold bytes of a mask. -/
def maskGranules (line : Nat) (m : BitVec 128) : List Nat :=
  ([0, 1, 2, 3].filter (fun g => decide (bits m.toNat (32 * g + 31) (32 * g) ≠ 0))).map (fun g => 4 * line + g)

/-- What a scrub finds of one line: its entry after it, and the granules that only the dead agent held. -/
def scrubLine (s : State) (u : UnitId) (line : Nat) (d : Dir) : Dir × List Nat :=
  let whole := lineGranules line
  match u.cls with
  | 1 =>
    (match mfind d.privatised u.number with
     | some m => (d.merge.evictL1 u.number, maskGranules line m)
     | none => (d.evictL1 u.number, if d.owner = some u.number ∧ d.dirty then whole else []))
  | 2 =>
    if sliceOf s (u.number / 256) line = some (u.number % 256) then
      (d.evictDie (u.number / 256), if d.at (u.number / 256) = .m ∨ d.at (u.number / 256) = .o then whole else [])
    else (d, [])
  | 7 =>
    -- the host's sectors are held through the CXL and PCIe ports 64 and 65
    if u.number = 64 ∨ u.number = 65 then
      ({ d with host := (0, 0) }, (if d.host.1 = 2 then [4 * line, 4 * line + 1] else []) ++ (if d.host.2 = 2 then [4 * line + 2, 4 * line + 3] else []))
    else (d, [])
  | _ => (d, [])

/-- The bindings whose bytes stand in the scratchpad of a core alone (R214). -/
def deadBinds (s : State) (u : UnitId) : List Bind := s.binds.filter (fun b => decide (u.cls = 1 ∧ b.core = u.number))

/-- The granules of a run of bound units. -/
def unitGranules (us : List Nat) : List Nat := us.flatMap (fun k => (List.range 128).map (fun g => 128 * k + g))

/-- Whether an accumulator line stands resident at a slice, its home, where its only current copy is (R328). -/
def homeAt (s : State) (u : UnitId) (line : Nat) : Bool :=
  decide (u.cls = 2 ∧ homeOf s line = u.number / 256 ∧ sliceOf s (u.number / 256) line = some (u.number % 256))

/-- An agent declared dead: its incarnation number rises, and a scrub clears its directory entries: those of lines that it holds copies of, and those of lines
bound to its scratchpad, which are poisoned at their home, as are the accumulator lines of a dead slice (R214, R272, R328). -/
def declareDead (s : State) (u : UnitId) : State :=
  let key := u.cls * 65536 + u.number
  let found := s.dir.map (fun p => (p.1, scrubLine s u p.1 p.2))
  let gone := deadBinds s u
  let s1 := if gone = [] then s else s.modCore u.number (fun c => { c with spmap := gone.foldl (fun m b => mdel m b.entry) c.spmap })
  poisonGranules { s1 with
    incarnations := mset 0 s.incarnations key (incarnation s u + 1)
    binds := s.binds.filter (fun b => !gone.contains b)
    acc := s.acc.map (fun p => (p.1, if homeAt s u p.1 then { p.2 with poisoned := true } else p.2))
    dir := found.filterMap (fun p => if p.2.1 = ({} : Dir) then none else some (p.1, p.2.1)) }
    (found.flatMap (fun p => p.2.2) ++ unitGranules (gone.flatMap Bind.units))

def execAgentDeadScrub (unit : UnitId) (s : State) : Host.Outcome State Fault Refusal := .next (declareDead s unit)

/-- A message or write-back under an old incarnation is dropped and logged. -/
def execStaleIncarnation (unit : UnitId) (inc : BitVec 16) (addr : DWord) (s : State) : Host.Outcome State Fault Refusal :=
  .next (if inc = incarnation s unit then s else logError s 5 unit addr.toNat none 0)

/-! ### Soft errors (R273, R332, R364, R418) -/

/-- An uncorrectable error in a clean copy that a unit holds of a line: a core's L1 copy, or a die's, is dropped and the line fetched again when it is
used next (R273). -/
def dropCopy (s : State) (u : UnitId) (line : Nat) : State :=
  match u.cls with
  | 1 => s.modDir line (fun d => d.evictL1 u.number)
  | 2 => s.modDir line (fun d => d.evictDie (u.number / 256))
  | _ => s

/-- An entry of a directory or of L2 tags is rebuilt: every copy of its line is recalled (R273). -/
def recallCopies (s : State) (line : Nat) : State := s.modDir line (fun d => (d.evictDie 0).evictDie 1)

/-- A payload error in a word: confined while no other error lies in its granule (R364). -/
def confineError (s : State) (a low : Nat) : State :=
  if s.poison.contains (a / 32) && !s.confined.any (fun p => decide (p.1 / 4 = a / 32)) then s
  else { s with poison := sadd s.poison (a / 32), confined := mput s.confined (a / 8) (max low (mget 0 s.confined (a / 8))) }

/-- What an uncorrectable error that a unit meets does, with the kind of its record. -/
def errorEffect (s : State) (u : UnitId) (p : ErrPlace) : State × Nat × Nat :=
  match p with
  | .data a only => if only then (poisonGranule s (a / 32), 2, a) else (dropCopy s u (a / 128), 1, a)
  | .payload a low => (confineError s a low, 2, a)
  | .line a only => if only then (poisonGranules s (lineGranules (a / 128)), 2, a) else (recallCopies s (a / 128), 1, a)
  | .scratch t o => (s.modTeam t (fun x => { x with scratchPoison := sadd x.scratchPoison (o / 32) }), 2, o)
  | .stack t o => ({ s with threads := mmod s.threads t (fun x => { x with privPoison := sadd x.privPoison (o / 32) }) }, 2, o)
  | .clean a => (s.modCore u.number (fun c => if u.cls = 1 then { c with icache := mdel c.icache (a / 128) } else c), 1, a)
  | .acc a =>
    (match mfind s.acc (a / 128) with
     | some l => ({ s with acc := mput s.acc (a / 128) { l with poisoned := true } }, 9, a)
     | none => (poisonGranule s (a / 32), 9, a))

/-- The context and TEAMIX that the record of an error names: for an accumulator line those of the team that holds its pin (R329, R418). -/
def errorTeam (s : State) (p : ErrPlace) : Option Nat × Word :=
  match p with
  | .acc a => accHolder s (a / 128)
  | _ => (none, 0)

/-- A soft error that an enabled unit meets: its record, and a proof run of the structure that erred. -/
def meetError (s : State) (u : UnitId) (e : SoftErr) : State :=
  let addr := match e.place with
    | .data a _ => a
    | .payload a _ => a
    | .line a _ => a
    | .scratch _ o => o
    | .stack _ o => o
    | .clean a => a
    | .acc a => a
  let r : State × Nat × Nat := if e.corrected then (s, 1, addr) else errorEffect s u e.place
  let who := if e.corrected then (none, 0) else errorTeam s e.place
  let s1 := logError r.1 r.2.1 u r.2.2 who.1 who.2
  if !enabledUnit s u then s else if s1.proofs.contains u then s1 else { s1 with proofs := s1.proofs ++ [u] }

def execSoftError (unit : UnitId) (err : SoftErr) (s : State) : Host.Outcome State Fault Refusal := .next (meetError s unit err)
def execProofRunComplete (unit : UnitId) (pass : Bool) (s : State) : Host.Outcome State Fault Refusal :=
  .next (if s.proofs.contains unit then endProof s unit pass else s)

end Sys2Proof.Machine
end

