-- ==== Sys2Proof/Machine/Crypto.lean ====
section
/-! DEFINITION. SHA3-256 and KMAC256 as FIPS 202 and SP 800-185 define them, over byte lists: what R442, R444 and R445 use (log 11). -/

namespace Sys2Proof.Machine

/-! ### Keccak-f[1600]: 25 lanes, lane (x, y) at 5y + x -/

def lane (a : List DWord) (x y : Nat) : DWord := a.getD (5 * (y % 5) + x % 5) 0

/-- Lanes given by their place. -/
def lanes (f : Nat → Nat → DWord) : List DWord := (List.range 25).map (fun i => f (i % 5) (i / 5))

/-- Theta. -/
def theta (a : List DWord) : List DWord :=
  let c (x : Nat) : DWord := lane a x 0 ^^^ lane a x 1 ^^^ lane a x 2 ^^^ lane a x 3 ^^^ lane a x 4
  let cs := (List.range 5).map c
  let d (x : Nat) : DWord := cs.getD ((x + 4) % 5) 0 ^^^ (cs.getD ((x + 1) % 5) 0).rotateLeft 1
  let ds := (List.range 5).map d
  lanes (fun x y => lane a x y ^^^ ds.getD x 0)

/-- Rotation offsets by lane number. -/
def rhoOffsets : List Nat := [0, 1, 62, 28, 27, 36, 44, 6, 55, 20, 3, 10, 43, 25, 39, 41, 45, 15, 21, 8, 18, 2, 61, 56, 14]

/-- Rho and pi: lane (x, y) goes, rotated, to (y, 2x + 3y). -/
def rhoPi (a : List DWord) : List DWord :=
  let r := (a.zip rhoOffsets).map (fun p => p.1.rotateLeft p.2)
  lanes (fun x y => lane r ((x + 3 * y) % 5) x)

/-- Chi. -/
def chi (a : List DWord) : List DWord := lanes (fun x y => lane a x y ^^^ (~~~(lane a (x + 1) y) &&& lane a (x + 2) y))

/-- The round constants. -/
def roundConstants : List DWord :=
  [0x0000000000000001, 0x0000000000008082, 0x800000000000808A, 0x8000000080008000, 0x000000000000808B, 0x0000000080000001,
   0x8000000080008081, 0x8000000000008009, 0x000000000000008A, 0x0000000000000088, 0x0000000080008009, 0x000000008000000A] ++
  [0x000000008000808B, 0x800000000000008B, 0x8000000000008089, 0x8000000000008003, 0x8000000000008002, 0x8000000000000080,
   0x000000000000800A, 0x800000008000000A, 0x8000000080008081, 0x8000000000008080, 0x0000000080000001, 0x8000000080008008]

/-- One round: the constant enters lane (0, 0). -/
def keccakRound (a : List DWord) (rc : DWord) : List DWord :=
  match chi (rhoPi (theta a)) with
  | [] => []
  | l :: ls => (l ^^^ rc) :: ls

def keccakF (a : List DWord) : List DWord := roundConstants.foldl keccakRound a

/-! ### The sponge with a rate of 136 bytes -/

def rate : Nat := 136

/-- A block of 136 bytes as lanes, the capacity untouched. -/
def blockLanes (bs : List Byte) : List DWord := (List.range 25).map (fun i => if i < 17 then dw (fld bs (8 * i) 8) else 0)

/-- Blocks absorbed, `n` of them. -/
def absorb : Nat → List DWord → List Byte → List DWord
  | 0, a, _ => a
  | n + 1, a, bs => absorb n (keccakF ((a.zip (blockLanes (bs.take rate))).map (fun p => p.1 ^^^ p.2))) (bs.drop rate)

/-- A message with its suffix byte and the final bit of the padding. -/
def padded (suffix : Byte) (m : List Byte) : List Byte :=
  let k := rate - m.length % rate
  if k = 1 then m ++ [suffix ||| 0x80] else m ++ [suffix] ++ List.replicate (k - 2) 0 ++ [0x80]

/-- Up to 136 bytes of output. -/
def sponge (suffix : Byte) (m : List Byte) (n : Nat) : List Byte :=
  let p := padded suffix m
  ((absorb (p.length / rate) (List.replicate 25 0) p).flatMap (fun l => leBytes 8 l.toNat)).take n

/-- SHA3-256. -/
def sha3 (m : List Byte) : List Byte := sponge 0x06 m 32

/-! ### KMAC256 -/

/-- The bytes of a number, most significant first, at least one. -/
def beBytes : Nat → Nat → List Byte
  | 0, _ => []
  | fuel + 1, n => if n < 256 then [BitVec.ofNat 8 n] else beBytes fuel (n / 256) ++ [BitVec.ofNat 8 n]

def leftEncode (n : Nat) : List Byte := let b := beBytes 16 n; BitVec.ofNat 8 b.length :: b
def rightEncode (n : Nat) : List Byte := let b := beBytes 16 n; b ++ [BitVec.ofNat 8 b.length]
def encodeString (s : List Byte) : List Byte := leftEncode (8 * s.length) ++ s
def bytepad (x : List Byte) : List Byte :=
  let y := leftEncode rate ++ x
  y ++ List.replicate ((rate - y.length % rate) % rate) 0

/-- The bytes of "KMAC" and of the customisation string of R442. -/
def kmacName : List Byte := [0x4B, 0x4D, 0x41, 0x43]
def capsuleName : List Byte := [0x4E, 0x5A, 0x38, 0x20, 0x63, 0x61, 0x70, 0x73, 0x75, 0x6C, 0x65]

/-- KMAC256 with a customisation string and an output of `n` bytes. -/
def kmac256 (key m custom : List Byte) (n : Nat) : List Byte :=
  sponge 0x04 (bytepad (encodeString kmacName ++ encodeString custom) ++ bytepad (encodeString key) ++ m ++ rightEncode (8 * n)) n

end Sys2Proof.Machine
end

