-- ==== Sys2Proof/Machine/Outside.lean ====
section
/-! DEFINITION. The world outside: system cores, host, peers, the network port, boot and attestation, heat (R70, R223, R252, R266, R267, R440 to
R447). -/

namespace Sys2Proof.Machine

/-- A reply given to an agent outside. -/
def State.answer (s : State) (r : Reply) : State := { s with replies := s.replies ++ [r] }

/-! ### Accesses by agents outside the cores (R223, R252, R267, R441) -/

/-- An access at a physical place, performed at the home slice: the line is recalled there first (R256, R259). -/
def outsideAt (s : State) (who : Nat) (l : Loc) (acc : OutsideAccess) : State :=
  match acc with
  | .load _ n => (noteHomeReads s l n).answer (.data who (some (readBytes s l n)) (poisoned s l n))
  | .store _ data => writeOut (noteHomes s l data.length) l data
  | .atomic _ fn b c =>
    let m := wd (readNat s l 4)
    (writeNat (noteAtomic s l) l 4 (atomicNew fn m b c).toNat).answer (.data who (some (leBytes 4 m.toNat)) (poisonAt s l))

def accessAddr : OutsideAccess → DWord
  | .load a _ => a
  | .store a _ => a
  | .atomic a _ _ _ => a

/-- The numbers under which replies name agents: a system core, the host, a connection, a peer. -/
def systemAgent : Nat := 0
def hostAgent : Nat := 1
def netAgent (conn : Nat) : Nat := 0x1000 + conn
def peerAgent (peer : Nat) : Nat := 0x100 + peer

/-- A system core's access in a context. DESIGN CHOICE, log 76: one without translation is refused and changes nothing. -/
def systemAccess (s : State) (ctx : Nat) (acc : OutsideAccess) : State :=
  match devicePlace s ctx (accessAddr acc) with
  | some p => outsideAt s systemAgent (.phys p) acc
  | none => (logDevice ⟨6, 0⟩ s ctx (accessAddr acc)).answer (.data systemAgent none false)

def execSystemCoreAccess (ctx : Nat) (acc : OutsideAccess) (s : State) : Host.Outcome State Fault Refusal := .next (systemAccess s ctx acc)

/-- Bytes that an access covers. -/
def accessSize : OutsideAccess → Nat
  | .load _ n => n
  | .store _ data => data.length
  | .atomic _ _ _ _ => 4

/-- What the host holds of the sectors of an access after it: what it held before, shared at least after a load, exclusive after a store or an
atomic (R267, log 25). -/
def hostHolds (s0 s : State) (acc : OutsideAccess) : State :=
  let k := match acc with
    | .load _ _ => 1
    | _ => 2
  (sectorsFrom (.phys (accessAddr acc).toNat) (accessSize acc)).foldl (fun s l => match l with
    | .scratch _ _ => s
    | .phys a =>
      let old := (s0.dirOf (a / 128)).host
      s.modDir (a / 128) (fun d => { d with host := if a / 64 % 2 = 0 then (max k old.1, d.host.2) else (d.host.1, max k old.2) })) s

/-- A host request to device-attached memory, by physical address. -/
def execHostAccess (acc : OutsideAccess) (s : State) : Host.Outcome State Fault Refusal :=
  .next (hostHolds s (outsideAt s hostAgent (.phys (accessAddr acc).toNat) acc) acc)

/-- The register that an offset of BAR 0 names: register n at 8n, the append registers apart, which belong to the system cores alone
(R426, R440, log 62). -/
def barRegister (offset : Nat) : Option Nat :=
  let n := offset / 8
  if offset % 8 = 0 ∧ n ≤ 0x603F ∧ ¬ (0x3000 ≤ n ∧ n < 0x3400) then some n else none

/-- A read by the host in the window of BAR 0, and a write there, with the effect of a system core's write. -/
def barRead (s : State) (offset : Nat) : State :=
  s.answer (.data hostAgent (some (leBytes 8 (((barRegister offset).map (readReg s)).getD 0).toNat)) false)
def barWrite (s : State) (offset : Nat) (v : DWord) : State :=
  match barRegister offset with
  | some n => writeReg s n v
  | none => s

/-- A peer's access at a home slice; from a peer that no port reaches nothing arrives. -/
def execPeerAccess (peer : Nat) (acc : OutsideAccess) (s : State) : Host.Outcome State Fault Refusal :=
  .next (if s.lost.contains peer then s else outsideAt s (peerAgent peer) (.phys (accessAddr acc).toNat) acc)

/-- No port reaches a peer any more: an error record names the port, which one is a free value (log 5). -/
def losePeer (s : State) (peer : Nat) : State :=
  if s.lost.contains peer then s
  else logError { s with lost := sadd s.lost peer, freeCount := s.freeCount + 1 } 2 ⟨7, Config.freeNat s.freeCount % 64⟩ (2 ^ 56 + peer * 2 ^ 48) none 0

def execPeerLinkLoss (peer : Nat) (s : State) : Host.Outcome State Fault Refusal := .next (losePeer s peer)

/-! ### The connection table (R443) -/

def State.conn (s : State) (c w : Nat) : DWord := mget 0 s.conns (8 * c + w)
def State.setConn (s : State) (c w : Nat) (v : DWord) : State := { s with conns := mset 0 s.conns (8 * c + w) v }

/-- A system core writes a word of an entry. -/
def writeConn (s : State) (c w : Nat) (v : DWord) : State :=
  if 4096 ≤ c then s
  else
    match w with
    | 0 => s.setConn c 0 (v &&& maskBits 30 0)
    | 7 => s
    | _ => if w < 7 then s.setConn c w v else s
/-- What a read of a word of an entry returns: the key reads zero, as what is no word of an entry does. -/
def readConn (s : State) (c w : Nat) : DWord := if 2 ≤ w ∧ w ≤ 5 ∨ 8 ≤ w ∨ 4096 ≤ c then 0 else s.conn c w

def connCtx (s : State) (c : Nat) : Nat := bits (s.conn c 0).toNat 29 24
/-- One more capsule dropped, or append refused; both counts saturate. -/
def countDropped (s : State) (c : Nat) : State :=
  let v := (s.conn c 6).toNat
  s.setConn c 6 (dw (v / 2 ^ 32 * 2 ^ 32 + min (2 ^ 32 - 1) (v % 2 ^ 32 + 1)))
def countRefused (s : State) (c : Nat) : State :=
  let v := (s.conn c 6).toNat
  s.setConn c 6 (dw (min (2 ^ 32 - 1) (v / 2 ^ 32 + 1) * 2 ^ 32 + v % 2 ^ 32))

/-! ### The network port (R442) -/

/-- The checks of a capsule, in order (R443). -/
def capsuleGood (s : State) (c : Nat) (p : List Byte) : Bool :=
  let key := [2, 3, 4, 5].flatMap (fun w => leBytes 8 (s.conn c w).toNat)
  (s.conn c 0).getLsbD 30 && decide (fld p 0 4 = 0x4E5A4350) && decide (fld p 4 2 = 1) && zeroAt p 32 32 &&
    decide ((p.drop 16).take 16 = kmac256 key (p.take 16 ++ p.drop 32) capsuleName 16) && decide ((s.conn c 1).toNat < fld p 8 8)

/-- A send: a work capsule of 192 bytes that passes every check is appended, after a release at system scope (R70, R266); every other one is dropped and
counted. DESIGN CHOICE, log 77: a queue number above 1,023 gives the append outcome 2. -/
def takeSend (s : State) (c : Nat) (p : List Byte) : State :=
  if p.length ≠ 192 then countDropped s c
  else if !capsuleGood s c p then countDropped s c
  else
    let x := appendSlot (farRelease (s.setConn c 1 (dw (fld p 8 8)))) (fld p 6 2) .network (connCtx s c) (p.drop 64) none
    if x.2 = 0 then x.1 else countRefused x.1 c

def execSendEvent (conn : Nat) (payload : List Byte) (s : State) : Host.Outcome State Fault Refusal := .next (takeSend s conn payload)

/-- The physical pieces of a range of a context on normal pages with a permission, none when a page lacks it. -/
def netPieces (s : State) (ctx : Nat) (write : Bool) : List (Nat × Nat) → Option (List (Nat × Nat))
  | [] => some []
  | (a, n) :: ps =>
    if bits a 63 57 ≠ 0 then none
    else
      match unitWalk s ctx a with
      | .leaf e size =>
        if leafType e = 0 ∧ (if write then leafWrite e else leafRead e) then
          (netPieces s ctx write ps).map (fun r => (leafPhys e size a, n) :: r)
        else none
      | _ => none

/-- A negative acknowledgement of the network port: a malformed page-table entry that the range met is recorded first (R201, R442). -/
def refuseNet (s : State) (conn : Nat) (write : Bool) (ps : List (Nat × Nat)) : State :=
  (match ps.find? (fun p => (netPieces s (connCtx s conn) write [p]).isNone) with
   | some p => logDevice ⟨7, 66⟩ s (connCtx s conn) (dw p.1)
   | none => s).answer (.nak conn)

/-- The lines of a run of bytes at system scope: a far one is written back to the pool (R70, R266). -/
def writeFar (s : State) (pa n : Nat) : State :=
  (sectorsFrom (.phys pa) n).foldl (fun s l => match l with
    | .phys a => if farLine (a / 128) then s.modDir (a / 128) Dir.writtenBack else s
    | .scratch _ _ => s) s

/-- Bytes written over physical pieces, as system-scope writes (R70, R442). -/
def writePieces : State → List (Nat × Nat) → List Byte → State
  | s, [], _ => s
  | s, (p, n) :: ps, data => writePieces (writeFar (writeOut (noteHomes s (.phys p) n) (.phys p) (data.take n)) p n) ps (data.drop n)

/-- An RDMA write in the connection's context; a range that cannot be written is answered with a negative acknowledgement. -/
def execRdmaWrite (conn : Nat) (addr : DWord) (data : List Byte) (s : State) : Host.Outcome State Fault Refusal :=
  .next (match netPieces s (connCtx s conn) true (pieces addr.toNat data.length) with
    | some ps => writePieces s ps data
    | none => refuseNet s conn true (pieces addr.toNat data.length))
def execRdmaRead (conn : Nat) (addr : DWord) (size : Nat) (s : State) : Host.Outcome State Fault Refusal :=
  .next (match netPieces s (connCtx s conn) false (pieces addr.toNat size) with
    | some ps => (ps.foldl (fun s p => noteHomeReads s (.phys p.1) p.2) s).answer (.data (netAgent conn) (some (ps.flatMap (fun p => readBytes s (.phys p.1) p.2))) (ps.any (fun p => poisoned s (.phys p.1) p.2)))
    | none => refuseNet s conn false (pieces addr.toNat size))
def execRdmaAtomic (conn : Nat) (s : State) : Host.Outcome State Fault Refusal := .next (s.answer (.nak conn))

/-! ### Boot and attestation (R444, R445) -/

/-- The digest of an image's body. -/
def bodyDigest (f : Firmware) : List Byte := sha3 f.body

/-- Whether a stage may run, given the key digests that verified stages name. -/
def stageGood (named : List (List Byte)) (f : Firmware) : Bool :=
  (decide (sha3 f.key = Config.rootKeyDigest) || named.contains (sha3 f.key)) && Config.mldsaVerify f.key f.signature (bodyDigest f) &&
    decide (Config.leastVersion ≤ f.version)

def measurement (s : State) (k : Nat) : List Byte := mget (List.replicate 32 0) s.meas k
/-- Stage k measured. -/
def measure (s : State) (k : Nat) (f : Firmware) : State :=
  { s with meas := mput s.meas (k % 8) (sha3 (measurement s (k % 8) ++ bodyDigest f)) }

/-- Stages verified and measured in order; boot stops at the first that fails, and is complete after the last when there are at least three
(system cores, management controller, engines and walkers). -/
def bootStages (named : List (List Byte)) (k : Nat) : State → List Firmware → State
  | s, [] => { s with boot := if 3 ≤ k then .running else .stopped }
  | s, f :: fs =>
    if stageGood named f then bootStages (named ++ f.names) (k + 1) (measure s k f) fs else { s with boot := .stopped }

/-- The device as reset leaves it; the moves to come, the free values already given and what outside agents were told are the model's own. -/
def afterReset (s : State) : State :=
  { State.reset with agenda := s.agenda, freeCount := s.freeCount, nextId := s.nextId, clock := s.clock, replies := s.replies }

def execResetEvent (images : List Firmware) (s : State) : Host.Outcome State Fault Refusal := .next (bootStages [] 0 (afterReset s) images)

/-- The inventory registers in the order of their numbers. -/
def inventory (s : State) : List Byte :=
  ([0x5008, 0x5009, 0x500A, 0x500B, 0x500C, 0x5048, 0x5049, 0x504A, 0x504B, 0x504C, 0x6000, 0x6001, 0x6002, 0x6003, 0x6004, 0x6005,
    0x6006, 0x6007, 0x6008, 0x6009]).flatMap (fun n => leBytes 8 (s.sysReg n).toNat)

/-- A quote over a nonce, the measurement registers and the inventory. -/
def quoteFor (s : State) (nonce : List Byte) : List Byte :=
  let regs := (List.range 8).flatMap (measurement s)
  Config.mldsaSign (Config.attestationKey Config.deviceSecret regs) (sha3 (nonce ++ regs ++ inventory s))

def execQuote (nonce : List Byte) (s : State) : Host.Outcome State Fault Refusal := .next (s.answer (.quote (quoteFor s nonce)))

/-! ### Heat (R447) -/

/-- A die above the thermal threshold: its arithmetic clock one step lower, the system cores interrupted. -/
def heat (s : State) (die : Nat) : State :=
  let s1 := s.modDie die (fun d => { d with clock := d.clock + 1 })
  { s1 with irqs := s1.irqs ++ [.thermal die] }

def execThermalThreshold (die : Nat) (s : State) : Host.Outcome State Fault Refusal := .next (heat s die)
/-- The module powers off and all work is lost. -/
def execCriticalTemperature (s : State) : Host.Outcome State Fault Refusal := .next { afterReset s with boot := .off }

end Sys2Proof.Machine
end

