-- ==== Sys2Proof/Machine/Dispatch.lean ====
section
/-! DEFINITION. The meaning of every instruction and event: one call per constructor. -/

namespace Sys2Proof.Machine

/-- What an instruction does to the set that issues, or an event to the device. -/
def exec (i : Instr) (s : State) : Host.Outcome State Fault Refusal :=
  match i with
  | .add n d a b => Sys2Proof.Machine.execAdd n d a b s
  | .sub n d a b => Sys2Proof.Machine.execSub n d a b s
  | .mul n d a b => Sys2Proof.Machine.execMul n d a b s
  | .mulhiI n d a b => Sys2Proof.Machine.execMulhiI n d a b s
  | .mulhiN n d a b => Sys2Proof.Machine.execMulhiN n d a b s
  | .mad n d a b => Sys2Proof.Machine.execMad n d a b s
  | .minI n d a b => Sys2Proof.Machine.execMinI n d a b s
  | .maxI n d a b => Sys2Proof.Machine.execMaxI n d a b s
  | .minN n d a b => Sys2Proof.Machine.execMinN n d a b s
  | .maxN n d a b => Sys2Proof.Machine.execMaxN n d a b s
  | .absInt n d a => Sys2Proof.Machine.execAbsInt n d a s
  | .addsatI n d a b => Sys2Proof.Machine.execAddsatI n d a b s
  | .subsatI n d a b => Sys2Proof.Machine.execSubsatI n d a b s
  | .clz n d a => Sys2Proof.Machine.execClz n d a s
  | .popc n d a => Sys2Proof.Machine.execPopc n d a s
  | .brev n d a => Sys2Proof.Machine.execBrev n d a s
  | .andW n d a b => Sys2Proof.Machine.execAndW n d a b s
  | .orW n d a b => Sys2Proof.Machine.execOrW n d a b s
  | .xorW n d a b => Sys2Proof.Machine.execXorW n d a b s
  | .andn n d a b => Sys2Proof.Machine.execAndn n d a b s
  | .orn n d a b => Sys2Proof.Machine.execOrn n d a b s
  | .xnor n d a b => Sys2Proof.Machine.execXnor n d a b s
  | .sel n d a b => Sys2Proof.Machine.execSel n d a b s
  | .mov n d a => Sys2Proof.Machine.execMov n d a s
  | .shl n d a b => Sys2Proof.Machine.execShl n d a b s
  | .shr n d a b => Sys2Proof.Machine.execShr n d a b s
  | .sar n d a b => Sys2Proof.Machine.execSar n d a b s
  | .rol n d a b => Sys2Proof.Machine.execRol n d a b s
  | .shl64 n d a b => Sys2Proof.Machine.execShl64 n d a b s
  | .shr64 n d a b => Sys2Proof.Machine.execShr64 n d a b s
  | .bfx n d a b => Sys2Proof.Machine.execBfx n d a b s
  | .bfi n d a b => Sys2Proof.Machine.execBfi n d a b s
  | .cmpEq n d a b => Sys2Proof.Machine.execCmpEq n d a b s
  | .cmpNe n d a b => Sys2Proof.Machine.execCmpNe n d a b s
  | .ltI n d a b => Sys2Proof.Machine.execLtI n d a b s
  | .leI n d a b => Sys2Proof.Machine.execLeI n d a b s
  | .ltN n d a b => Sys2Proof.Machine.execLtN n d a b s
  | .leN n d a b => Sys2Proof.Machine.execLeN n d a b s
  | .tst n d a b => Sys2Proof.Machine.execTst n d a b s
  | .voteAny n d a => Sys2Proof.Machine.execVoteAny n d a s
  | .voteAll n d a => Sys2Proof.Machine.execVoteAll n d a s
  | .voteBal n d a => Sys2Proof.Machine.execVoteBal n d a s
  | .matchLanes n d a => Sys2Proof.Machine.execMatchLanes n d a s
  | .actmask n d => Sys2Proof.Machine.execActmask n d s
  | .movs d imm => Sys2Proof.Machine.execMovs d imm s
  | .add64 n d a b => Sys2Proof.Machine.execAdd64 n d a b s
  | .sub64 n d a b => Sys2Proof.Machine.execSub64 n d a b s
  | .addxI n d a b => Sys2Proof.Machine.execAddxI n d a b s
  | .addxN n d a b => Sys2Proof.Machine.execAddxN n d a b s
  | .cmplt64 n d a b => Sys2Proof.Machine.execCmplt64 n d a b s
  | .cmpeq64 n d a b => Sys2Proof.Machine.execCmpeq64 n d a b s
  | .mov64 n d a => Sys2Proof.Machine.execMov64 n d a s
  | .addi n d a imm => Sys2Proof.Machine.execAddi n d a imm s
  | .andi n d a imm => Sys2Proof.Machine.execAndi n d a imm s
  | .ori n d a imm => Sys2Proof.Machine.execOri n d a imm s
  | .xori n d a imm => Sys2Proof.Machine.execXori n d a imm s
  | .shli n d a imm => Sys2Proof.Machine.execShli n d a imm s
  | .shri n d a imm => Sys2Proof.Machine.execShri n d a imm s
  | .sari n d a imm => Sys2Proof.Machine.execSari n d a imm s
  | .roli n d a imm => Sys2Proof.Machine.execRoli n d a imm s
  | .cmpiEq n d a imm => Sys2Proof.Machine.execCmpiEq n d a imm s
  | .cmpiNe n d a imm => Sys2Proof.Machine.execCmpiNe n d a imm s
  | .cmpiLtI n d a imm => Sys2Proof.Machine.execCmpiLtI n d a imm s
  | .cmpiLeI n d a imm => Sys2Proof.Machine.execCmpiLeI n d a imm s
  | .cmpiLtN n d a imm => Sys2Proof.Machine.execCmpiLtN n d a imm s
  | .cmpiLeN n d a imm => Sys2Proof.Machine.execCmpiLeN n d a imm s
  | .cmpiGtI n d a imm => Sys2Proof.Machine.execCmpiGtI n d a imm s
  | .cmpiGeI n d a imm => Sys2Proof.Machine.execCmpiGeI n d a imm s
  | .movi d imm => Sys2Proof.Machine.execMovi d imm s
  | .movhi d imm => Sys2Proof.Machine.execMovhi d imm s
  | .bnz h a slot dline => Sys2Proof.Machine.execBnz h a slot dline s
  | .bz h a slot dline => Sys2Proof.Machine.execBz h a slot dline s
  | .jmp h slot dline => Sys2Proof.Machine.execJmp h slot dline s
  | .call h slot dline => Sys2Proof.Machine.execCall h slot dline s
  | .jmpi a => Sys2Proof.Machine.execJmpi a s
  | .calli a => Sys2Proof.Machine.execCalli a s
  | .rjEnrol k => Sys2Proof.Machine.execRjEnrol k s
  | .rjWait k => Sys2Proof.Machine.execRjWait k s
  | .rjStrike k => Sys2Proof.Machine.execRjStrike k s
  | .rjQuery d k => Sys2Proof.Machine.execRjQuery d k s
  | .spadd a x => Sys2Proof.Machine.execSpadd a x s
  | .spget d => Sys2Proof.Machine.execSpget d s
  | .spset a => Sys2Proof.Machine.execSpset a s
  | .brk x => Sys2Proof.Machine.execBrk x s
  | .fadd n d a b => Sys2Proof.Machine.execFadd n d a b s
  | .fsub n d a b => Sys2Proof.Machine.execFsub n d a b s
  | .fmul n d a b => Sys2Proof.Machine.execFmul n d a b s
  | .ffma n d a b => Sys2Proof.Machine.execFfma n d a b s
  | .ffms n d a b => Sys2Proof.Machine.execFfms n d a b s
  | .fmin n d a b => Sys2Proof.Machine.execFmin n d a b s
  | .fmax n d a b => Sys2Proof.Machine.execFmax n d a b s
  | .fcpsgn n d a b => Sys2Proof.Machine.execFcpsgn n d a b s
  | .feq n d a b => Sys2Proof.Machine.execFeq n d a b s
  | .flt n d a b => Sys2Proof.Machine.execFlt n d a b s
  | .fle n d a b => Sys2Proof.Machine.execFle n d a b s
  | .funord n d a b => Sys2Proof.Machine.execFunord n d a b s
  | .fclass n d a => Sys2Proof.Machine.execFclass n d a s
  | .fabs n d a => Sys2Proof.Machine.execFabs n d a s
  | .fneg n d a => Sys2Proof.Machine.execFneg n d a s
  | .frcp n d a => Sys2Proof.Machine.execFrcp n d a s
  | .frsq n d a => Sys2Proof.Machine.execFrsq n d a s
  | .fsqrt n d a => Sys2Proof.Machine.execFsqrt n d a s
  | .fexp2 n d a => Sys2Proof.Machine.execFexp2 n d a s
  | .flog2 n d a => Sys2Proof.Machine.execFlog2 n d a s
  | .ftanh n d a => Sys2Proof.Machine.execFtanh n d a s
  | .fsin n d a => Sys2Proof.Machine.execFsin n d a s
  | .fcos n d a => Sys2Proof.Machine.execFcos n d a s
  | .hadd2 n d a b => Sys2Proof.Machine.execHadd2 n d a b s
  | .hsub2 n d a b => Sys2Proof.Machine.execHsub2 n d a b s
  | .hmul2 n d a b => Sys2Proof.Machine.execHmul2 n d a b s
  | .hfma2 n d a b => Sys2Proof.Machine.execHfma2 n d a b s
  | .hmin2 n d a b => Sys2Proof.Machine.execHmin2 n d a b s
  | .hmax2 n d a b => Sys2Proof.Machine.execHmax2 n d a b s
  | .hdot2 n d a b => Sys2Proof.Machine.execHdot2 n d a b s
  | .cvtF2i n d a r => Sys2Proof.Machine.execCvtF2i n d a r s
  | .cvtF2n n d a r => Sys2Proof.Machine.execCvtF2n n d a r s
  | .cvtI2f n d a r => Sys2Proof.Machine.execCvtI2f n d a r s
  | .cvtN2f n d a r => Sys2Proof.Machine.execCvtN2f n d a r s
  | .cvtF2bf n d a r => Sys2Proof.Machine.execCvtF2bf n d a r s
  | .cvtBf2f n d a => Sys2Proof.Machine.execCvtBf2f n d a s
  | .cvtF2h n d a r => Sys2Proof.Machine.execCvtF2h n d a r s
  | .cvtH2f n d a => Sys2Proof.Machine.execCvtH2f n d a s
  | .cvtFrnd n d a r => Sys2Proof.Machine.execCvtFrnd n d a r s
  | .cvtEnc n d a k r => Sys2Proof.Machine.execCvtEnc n d a k r s
  | .cvtDec n d a k r => Sys2Proof.Machine.execCvtDec n d a k r s
  | .narrowPack n d a k p => Sys2Proof.Machine.execNarrowPack n d a k p s
  | .narrowUnpack n d a k p => Sys2Proof.Machine.execNarrowUnpack n d a k p s
  | .xbPerm n d a b => Sys2Proof.Machine.execXbPerm n d a b s
  | .xbPerm2 n d a b => Sys2Proof.Machine.execXbPerm2 n d a b s
  | .xbShfl n d a b => Sys2Proof.Machine.execXbShfl n d a b s
  | .xbBcast n d a b => Sys2Proof.Machine.execXbBcast n d a b s
  | .xbRot n d a b => Sys2Proof.Machine.execXbRot n d a b s
  | .xbTrn n d a b => Sys2Proof.Machine.execXbTrn n d a b s
  | .ldg n d a r sz off => Sys2Proof.Machine.execLdg n d a r sz off s
  | .stg d a r sz off => Sys2Proof.Machine.execStg d a r sz off s
  | .lds n d a sz off => Sys2Proof.Machine.execLds n d a sz off s
  | .sts d a sz off => Sys2Proof.Machine.execSts d a sz off s
  | .ldp n d a sz off => Sys2Proof.Machine.execLdp n d a sz off s
  | .stp d a sz off => Sys2Proof.Machine.execStp d a sz off s
  | .atomgAdd n d a b => Sys2Proof.Machine.execAtomgAdd n d a b s
  | .atomgMinI n d a b => Sys2Proof.Machine.execAtomgMinI n d a b s
  | .atomgMaxI n d a b => Sys2Proof.Machine.execAtomgMaxI n d a b s
  | .atomgAnd n d a b => Sys2Proof.Machine.execAtomgAnd n d a b s
  | .atomgOr n d a b => Sys2Proof.Machine.execAtomgOr n d a b s
  | .atomgXor n d a b => Sys2Proof.Machine.execAtomgXor n d a b s
  | .atomgXchg n d a b => Sys2Proof.Machine.execAtomgXchg n d a b s
  | .atomgCas n d a b => Sys2Proof.Machine.execAtomgCas n d a b s
  | .atomsAdd n d a b => Sys2Proof.Machine.execAtomsAdd n d a b s
  | .atomsMinI n d a b => Sys2Proof.Machine.execAtomsMinI n d a b s
  | .atomsMaxI n d a b => Sys2Proof.Machine.execAtomsMaxI n d a b s
  | .atomsAnd n d a b => Sys2Proof.Machine.execAtomsAnd n d a b s
  | .atomsOr n d a b => Sys2Proof.Machine.execAtomsOr n d a b s
  | .atomsXor n d a b => Sys2Proof.Machine.execAtomsXor n d a b s
  | .atomsXchg n d a b => Sys2Proof.Machine.execAtomsXchg n d a b s
  | .atomsCas n d a b => Sys2Proof.Machine.execAtomsCas n d a b s
  | .redfFadd a b => Sys2Proof.Machine.execRedfFadd a b s
  | .redfFmin a b => Sys2Proof.Machine.execRedfFmin a b s
  | .redfFmax a b => Sys2Proof.Machine.execRedfFmax a b s
  | .redfHadd2 a b => Sys2Proof.Machine.execRedfHadd2 a b s
  | .redfAccred a b => Sys2Proof.Machine.execRedfAccred a b s
  | .redfAddI a b => Sys2Proof.Machine.execRedfAddI a b s
  | .fence x => Sys2Proof.Machine.execFence x s
  | .phInit d a k => Sys2Proof.Machine.execPhInit d a k s
  | .phArrive d k => Sys2Proof.Machine.execPhArrive d k s
  | .phWait a k => Sys2Proof.Machine.execPhWait a k s
  | .phTest d a k => Sys2Proof.Machine.execPhTest d a k s
  | .phEnd d k => Sys2Proof.Machine.execPhEnd d k s
  | .phStat d k => Sys2Proof.Machine.execPhStat d k s
  | .phInval d k => Sys2Proof.Machine.execPhInval d k s
  | .cpIssue d a x => Sys2Proof.Machine.execCpIssue d a x s
  | .cpMcast d a x => Sys2Proof.Machine.execCpMcast d a x s
  | .cpCancel d a => Sys2Proof.Machine.execCpCancel d a s
  | .pref a x => Sys2Proof.Machine.execPref a x s
  | .pin d a x => Sys2Proof.Machine.execPin d a x s
  | .unpin a x => Sys2Proof.Machine.execUnpin a x s
  | .cwb d a x => Sys2Proof.Machine.execCwb d a x s
  | .cinv d a => Sys2Proof.Machine.execCinv d a s
  | .iinv d a => Sys2Proof.Machine.execIinv d a s
  | .xbTload a k => Sys2Proof.Machine.execXbTload a k s
  | .shWin d a r => Sys2Proof.Machine.execShWin d a r s
  | .launch d a => Sys2Proof.Machine.execLaunch d a s
  | .dgSignal d a => Sys2Proof.Machine.execDgSignal d a s
  | .spmap d a => Sys2Proof.Machine.execSpmap d a s
  | .spunmap d => Sys2Proof.Machine.execSpunmap d s
  | .spwb d => Sys2Proof.Machine.execSpwb d s
  | .mxLoad a => Sys2Proof.Machine.execMxLoad a s
  | .mxStream a => Sys2Proof.Machine.execMxStream a s
  | .mxAdapt a => Sys2Proof.Machine.execMxAdapt a s
  | .accArm d a => Sys2Proof.Machine.execAccArm d a s
  | .accDrain a x => Sys2Proof.Machine.execAccDrain a x s
  | .accClear d a => Sys2Proof.Machine.execAccClear d a s
  | .accStat d a => Sys2Proof.Machine.execAccStat d a s
  | .vwSet d a k => Sys2Proof.Machine.execVwSet d a k s
  | .vwRefresh d k => Sys2Proof.Machine.execVwRefresh d k s
  | .vwGet d fsel k => Sys2Proof.Machine.execVwGet d fsel k s
  | .vwClear d k => Sys2Proof.Machine.execVwClear d k s
  | .gaWalk d a x => Sys2Proof.Machine.execGaWalk d a x s
  | .gaStat d a => Sys2Proof.Machine.execGaStat d a s
  | .btBind d a slot => Sys2Proof.Machine.execBtBind d a slot s
  | .btRetire d slot => Sys2Proof.Machine.execBtRetire d slot s
  | .trap a x => Sys2Proof.Machine.execTrap a x s
  | .movsys d a => Sys2Proof.Machine.execMovsys d a s
  | .movsysW d a => Sys2Proof.Machine.execMovsysW d a s
  | .movtsysSlim a => Sys2Proof.Machine.execMovtsysSlim a s
  | .syscall d a x => Sys2Proof.Machine.execSyscall d a x s
  | .waitev d a => Sys2Proof.Machine.execWaitev d a s
  | .tlbinv d a => Sys2Proof.Machine.execTlbinv d a s
  | .halt d a => Sys2Proof.Machine.execHalt d a s
  | .haltRes d a => Sys2Proof.Machine.execHaltRes d a s
  | .proof d a => Sys2Proof.Machine.execProof d a s
  | .takeLaunchSlot die q => Sys2Proof.Machine.execTakeLaunchSlot die q s
  | .ageingExpiry grid => Sys2Proof.Machine.execAgeingExpiry grid s
  | .clusterStart die grid => Sys2Proof.Machine.execClusterStart die grid s
  | .runLimitKill team => Sys2Proof.Machine.execRunLimitKill team s
  | .completionEntryWrite q => Sys2Proof.Machine.execCompletionEntryWrite q s
  | .graphSlotTake die q => Sys2Proof.Machine.execGraphSlotTake die q s
  | .nodeFinish ctx node => Sys2Proof.Machine.execNodeFinish ctx node s
  | .loadDataReturn load => Sys2Proof.Machine.execLoadDataReturn load s
  | .storeQueueLeave queue => Sys2Proof.Machine.execStoreQueueLeave queue s
  | .arrivalCounted queue => Sys2Proof.Machine.execArrivalCounted queue s
  | .streamerBeat req beat => Sys2Proof.Machine.execStreamerBeat req beat s
  | .copyComplete req => Sys2Proof.Machine.execCopyComplete req s
  | .matrixEntryStart entry => Sys2Proof.Machine.execMatrixEntryStart entry s
  | .matrixEntryComplete entry => Sys2Proof.Machine.execMatrixEntryComplete entry s
  | .mainRowIssue entry => Sys2Proof.Machine.execMainRowIssue entry s
  | .governorWindow die core => Sys2Proof.Machine.execGovernorWindow die core s
  | .accContribution contribution => Sys2Proof.Machine.execAccContribution contribution s
  | .adapterSliceArrival team slice => Sys2Proof.Machine.execAdapterSliceArrival team slice s
  | .accLineEvict line => Sys2Proof.Machine.execAccLineEvict line s
  | .numericWindowClose team window cls => Sys2Proof.Machine.execNumericWindowClose team window cls s
  | .afterIssueFaultDelivery unit => Sys2Proof.Machine.execAfterIssueFaultDelivery unit s
  | .killComplete team => Sys2Proof.Machine.execKillComplete team s
  | .teamRetire team => Sys2Proof.Machine.execTeamRetire team s
  | .eviction team => Sys2Proof.Machine.execEviction team s
  | .teamResume team places => Sys2Proof.Machine.execTeamResume team places s
  | .moveRehome die => Sys2Proof.Machine.execMoveRehome die s
  | .versionFreed ctx base version => Sys2Proof.Machine.execVersionFreed ctx base version s
  | .syscallAnswered unit => Sys2Proof.Machine.execSyscallAnswered unit s
  | .waitevWake unit => Sys2Proof.Machine.execWaitevWake unit s
  | .illegalInstruction w => Sys2Proof.Machine.execIllegalInstruction w s
  | .qappAppend q record => Sys2Proof.Machine.execQappAppend q record s
  | .queueEnable q value => Sys2Proof.Machine.execQueueEnable q value s
  | .queueDisable q value => Sys2Proof.Machine.execQueueDisable q value s
  | .systemRegisterWrite number value => Sys2Proof.Machine.execSystemRegisterWrite number value s
  | .dgevRequest die value => Sys2Proof.Machine.execDgevRequest die value s
  | .evictreqWrite value => Sys2Proof.Machine.execEvictreqWrite value s
  | .replayAnswer die value => Sys2Proof.Machine.execReplayAnswer die value s
  | .repack ctx page => Sys2Proof.Machine.execRepack ctx page s
  | .agentDeadScrub unit => Sys2Proof.Machine.execAgentDeadScrub unit s
  | .softError unit err => Sys2Proof.Machine.execSoftError unit err s
  | .proofRunComplete unit pass => Sys2Proof.Machine.execProofRunComplete unit pass s
  | .sendEvent conn payload => Sys2Proof.Machine.execSendEvent conn payload s
  | .rdmaWrite conn addr data => Sys2Proof.Machine.execRdmaWrite conn addr data s
  | .rdmaRead conn addr size => Sys2Proof.Machine.execRdmaRead conn addr size s
  | .rdmaAtomic conn => Sys2Proof.Machine.execRdmaAtomic conn s
  | .resetEvent images => Sys2Proof.Machine.execResetEvent images s
  | .quote nonce => Sys2Proof.Machine.execQuote nonce s
  | .thermalThreshold die => Sys2Proof.Machine.execThermalThreshold die s
  | .systemCoreAccess ctx acc => Sys2Proof.Machine.execSystemCoreAccess ctx acc s
  | .hostAccess acc => Sys2Proof.Machine.execHostAccess acc s
  | .peerAccess peer acc => Sys2Proof.Machine.execPeerAccess peer acc s
  | .peerLinkLoss peer => Sys2Proof.Machine.execPeerLinkLoss peer s
  | .cacheLineEviction cache line => Sys2Proof.Machine.execCacheLineEviction cache line s
  | .contextValidClear ctx => Sys2Proof.Machine.execContextValidClear ctx s
  | .staleIncarnation unit inc addr => Sys2Proof.Machine.execStaleIncarnation unit inc addr s
  | .ret => Sys2Proof.Machine.execRet s
  | .exit => Sys2Proof.Machine.execExit s
  | .yield => Sys2Proof.Machine.execYield s
  | .nop => Sys2Proof.Machine.execNop s
  | .fetchb => Sys2Proof.Machine.execFetchb s
  | .shJoin => Sys2Proof.Machine.execShJoin s
  | .shLeave => Sys2Proof.Machine.execShLeave s
  | .mxSwap => Sys2Proof.Machine.execMxSwap s
  | .mxWait => Sys2Proof.Machine.execMxWait s
  | .eret => Sys2Proof.Machine.execEret s
  | .movtsysRunclr => Sys2Proof.Machine.execMovtsysRunclr s
  | .hbmWindow => Sys2Proof.Machine.execHbmWindow s
  | .moveToPool => Sys2Proof.Machine.execMoveToPool s
  | .moveFromPool => Sys2Proof.Machine.execMoveFromPool s
  | .criticalTemperature => Sys2Proof.Machine.execCriticalTemperature s

end Sys2Proof.Machine
end

