-- ==== Sys2Proof/Machine/Issue.lean ====
section
/-! DEFINITION. One chain issues for one set: fetch, checks for the whole chain, its words in slot order, what becomes of the lanes that fail, the
exchange of groups (R82, R86, R101 to R112, R177, R398, R401); then the moves that are no instruction: cycles, fetches ahead (R78, R120, R333). -/

namespace Sys2Proof.Machine

/-! ### One chain -/

/-- The latch that a word's results make valid (R111, R112). -/
def keptLatch (i : Instr) : List Nat :=
  match (pipeOf i).latch with
  | some k => if (operands i).any Opnd.writes then [k] else []
  | none => []

/-- The byte of its private window from which on a word that has executed read or wrote for a thread. -/
def stackByte (s : State) (i : Instr) (tid : Nat) : Option Nat :=
  match i with
  | .ldp _ _ a sz off => some (memOff s tid a sz off).toNat
  | .stp _ a sz off => some (memOff s tid a sz off).toNat
  | .call _ _ _ => some (s.thread tid).sp.toNat
  | .calli _ => some (s.thread tid).sp.toNat
  | .ret => some (s.pre tid).sp.toNat
  | _ => none

/-- A core's stack cache takes lines of private windows, 512 of 128 bytes in its 64 KiB, the oldest leaving for a new one (R15, R121). -/
def noteStack (s : State) (i : Instr) : State :=
  let new := s.issue.lanes.filterMap (fun l => (stackByte s i l).map (fun o => (l, o / 128)))
  if new.isEmpty then s
  else s.modCore (s.team s.issueTeam).coreId (fun c =>
    { c with stackLines := (new.reverse ++ c.stackLines.filter (fun p => !new.contains p)).take 512 })

/-- A word has executed: its latch stays valid in the chain, the stack cache holds the lines it used, and each vector thread counts one unit
(R177). DESIGN CHOICE, log 69: the events of the word that fills a window, and the units and events of later words of its chain, belong to that window. -/
def wordDone (s0 : State) (i : Instr) : State :=
  let s := noteStack s0 i
  let s1 := { s with issue := { s.issue with kept := s.issue.kept ++ keptLatch i } }
  if groupIx s.issue.group = 32 then s1 else countUnits s1 s.issueTeam false s.issue.lanes.length

/-- The words of a chain executed in slot order. -/
def runWords : State → List (DWord × Word) → Host.Outcome State Fault Refusal
  | s, [] => .next s
  | s, (a, w) :: r =>
    match exec (decodeWord w) (s.atWord a w) with
    | .next s1 => runWords (wordDone s1 (decodeWord w)) r
    | o => o

/-- The lanes that did not pass, in ascending order, held at a page of their fetch or of their access, or trapping together (R209, R398, R399). -/
def stopChain (s : State) (gid : Nat) (lanes : List Nat) (fetch access : List (Nat × Verdict)) : State :=
  let found (vs : List (Nat × Verdict)) (l : Nat) : Option Verdict := (vs.find? (fun p => decide (p.1 = l))).map Prod.snd
  let s1 := lanes.foldl (fun s l =>
    match found fetch l, found access l with
    | some (.hold page acc f), _ => holdThread s l page 4 acc f
    | none, some (.hold page acc f) => holdThread s l page (b1 (isBurin l)) acc f
    | _, _ => s) s
  takeTrap s1 gid (lanes.filterMap (fun l =>
    match (found fetch l).or (found access l) with
    | some (.trap f) => some (l, { f with trapNo := s.runOf l })
    | _ => none))

/-- The set is about to issue a chain: its lanes, their threads and the pattern tables of their team as they stand (R82). -/
def beginIssue (s : State) (gid : Nat) (lanes : List Nat) (pc next : DWord) : State :=
  { s with issue := { group := gid, lanes := lanes, snap := s.threads.filter (fun p => decide (grpOf p.1 = gid)), pc := pc, next := next,
                      pt := some (s.team (gid / 64)).pt } }

/-- A thread whose chain takes effect: the next address, the newest stamp, rank 0 (R80, R103); it waits for no room any more. -/
def Thread.advance (t : Thread) (next : DWord) (stamp : Nat) : Thread := { t with pc := next, stamp := stamp, rank := 0, roomHeld := false }

/-- A chain that has been fetched issues for a set, whose earlier loads through views have been read to their end. -/
def issueChain (s0 : State) (gid : Nat) (lanes : List Nat) (c : Chain) (pc : DWord) : Host.Outcome State Fault Refusal :=
  let s := finishLanes s0 lanes
  let seen := lanes.filter (fun l => decide (lineVerdict s l c = .pass))
  let fv := lanes.map (fun l => (l, fetchVerdict s l c))
  let good := (fv.filter (fun p => decide (p.2 = .pass))).map Prod.fst
  let s1 := eachLane (fun s l => s.modThread l (fun t => { t with line := some (lineBase pc) })) s seen
  let x := runChecks (beginIssue s1 gid good pc c.next) (checkOrder c.words)
  let ok := x.1.issue.lanes
  let s2 := eachLane (fun s l => s.modThread l (fun t => t.advance c.next s.clock)) { x.1 with issue := { x.1.issue with checked := true } } ok
  match (if ok.isEmpty then .next s2 else runWords s2 c.words) with
  | .next s3 =>
    let s4 := { stopChain s3 gid lanes (fv.filter (fun p => decide (p.2 ≠ .pass))) x.2 with issue := ({} : Issue) }
    let is := c.words.map (fun p => decodeWord p.2)
    .next (if groupIx gid ≠ 32 ∧ is.any (fun i => mayBlock i) then exchange s4 gid (!ok.isEmpty && is.contains .yield) else s4)
  | o => o

/-- A set that has been selected issues: a pending fault is delivered in place of the chain. DESIGN CHOICE, log 96: where its threads have fetched different words
for one slot (R249), the set issues the words of its lowest lane; the tag and poison checks are each lane's own. -/
def issueSet (s : State) (gid : Nat) (lanes : List Nat) : Host.Outcome State Fault Refusal :=
  match lanes with
  | [] => .next s
  | l :: _ =>
    match lanes.find? (fun l => (s.thread l).faultComes) with
    | some f => .next (deliverFault s f)
    | none =>
      let pc := (s.thread l).pc
      match chainAt s l with
      | .error v => .next (stopFetch s gid (lanes.map (fun l => (l, v))))
      | .ok c => issueChain (fillTrans s (s.coreOf l) (s.ctxOf l) pc.toNat) gid lanes c pc

/-- A selection that may be empty. -/
def issueOf (s : State) : Option (List Nat) → Host.Outcome State Fault Refusal
  | some (l :: ls) => issueSet s (grpOf l) (l :: ls)
  | _ => .next s

/-- What a quadrant, or the burin core, of a core does in a step. -/
def issueQuad (s : State) (core quad : Nat) : Host.Outcome State Fault Refusal := issueOf s (selectSet s core quad)
def issueBurin (s : State) (core : Nat) : Host.Outcome State Fault Refusal := issueOf s (selectBurin s core)

/-! ### Cycles (R44, R63, R120, R333) -/

/-- One cycle of a core: its count, and a governor window that ends. -/
def tickCore (s : State) (core : Nat) : State :=
  s.modCore core (fun c => { c with cycles := (c.cycles + 1) % 2 ^ 64, govDue := c.govDue || decide ((c.cycles + 1) % 256 = 0) })

/-- A team in a cycle: a ready row that the governor holds counts in GOVSTAT; the run count grows but at pre-emptible points (R44, R333). -/
def tickTeam (s : State) (uid : Nat) : State :=
  let t := s.team uid
  if t.life ≠ .running then s
  else
    let held : Bool := t.queue.any (fun e => rowReady s e) && decide (allowance s t.coreId = 0)
    let point := atPoint s uid
    s.modTeam uid (fun t => { t with
      govStat := if held then (if t.govStat = 0xFFFFFFFF then t.govStat else t.govStat + 1) else t.govStat
      runCount := if point then 0 else t.runCount + 1 })

/-- One cycle of one core: its count and those of its teams. -/
def cycle (s : State) (core : Nat) : State :=
  if enabledUnit s ⟨1, core⟩ then
    tickCore (eachLane tickTeam s ((s.teams.filter (fun p => decide (p.2.coreId = core))).map Prod.fst)) core
  else s

/-- A team whose groups and burin core all wait at pre-emptible points counts from zero again (R44). -/
def restartRuns (s : State) : State :=
  eachLane (fun s u => s.modTeam u (fun t => { t with runCount := 0 })) s
    ((s.teams.filter (fun p => decide (p.2.life = .running ∧ p.2.runCount ≠ 0) && atPoint s p.1)).map Prod.fst)

/-- A target on a die in a cycle (R64). -/
def Target.older (t : Target) (die : Nat) : Target := if t.die = die then { t with age := t.age + 1 } else t

/-- One cycle of every core of a die, and of the targets on it. -/
def tick (s : State) (die : Nat) : State :=
  let s1 := eachLane tickTeam s ((s.teams.filter (fun p => decide (p.2.die = die))).map Prod.fst)
  let s2 := eachLane tickCore s1 (((List.range 144).map (fun c => die * 256 + c)).filter (fun c => enabledUnit s ⟨1, c⟩))
  { s2 with
    grids := s2.grids.map (fun p => (p.1, { p.2 with target := p.2.target.map (fun t => t.older die) }))
    teams := s2.teams.map (fun p => (p.1, { p.2 with target := p.2.target.map (fun t => t.older die) })) }

/-! ### Fetching ahead, dropped translations (R78, R205, R249) -/

/-- The word in a slot of a line, where it holds no poison. -/
def codeWord (s : State) (line slot : Nat) : Option Word :=
  if poisonAt s (.phys (line * 128 + 4 * slot)) then none else some (homeWord s line slot)

/-- An instruction cache that has taken a line beside 512 others, 64 KiB, sends another one out (R15). -/
def fitCode (line : Nat) (s : State) (core : Nat) : State :=
  s.modCore core (fun c =>
    if c.icache.length ≤ 512 then c
    else { c with icache := mdel c.icache (pickLine s line (sdel (c.icache.map Prod.fst) line)) })

/-- An enabled core's instruction cache takes the words of a line that it does not hold. -/
def fetchAhead (s : State) (core line : Nat) : State :=
  if !enabledUnit s ⟨1, core⟩ then s
  else
    let got := (List.range 32).foldl (fun m k => match mfind m k, codeWord s line k with
      | none, some w => mput m k w
      | _, _ => m) (mget [] (s.core core).icache line)
    if got.isEmpty then s else fitCode line (s.modCore core (fun c => { c with icache := mput c.icache line got })) core

/-- An enabled core's instruction cache takes one word afresh, each for itself (R249). -/
def fetchWord (s : State) (core line slot : Nat) : State :=
  match codeWord s line slot with
  | some w =>
    if enabledUnit s ⟨1, core⟩ && decide (slot < 32) then
      fitCode line (s.modCore core (fun c => { c with icache := mput c.icache line (mput (mget [] c.icache line) slot w) })) core
    else s
  | none => s

/-- A thread fetches a word ahead of use, from its core's instruction cache or from memory, and will run it as it then stood; or gives up what it has
fetched ahead (R249). -/
def aheadWord (s : State) (tid word : Nat) : State :=
  match (mfind s.threads tid).bind (fun _ => ((mfind (s.core (s.coreOf tid)).icache (word / 32)).bind (fun ws => mfind ws (word % 32))).or
      (codeWord s (word / 32) (word % 32))) with
  | some w => s.modThread tid (fun t => { t with ahead := mput t.ahead word w })
  | none => s
def aheadDrop (s : State) (tid : Nat) : State := { s with threads := mmod s.threads tid (fun t => { t with ahead := [] }) }

def dropOne (l : List Trans) (i : Nat) : List Trans := l.take i ++ l.drop (i + 1)

def dropTrans (s : State) (die : Nat) (core : Option Nat) (i : Nat) : State :=
  match core with
  | some c => s.modCore (die * 256 + c) (fun k => { k with tlb := dropOne k.tlb i })
  | none => s.modDie die (fun d => { d with tlb := dropOne d.tlb i })

/-- A read of the connection table by a system core: the answer stands among the replies. -/
def readConnection (s : State) (c w : Nat) : State := s.answer (.data systemAgent (some (leBytes 8 (readConn s c w).toNat)) false)

/-! ### One move -/

/-- The meaning of a move; a term that is no event of the device changes nothing. -/
def moveOf (s : State) : Move → Host.Outcome State Fault Refusal
  | .issue die core quad => issueQuad s (die * 256 + core) quad
  | .burin die core => issueBurin s (die * 256 + core)
  | .event i => if i.wellFormed then exec i s else .next s
  | .tick die => .next (tick s die)
  | .fetchAhead die core line => .next (fetchAhead s (die * 256 + core) line)
  | .fetchWord die core line slot => .next (fetchWord s (die * 256 + core) line slot)
  | .aheadWord tid word => .next (aheadWord s tid word)
  | .aheadDrop tid => .next (aheadDrop s tid)
  | .entryPart entry part => .next (entryPart s entry part)
  | .latentPart id granule => .next (latentPart s id granule)
  | .cycle die core => .next (cycle s (die * 256 + core))
  | .barRead offset => .next (barRead s offset)
  | .barWrite offset v => .next (barWrite s offset v)
  | .connWrite c w v => .next (writeConn s c w v)
  | .connRead c w => .next (readConnection s c w)
  | .pageFull ctx va => .next (pageFull s ctx va)
  | .dropTrans die core i => .next (dropTrans s die core i)
  | .walkStart die ctx va => .next (walkStart s die ctx va)
  | .walkStep die i => .next (walkStep s die i)

/-! ### What caches can hold (R15, R16) -/

/-- The cores whose L1 holds a line. -/
def holders (s : State) : List Nat := s.dir.foldl (fun l p => (p.2.copies.map Prod.fst ++ p.2.privatised.map Prod.fst).foldl sadd l) []

/-- An L1 that holds more than 1,024 lines sends one out: a line has come to it as the copy that its home granted (R15, R258). -/
def shrinkL1 (s : State) : Option State :=
  if s.dir.length ≤ 1024 then none
  else ((holders s).find? (fun core => decide (1024 < (l1Lines s core).length))).map (fun core =>
    evictLine s (.l1 (core / 256) (core % 256)) (pickLine s 0 (l1Lines s core)))

/-- The set in which a line falls at a die sends a line out when it has more than 16: lines come there with an accumulator line, or as a slice retires and
its lines fall in others. One of data goes first, and none that a pin keeps there (R16, R20, R268). -/
def shrinkSet (s : State) (die line : Nat) : Option State :=
  if (setLines s die line).length ≤ 16 then none
  else
    match (dataLines s die line).filter (fun l => !(decide (homeOf s l = die) && s.pins.any (fun p => decide (p.2 = l)))) with
    | [] => (accSetLines s die line).head?.map (accEvict s)
    | l :: ls => some (evictLine s (.slice die) (pickLine s line (l :: ls)))

/-- A cache that holds more than it can sends one line out. -/
def shrinkOne (s : State) : Option State :=
  (shrinkL1 s).or (([0, 1] : List Nat).findSome? (fun die => (s.acc.map Prod.fst ++ s.dir.map Prod.fst).findSome? (shrinkSet s die)))

/-- Lines sent out until each cache holds what it can, `fuel` at most. -/
def shrink : Nat → State → State
  | 0, s => s
  | fuel + 1, s =>
    match shrinkOne s with
    | some t => shrink fuel t
    | none => s

/-- No cache holds more than it can: an L1 its 1,024 lines, a set of a slice its 16 (R15, R16). -/
def fitCaches (s : State) : State :=
  if s.dir.length + s.acc.length ≤ 16 then s else shrink (s.dir.length * 290 + s.acc.length) s

/-- A step's state with the bookkeeping done: no set issues, the clock has moved, caches hold what they can, waiting grids reserve what has become
free (R63), run counts restart, sets have merged and free places are taken. -/
def settle (s : State) : State :=
  settleSchedule (restartRuns (settleTargets (fitCaches { s with issue := ({} : Issue), clock := s.clock + 1 })))

def settled : Host.Outcome State Fault Refusal → Host.Outcome State Fault Refusal
  | .next s => .next (settle s)
  | o => o

end Sys2Proof.Machine
end

