-- ==== Sys2Proof/Machine/Policy.lean ====
section
/-! DEFINITION. What moves next: the moves of the agenda, which stand for every order of steps and every input from outside; and, when it is
empty, one order that lets every unit go on (R110, R117, log 4). Then the program that a test of one word runs. -/

namespace Sys2Proof.Machine

/-! ### Requests that wait for a proof run, a re-pack or a walk (R204, R206, R270, R419, log 60) -/

/-- The core of the team in whose matrix queue an entry stands. -/
def entryCore (s : State) (entry : Nat) : Option Nat :=
  (s.teams.find? (fun p => p.2.queue.any (fun e => decide (e.id = entry)))).map (fun p => p.2.coreId)

/-- Whether the walker that runs the graph of the node that a DGEV request names is under test. -/
def walkerHeld (s : State) (v : DWord) : Bool :=
  let ctx := bits v.toNat 5 0
  let addr := v &&& maskBits 56 6
  (devicePlace s ctx addr).any (fun pa => s.proofs.contains (walkerUnit ((runningAt s ctx addr pa).getD (strayNode s ctx addr pa)).die))

/-- Whether the engine that lays a page out again is under test. -/
def repackHeld (s : State) (ctx : Nat) (page : DWord) : Bool :=
  (devicePlace s ctx page).any (fun p => s.proofs.contains ⟨5, 256 * homeOf s (p / 128) + 3⟩)

/-- Whether the unit that performs an event, or the port or the system cores through which one comes from outside, is under test. -/
def eventHeld (s : State) (i : Instr) : Bool :=
  let core (c : Nat) : Bool := s.proofs.contains ⟨1, c⟩
  let engine (n : Nat) : Bool := s.proofs.contains ⟨5, n⟩
  !s.proofs.isEmpty && (match i with
    | .storeQueueLeave g => core (s.team (g / 64)).coreId
    | .arrivalCounted g => core (s.team (g / 64)).coreId
    | .loadDataReturn id => s.loads.any (fun l => decide (l.id = id) && core (s.coreOf l.tid))
    | .streamerBeat r _ => (s.request r).any (fun r => s.proofs.contains r.unit)
    | .copyComplete r => (s.request r).any (fun r => s.proofs.contains r.unit)
    | .matrixEntryStart e => (entryCore s e).any core
    | .matrixEntryComplete e => (entryCore s e).any core
    | .mainRowIssue e => (entryCore s e).any core
    | .adapterSliceArrival u _ => core (s.team u).coreId
    | .takeLaunchSlot die _ => engine (256 * die)
    | .clusterStart die _ => engine (256 * die)
    | .completionEntryWrite _ => engine 0 && engine 256
    | .eviction u => engine (256 * (s.team u).die)
    | .teamResume _ ps => ps.any (fun p => engine (256 * p.die))
    | .graphSlotTake die _ => engine (256 * die + 1)
    | .nodeFinish ctx addr => (s.node ctx addr).any (fun n => engine (256 * n.die + 1))
    | .dgevRequest _ v => walkerHeld s v
    | .moveRehome die => engine (256 * die + 2)
    | .repack ctx page => repackHeld s ctx page
    | .moveToPool => engine 512
    | .moveFromPool => engine 512
    | .systemCoreAccess _ _ => (List.range 32).all (fun n => s.proofs.contains ⟨6, n⟩)
    | .hostAccess _ => poolHeld s
    | .peerAccess _ _ => fabricHeld s
    | .sendEvent _ _ => s.proofs.contains ⟨7, 66⟩
    | .rdmaWrite _ _ _ => s.proofs.contains ⟨7, 66⟩
    | .rdmaRead _ _ _ => s.proofs.contains ⟨7, 66⟩
    | .rdmaAtomic _ => s.proofs.contains ⟨7, 66⟩
    | _ => false)

/-- Whether a chain that a set would fetch takes a word from a place where requests wait. -/
def fetchHeld (s : State) (ls : List Nat) : Bool :=
  match ls with
  | [] => false
  | l :: _ =>
    (match chainAt s l with
     | .ok c => c.words.any (fun w => (heldWord s l (c.pa / 128) (w.1.toNat % 128 / 4)).isNone) && placeHeld s (.phys c.pa)
     | .error _ => false)

/-- Whether the unit that makes a move is under test, or a word that it fetches lies where requests wait. -/
def moveHeld (s : State) (m : Move) : Bool := anyHeld s && (match m with
  | .issue die core quad => s.proofs.contains ⟨1, die * 256 + core⟩ || (selectSet s (die * 256 + core) quad).any (fetchHeld s)
  | .burin die core => s.proofs.contains ⟨1, die * 256 + core⟩ || (selectBurin s (die * 256 + core)).any (fetchHeld s)
  | .entryPart e _ => (entryCore s e).any (fun c => s.proofs.contains ⟨1, c⟩)
  | .latentPart id _ => s.loads.any (fun l => decide (l.id = id) && s.proofs.contains ⟨1, s.coreOf l.tid⟩) ||
      (s.request id).any (fun r => s.proofs.contains r.unit)
  | .fetchAhead _ _ line => placeHeld s (.phys (128 * line))
  | .fetchWord _ _ line _ => placeHeld s (.phys (128 * line))
  | .aheadWord _ word => placeHeld s (.phys (4 * word))
  | .walkStep die i => (s.die die).walks[i]?.any (fun w => placeHeld s (.phys (w.table + 8 * levelIndex w.level (65536 * w.page))))
  | .event i => eventHeld s i
  | _ => false)

/-- What two lists do not share. -/
def differ {α : Type} [DecidableEq α] (l m : List α) : List α := l.filter (fun x => !m.contains x) ++ m.filter (fun x => !l.contains x)

/-- The lines whose bytes, poison or accumulator state differ between two states, or their entry at the home but for the clean copies of cores. -/
def changedLines (s t : State) : List Nat :=
  let bare (d : Dir) : Dir := { d with copies := [] }
  (((s.dir ++ t.dir).map Prod.fst).filter (fun l => decide (bare (s.dirOf l) ≠ bare (t.dirOf l)))) ++
    (differ s.mem t.mem).map (fun p => p.1 / 128) ++ (differ s.poison t.poison).map (fun g => g / 4) ++
    (differ s.confined t.confined).map (fun p => p.1 / 16) ++ (differ s.acc t.acc).map Prod.fst

/-- What a core holds: its own state but for the count of cycles, what its L1 holds, and the teams resident there with their groups and threads; that an
eviction has been asked for stands in EVICTREQ (R428). -/
structure CoreView where
  core : Core
  lines : List (Nat × Option Nat × Bool)
  teams : List (Nat × Team)
  groups : List (Nat × Group)
  threads : List (Nat × Thread)
  deriving DecidableEq

def coreView (s : State) (c : Nat) : CoreView :=
  let here (uid : Nat) : Bool := (mfind s.teams uid).any (fun t => decide (t.coreId = c ∧ t.life ≠ .evicted))
  { core := { (s.core c) with cycles := 0, govDue := false }
    lines := (s.dir.filter (fun p => (mfind p.2.copies c).isSome || (mfind p.2.privatised c).isSome)).map (fun p => (p.1, p.2.owner, p.2.dirty))
    teams := (s.teams.filter (fun p => here p.1)).map (fun p => (p.1, { p.2 with evictAsked := false }))
    groups := s.groups.filter (fun p => here (p.1 / 64))
    threads := s.threads.filter (fun p => here (teamOf p.1)) }

/-- The state with nothing known of the lines where requests wait, so that every request to one shows. -/
def unnoted (s : State) : State := { s with dir := s.dir.filter (fun p => !placeHeld s (.phys (128 * p.1))) }

/-- The state with the bytes of the lines where requests wait forgotten, so that every read of one shows that its value matters. `s` is the state that
says which lines they are. -/
def forgotten (s t : State) : State := { t with mem := t.mem.filter (fun p => !placeHeld s (.phys p.1)) }

/-- Whether what a move leads to depends on bytes of the lines where requests wait: it reads one of them, or a walk that it makes reads a page-table entry
there, whatever the entry holds. -/
def readsHeld (s t : State) (go : State → Host.Outcome State Fault Refusal) : Bool :=
  match go { forgotten s s with probe := .held (repackRanges s) } with
  | .next v => decide (forgotten s t ≠ forgotten s { v with probe := s.probe })
  | _ => true

/-- Whether a move that leads from a state to another, and without what is noted of the lines where requests wait from `u` to `v`, makes a request to
such a line or to a core under test. -/
def reaches (s t u v : State) : Bool :=
  (changedLines s t ++ changedLines u v).any (fun l => placeHeld s (.phys (128 * l))) ||
    s.proofs.any (fun x => decide (x.cls = 1) && decide (coreView s x.number ≠ coreView t x.number))

/-- What happens to the part and asks no unit for anything: time, heat, errors, the end of a proof run, a link that is lost, reset. -/
def Move.isFact : Move → Bool
  | .tick _ => true
  | .cycle _ _ => true
  | .event i => (match i with
    | .softError _ _ => true
    | .proofRunComplete _ _ => true
    | .peerLinkLoss _ => true
    | .thermalThreshold _ => true
    | .criticalTemperature => true
    | .resetEvent _ => true
    | _ => false)
  | _ => false

/-- Whether what would be done makes a request where requests wait (R204, R270, R419, log 60). -/
def requestWaits (s : State) (go : State → Host.Outcome State Fault Refusal) : Bool :=
  anyHeld s && (match go s, go (unnoted s) with
    | .next t, .next v => reaches s t (unnoted s) v || readsHeld s t go
    | _, _ => false)

/-- Whether what would be done misses in the shared TLB of a die with no walk to join and none free in its table of pending walks (R206). -/
def missWaits (s : State) (go : State → Host.Outcome State Fault Refusal) : Bool :=
  ([0, 1] : List Nat).any (fun die => tableFull s die && (match go s, go { s with probe := .misses die } with
    | .next t, .next v => decide (t ≠ { v with probe := s.probe })
    | _, _ => false))

/-- Whether a move waits for the end of a proof run, for a re-pack or for the end of a walk: the unit that makes it is under test, it makes a request where
requests wait, or its miss finds the table of pending walks full (R204, R206, R270, R419, log 60). -/
def moveWaits (s : State) (m : Move) : Bool :=
  !m.isFact && (moveHeld s m || requestWaits s (fun s => moveOf s m) || missWaits s (fun s => moveOf s m))

/-! ### What comes about at once (R44, R64, R65, R177, R333) -/

/-- A full numeric window of a team. -/
def fullWindow (s : State) (uid : Nat) : Option Instr :=
  ([(WindowKind.vector, false), (WindowKind.matrix, true)].flatMap (fun k => ([0, 1, 2, 3] : List (Fin 4)).map (fun c => (k.1, k.2, c)))).findSome?
    (fun x => if windowFull s uid x.2.1 x.2.2 then some (.numericWindowClose uid x.1 x.2.2) else none)

/-- Whether a target's age has reached its die's threshold and it is not fixed yet (R65). -/
def ripe (s : State) (g : Grid) : Bool :=
  match g.target with
  | some t => !t.fixed && decide (ageThreshold s t.die ≤ t.age)
  | none => false

/-- The event that places a claim on its target, once its last claim there is reserved (R65, R417). -/
def Claim.ready (s : State) (die : Nat) (c : Claim) : Option Instr :=
  match c.team with
  | some u => (reservedPlaces s die c (together s u .evicted)).map (fun ps => .teamResume u ps)
  | none =>
    if c.grid.target.any (fun t => decide (t.die = die)) && allReserved c.grid && !(startRects s die c.gid c.grid).isEmpty then some (.clusterStart die c.gid)
    else none

/-- The event that meets a claim in its turn. -/
def Claim.meet (s : State) (die : Nat) (blocked : List Claim) (c : Claim) : Option Instr :=
  match c.team with
  | some u => (resumePlaces s die blocked c (together s u .evicted)).map (fun ps => .teamResume u ps)
  | none => if (clusterRects s die blocked c).isEmpty then none else some (.clusterStart die c.gid)

/-- Whether a claim waits with a target. -/
def Claim.waits (s : State) (c : Claim) : Bool :=
  match c.team with
  | some u => (s.team u).target.isSome
  | none => c.grid.target.isSome

/-- The event that meets the first claim of a list that can be met, as long as one with a target comes at it or after it. -/
def firstMet (s : State) (die : Nat) : List Claim → List Claim → Option Instr
  | _, [] => none
  | blocked, c :: cs => if (c :: cs).any (Claim.waits s) then (if c.yields s die then none else (c.meet s die blocked).or (firstMet s die (c :: blocked) cs)) else none

/-- What waits with a target starts as soon as a rectangle is its: the target once its last claim is reserved, or another one that has become wholly
free; claims whose turn comes before it and that can be met are met at once too, so that none of them keeps it waiting (R52, R64, R65, R417). -/
def waitingStart (s : State) : Option Instr :=
  if (aims s).isEmpty then none
  else ([0, 1] : List Nat).findSome? (fun die =>
    let cs := claimOrder s die
    (cs.findSome? (Claim.ready s die)).or (firstMet s die [] cs))

/-- An event that must come at once, unless it waits. -/
def unlessHeld (s : State) (i : Instr) : Option Instr := if moveWaits s (.event i) then none else some i

/-- The event that must come before any other: a full window closes, a governor window ends, a run limit is met, a waiting cluster starts, a target is
fixed. -/
def urgent (s : State) : Option Instr :=
  let now (i : Option Instr) : Option Instr := i.bind (unlessHeld s)
  (s.teams.findSome? (fun p => now (fullWindow s p.1))).or
    ((s.cores.findSome? (fun p => if p.2.govDue then now (some (.governorWindow (p.1 / 256) (p.1 % 256))) else none)).or
      ((s.teams.findSome? (fun p => if runOut s p.1 then now (some (.runLimitKill p.1)) else none)).or
        ((now (waitingStart s)).or
          (s.grids.findSome? (fun p => if ripe s p.2 then now (some (.ageingExpiry p.1)) else none)))))

/-! ### The order that stands for an empty agenda -/

def entriesOf (s : State) : List Instr :=
  s.teams.flatMap (fun p => p.2.queue.flatMap (fun e => [.matrixEntryStart e.id, .mainRowIssue e.id, .matrixEntryComplete e.id]))

/-- Events that units of the device may perform of themselves. -/
def ownEvents (s : State) : List Instr :=
  s.loads.map (fun l => .loadDataReturn l.id) ++
  s.groups.flatMap (fun p => [.storeQueueLeave p.1, .arrivalCounted p.1]) ++
  s.requests.flatMap (fun r => ((List.range r.total).filter (fun b => !r.done.contains b)).map (fun b => .streamerBeat r.id b) ++ [.copyComplete r.id]) ++
  entriesOf s ++
  s.contributions.map (fun c => .accContribution c.id) ++
  s.teams.flatMap (fun p => (List.range p.2.replays.length).map (fun n => .adapterSliceArrival p.1 n)) ++
  s.threads.flatMap (fun p => (if p.2.faults.isEmpty then [] else [.afterIssueFaultDelivery p.1]) ++
    (match p.2.cond with
     | .blocked (.room _ _ _ _ _) => [.syscallAnswered p.1]
     | .blocked (.reply _ _) => [.syscallAnswered p.1]
     | .blocked (.event _ _) => [.waitevWake p.1]
     | _ => [])) ++
  s.teams.flatMap (fun p => [.killComplete p.1, .teamRetire p.1, .eviction p.1] ++
    (match (if p.2.life = .evicted then findPlaces s p.1 else none) with
     | some ps => [.teamResume p.1 ps]
     | none => [])) ++
  s.grids.flatMap (fun p => [.ageingExpiry p.1, .clusterStart 0 p.1, .clusterStart 1 p.1]) ++
  (List.range 1024).flatMap (fun q => if qEnabled s q then [.takeLaunchSlot 0 q, .takeLaunchSlot 1 q, .graphSlotTake 0 q, .graphSlotTake 1 q] else []) ++
  s.completions.map (fun c => .completionEntryWrite c.q) ++
  s.nodes.map (fun n => .nodeFinish n.ctx n.addr) ++
  s.versions.map (fun v => .versionFreed v.1 v.2.1 v.2.2.2) ++
  [.moveRehome 0, .moveRehome 1, .moveToPool, .moveFromPool]

/-- A move's request waits at its source, after those that wait already. -/
def State.await (s : State) (m : Move) : State := { s with waiting := s.waiting ++ [m] }

/-- The state after an event that changes something; one that must wait arrives, once. -/
def tryEvent (s : State) (i : Instr) : Option State :=
  match exec i s with
  | .next t =>
    if t = s then none
    else if moveWaits s (.event i) then (if s.waiting.contains (.event i) then none else some (s.await (.event i))) else some t
  | _ => none

/-- A move carried out, or arrived where it must wait (R204, R206, R419). -/
def attempt (s : State) (m : Move) : Host.Outcome State Fault Refusal := if moveWaits s m then .next (s.await m) else moveOf s m

/-- The first of the moves that wait, in the order in which they arrived, that need not wait any more (R419). -/
def released (s : State) : Option Move := s.waiting.find? (fun m => !moveWaits s m)

/-- A list begun at another place. -/
def rotated {α : Type} (l : List α) (n : Nat) : List α := l.drop (n % (l.length + 1)) ++ l.take (n % (l.length + 1))

/-- A request placed in a DGEV register is carried out by the walker that runs the node's graph, however it was placed (R75); it stays in its register
while the walker is under test or the node's lines are where requests wait. -/
def carryOne (s : State) : Option State :=
  (s.dies.find? (fun p => p.2.dgev.any (fun v => !walkerHeld s v) && !requestWaits s (fun s => .next (carryDgev s p.1)) &&
    !missWaits s (fun s => .next (carryDgev s p.1)))).map (fun p => carryDgev s p.1)

/-- A walker goes on with the oldest walk that is pending at a die, where nothing holds the entry that it reads (R206). -/
def walkOne (s : State) : Option State :=
  (([0, 1] : List Nat).find? (fun die => !(s.die die).walks.isEmpty && !moveWaits s (.walkStep die 0))).map (fun die => walkStep s die 0)

/-- The first own event that changes something; before it a request that waits in a DGEV register, after it a walk, a re-pack that is pending and the end of
a proof run, whose outcome is a free value (log 5). -/
def oneEvent (s : State) : Option State :=
  (carryOne s).or (((rotated (ownEvents s) s.turn).findSome? (tryEvent s)).or ((walkOne s).or
    (((s.repacks.find? (fun r => !repackHeld s r.1 r.2)).map (fun r => repackPage s r.1 r.2)).or
      (s.proofs.head?.map (fun u => endProof { s with freeCount := s.freeCount + 1 } u (decide (Config.freeNat s.freeCount % 2 = 0)))))))

/-- The selections of the busy cores: each quadrant's, and the burin core's. -/
def selections (s : State) : List Move :=
  (busyCores s).flatMap (fun c =>
    (([0, 1, 2, 3] : List Nat).filter (fun q => (selectSet s c q).isSome)).map (fun q => .issue (c / 256) (c % 256) q) ++
    (if (selectBurin s c).isSome then [.burin (c / 256) (c % 256)] else []))

/-- The default order: an issue, an own event and a cycle of a die by turns, each replaced by the next where it has nothing to do. -/
def byDefault (s0 : State) : Host.Outcome State Fault Refusal :=
  let s := { s0 with turn := s0.turn + 1 }
  let cycle : Host.Outcome State Fault Refusal := .next (tick s (s.turn / 3 % 2))
  let event : Host.Outcome State Fault Refusal := match oneEvent s with
    | some t => .next t
    | none => cycle
  match s0.turn % 3 with
  | 0 =>
    (match (rotated (selections s) (s.turn / 3)).find? (fun m => !s.waiting.contains m) with
     | some m => attempt s m
     | none => event)
  | 1 => event
  | _ => cycle

/-- What the management controller does in every state of boot but without power: it watches the temperatures (R444, R447; log 92, DEDUCED). -/
def Move.isWatch : Move → Bool
  | .event i => (match i with
    | .thermalThreshold _ => true
    | .criticalTemperature => true
    | _ => false)
  | _ => false

/-- One step before the bookkeeping: before boot and after a failed boot nothing moves but a reset and what the management controller does, without power
nothing but a reset (R444, R447). A move that must wait changes nothing else; those that wait come before any other once they need not, in the order in
which they arrived (R204, R206, R419). -/
def act (s : State) : Host.Outcome State Fault Refusal :=
  match s.boot, s.agenda with
  | .running, ms =>
    (match urgent s with
     | some i => exec i s
     | none =>
       match released s, ms with
       | some m, _ => moveOf { s with waiting := s.waiting.erase m } m
       | none, m :: r => attempt { s with agenda := r } m
       | none, [] => byDefault s)
  | _, .event (.resetEvent images) :: r => execResetEvent images { s with agenda := r }
  | .off, _ => .fault .unpowered
  | _, m :: r => if m.isWatch then moveOf { s with agenda := r } m else .next { s with agenda := r }
  | _, [] => .next s

/-! ### A word placed for the next step -/

/-- Where the word stands: virtual and physical address alike. -/
def wordPlace : Nat := 0x20000

/-- Page tables of three levels that map the first GiB as one CODE page with read and write, a tagged line with the word in slot 0. -/
def programMemory (s : State) (w : Word) : State :=
  let node (s : State) (a next : Nat) : State := writeNat s (.phys a) 8 (next + 1)
  let s1 := node (node s 0x10000 0x11000) 0x11000 0x12000
  let s2 := writeNat s1 (.phys 0x12000) 8 0x67
  writeNat (writeNat s2 (.phys wordPlace) 4 w.toNat) (.phys (wordPlace + 120)) 4 revision.toNat

/-- The kernel of the one team. -/
def programKernel (burin : Bool) : Kernel :=
  { entry := dw wordPlace, burin := if burin then dw wordPlace else 0, handler := 0, regs := 120, bregs := if burin then 32 else 0, groups := 1,
    producer := some 0, phases := 32, views := 8, hintchk := false, scratch := 65536, stack := 1024 }

/-- One team of a service context on core 0, with one thread, or with its burin core for a word that only that runs. -/
def programTeam (burin : Bool) : Team := { noTeam with teamCnt := 1, kern := programKernel burin, slots := List.replicate 8 0, service := true, area := 0x100000 }

/-- What stands for the load of a program of one word: boot done, context 0 with its tables, one team at the word, its issue the next move. -/
def placeWord (s : State) (w : Word) : State :=
  let burin := decide (major w = 0x3C)
  let uid := 1
  let tid := if burin then burinOf uid else tidOf uid 0 0
  let s1 := programMemory { s with boot := .running, mem := [], poison := [], homeWords := [], binds := [], deadChannels := [], proofs := [], cores := [], dies := [], requests := [], grids := [] } w
  { (s1.setSys 0 (dw 0x10000)).setSys 1 (dw (2 ^ 12 + 2 ^ 13)) with
    teams := [(uid, programTeam burin)]
    groups := [(grpOf tid, { active := true })]
    threads := [(tid, { pc := dw wordPlace, sp := 1024 })]
    nextId := max 2 s.nextId
    agenda := [if burin then .burin 0 0 else .issue 0 0 0] }

end Sys2Proof.Machine
end

