-- ==== Sys2Proof/Machine/Step.lean ====
section
/-! DEFINITION. One step of the device, and a word placed so that the next step runs it. -/

namespace Sys2Proof.Machine

/-- One indivisible step: a chain of one set, or one event of a unit. -/
def step (s : State) : Host.Outcome State Fault Refusal := settled (act s)

/-- The state in which the next step fetches and runs the word `w` of `nbits` bits. -/
def State.withFetchWord (s : State) (nbits w : Nat) : State := placeWord s (BitVec.ofNat 32 (w % 2 ^ nbits))

end Sys2Proof.Machine
end

