-- ==== Sys2Proof/Safety.lean ====
section
/-! DEFINITION. What a safe state of the device is, the invariants, and the shapes in which claims say what a word does to the threads of its issuing set. -/

namespace Sys2Proof.Machine

/-! ### Invariants -/

/-- A table of bytes in its canonical form: keys strictly rising, no entry that reads as an unlisted byte does. -/
def Memory.wf (m : SMap Byte) : Bool := mwf unwritten m

/-- The invariant of physical memory: the canonical form. -/
def State.MemInv (s : State) : Prop := Memory.wf s.mem = true

/-- A step that ends neither in a fault nor in a refusal. -/
def State.Goes (s : State) : Prop := ∃ t, step s = .next t

/-! ### The issuing set -/

/-- The set that issues: some lanes of one group, in ascending order (R101, R275). -/
def State.SetOk (s : State) : Prop :=
  s.issue.lanes ≠ [] ∧ s.issue.lanes.Pairwise (· < ·) ∧ ∀ l ∈ s.issue.lanes, grpOf l = s.issue.group

/-- Every lane of the issuing set has passed, or passes, the checks of a word (R86). -/
def Runs (i : Instr) (s : State) : Prop := s.SetOk ∧ (s.issue.checked = true ∨ ∀ l ∈ s.issue.lanes, verdict s l i = .pass)

/-- Nothing of the device but the threads of the issuing set differs between two states. -/
def OnlyThreads (s t : State) : Prop :=
  t = { s with threads := t.threads } ∧ ∀ x, x ∉ s.issue.lanes → mfind t.threads x = mfind s.threads x

/-- A word that completes for every set that passes its checks: it changes the threads of the set alone, and `th` is what becomes of each. -/
def LaneGives (i : Instr) (th : State → Nat → Thread → Prop) : Prop :=
  ∀ s, Runs i s → ∃ t, exec i s = .next t ∧ OnlyThreads s t ∧ ∀ l ∈ s.issue.lanes, th s l (t.thread l)

/-- An I-pipe word with one result per lane, at the width of the lane's registers: `rel` ties the result to the lane's sources (R98, R127, R336). -/
def AluGives (i : Instr) (n : Bool) (d : Code) (rel : (w : Nat) → (Code → BitVec w) → BitVec w → Prop) : Prop :=
  LaneGives i (fun s l th =>
    if isBurin l then ∃ v, rel 64 (s.gsrc l) v ∧ th = (s.thread l).gdst n d v
    else ∃ v, rel 32 (s.src l) v ∧ th = (s.thread l).dst .i n d v)

/-- A word with one 64-bit result per lane: a pair on a vector thread, one register on the burin core (R89, R335). -/
def PairGives (i : Instr) (n : Bool) (d : Code) (rel : State → Nat → DWord → Prop) : Prop :=
  LaneGives i (fun s l th => ∃ v, rel s l v ∧ th = if isBurin l then (s.thread l).gdst n d v else (s.thread l).dst64 .i n d v)

/-- A word of pipe `p` with one 32-bit result per lane, zero-extended on the burin core (R98, R336). -/
def WordGives (i : Instr) (p : Pipe) (n : Bool) (d : Code) (rel : State → Nat → Word → Prop) : Prop :=
  LaneGives i (fun s l th => ∃ v, rel s l v ∧ th = if isBurin l then (s.thread l).gdst n d (v.setWidth 64) else (s.thread l).dst p n d v)

/-- A word that acts on its set and on more: it completes in the state that `post` describes. -/
def Completes (i : Instr) (post : State → State → Prop) : Prop := ∀ s, Runs i s → ∃ t, exec i s = .next t ∧ post s t

/-- An event that completes in every state that meets a condition. -/
def EventGives (i : Instr) (pre : State → Prop) (post : State → State → Prop) : Prop := ∀ s, pre s → ∃ t, exec i s = .next t ∧ post s t

/-- The registers of a lane with the 32-bit result of a word of pipe `p` (R98, R336). -/
def withResult (s : State) (l : Nat) (p : Pipe) (n : Bool) (d : Code) (v : Word) : Thread :=
  if isBurin l then (s.thread l).gdst n d (v.setWidth 64) else (s.thread l).dst p n d v

/-- The control register, the window and the number of events of class `c` of the vector word that the set issues (R175 to R178). -/
def controlOf (s : State) (c : Nat) : Nat := (s.sysReg (0x4000 + 16 * (s.team s.issueTeam).ctx + c)).toNat
def windowOf (s : State) (c : Nat) : Nat × Nat := mget (0, 0) (s.team s.issueTeam).windows c
def raisedBy (f : State → Nat → FRes) (s : State) (c : Nat) : Nat := (s.issue.lanes.map (fun l => (f s l).2.count c)).sum
/-- The word's events of class `c` take the window's event count above the threshold (R180). -/
def crosses (f : State → Nat → FRes) (s : State) (c : Nat) : Bool :=
  raisedBy f s c ≠ 0 && decide (controlOf s c % 2 ^ 32 < min (2 ^ 32 - 1) ((windowOf s c).1 + raisedBy f s c))
/-- The slot word of a word routes class `c`: bit 20 + c (R160, R177). -/
def routesClass (slot : State → Option Word) (s : State) (c : Nat) : Bool := ((slot s).map (fun w => w.getLsbD (20 + c))).getD false

/-- What the numeric events of a vector word do: those of a class are counted together in the team's vector window, or, routed by the slot that the word names, in the
context's sum alone; above the threshold the count returns to zero, and with action 1 each thread that raised events of the class takes a fault of cause 0x20, which stands
behind its others. That several classes fire in ascending order is log 98 (DESIGN CHOICE). -/
def EventsTake (slot : State → Option Word) (f : State → Nat → FRes) (s t : State) : Prop :=
  (∀ c < 4, routesClass slot s c = true ∨ raisedBy f s c = 0 → mfind (t.team s.issueTeam).windows c = mfind (s.team s.issueTeam).windows c) ∧
  (∀ c < 4, routesClass slot s c = false → raisedBy f s c ≠ 0 → mget (0, 0) (t.team s.issueTeam).windows c =
    (if crosses f s c then 0 else min (2 ^ 32 - 1) ((windowOf s c).1 + raisedBy f s c), (windowOf s c).2)) ∧
  (∀ c < 4, let r := 0x4000 + 16 * (s.team s.issueTeam).ctx + 4 + c
    t.sysReg r = s.sysReg r + if routesClass slot s c then BitVec.ofNat 64 (raisedBy f s c) else 0) ∧
  ∀ l ∈ s.issue.lanes, (t.thread l).faults = (s.thread l).faults ++
    ([0, 1, 2, 3].filter (fun c => !routesClass slot s c && crosses f s c && decide (controlOf s c / 2 ^ 56 % 4 = 1) && decide (c ∈ (f s l).2))).map
      (fun _ => { cause := 0x20, addr := 0, word := s.issue.word, flags := 1, trapNo := s.runOf l })

/-- A word with a pattern and numeric events per lane: every lane gets its pattern, and beside that only faults of the set's own threads, the team's
windows, and the record of an interrupt may differ, as `EventsTake` says; without an event nothing does (R175, R177, R180, R183). -/
def FloatGives (i : Instr) (p : Pipe) (n : Bool) (d : Code) (slot : State → Option Word) (f : State → Nat → FRes) : Prop :=
  Completes i (fun s t =>
    ((mfind s.teams s.issueTeam).isSome → (s.team s.issueTeam).ctx < 512 → EventsTake slot f s t) ∧
    (∀ l ∈ s.issue.lanes, ∃ fs, t.thread l = { withResult s l p n d (f s l).1 with faults := fs }) ∧
    (∀ x, x ∉ s.issue.lanes → mfind t.threads x = mfind s.threads x) ∧
    (∀ u, t.team u = { (s.team u) with windows := (t.team u).windows, scratch := (t.team u).scratch, scratchPoison := (t.team u).scratchPoison }) ∧
    t = { s with threads := t.threads, teams := t.teams, mem := t.mem, poison := t.poison, confined := t.confined, dir := t.dir, sys := t.sys, errSeq := t.errSeq, irqs := t.irqs } ∧
    ((∀ l ∈ s.issue.lanes, (f s l).2 = []) → t = { s with threads := t.threads } ∧ ∀ l ∈ s.issue.lanes, t.thread l = withResult s l p n d (f s l).1))

/-- The value that a crossbar word takes from lane `m`: that of the active thread there, else zero (R192). -/
def FromLane (s : State) (m : Nat) (c : Code) (v : Word) : Prop :=
  (∀ x ∈ s.issue.lanes, laneOf x = m → v = s.src x c) ∧ ((∀ x ∈ s.issue.lanes, laneOf x ≠ m) → v = 0)

/-! ### Words of one lane -/

/-- The set is one lane, which passes the checks of a word and has its sources taken (R82, R86). -/
def Alone (i : Instr) (s : State) (l : Nat) : Prop :=
  s.SetOk ∧ s.issue.lanes = [l] ∧ verdict s l i = .pass ∧ (mfind s.issue.snap l).isSome = true

/-- A word that completes for one lane that passes its checks, in the state that `post` describes. -/
def AloneGives (i : Instr) (post : State → Nat → State → Prop) : Prop := ∀ s l, Alone i s l → ∃ t, exec i s = .next t ∧ post s l t

/-- Memory, system registers, teams and the threads of other lanes are as they were. -/
def KeepsRest (s : State) (l : Nat) (t : State) : Prop :=
  t.mem = s.mem ∧ t.poison = s.poison ∧ t.sys = s.sys ∧ t.teams = s.teams ∧ ∀ x, x ≠ l → t.thread x = s.thread x

/-- An entry of a store queue that a word of a lane has made. -/
def EntryOf (s : State) (l : Nat) (e : QEntry) : Prop := e.tid = l ∧ e.trapNo = s.runOf l ∧ e.word = s.issue.word

/-- The bytes of a store: the low bytes of its source, low byte first (R3, R277, R337). -/
def StoredBytes (s : State) (l : Nat) (d : Code) (sz : BitVec 3) (bs : List Byte) : Prop :=
  bs.length = szBytes sz ∧ (sz.toNat ≤ 4 → leNat bs = (s.narrow l d).toNat % 2 ^ (8 * szBytes sz)) ∧ (sz.toNat = 5 → leNat bs = (s.wide l d).toNat) ∧
  (sz.toNat = 6 → d.toNat < 120 → ∀ i, i < 4 → leNat ((bs.drop (4 * i)).take 4) = (mget 0 (s.pre l).regs (d.toNat + i)).toNat)

/-- A register value of a load: extended by its size code to the width of a register, or one word of several (R87, R277). -/
def loadWord (sz : BitVec 3) (v i : Nat) : Word :=
  if sz.toNat = 1 then (BitVec.ofNat 8 v).signExtend 32 else if sz.toNat = 3 then (BitVec.ofNat 16 v).signExtend 32 else BitVec.ofNat 32 (v / 2 ^ (32 * i))

/-- How many registers a load of a size writes. -/
def loadCount (sz : BitVec 3) : Nat := if sz.toNat = 5 then 2 else if sz.toNat = 6 then 4 else 1

/-- The registers of a vector thread after a load to D: those of the destination have the value, the others stay (R277). -/
def LoadedRegs (a b : Thread) (n : Bool) (d : Code) (sz : BitVec 3) (v : Nat) : Prop :=
  b.gregs = a.gregs ∧ ∀ c, c < 120 → mget 0 b.regs c =
    if n = false ∧ d.toNat ≤ c ∧ c < d.toNat + loadCount sz then loadWord sz v (c - d.toNat) else mget 0 a.regs c

/-- A load that has begun: its record awaits its data, and q3 of a vector thread is invalid until then (R111, R112). -/
def LoadBegun (s : State) (l : Nat) (t : State) (n : Bool) (d : Code) (sz : BitVec 3) (addr : DWord) (value : Option Nat) (poison : Bool) : Prop :=
  ∃ ld ∈ t.loads, ld.tid = l ∧ ld.d = d ∧ ld.n = n ∧ ld.sz = sz ∧ ld.addr = addr ∧ ld.value = value ∧ ld.poison = poison ∧ ld.word = s.issue.word ∧
    t.thread l = { (s.thread l) with latch := (t.thread l).latch, q3 := (t.thread l).q3 } ∧
    (isBurin l = false → (t.thread l).q3 = some ld.id ∧ mfind (t.thread l).latch 3 = none)

/-! ### The registers of one thread -/

/-- Nothing of a thread but registers, latches and the claim of q3 differs. -/
def SameButRegs (a b : Thread) : Prop := b = { a with regs := b.regs, gregs := b.gregs, latch := b.latch, q3 := b.q3 }

end Sys2Proof.Machine
end

