-- ==== Sys2Proof/Certificates/Slice0/Obligations.lean ====
section
/-! DEFINITION. The statements for the provers. A statement about a word speaks of every state whose issuing set passes the word's checks (`Runs`,
R86): it says that the word completes, what becomes of each lane, and that nothing else of the device changes. -/

open Sys2Proof Sys2Proof.Machine

/-! ### Results of words (R88, R98, R111) -/

/-- What writing a result does (R88, R98, R111): the register takes it unless N suppresses it or the code is vz, the pipe's latch takes it and becomes
valid, and every other register and latch, and the rest of the thread, stay as they were. -/
def Obligations.ResultReachesRegisterAndLatch : Prop :=
  (∀ (th : Thread) (p : Pipe) (n : Bool) (d : Code) (v : Word),
    let t := th.dst p n d v
    SameButRegs th t ∧ t.gregs = th.gregs ∧
    (∀ c : Code, c.toNat < 120 → t.src c = if c = d ∧ n = false then v else th.src c) ∧
    (∀ k, p.latch = some k → mfind t.latch k = some v) ∧
    (∀ j, p.latch ≠ some j → mfind t.latch j = mfind th.latch j) ∧
    t.src 124 = 0) ∧
  (∀ (th : Thread) (p : Pipe) (n : Bool) (d : Code) (v : DWord), d.toNat % 2 = 0 →
    let t := th.dst64 p n d v
    SameButRegs th t ∧ t.gregs = th.gregs ∧
    (d.toNat < 120 → n = false → t.src64 d = v) ∧
    (∀ c : Code, c.toNat < 120 → (n = true ∨ 120 ≤ d.toNat ∨ (c.toNat ≠ d.toNat ∧ c.toNat ≠ d.toNat + 1)) → t.src c = th.src c) ∧
    (∀ k, p.latch = some k → mfind t.latch k = some (v.setWidth 32)) ∧
    (∀ j, p.latch ≠ some j → mfind t.latch j = mfind th.latch j) ∧
    t.src64 124 = 0) ∧
  (∀ (th : Thread) (n : Bool) (d : Code) (v : DWord),
    let t := th.gdst n d v
    SameButRegs th t ∧ t.regs = th.regs ∧ t.latch = th.latch ∧
    (∀ c : Code, c.toNat < 32 → t.gsrc c = if c = d ∧ n = false then v else th.gsrc c) ∧ t.gsrc 124 = 0)

/-! ### Integer words (R127 to R140, R336) -/

/-- R127: the eight functions of IARITH, on 32-bit registers and on those of the burin core. -/
def IArithResults : Prop :=
  ∀ (n : Bool) (d a b : Code),
    AluGives (.add n d a b) n d (fun w r v => v.toNat = ((r a).toNat + (r b).toNat) % 2 ^ w) ∧
    AluGives (.sub n d a b) n d (fun w r v => (v.toNat : Int) = ((r a).toNat - (r b).toNat : Int) % 2 ^ w) ∧
    AluGives (.mul n d a b) n d (fun w r v => v.toNat = (r a).toNat * (r b).toNat % 2 ^ w) ∧
    AluGives (.mulhiI n d a b) n d (fun w r v => v.toInt = (r a).toInt * (r b).toInt / 2 ^ w) ∧
    AluGives (.mulhiN n d a b) n d (fun w r v => v.toNat = (r a).toNat * (r b).toNat / 2 ^ w) ∧
    AluGives (.mad n d a b) n d (fun w r v => v.toNat = ((r d).toNat + (r a).toNat * (r b).toNat) % 2 ^ w) ∧
    AluGives (.minI n d a b) n d (fun _ r v => v = if (r a).toInt ≤ (r b).toInt then r a else r b) ∧
    AluGives (.maxI n d a b) n d (fun _ r v => v = if (r b).toInt ≤ (r a).toInt then r a else r b)

/-- R128: the eight functions of IMISC. -/
def IMiscResults : Prop :=
  ∀ (n : Bool) (d a b : Code),
    AluGives (.minN n d a b) n d (fun _ r v => v.toNat = min (r a).toNat (r b).toNat) ∧
    AluGives (.maxN n d a b) n d (fun _ r v => v.toNat = max (r a).toNat (r b).toNat) ∧
    AluGives (.absInt n d a) n d (fun w r v => v.toNat = (r a).toInt.natAbs % 2 ^ w) ∧
    AluGives (.addsatI n d a b) n d (fun w r v => v.toInt = max (-2 ^ (w - 1)) (min (2 ^ (w - 1) - 1) ((r a).toInt + (r b).toInt))) ∧
    AluGives (.subsatI n d a b) n d (fun w r v => v.toInt = max (-2 ^ (w - 1)) (min (2 ^ (w - 1) - 1) ((r a).toInt - (r b).toInt))) ∧
    AluGives (.clz n d a) n d (fun w r v => v.toNat ≤ w ∧ (r a).toNat < 2 ^ (w - v.toNat) ∧ (v.toNat < w → 2 ^ (w - 1 - v.toNat) ≤ (r a).toNat)) ∧
    AluGives (.popc n d a) n d (fun w r v => v.toNat = ((List.range w).filter (fun k => (r a).getLsbD k)).length) ∧
    AluGives (.brev n d a) n d (fun w r v => ∀ k, k < w → v.getLsbD k = (r a).getLsbD (w - 1 - k))

/-- R127, R128: major, format and pipe of the sixteen words; the words of one source have a B field of zeros. -/
def IntegerEncodings : Prop :=
  ∀ (n : Bool) (d a b : Code),
    let word (major : BitVec 6) (b : Code) (fn : BitVec 3) : Option Word := some (0#1 ++ major ++ BitVec.ofBool n ++ d ++ a ++ b ++ fn)
    (∀ q ∈ [(Instr.add n d a b, 0#3), (.sub n d a b, 1), (.mul n d a b, 2), (.mulhiI n d a b, 3), (.mulhiN n d a b, 4), (.mad n d a b, 5), (.minI n d a b, 6),
        (.maxI n d a b, 7)], encode q.1 = word 0x01 b q.2 ∧ pipeOf q.1 = .i) ∧
    (∀ q ∈ [(Instr.minN n d a b, 0#3), (.maxN n d a b, 1), (.addsatI n d a b, 3), (.subsatI n d a b, 4)], encode q.1 = word 0x02 b q.2 ∧ pipeOf q.1 = .i) ∧
    ∀ q ∈ [(Instr.absInt n d a, 2#3), (.clz n d a, 5), (.popc n d a, 6), (.brev n d a, 7)], encode q.1 = word 0x02 0 q.2 ∧ pipeOf q.1 = .i

/-- R127, R128: the arithmetic words, their encodings, pipe and results. -/
def Obligations.IntegerArithmetic : Prop := IArithResults ∧ IMiscResults ∧ IntegerEncodings

/-- R129: the eight functions of LOGIC. -/
def LogicResults : Prop :=
  ∀ (n : Bool) (d a b : Code),
    AluGives (.andW n d a b) n d (fun w r v => ∀ k, k < w → v.getLsbD k = ((r a).getLsbD k && (r b).getLsbD k)) ∧
    AluGives (.orW n d a b) n d (fun w r v => ∀ k, k < w → v.getLsbD k = ((r a).getLsbD k || (r b).getLsbD k)) ∧
    AluGives (.xorW n d a b) n d (fun w r v => ∀ k, k < w → v.getLsbD k = ((r a).getLsbD k != (r b).getLsbD k)) ∧
    AluGives (.andn n d a b) n d (fun w r v => ∀ k, k < w → v.getLsbD k = ((r a).getLsbD k && !(r b).getLsbD k)) ∧
    AluGives (.orn n d a b) n d (fun w r v => ∀ k, k < w → v.getLsbD k = ((r a).getLsbD k || !(r b).getLsbD k)) ∧
    AluGives (.xnor n d a b) n d (fun w r v => ∀ k, k < w → v.getLsbD k = ((r a).getLsbD k == (r b).getLsbD k)) ∧
    AluGives (.sel n d a b) n d (fun _ r v => v = if (r d).toNat ≠ 0 then r a else r b) ∧
    AluGives (.mov n d a) n d (fun _ r v => v = r a)

/-- R130: logical, arithmetic and circular shifts, of one register and of pairs. -/
def ShiftResults : Prop :=
  ∀ (n : Bool) (d a b : Code),
    AluGives (.shl n d a b) n d (fun w r v => v.toNat = if (r b).toNat < w then (r a).toNat * 2 ^ (r b).toNat % 2 ^ w else 0) ∧
    AluGives (.shr n d a b) n d (fun w r v => v.toNat = if (r b).toNat < w then (r a).toNat / 2 ^ (r b).toNat else 0) ∧
    AluGives (.sar n d a b) n d (fun w r v => v.toInt = (r a).toInt / 2 ^ min (r b).toNat (w - 1)) ∧
    AluGives (.rol n d a b) n d (fun w r v =>
      v.toNat = ((r a).toNat * 2 ^ ((r b).toNat % w) + (r a).toNat / 2 ^ (w - (r b).toNat % w)) % 2 ^ w) ∧
    PairGives (.shl64 n d a b) n d (fun s l v => v.toNat = if s.amount l b < 64 then (s.wide l a).toNat * 2 ^ s.amount l b % 2 ^ 64 else 0) ∧
    PairGives (.shr64 n d a b) n d (fun s l v => v.toNat = if s.amount l b < 64 then (s.wide l a).toNat / 2 ^ s.amount l b else 0)

/-- R129, R130: the logic and shift words. -/
def Obligations.LogicAndShifts : Prop := LogicResults ∧ ShiftResults

/-- R131, R336: bitfield extract and insert, bit by bit. The control word of a 32-bit register gives the position in [4:0] and the width in [13:8];
that of a 64-bit one the position in [5:0] and the width in [14:8]; [15] asks for sign extension. -/
def Obligations.BitfieldResults : Prop :=
  ∀ (n : Bool) (d a b : Code),
    let pos (w c : Nat) : Nat := if w = 64 then c % 64 else c % 32
    let width (w c : Nat) : Nat := min w (if w = 64 then c / 256 % 128 else c / 256 % 64)
    AluGives (.bfx n d a b) n d (fun w r v =>
      let c := (r b).toNat
      ∀ k, k < w → v.getLsbD k =
        if k < width w c then (r a).getLsbD (pos w c + k)
        else (c.testBit 15 && decide (0 < width w c) && (r a).getLsbD (pos w c + width w c - 1))) ∧
    AluGives (.bfi n d a b) n d (fun w r v =>
      let c := (r b).toNat
      ∀ k, k < w → v.getLsbD k =
        if pos w c ≤ k ∧ k < pos w c + width w c then (r a).getLsbD (k - pos w c) else (r d).getLsbD k)

/-- R132: a compare writes 1 when its condition holds and 0 otherwise. -/
def CompareResults : Prop :=
  ∀ (n : Bool) (d a b : Code),
    AluGives (.cmpEq n d a b) n d (fun _ r v => v.toNat = if (r a).toNat = (r b).toNat then 1 else 0) ∧
    AluGives (.cmpNe n d a b) n d (fun _ r v => v.toNat = if (r a).toNat ≠ (r b).toNat then 1 else 0) ∧
    AluGives (.ltI n d a b) n d (fun _ r v => v.toNat = if (r a).toInt < (r b).toInt then 1 else 0) ∧
    AluGives (.leI n d a b) n d (fun _ r v => v.toNat = if (r a).toInt ≤ (r b).toInt then 1 else 0) ∧
    AluGives (.ltN n d a b) n d (fun _ r v => v.toNat = if (r a).toNat < (r b).toNat then 1 else 0) ∧
    AluGives (.leN n d a b) n d (fun _ r v => v.toNat = if (r a).toNat ≤ (r b).toNat then 1 else 0) ∧
    AluGives (.tst n d a b) n d (fun w r v => v.toNat = if ∃ k, k < w ∧ (r a).getLsbD k = true ∧ (r b).getLsbD k = true then 1 else 0)

/-- R133: the votes of the issuing set, and its mask. The mask of some lanes has bit LANE of each of them. -/
def VoteResults : Prop :=
  ∀ (n : Bool) (d a : Code),
    WordGives (.voteAny n d a) .x n d (fun s _ v => v = if ∃ m ∈ s.issue.lanes, s.src m a ≠ 0 then 1 else 0) ∧
    WordGives (.voteAll n d a) .x n d (fun s _ v => v = if ∀ m ∈ s.issue.lanes, s.src m a ≠ 0 then 1 else 0) ∧
    WordGives (.voteBal n d a) .x n d (fun s _ v => ∀ k, k < 32 → (v.getLsbD k = true ↔ ∃ m ∈ s.issue.lanes, laneOf m = k ∧ s.src m a ≠ 0)) ∧
    WordGives (.matchLanes n d a) .x n d (fun s l v => ∀ k, k < 32 → (v.getLsbD k = true ↔ ∃ m ∈ s.issue.lanes, laneOf m = k ∧ s.src m a = s.src l a)) ∧
    WordGives (.actmask n d) .x n d (fun s _ v => ∀ k, k < 32 → (v.getLsbD k = true ↔ ∃ m ∈ s.issue.lanes, laneOf m = k))

/-- R132, R133: compares and votes. -/
def Obligations.ComparesAndVotes : Prop := CompareResults ∧ VoteResults

/-- R134 with R119: MOVS gives the special register of its number, on a vector thread or on the burin core. A read of CYCLES (8) is the subject of
CyclesReadTogether. -/
def SpecialRegisterReads : Prop :=
  ∀ (d : Code) (imm : BitVec 18), imm.toNat ≠ 8 →
    WordGives (.movs d imm) .i false d (fun s l v =>
      let t := s.team (teamOf l)
      let g := groupIx (grpOf l)
      let frames := t.area.toNat + 18432 * g
      (imm.toNat = 0x00 → v.toNat = if isBurin l then 0 else laneOf l) ∧
      (imm.toNat = 0x01 → v.toNat = if isBurin l then 0xFFFFFFFF else g) ∧
      (imm.toNat = 0x02 → v = t.teamIx) ∧ (imm.toNat = 0x03 → v = t.teamCnt) ∧
      (imm.toNat = 0x04 → v = BitVec.ofNat 32 t.clRank) ∧ (imm.toNat = 0x05 → v = BitVec.ofNat 32 (t.w * t.h)) ∧
      (imm.toNat = 0x06 → v = BitVec.ofNat 32 t.core) ∧ (imm.toNat = 0x07 → v = BitVec.ofNat 32 t.die) ∧
      (imm.toNat = 0x09 → v = (s.pre l).cycHi) ∧
      (imm.toNat = 0x0A → v.toNat = t.arg.toNat % 2 ^ 32) ∧ (imm.toNat = 0x0B → v.toNat = t.arg.toNat / 2 ^ 32) ∧
      (imm.toNat = 0x0C → v = BitVec.ofNat 32 t.kern.scratch) ∧
      (imm.toNat = 0x0D → v.toNat = if isBurin l then 0 else frames % 2 ^ 32) ∧
      (imm.toNat = 0x0E → v.toNat = if isBurin l then 0 else frames / 2 ^ 32 % 2 ^ 32) ∧
      (imm.toNat = 0x0F → v = if isBurin l then 0 else ((s.pre l).trapping).getD 0) ∧
      (imm.toNat = 0x10 → v = t.govStat) ∧ (imm.toNat = 0x11 → v.toNat = 0x414E5A38))

/-- R120: a read of CYCLES gives the low word of the core's count and keeps its high word for the reading thread's next read of CYCLESHI. -/
def CyclesReadTogether : Prop :=
  ∀ d : Code, LaneGives (.movs d 8) (fun s l th =>
    let c := (s.core (s.coreOf l)).cycles
    let kept := { (s.thread l) with cycHi := BitVec.ofNat 32 (c / 2 ^ 32) }
    th = if isBurin l then kept.gdst false d (BitVec.ofNat 64 (c % 2 ^ 32)) else kept.dst .i false d (BitVec.ofNat 32 c))

/-- R119, R120, R134: reads of special registers. -/
def Obligations.SpecialRegisters : Prop := SpecialRegisterReads ∧ CyclesReadTogether

/-- R135: address arithmetic on pairs, and compares of pairs. -/
def Obligations.AddressResults : Prop :=
  ∀ (n : Bool) (d a b : Code),
    PairGives (.add64 n d a b) n d (fun s l v => v.toNat = ((s.wide l a).toNat + (s.wide l b).toNat) % 2 ^ 64) ∧
    PairGives (.sub64 n d a b) n d (fun s l v => (v.toNat : Int) = ((s.wide l a).toNat - (s.wide l b).toNat : Int) % 2 ^ 64) ∧
    PairGives (.addxI n d a b) n d (fun s l v => (v.toNat : Int) = ((s.wide l a).toNat + (s.narrow l b).toInt) % 2 ^ 64) ∧
    PairGives (.addxN n d a b) n d (fun s l v => v.toNat = ((s.wide l a).toNat + (s.narrow l b).toNat) % 2 ^ 64) ∧
    WordGives (.cmplt64 n d a b) .i n d (fun s l v => v.toNat = if (s.wide l a).toNat < (s.wide l b).toNat then 1 else 0) ∧
    WordGives (.cmpeq64 n d a b) .i n d (fun s l v => v.toNat = if (s.wide l a).toNat = (s.wide l b).toNat then 1 else 0) ∧
    PairGives (.mov64 n d a) n d (fun s l v => v = s.wide l a)

/-- R136: ADDI extends its immediate by sign, the logic forms with zeros. -/
def ImmediateResults : Prop :=
  ∀ (n : Bool) (d a : Code) (imm : BitVec 10),
    AluGives (.addi n d a imm) n d (fun w r v => (v.toNat : Int) = ((r a).toNat + imm.toInt) % 2 ^ w) ∧
    AluGives (.andi n d a imm) n d (fun w r v => ∀ k, k < w → v.getLsbD k = ((r a).getLsbD k && imm.getLsbD k)) ∧
    AluGives (.ori n d a imm) n d (fun w r v => ∀ k, k < w → v.getLsbD k = ((r a).getLsbD k || imm.getLsbD k)) ∧
    AluGives (.xori n d a imm) n d (fun w r v => ∀ k, k < w → v.getLsbD k = ((r a).getLsbD k != imm.getLsbD k))

/-- R137: a shift by an immediate amount is the shift of R130 by that amount. -/
def ShiftImmediateResults : Prop :=
  ∀ (n : Bool) (d a : Code) (k : BitVec 5),
    AluGives (.shli n d a k) n d (fun w r v => v.toNat = (r a).toNat * 2 ^ k.toNat % 2 ^ w) ∧
    AluGives (.shri n d a k) n d (fun _ r v => v.toNat = (r a).toNat / 2 ^ k.toNat) ∧
    AluGives (.sari n d a k) n d (fun _ r v => v.toInt = (r a).toInt / 2 ^ k.toNat) ∧
    AluGives (.roli n d a k) n d (fun w r v => v.toNat = ((r a).toNat * 2 ^ k.toNat + (r a).toNat / 2 ^ (w - k.toNat)) % 2 ^ w)

/-- R138: CMPI compares with its sign-extended immediate; the unsigned conditions take it as a pattern of the register's width. -/
def CompareImmediateResults : Prop :=
  ∀ (n : Bool) (d a : Code) (imm : BitVec 7),
    let pat (w : Nat) : Int := imm.toInt % 2 ^ w
    AluGives (.cmpiEq n d a imm) n d (fun w r v => v.toNat = if ((r a).toNat : Int) = pat w then 1 else 0) ∧
    AluGives (.cmpiNe n d a imm) n d (fun w r v => v.toNat = if ((r a).toNat : Int) ≠ pat w then 1 else 0) ∧
    AluGives (.cmpiLtI n d a imm) n d (fun _ r v => v.toNat = if (r a).toInt < imm.toInt then 1 else 0) ∧
    AluGives (.cmpiLeI n d a imm) n d (fun _ r v => v.toNat = if (r a).toInt ≤ imm.toInt then 1 else 0) ∧
    AluGives (.cmpiLtN n d a imm) n d (fun w r v => v.toNat = if ((r a).toNat : Int) < pat w then 1 else 0) ∧
    AluGives (.cmpiLeN n d a imm) n d (fun w r v => v.toNat = if ((r a).toNat : Int) ≤ pat w then 1 else 0) ∧
    AluGives (.cmpiGtI n d a imm) n d (fun _ r v => v.toNat = if imm.toInt < (r a).toInt then 1 else 0) ∧
    AluGives (.cmpiGeI n d a imm) n d (fun _ r v => v.toNat = if imm.toInt ≤ (r a).toInt then 1 else 0)

/-- R136 to R138: the words with an immediate operand. -/
def Obligations.ImmediateWords : Prop := ImmediateResults ∧ ShiftImmediateResults ∧ CompareImmediateResults

/-- R139, whole: the encoding and pipe of MOVI, and its result, the sign-extended immediate. -/
def Obligations.MoviResult : Prop :=
  ∀ (d : Code) (imm : BitVec 18),
    encode (.movi d imm) = some (0#1 ++ 0x16#6 ++ d ++ imm) ∧ pipeOf (.movi d imm) = .i ∧ encode (.movi 9 0x1A38) = some 0x2C241A38 ∧
    -131072 ≤ imm.toInt ∧ imm.toInt ≤ 131071 ∧
    AluGives (.movi d imm) false d (fun w _ v => (v.toNat : Int) = imm.toInt % 2 ^ w)

/-- R140 but for what it says of an assembler's use of the two words: MOVHI keeps the low 14 bits of D and puts its immediate above them. -/
def Obligations.MovhiResult : Prop :=
  ∀ (d : Code) (imm : BitVec 18),
    encode (.movhi d imm) = some (0#1 ++ 0x17#6 ++ d ++ imm) ∧ pipeOf (.movhi d imm) = .i ∧ encode (.movhi 2 0x1C000) = some 0x2E09C000 ∧
    AluGives (.movhi d imm) false d (fun w r v => v.toNat = ((r d).toNat % 2 ^ 14 + imm.toNat * 2 ^ 14) % 2 ^ w)

/-! ### Control words (R104, R115, R116, R118, R122, R141 to R152) -/

/-- R104, R141: BNZ and BZ. Each lane goes to the target or on; where the set splits, the side that the hint puts second takes rank 1. -/
def BranchesSplit : Prop :=
  ∀ (h : BitVec 2) (a : Code) (slot : BitVec 5) (dline : BitVec 11),
    let rule (onZero : Bool) (s : State) (l : Nat) (th : Thread) : Prop :=
      let taken (m : Nat) : Bool := decide (s.amount m a = 0) == onZero
      let yes := s.issue.lanes.filter taken
      let no := s.issue.lanes.filter (fun m => !taken m)
      let target := BitVec.ofInt 64 ((s.issue.pc.toNat / 128 * 128 : Nat) + dline.toInt * 128 + 4 * (slot.toNat : Int))
      let second := if yes = [] ∨ no = [] then [] else if h = 1 then no else if h = 2 then yes else if no.length < yes.length then no else yes
      th = { (s.thread l) with
        pc := if taken l then target else s.issue.next
        rank := if l ∈ second then 1 else (s.thread l).rank }
    LaneGives (.bnz h a slot dline) (rule false) ∧ LaneGives (.bz h a slot dline) (rule true)

/-- R142, R145: JMP and JMPI set the PC of every lane and nothing else. -/
def JumpsSetPc : Prop :=
  (∀ (h : BitVec 2) (slot : BitVec 5) (dline : BitVec 18),
    LaneGives (.jmp h slot dline) (fun s l th => th = { (s.thread l) with
      pc := BitVec.ofInt 64 ((s.issue.pc.toNat / 128 * 128 : Nat) + dline.toInt * 128 + 4 * (slot.toNat : Int)) })) ∧
  ∀ a : Code, LaneGives (.jmpi a) (fun s l th => th = { (s.thread l) with pc := s.wide l a })

/-- R104, R141, R142, R145: the words that set the PC. -/
def Obligations.BranchesAndJumps : Prop := BranchesSplit ∧ JumpsSetPc

/-- R143, R145: CALL and CALLI lower sp by 8, store the return address there, little-endian, and transfer; other private bytes stay. -/
def CallsPushReturnAddress : Prop :=
  let rule (target : State → Nat → DWord) (s : State) (l : Nat) (th : Thread) : Prop :=
    let sp := (s.pre l).sp - 8
    th = { (s.thread l) with pc := target s l, sp := sp, priv := th.priv } ∧
    th.privBytes sp.toNat 8 = leBytes 8 s.issue.next.toNat ∧
    ∀ o, (o < sp.toNat ∨ sp.toNat + 8 ≤ o) → mget 0 th.priv o = mget 0 (s.thread l).priv o
  (∀ (h : BitVec 2) (slot : BitVec 5) (dline : BitVec 18),
    LaneGives (.call h slot dline) (rule (fun s _ =>
      BitVec.ofInt 64 ((s.issue.pc.toNat / 128 * 128 : Nat) + dline.toInt * 128 + 4 * (slot.toNat : Int))))) ∧
  ∀ a : Code, LaneGives (.calli a) (rule (fun s l => s.wide l a))

/-- R146: RET goes to the eight bytes at sp and raises sp by 8; a poisoned return address is reported after issue (R208). That the bytes are those before an STP of the
same chain is the model's choice, log 53 (DESIGN CHOICE). -/
def ReturnPopsAddress : Prop :=
  LaneGives .ret (fun s l th =>
    let p := s.pre l
    th = { (s.thread l) with pc := BitVec.ofNat 64 (leNat (p.privBytes p.sp.toNat 8)), sp := p.sp + 8, faults := th.faults } ∧
    if p.privPoison.contains (p.sp.toNat / 32) then
      ∃ f, f.cause = 0x19 ∧ f.addr = p.sp.setWidth 64 ∧ f.word = s.issue.word ∧ th.faults = (s.thread l).faults ++ [f]
    else th.faults = (s.thread l).faults)

/-- R143 to R146: call and return. That RET takes the bytes that stood at sp before an STP of its own chain is the model's choice, log 53 (DESIGN CHOICE). -/
def Obligations.CallsAndReturns : Prop := CallsPushReturnAddress ∧ ReturnPopsAddress

/-- R147, R115, R116: EXIT ends the lanes, discards their loads, strikes them from every rejoin register of their group, and changes no memory. -/
def ExitEndsThreads : Prop :=
  Completes .exit (fun s t =>
    (∀ l ∈ s.issue.lanes, (t.thread l).cond = .exited ∧ (t.thread l).pc = s.issue.addr) ∧
    (∀ x ∈ t.loads, x.tid ∉ s.issue.lanes) ∧ t.mem = s.mem ∧ t.poison = s.poison ∧ t.sys = s.sys ∧
    (groupIx s.issue.group ≠ 32 → ∀ k, k < 8 →
      let m := (s.group s.issue.group).mask k
      let e := m.1 &&& ~~~laneMask s.issue.lanes
      let r := m.2 &&& ~~~laneMask s.issue.lanes
      (t.group s.issue.group).mask k =
        if (m.1 ||| m.2) &&& laneMask s.issue.lanes = 0 then m else if r ≠ 0 ∧ r = e then (0, 0) else (e, r)))

/-- R118, R148, R149, R338: YIELD takes the newest stamp and rank 0 and invalidates latches, but on the burin core it has no effect; NOP never has one. -/
def YieldAndNop : Prop :=
  LaneGives .yield (fun s l th => th =
    if isBurin l then s.thread l
    else { (s.thread l) with
      rank := 0, stamp := s.clock
      latch := (s.thread l).latch.filter (fun p => s.issue.kept.contains p.1)
      q3 := if s.issue.kept.contains 3 then (s.thread l).q3 else none }) ∧
  ∀ s, Runs .nop s → exec .nop s = .next s

/-- R115, R116, R118, R147 to R149, R338: EXIT, YIELD and NOP. -/
def Obligations.ThreadsEndOrYield : Prop := ExitEndsThreads ∧ YieldAndNop

/-- R108, R115, R116, R150: the rejoin words on the masks of their register; no other register, group or byte of memory changes. -/
def RejoinMasks : Prop :=
  ∀ (d : Code) (k : BitVec 3),
    let only (s t : State) : Prop :=
      t = { s with groups := t.groups, threads := t.threads } ∧ (∀ g, g ≠ s.issue.group → t.group g = s.group g) ∧
      (∀ j, j ≠ k.toNat → (t.group s.issue.group).mask j = (s.group s.issue.group).mask j) ∧
      ∀ x, grpOf x ≠ s.issue.group → t.thread x = s.thread x
    let m (s : State) : Word × Word := (s.group s.issue.group).mask k.toNat
    Completes (.rjEnrol k) (fun s t =>
      only s t ∧ t.threads = s.threads ∧ (t.group s.issue.group).mask k.toNat = ((m s).1 ||| laneMask s.issue.lanes, (m s).2)) ∧
    Completes (.rjStrike k) (fun s t =>
      let e := (m s).1 &&& ~~~laneMask s.issue.lanes
      let r := (m s).2 &&& ~~~laneMask s.issue.lanes
      only s t ∧ (t.group s.issue.group).mask k.toNat =
        if ((m s).1 ||| (m s).2) &&& laneMask s.issue.lanes ≠ 0 ∧ r ≠ 0 ∧ r = e then (0, 0) else (e, r)) ∧
    Completes (.rjWait k) (fun s t =>
      let r := (m s).2 ||| laneMask s.issue.lanes
      only s t ∧ (t.group s.issue.group).mask k.toNat = (if r = (m s).1 then (0, 0) else ((m s).1, r)) ∧
      ∀ l ∈ s.issue.lanes,
        -- the phase that an earlier word of the chain waits for stays beneath (R108)
        let phase : Option (Nat × Word) := match (s.thread l).cond with
          | .blocked (.phase j a) => some (j, a)
          | _ => (s.thread l).beneath
        if r = (m s).1 then
          t.thread l = { (s.thread l) with
            cond := if let some (j, a) := phase then .blocked (.phase j a) else .ready
            beneath := none, pc := nextAddr s.issue.addr, stamp := s.clock, rank := 0 }
        else t.thread l = { (s.thread l) with cond := .parked k.toNat, beneath := phase, pc := s.issue.addr }) ∧
    WordGives (.rjQuery d k) .k false d (fun s l v => v = ((s.group (grpOf l)).mask k.toNat).1)

/-- R108, R116: a release sends every thread parked on the register to the address after its own RJ.WAIT: ready, or waiting on for the phase of a PH.WAIT
of the same chain. -/
def ReleaseResumesParked : Prop :=
  ∀ (s : State) (gid k : Nat),
    let m := (s.group gid).mask k
    let t := releaseTest s gid k
    if m.2 ≠ 0 ∧ m.2 = m.1 then
      (t.group gid).mask k = (0, 0) ∧
      ∀ x, t.thread x = if grpOf x = gid ∧ (s.thread x).cond = .parked k then
        { (s.thread x) with
          cond := if let some (j, a) := (s.thread x).beneath then .blocked (.phase j a) else .ready
          beneath := none, pc := nextAddr (s.thread x).pc, stamp := s.clock, rank := 0 } else s.thread x
    else t = s

/-- R114 to R116, R150: the rejoin words and their release. -/
def Obligations.RejoinRegisters : Prop := RejoinMasks ∧ ReleaseResumesParked

/-- R122, R151: SPADD and SPSET set sp, SPGET reads it. -/
def StackPointerWords : Prop :=
  (∀ (a : Code) (x : BitVec 6), LaneGives (.spadd a x) (fun s l th => th = { (s.thread l) with
    sp := BitVec.ofInt 32 ((s.pre l).sp.toInt + x.toInt * 16 + (s.narrow l a).toInt) })) ∧
  (∀ a : Code, LaneGives (.spset a) (fun s l th => th = { (s.thread l) with sp := s.narrow l a })) ∧
  ∀ d : Code, WordGives (.spget d) .k false d (fun s l v => v = (s.pre l).sp)

/-! ### Checks at issue (R80, R86, R122, R143, R146, R151, R422) -/

/-- R80, R122, R143 to R146, R151: when the stack and target checks of the control words trap, and with which cause. The lower limit of the window
is the signed value of SLIM, or 0 where that is negative. That the push of CALLI is checked before its target is the model's choice, log 68 (DESIGN CHOICE). -/
def StackChecksTrap : Prop :=
  ∀ (s : State) (l : Nat) (a : Code) (x : BitVec 6),
    let team := s.team (teamOf l)
    let lo : Int := max team.slim.toInt 0
    let top : Int := team.kern.stack
    let sp := (s.pre l).sp
    let traps (i : Instr) (c : Nat) : Prop := ∃ f, check7 s l i = .trap f ∧ f.cause = c
    (sp.toNat % 8 ≠ 0 → traps .ret 0x16 ∧ traps (.calli a) 0x16 ∧ ∀ h slot dline, traps (.call h slot dline) 0x16) ∧
    (sp.toNat % 8 = 0 → (sp.toInt - 8 < lo ∨ top < sp.toInt) → traps (.calli a) 0x17 ∧ ∀ h slot dline, traps (.call h slot dline) 0x17) ∧
    (sp.toNat % 8 = 0 → (sp.toInt < lo ∨ top < sp.toInt + 8) → traps .ret 0x17) ∧
    (let n := sp.toInt + x.toInt * 16 + (s.narrow l a).toInt
     if n < lo ∨ top < n then traps (.spadd a x) 0x17 else check7 s l (.spadd a x) = .pass) ∧
    (let n := (s.narrow l a).toInt
     if n < lo ∨ top < n then traps (.spset a) 0x17 else check7 s l (.spset a) = .pass) ∧
    (let t := (s.wide l a).toNat
     if t % 4 ≠ 0 then traps (.jmpi a) 0x16 else if 30 ≤ t / 4 % 32 then traps (.jmpi a) 0x06 else check7 s l (.jmpi a) = .pass)

/-- R80, R122, R143 to R146, R151: the stack pointer words and the stack checks. That the push of CALLI is checked before its target is the model's choice,
log 68 (DESIGN CHOICE). -/
def Obligations.StackPointer : Prop := StackPointerWords ∧ StackChecksTrap

/-- R86, R93, R422: an undefined word, a word of major 0x3C on a vector thread and a privileged word in a team without service mode trap with cause
0x01 at step 3, whatever their operands, and are the first to do so. -/
def Obligations.ForbiddenWordsTrap : Prop :=
  ∀ (s : State) (l : Nat),
    let refused (i : Instr) : Prop := verdict s l i = .trap { cause := 0x01, addr := 0, word := s.issue.word, flags := 0 }
    (∀ w, refused (.illegalInstruction w)) ∧
    (isBurin l = false → ∀ a d : Code, ∀ x : BitVec 5, refused (.mxLoad a) ∧ refused .mxSwap ∧ refused (.mxStream a) ∧ refused (.mxAdapt a) ∧ refused .mxWait ∧
      refused (.accArm d a) ∧ refused (.accDrain a x) ∧ refused (.accClear d a) ∧ refused (.accStat d a)) ∧
    ((s.team (teamOf l)).service = false → ∀ d a : Code, refused (.movsys d a) ∧ refused (.movsysW d a) ∧ refused (.movtsysSlim a) ∧
      refused .movtsysRunclr ∧ refused (.tlbinv d a) ∧ refused (.halt d a) ∧ refused (.haltRes d a) ∧ refused (.proof d a)) ∧
    ((s.pre l).trapping = none → refused .eret)

/-- R86, R88, R113: with the word allowed, an illegal operand code traps with cause 0x02, and after that an invalid latch with cause 0x04. The words
named here have no other rule of steps 5 and 6. -/
def Obligations.OperandChecksTrap : Prop :=
  ∀ (s : State) (l : Nat) (n : Bool) (d a b : Code), isBurin l = false →
    let regs := (s.team (teamOf l)).kern.regs
    let source (c : Code) : Bool := if c.toNat < 120 then decide (c.toNat < regs) else decide (c.toNat ≤ 124)
    let dest (c : Code) : Bool := if c.toNat < 120 then decide (c.toNat < regs) else decide (c.toNat = 124)
    let valid (c : Code) : Bool := decide (c.toNat < 120) || decide (124 ≤ c.toNat) || (mfind (s.pre l).latch (c.toNat - 120)).isSome
    let trap (c : Nat) : Verdict := .trap { cause := c, addr := 0, word := s.issue.word, flags := 0 }
    ∀ i ∈ [Instr.add n d a b, .sub n d a b, .mul n d a b, .andW n d a b, .orW n d a b, .xorW n d a b, .shl n d a b, .cmpEq n d a b, .fadd n d a b,
        .fmul n d a b, .xbShfl n d a b],
      verdict s l i = if !(dest d && source a && source b) then trap 0x02 else if !(valid a && valid b) then trap 0x04 else .pass

/-- R398, R399: lanes that fail a check trap together, as one sub-group, and the word has no effect for them. -/
def Obligations.FailingLanesTrapTogether : Prop :=
  ∀ (i : Instr) (s : State) (f : Nat → TrapInfo), s.SetOk → s.issue.checked = false → (∀ l ∈ s.issue.lanes, verdict s l i = .trap (f l)) →
    ∀ eff : State → List Nat → State,
      issued i s eff = .next (takeTrap s s.issue.group (s.issue.lanes.map (fun l => (l, { f l with trapNo := s.runOf l }))))

/-! ### Traps (R398 to R407, R423) -/

/-- The threads of an issue can enter their handler: a running team with a handler, vector lanes that are not in it, nothing of theirs under way, frames that can be
written (R398, R402, R404). -/
def CanEnterHandler (s : State) : Prop :=
  let team := s.team s.issueTeam
  s.SetOk ∧ groupIx s.issue.group ≠ 32 ∧ team.life = .running ∧ team.kern.handler ≠ 0 ∧
  ∀ l ∈ s.issue.lanes, (s.thread l).trapping = none ∧ (s.thread l).cond = .ready ∧ (∀ x ∈ s.loads, x.tid ≠ l) ∧ ∃ ps, framePlaces s l true = .ok ps

/-- R86, R90, R152, R398, R399, R404, R407, R423: every word, an undefined one too, that traps for every lane of its set takes the threads to the handler, BRK and TRAP
among them: PC at the handler, the mask of the sub-group in TRAPLANES, every latch invalid, registers, sp and private memory as they were, the newest stamp. -/
def BreakAndTrapEnterHandler : Prop :=
  ∀ i : Instr, ((encode i).isSome ∨ ∃ w, i = .illegalInstruction w) → ∀ s, CanEnterHandler s → s.issue.checked = false →
    (∀ l ∈ s.issue.lanes, ∃ f, verdict s l i = .trap f ∧ f.bad = none ∧ f.entry = none ∧ f.cause ≠ 0x22 ∧ f.cause ≠ 0x30) →
    ∃ t, exec i s = .next t ∧ ∀ l ∈ s.issue.lanes, ∃ no,
      t.thread l = { (s.thread l) with
        pc := (s.team s.issueTeam).kern.handler, trapping := some (laneMask s.issue.lanes), trapNo := no, wasParked := none,
        latch := [], q3 := none, beneath := none, roomHeld := false, stamp := s.clock, rank := 0 }

/-- R152, R423: what BRK and TRAP report: cause 0x21, no fault address for BRK, the zero-extended source for TRAP, the word itself. -/
def BreakAndTrapCause : Prop :=
  ∀ (s : State) (l : Nat) (a : Code) (x : BitVec 6),
    (early s l (.brk x) = .pass → verdict s l (.brk x) = .trap { cause := 0x21, addr := 0, word := s.issue.word, flags := 0 }) ∧
    (early s l (.trap a x) = .pass → verdict s l (.trap a x) = .trap
      { cause := 0x21, addr := if isBurin l then s.gsrc l a else (s.src l a).setWidth 64, word := s.issue.word, flags := 0 })

/-- R86, R90, R152, R398, R399, R402, R404, R423: what BRK and TRAP report, and where they, and every word that fails its checks for each lane of its set,
take the threads: to the handler, as one sub-group, with their registers, sp and private memory as they were. -/
def Obligations.BreakAndTrap : Prop := BreakAndTrapCause ∧ BreakAndTrapEnterHandler

/-- R402, R407: the 576 bytes that entry writes for one thread, ready, parked or blocked, where its frame lies in one piece of ordinary memory; a parked thread
leaves its arrived bit and stays enrolled. The PC is the thread's, but for a word that
transfers to a bad target: there R80 and R145 name that word's own address (log 52, DEDUCED). -/
def Obligations.TrapFrameHoldsState : Prop :=
  ∀ (s : State) (l p run : Nat) (mask : Word) (f : TrapInfo), s.binds = [] → s.lost = [] → (∀ k, (s.thread l).cond = .parked k → k < 8) →
    let team := s.team (teamOf l)
    let th := s.thread l
    let t := enterLane s l mask run f [(.phys p, 576)]
    (∀ c, c < 120 → readNat t (.phys (p + 4 * c)) 4 = if c < team.kern.regs then (mget 0 th.regs c).toNat else 0) ∧
    (∀ k, k < 4 → readNat t (.phys (p + 480 + 4 * k)) 4 = ((mfind th.latch k).getD 0).toNat) ∧
    readNat t (.phys (p + 496)) 8 = (f.pc.getD th.pc).toNat ∧
    (f.cause < 2 ^ 32 → readNat t (.phys (p + 504)) 4 = f.cause) ∧
    readNat t (.phys (p + 508)) 4 = f.word.toNat ∧
    readNat t (.phys (p + 512)) 8 = f.addr.toNat ∧
    (let st := readNat t (.phys (p + 520)) 4
     st % 2 = 1 ∧ st.testBit 5 = true ∧ (∀ k, k < 4 → st.testBit (6 + k) = (mfind th.latch k).isSome) ∧ st / 2 ^ 10 = 0 ∧
     (∀ k, th.cond = .parked k → st.testBit 1 = true ∧ st / 2 ^ 2 % 8 = k) ∧ ((∀ k, th.cond ≠ .parked k) → st.testBit 1 = false ∧ st / 2 ^ 2 % 8 = 0)) ∧
    (∀ i, 524 ≤ i → i < 576 → readByte t (.phys (p + i)) = 0) ∧
    (∀ k, th.cond = .parked k → ((t.group (grpOf l)).mask k) = (((s.group (grpOf l)).mask k).1, ((s.group (grpOf l)).mask k).2 &&& ~~~(1#32 <<< laneOf l))) ∧
    (∀ a, a < p ∨ p + 576 ≤ a → readByte t (.phys a) = readByte s (.phys a))

/-- R406: ERET of one thread that was not parked, from a live frame in one piece of ordinary memory: registers below the declared count, latches with
their validity and the PC come from the frame, the thread leaves the handler, and of memory only the frame's was-trapping bit changes. -/
def Obligations.EretRestoresThread : Prop :=
  ∀ (s : State) (l p : Nat), Runs .eret s → s.issue.lanes = [l] → s.binds = [] → s.lost = [] → (s.group s.issue.group).queue = [] → (∀ x ∈ s.loads, x.tid ≠ l) →
    (s.team (teamOf l)).life = .running → framePlaces s l false = .ok [(.phys p, 576)] →
    let st := readNat s (.phys (p + 520)) 4
    st.testBit 0 = true → st.testBit 1 = false →
    ∃ t, exec .eret s = .next t ∧
      (let th := t.thread l
       (∀ c, c < 120 → mget 0 th.regs c =
         if c < (s.team (teamOf l)).kern.regs then BitVec.ofNat 32 (readNat s (.phys (p + 4 * c)) 4) else mget 0 (s.thread l).regs c) ∧
       (∀ k, k < 4 → mfind th.latch k = if st.testBit (6 + k) then some (BitVec.ofNat 32 (readNat s (.phys (p + 480 + 4 * k)) 4)) else none) ∧
       th.pc = BitVec.ofNat 64 (readNat s (.phys (p + 496)) 8) ∧ th.trapping = none ∧ th.stamp = s.clock ∧ th.rank = 0 ∧
       th.sp = (s.thread l).sp ∧ th.priv = (s.thread l).priv) ∧
      -- the lane leaves the mask of those that trapped with it, and nothing else of other threads changes
      (∀ x, x ≠ l → t.thread x = { (s.thread x) with trapping := (s.thread x).trapping.map (fun m =>
        if grpOf x = grpOf l ∧ (s.thread l).trapping.isSome = true ∧ (s.thread l).trapNo = (s.thread x).trapNo then m &&& ~~~(1#32 <<< laneOf l) else m) }) ∧
      (readNat t (.phys (p + 520)) 4).testBit 5 = false ∧
      (∀ k, k < 32 → k ≠ 5 → (readNat t (.phys (p + 520)) 4).testBit k = st.testBit k) ∧
      ∀ a, a < p + 520 ∨ p + 524 ≤ a → readByte t (.phys a) = readByte s (.phys a)

/-! ### Float, conversion and crossbar words (R154 to R195) -/

/-- R175 to R191: every float, special-function, pair, conversion and packing word completes with the result of its operation in each lane, and its events are counted
in the team's vector windows or, routed, in the context's sums (`EventsTake`: that several classes fire in ascending order is log 98, DESIGN CHOICE). The
operations are the subject of the statements that follow. -/
def Obligations.FloatWordsComplete : Prop :=
  ∀ (n : Bool) (d a b : Code) (r p : BitVec 2) (k : BitVec 3),
    let two (op : Word → Word → FRes) (s : State) (l : Nat) : FRes := op (s.src l a) (s.src l b)
    let three (op : Word → Word → Word → FRes) (s : State) (l : Nat) : FRes := op (s.src l d) (s.src l a) (s.src l b)
    let one (op : Word → FRes) (s : State) (l : Nat) : FRes := op (s.src l a)
    let slot (s : State) : Word := (s.team s.issueTeam).slots.getD k.toNat 0
    (∀ q ∈ [(Instr.fadd n d a b, faddOp), (.fsub n d a b, fsubOp), (.fmul n d a b, fmulOp), (.hadd2 n d a b, hadd2Op), (.hsub2 n d a b, hsub2Op),
        (.hmul2 n d a b, hmul2Op)], FloatGives q.1 .f n d (fun _ => none) (two q.2)) ∧
    (∀ q ∈ [(Instr.ffma n d a b, ffmaOp), (.ffms n d a b, ffmsOp), (.hfma2 n d a b, hfma2Op), (.hdot2 n d a b, hdot2Op)],
      FloatGives q.1 .f n d (fun _ => none) (three q.2)) ∧
    (∀ q ∈ [(Instr.frcp n d a, 0), (.frsq n d a, 1), (.fsqrt n d a, 2), (.fexp2 n d a, 3), (.flog2 n d a, 4), (.ftanh n d a, 5), (.fsin n d a, 6),
        (.fcos n d a, 7)], FloatGives q.1 .x n d (fun _ => none) (one (fspecOp q.2))) ∧
    (∀ q ∈ [(Instr.cvtF2i n d a r, cvtF2iOp), (.cvtF2n n d a r, cvtF2nOp), (.cvtI2f n d a r, cvtI2fOp), (.cvtN2f n d a r, cvtN2fOp),
        (.cvtF2bf n d a r, cvtF2bfOp), (.cvtF2h n d a r, cvtF2hOp), (.cvtFrnd n d a r, cvtFrndOp)],
      FloatGives q.1 .f n d (fun _ => none) (one (q.2 (modeOf r)))) ∧
    FloatGives (.cvtBf2f n d a) .f n d (fun _ => none) (one cvtBf2fOp) ∧ FloatGives (.cvtH2f n d a) .f n d (fun _ => none) (one cvtH2fOp) ∧
    FloatGives (.cvtEnc n d a k r) .f n d (some ∘ slot) (fun s l => cvtEncOp (slot s) (modeOf r) (s.src l a)) ∧
    FloatGives (.cvtDec n d a k r) .f n d (some ∘ slot) (fun s l => cvtDecOp (slot s) (modeOf r) (s.src l a)) ∧
    FloatGives (.narrowPack n d a k p) .f n d (some ∘ slot) (fun s l => narrowPackOp (slot s) p.toNat (s.src l d) (s.src l a)) ∧
    FloatGives (.narrowUnpack n d a k p) .f n d (some ∘ slot) (fun s l => narrowUnpackOp (slot s) p.toNat (s.src l a))

/-- The rational number that a finite value stands for. -/
def ratOf : Val → ℚ
  | .fin neg m e => (if neg then -1 else 1) * (m : ℚ) * (2 : ℚ) ^ e
  | _ => 0

/-- An integer to which a mode of R162 rounds a number. -/
def RoundedInt (mode : Mode) (x : ℚ) (n : ℤ) : Prop :=
  match mode with
  | .rne => 2 * |x - n| ≤ 1 ∧ (2 * |x - n| = 1 → n % 2 = 0)
  | .rtz => |(n : ℚ)| ≤ |x| ∧ |x| < |(n : ℚ)| + 1 ∧ 0 ≤ x * n
  | .rdn => (n : ℚ) ≤ x ∧ x < n + 1
  | .rup => x ≤ (n : ℚ) ∧ (n : ℚ) < x + 1

/-- R162, R163: rounding a nonzero value to a float format rounds its multiple of the step that the format has at that magnitude, the subnormal step
included; beyond the largest finite magnitude each mode gives what R163 says. -/
def RoundingIsNearest : Prop :=
  ∀ f ∈ [Fmt.f32, .bf16, .f16], ∀ (mode : Mode) (neg : Bool) (m : Nat) (e : Int), m ≠ 0 →
    let x := ratOf (.fin neg m e)
    let lo : Int := 1 - (f.bias : Int) - f.fracBits
    -- the step is the one of the number itself: the number has its leading bit in the format's last place but fracBits, or lies below the least normal one
    ∃ (k : Int) (q : Nat), lo ≤ k ∧ |x| < (2 : ℚ) ^ (k + f.fracBits + 1) ∧ (k = lo ∨ (2 : ℚ) ^ (k + f.fracBits) ≤ |x|) ∧
      (k = lo ∨ 2 ^ f.fracBits ≤ q) ∧ q ≤ 2 ^ (f.fracBits + 1) ∧
      RoundedInt mode (x / (2 : ℚ) ^ k) (if neg then -(q : ℤ) else q) ∧
      roundFloat f mode (.fin neg m e) =
        if (q : ℚ) * (2 : ℚ) ^ k ≤ (2 ^ (f.fracBits + 1) - 1 : ℚ) * (2 : ℚ) ^ ((f.bias : Int) - f.fracBits) then .fin neg q k
        else if mode = .rtz ∨ (mode = .rdn ∧ neg = false) ∨ (mode = .rup ∧ neg = true) then
          .fin neg (2 ^ (f.fracBits + 1) - 1) ((f.bias : Int) - f.fracBits)
        else .inf neg

/-- R154, R155, R157, R164: reading a pattern and writing its value gives the pattern back, for every number that is not NaN in the float formats, and
for every pattern of the tapered ones under every mode, without saturation. -/
def PatternsRoundTrip : Prop :=
  (∀ f ∈ [Fmt.f32, .bf16, .f16], ∀ x : Nat, x < 2 ^ f.width → floatValue f x ≠ .nan → floatPattern f (floatValue f x) = x) ∧
  ∀ q ∈ [(8, 0), (8, 1), (8, 2), (6, 0), (6, 1), (6, 2)], ∀ (mode : Mode) (x : Nat), x < 2 ^ q.1 →
    taperedRound q.1 q.2 mode (taperedValue x q.1 q.2) = (x, false)

/-- R154, R155, R157, R162 to R164: rounding, and patterns that come back. -/
def Obligations.NumberPatterns : Prop := RoundingIsNearest ∧ PatternsRoundTrip

/-- The product of two values, one of them infinite, none of them NaN: none where it is 0 × infinity (R167); of finite values, any finite number. -/
def specialProduct (a b : Val) : Option Val :=
  if a.isInf = true ∧ b.isZero = true ∨ a.isZero = true ∧ b.isInf = true then none
  else if a.isInf = true ∨ b.isInf = true then some (.inf (a.sign != b.sign)) else some (.fin false 0 0)

/-- A sum of terms not all finite: an invalid product and infinities of both signs give NaN and its event, else the sum is the infinity (R167). -/
def specialSum (terms : List (Option Val)) : Val × List Nat :=
  if none ∈ terms ∨ (some (.inf true) ∈ terms ∧ some (.inf false) ∈ terms) then (.nan, [1])
  else if some (.inf true) ∈ terms then (.inf true, []) else (.inf false, [])

/-- A special result as an f32 word with its events. -/
def wordOf (v : Val × List Nat) : FRes := (BitVec.ofNat 32 (floatPattern .f32 v.1), v.2)

/-- R167, R168, R183, R184, R188: on finite operands the arithmetic words, those of pairs too, form the exact sum or product and round it once, with the sign of a zero that
R184 gives; a NaN operand gives the canonical NaN without an event, an invalid operation gives it with a NaN event, and an infinity without one of these stays one; the pass
sum adds the products of a row as R168 says. -/
def Obligations.FloatArithmeticIsExact : Prop :=
  let finite (v : Val) : Prop := v.isNan = false ∧ v.isInf = false
  let once (f : Fmt) (x : ℚ) (r : FRes) : Prop := ∃ neg m e, ratOf (.fin neg m e) = x ∧ r.1.toNat = (outVal f .rne (.fin neg m e)).1 ∧
    r.2 = (outVal f .rne (.fin neg m e)).2
  (∀ a b d : Word, finite (inF32 a) → finite (inF32 b) → finite (inF32 d) →
    once .f32 (ratOf (inF32 a) + ratOf (inF32 b)) (faddOp a b) ∧
    once .f32 (ratOf (inF32 a) - ratOf (inF32 b)) (fsubOp a b) ∧
    once .f32 (ratOf (inF32 a) * ratOf (inF32 b)) (fmulOp a b) ∧
    once .f32 (ratOf (inF32 d) + ratOf (inF32 a) * ratOf (inF32 b)) (ffmaOp d a b) ∧
    once .f32 (ratOf (inF32 d) - ratOf (inF32 a) * ratOf (inF32 b)) (ffmsOp d a b)) ∧
  (∀ a b d : Word, finite (inBf (lowHalf a)) → finite (inBf (lowHalf b)) → finite (inBf (highHalf a)) → finite (inBf (highHalf b)) →
    finite (inF32 d) →
    once .f32 (ratOf (inF32 d) + ratOf (inBf (lowHalf a)) * ratOf (inBf (lowHalf b)) + ratOf (inBf (highHalf a)) * ratOf (inBf (highHalf b)))
      (hdot2Op d a b)) ∧
  (∀ a b d : Word, (∀ x ∈ [a, b, d], finite (inBf (lowHalf x)) ∧ finite (inBf (highHalf x))) →
    let low (x : Word) : ℚ := ratOf (inBf (lowHalf x))
    let high (x : Word) : ℚ := ratOf (inBf (highHalf x))
    let joins (l h : ℚ) (r : FRes) : Prop := ∃ lo hi : FRes, once .bf16 l lo ∧ once .bf16 h hi ∧ r.1.toNat = hi.1.toNat * 2 ^ 16 + lo.1.toNat ∧ r.2 = lo.2 ++ hi.2
    joins (low a + low b) (high a + high b) (hadd2Op a b) ∧ joins (low a - low b) (high a - high b) (hsub2Op a b) ∧
    joins (low a * low b) (high a * high b) (hmul2Op a b) ∧ joins (low d + low a * low b) (high d + high a * high b) (hfma2Op d a b)) ∧
  -- the sign of a zero: that of the operands of a product; a sum is -0 only where both its terms are
  (∀ a b d : Word, finite (inF32 a) → finite (inF32 b) → finite (inF32 d) →
    let x := ratOf (inF32 a)
    let y := ratOf (inF32 b)
    let neg (c : Prop) [Decidable c] : Word := if c then 0x80000000 else 0
    (x + y = 0 → faddOp a b = (neg (a = 0x80000000 ∧ b = 0x80000000), [])) ∧ (x - y = 0 → fsubOp a b = (neg (a = 0x80000000 ∧ b = 0), [])) ∧
    (x * y = 0 → fmulOp a b = (neg (a.getLsbD 31 ≠ b.getLsbD 31), [])) ∧
    (ratOf (inF32 d) + x * y = 0 → ffmaOp d a b = (neg (d = 0x80000000 ∧ x * y = 0 ∧ a.getLsbD 31 ≠ b.getLsbD 31), [])) ∧
    (ratOf (inF32 d) - x * y = 0 → ffmsOp d a b = (neg (d = 0x80000000 ∧ x * y = 0 ∧ a.getLsbD 31 = b.getLsbD 31), []))) ∧
  (∀ a b : Word, (∀ z ∈ [a, b], finite (inBf (lowHalf z)) ∧ finite (inBf (highHalf z))) → ∀ h ∈ [lowHalf, highHalf],
    let x := ratOf (inBf (h a))
    let y := ratOf (inBf (h b))
    let neg (c : Prop) [Decidable c] : BitVec 16 := if c then 0x8000 else 0
    (x + y = 0 → h (hadd2Op a b).1 = neg (h a = 0x8000 ∧ h b = 0x8000)) ∧ (x - y = 0 → h (hsub2Op a b).1 = neg (h a = 0x8000 ∧ h b = 0)) ∧
    (x * y = 0 → h (hmul2Op a b).1 = neg ((h a).getLsbD 15 ≠ (h b).getLsbD 15))) ∧
  (∀ a b d : Word, (inF32 a = .nan ∨ inF32 b = .nan) →
    faddOp a b = (0x7FC00000, []) ∧ fsubOp a b = (0x7FC00000, []) ∧ fmulOp a b = (0x7FC00000, []) ∧ ffmaOp d a b = (0x7FC00000, []) ∧
    ffmsOp d a b = (0x7FC00000, [])) ∧
  (∀ a b d : Word, inF32 d = .nan → ffmaOp d a b = (0x7FC00000, []) ∧ ffmsOp d a b = (0x7FC00000, [])) ∧
  -- infinities, and the operations that are invalid with them
  (∀ a b : Word, let x := inF32 a
    let y := inF32 b
    x ≠ .nan → y ≠ .nan → (x.isInf = true ∨ y.isInf = true) →
    faddOp a b = wordOf (specialSum [some x, some y]) ∧ fsubOp a b = wordOf (specialSum [some x, some y.neg]) ∧ fmulOp a b = wordOf (specialSum [specialProduct x y])) ∧
  (∀ a b d : Word, let x := inF32 a
    let y := inF32 b
    let z := inF32 d
    x ≠ .nan → y ≠ .nan → z ≠ .nan → (x.isInf = true ∨ y.isInf = true ∨ z.isInf = true) →
    ffmaOp d a b = wordOf (specialSum [some z, specialProduct x y]) ∧ ffmsOp d a b = wordOf (specialSum [some z, specialProduct x.neg y])) ∧
  (∀ a b d : Word, let xs := [inBf (lowHalf a), inBf (lowHalf b), inBf (highHalf a), inBf (highHalf b), inF32 d]
    (.nan ∈ xs → hdot2Op d a b = (0x7FC00000, [])) ∧
    (.nan ∉ xs → (∃ v ∈ xs, v.isInf = true) → hdot2Op d a b =
      wordOf (specialSum [some (inF32 d), specialProduct (inBf (lowHalf a)) (inBf (lowHalf b)), specialProduct (inBf (highHalf a)) (inBf (highHalf b))]))) ∧
  -- each half of a pair for itself
  (∀ a b d : Word, ∀ q ∈ [(lowHalf, highHalf), (highHalf, lowHalf)],
    let x := inBf (q.1 a)
    let y := inBf (q.1 b)
    let z := inBf (q.1 d)
    let pat (v : Val × List Nat) : BitVec 16 := BitVec.ofNat 16 (floatPattern .bf16 v.1)
    (x = .nan ∨ y = .nan → q.1 (hadd2Op a b).1 = 0x7FC0 ∧ q.1 (hsub2Op a b).1 = 0x7FC0 ∧ q.1 (hmul2Op a b).1 = 0x7FC0) ∧
    (x = .nan ∨ y = .nan ∨ z = .nan → q.1 (hfma2Op d a b).1 = 0x7FC0) ∧
    (x ≠ .nan → y ≠ .nan → (x.isInf = true ∨ y.isInf = true) → q.1 (hadd2Op a b).1 = pat (specialSum [some x, some y]) ∧
      q.1 (hsub2Op a b).1 = pat (specialSum [some x, some y.neg]) ∧ q.1 (hmul2Op a b).1 = pat (specialSum [specialProduct x y])) ∧
    (x ≠ .nan → y ≠ .nan → z ≠ .nan → (x.isInf = true ∨ y.isInf = true ∨ z.isInf = true) → q.1 (hfma2Op d a b).1 = pat (specialSum [some z, specialProduct x y])) ∧
    -- with the other halves zero, the word's events are this half's
    (x ≠ .nan → y ≠ .nan → z ≠ .nan → q.2 a = 0 → q.2 b = 0 → q.2 d = 0 →
      ((x.isInf = true ∨ y.isInf = true) → (hadd2Op a b).2 = (specialSum [some x, some y]).2 ∧ (hsub2Op a b).2 = (specialSum [some x, some y.neg]).2 ∧
        (hmul2Op a b).2 = (specialSum [specialProduct x y]).2) ∧
      ((x.isInf = true ∨ y.isInf = true ∨ z.isInf = true) → (hfma2Op d a b).2 = (specialSum [some z, specialProduct x y]).2))) ∧
  -- the pass sum: exact products, each cut off below 2^(E - 60) where the largest lies in [2^E, 2^(E + 1)), summed exactly and rounded once
  ∀ ps : List (Val × Val),
    let nan : Prop := ∃ p ∈ ps, p.1 = .nan ∨ p.2 = .nan
    let inf : Prop := ∃ p ∈ ps, p.1.isInf = true ∨ p.2.isInf = true
    let products : List ℚ := ps.map (fun p => ratOf p.1 * ratOf p.2)
    (nan → passSum .f32 ps = (0x7FC00000, [])) ∧
    (¬nan → inf → passSum .f32 ps = (floatPattern .f32 (specialSum (ps.map (fun p => specialProduct p.1 p.2))).1, (specialSum (ps.map (fun p => specialProduct p.1 p.2))).2)) ∧
    (¬nan → ¬inf → (∀ x ∈ products, x = 0) → passSum .f32 ps = (0, [])) ∧
    ∀ E : ℤ, ¬nan → ¬inf → (∃ x ∈ products, (2 : ℚ) ^ E ≤ |x|) → (∀ x ∈ products, |x| < (2 : ℚ) ^ (E + 1)) →
      let ul : ℚ := (2 : ℚ) ^ (E - 60)
      let sum : ℚ := (products.map (fun x => (if x < 0 then -1 else 1) * ((⌊|x| / ul⌋ : ℤ) : ℚ) * ul)).sum
      (sum = 0 → passSum .f32 ps = (0, [])) ∧
      once .f32 sum (BitVec.ofNat 32 (passSum .f32 ps).1, (passSum .f32 ps).2)

/-- R184 to R186, R188: the least and the greatest of two patterns, their order, class and sign bits, read off the patterns themselves. -/
def FloatOrderAndClass : Prop :=
  let mag (x : Word) : Nat := x.toNat % 2 ^ 31
  let neg (x : Word) : Prop := 2 ^ 31 ≤ x.toNat
  let nan (x : Word) : Prop := 0x7F800000 < mag x
  let ord (x : Word) : Int := if 2 ^ 31 ≤ x.toNat then -(mag x : Int) else mag x
  let below (x y : Word) : Prop := ord x < ord y ∨ (ord x = ord y ∧ neg x ∧ ¬neg y)
  let half (x : Nat) : Int := if 2 ^ 15 ≤ x then -(x % 2 ^ 15 : Nat) - 1 else x
  ∀ (n : Bool) (d a b : Code),
    WordGives (.fmin n d a b) .f n d (fun s l v =>
      let x := s.src l a
      let y := s.src l b
      (nan x ∨ nan y → v = 0x7FC00000) ∧ (¬nan x → ¬nan y → (below x y → v = x) ∧ (below y x → v = y) ∧ (¬below x y → ¬below y x → v = x ∧ v = y))) ∧
    WordGives (.fmax n d a b) .f n d (fun s l v =>
      let x := s.src l a
      let y := s.src l b
      (nan x ∨ nan y → v = 0x7FC00000) ∧ (¬nan x → ¬nan y → (below x y → v = y) ∧ (below y x → v = x) ∧ (¬below x y → ¬below y x → v = x ∧ v = y))) ∧
    WordGives (.fcpsgn n d a b) .f n d (fun s l v => v.toNat = mag (s.src l a) + (s.src l b).toNat / 2 ^ 31 * 2 ^ 31) ∧
    (∀ q ∈ [(Instr.feq n d a b, fun (x y : Int) => x = y), (.flt n d a b, fun x y => x < y), (.fle n d a b, fun x y => x ≤ y)],
      WordGives q.1 .f n d (fun s l v =>
        (v = 1 ∨ v = 0) ∧ (v = 1 ↔ ¬nan (s.src l a) ∧ ¬nan (s.src l b) ∧ q.2 (ord (s.src l a)) (ord (s.src l b))))) ∧
    WordGives (.funord n d a b) .f n d (fun s l v => (v = 1 ∨ v = 0) ∧ (v = 1 ↔ nan (s.src l a) ∨ nan (s.src l b))) ∧
    WordGives (.fclass n d a) .f n d (fun s l v =>
      let x := s.src l a
      let m := mag x
      (m = 0 → (neg x → v = 8) ∧ (¬neg x → v = 16)) ∧
      (0 < m → m < 2 ^ 23 → (neg x → v = 4) ∧ (¬neg x → v = 32)) ∧
      (2 ^ 23 ≤ m → m < 0x7F800000 → (neg x → v = 2) ∧ (¬neg x → v = 64)) ∧
      (m = 0x7F800000 → (neg x → v = 1) ∧ (¬neg x → v = 128)) ∧
      (0x7F800000 < m → m < 0x7FC00000 → v = 256) ∧ (0x7FC00000 ≤ m → v = 512)) ∧
    WordGives (.fabs n d a) .f n d (fun s l v => v.toNat = mag (s.src l a)) ∧
    WordGives (.fneg n d a) .f n d (fun s l v => v.toNat = ((s.src l a).toNat + 2 ^ 31) % 2 ^ 32) ∧
    (∀ q ∈ [(Instr.hmin2 n d a b, true), (.hmax2 n d a b, false)], WordGives q.1 .f n d (fun s l v =>
      ∀ k ∈ [0, 16],
        let x := (s.src l a).toNat / 2 ^ k % 2 ^ 16
        let y := (s.src l b).toNat / 2 ^ k % 2 ^ 16
        v.toNat / 2 ^ k % 2 ^ 16 = if 0x7F80 < x % 2 ^ 15 ∨ 0x7F80 < y % 2 ^ 15 then 0x7FC0
          else if (q.2 = true ∧ half x ≤ half y) ∨ (q.2 = false ∧ half y ≤ half x) then x else y))

/-- R187: the special operands of the eight functions, by function number, with their events: NaN, the zeros and the infinities, a negative operand of the
root and logarithm functions, and the two corners of FEXP2 and the zero of FLOG2 that the rule works out. -/
def SpecialOperands : Prop :=
  (∀ fn < 8, ∀ x : Word, 0x7F800000 < x.toNat % 2 ^ 31 → fspecOp fn x = (0x7FC00000, [])) ∧
  (∀ fn ∈ [1, 2, 4], ∀ x : Word, 0x80000000 < x.toNat → x.toNat ≤ 0xFF800000 → fspecOp fn x = (0x7FC00000, [1])) ∧
  (∀ q ∈ [(0, 0x00000000, 0x7F800000), (0, 0x80000000, 0xFF800000), (0, 0x7F800000, 0), (0, 0xFF800000, 0x80000000),
      (1, 0, 0x7F800000), (1, 0x80000000, 0xFF800000), (1, 0x7F800000, 0), (2, 0, 0), (2, 0x80000000, 0x80000000), (2, 0x7F800000, 0x7F800000),
      (3, 0x7F800000, 0x7F800000), (3, 0xFF800000, 0), (4, 0, 0xFF800000), (4, 0x80000000, 0xFF800000), (4, 0x7F800000, 0x7F800000),
      (5, 0, 0), (5, 0x80000000, 0x80000000), (5, 0x7F800000, 0x3F800000), (5, 0xFF800000, 0xBF800000), (6, 0, 0), (6, 0x80000000, 0x80000000),
      (7, 0, 0x3F800000), (7, 0x80000000, 0x3F800000), (4, 0x3F800000, 0)], fspecOp q.1 (q.2.1 : Word) = ((q.2.2 : Word), [])) ∧
  (∀ fn ∈ [6, 7], fspecOp fn 0x7F800000 = (0x7FC00000, [1]) ∧ fspecOp fn 0xFF800000 = (0x7FC00000, [1])) ∧
  fspecOp 3 0x43000000 = (0x7F800000, [0]) ∧ fspecOp 3 0xC3160000 = (0, [2])

/-- A real number rounded to f32, to nearest with ties to even, with its event: saturation (0) of a number that rounds beyond the largest finite one, underflow (2)
of one that is not zero and rounds to zero (R162, R163, R183). -/
def RoundsTo (x : ℝ) (r : FRes) : Prop :=
  ∃ (k : ℤ) (q : ℕ) (neg : Bool), -149 ≤ k ∧ |x| < (2 : ℝ) ^ (k + 24) ∧ (k = -149 ∨ (2 : ℝ) ^ (k + 23) ≤ |x|) ∧
    2 * |(|x| / (2 : ℝ) ^ k - q)| ≤ 1 ∧ (2 * |(|x| / (2 : ℝ) ^ k - q)| = 1 → q % 2 = 0) ∧ (neg = true ↔ x < 0) ∧
    if (2 : ℚ) ^ 128 ≤ (q : ℚ) * (2 : ℚ) ^ k then r = (if neg then 0xFF800000 else 0x7F800000, [0])
    else r.1 = BitVec.ofNat 32 (floatPattern .f32 (.fin neg q k)) ∧ (q = 0 → x ≠ 0 → r.2 = [2]) ∧ (q ≠ 0 ∨ x = 0 → r.2 = [])

/-- A special function's result where the model computes it to `a` × 2^`sc` with an error of at most `err` × 2^`sc`: the rounding of every number within the error, where
the two ends round alike; else the free value of log 10 (DESIGN CHOICE). -/
def SeriesGives (fn : Nat) (x : Word) (a : ℤ) (err : ℕ) (sc : ℤ) : Prop :=
  let lo : ℝ := ((a : ℝ) - err) * (2 : ℝ) ^ sc
  let hi : ℝ := ((a : ℝ) + err) * (2 : ℝ) ^ sc
  ((∃ r, RoundsTo lo r ∧ RoundsTo hi r) → ∀ y : ℝ, lo ≤ y → y ≤ hi → RoundsTo y (fspecOp fn x)) ∧
  ((¬∃ r, RoundsTo lo r ∧ RoundsTo hi r) → fspecOp fn x = (Config.specialResult fn x, []))

/-- R187: the eight functions on ordinary operands. The reciprocal, the root and its reciprocal are the exact real value rounded once; so are FEXP2 of an integer and of
what lies beyond its range, FLOG2 of a power of two, FTANH and FSIN of an operand near zero, FTANH of a large one and FCOS of one near zero. The others are rounded from the
model's own series, as `SeriesGives` says: the bounds on the error of the series are the model's (log 10). -/
def SpecialsRounded : Prop :=
  ∀ (x : Word) (neg : Bool) (m : Nat) (e : Int), inF32 x = .fin neg m e → m ≠ 0 →
    let a : ℚ := ratOf (inF32 x)
    let mag : Nat := x.toNat % 2 ^ 31
    let fixed : ℤ := fixOf neg m e
    let size : ℤ := fixOf false m e
    RoundsTo (1 / (a : ℝ)) (fspecOp 0 x) ∧
    (0 < a → RoundsTo (1 / Real.sqrt (a : ℝ)) (fspecOp 1 x) ∧ RoundsTo (Real.sqrt (a : ℝ)) (fspecOp 2 x)) ∧
    ((∃ k : ℤ, a = k) ∨ a < -151 ∨ 129 < a → RoundsTo ((2 : ℝ) ^ (a : ℝ)) (fspecOp 3 x)) ∧
    ((¬∃ k : ℤ, a = k) → -151 ≤ a → a ≤ 129 →
      SeriesGives 3 x (expFix (fixed % 2 ^ P * ln2Fix / 2 ^ P)) seriesErr (fixed / 2 ^ P - P)) ∧
    (∀ k : ℤ, a = (2 : ℚ) ^ k → RoundsTo (k : ℝ) (fspecOp 4 x)) ∧
    (0 < a → (¬∃ k : ℤ, a = (2 : ℚ) ^ k) →
      let l := bitLen m - 1
      let y := fixOf false m (-l)
      let ln := 2 * atanhFix ((y - 2 ^ P) * 2 ^ P / (y + 2 ^ P))
      SeriesGives 4 x ((e + l) * 2 ^ P + ln * 2 ^ P / ln2Fix) seriesErr (-P)) ∧
    (mag < 0x30800000 → fspecOp 5 x = (x, []) ∧ fspecOp 6 x = (x, [])) ∧
    (0x41800000 < mag → fspecOp 5 x = (if neg then 0xBF800000 else 0x3F800000, [])) ∧
    (0x30800000 ≤ mag → mag ≤ 0x41800000 →
      let n := 2 * size / ln2Fix
      let y := expFix (2 * size - n * ln2Fix) * powInt n
      let t := (y - 2 ^ P) * 2 ^ P / (y + 2 ^ P)
      SeriesGives 5 x (if neg then -t else t) seriesErr (-P)) ∧
    (mag < 0x38800000 → fspecOp 7 x = (0x3F800000, [])) ∧
    ∀ q ∈ [(6, false, 0x30800000), (7, true, 0x38800000)], q.2.2 ≤ mag →
      let h := piFix / 2
      let n := (2 * size + h) / (2 * h)
      let r := size - n * h
      let v := match (((if q.2.1 then n + 1 else n) % 4).toNat) with
        | 0 => sinFix r
        | 1 => cosFix r
        | 2 => -sinFix r
        | _ => -cosFix r
      SeriesGives q.1 x (if neg && !q.2.1 then -v else v) (2 ^ 400) (-P)

/-- R184 to R188: the order and class of patterns, the special functions' special operands, and their values on ordinary ones: that what the model
computes by series is rounded from its own approximation is log 10 (DESIGN CHOICE). -/
def Obligations.FloatOrderClassSpecial : Prop := FloatOrderAndClass ∧ SpecialOperands ∧ SpecialsRounded

/-- R159, R166, R189 to R191: conversions. An integer is rounded, then clamped, and the clamp is a saturation event; FRND keeps the sign; widening from bf16 and from
f16 is exact; CVT.ENC and CVT.DEC by the format of their slot; packing changes its own field alone and unpacking reads it alone. -/
def Obligations.ConversionResults : Prop :=
  (∀ (mode : Mode) (a : Word), (inF32 a).isNan = false → (inF32 a).isInf = false → ∃ y : ℤ, RoundedInt mode (ratOf (inF32 a)) y ∧
    ((cvtF2iOp mode a).1.toInt = max (-2 ^ 31) (min (2 ^ 31 - 1) y) ∧ ((cvtF2iOp mode a).2 = if -2 ^ 31 ≤ y ∧ y < 2 ^ 31 then [] else [0])) ∧
    (((cvtF2nOp mode a).1.toNat : ℤ) = max 0 (min (2 ^ 32 - 1) y) ∧ ((cvtF2nOp mode a).2 = if 0 ≤ y ∧ y < 2 ^ 32 then [] else [0])) ∧
    ratOf (inF32 (cvtFrndOp mode a).1) = y ∧ (inF32 (cvtFrndOp mode a).1).sign = (inF32 a).sign ∧ (cvtFrndOp mode a).2 = [] ∧
    (cvtF2bfOp mode a).1.toNat = (outVal .bf16 mode (inF32 a)).1 ∧ (cvtF2hOp mode a).1.toNat = (outVal .f16 mode (inF32 a)).1) ∧
  (∀ (mode : Mode) (a : Word), (inF32 a).isNan = true → cvtF2iOp mode a = (0, [0]) ∧ cvtF2nOp mode a = (0, [0]) ∧ cvtFrndOp mode a = (0x7FC00000, []) ∧
    cvtF2bfOp mode a = (0x7FC0, []) ∧ cvtF2hOp mode a = (0x7E00, [])) ∧
  (∀ (mode : Mode) (a : Word) (neg : Bool), inF32 a = .inf neg → cvtF2iOp mode a = (if neg then 0x80000000 else 0x7FFFFFFF, [0]) ∧
    cvtF2nOp mode a = (if neg then 0 else 0xFFFFFFFF, [0]) ∧ cvtFrndOp mode a = (a, []) ∧ cvtF2bfOp mode a = (if neg then 0xFF80 else 0x7F80, []) ∧
    cvtF2hOp mode a = (if neg then 0xFC00 else 0x7C00, [])) ∧
  (∀ (mode : Mode) (a : Word), ∃ u v, ratOf u = a.toInt ∧ ratOf v = a.toNat ∧ cvtI2fOp mode a = (BitVec.ofNat 32 (outVal .f32 mode u).1, []) ∧
    cvtN2fOp mode a = (BitVec.ofNat 32 (outVal .f32 mode v).1, [])) ∧
  (∀ a : Word, (inBf (lowHalf a)).isNan = false → cvtBf2fOp a = (BitVec.ofNat 32 (a.toNat % 2 ^ 16 * 2 ^ 16), [])) ∧
  (∀ a : Word, (inBf (lowHalf a)).isNan = true → cvtBf2fOp a = (0x7FC00000, [])) ∧
  (∀ a : Word, let v := floatValue .f16 (a.toNat % 2 ^ 16)
    let r := cvtH2fOp a
    r.2 = [] ∧ (v.isNan = true → r.1 = 0x7FC00000) ∧
    (v.isNan = false → (inF32 r.1).isNan = false ∧ (inF32 r.1).isInf = v.isInf ∧ (inF32 r.1).sign = v.sign ∧ ratOf (inF32 r.1) = ratOf v)) ∧
  -- CVT.ENC by the format of its slot: integers, tapered numbers, floats
  (∀ (slot : Word) (mode : Mode) (x : Word), (inF32 x).isNan = false → (inF32 x).isInf = false →
    let u := ratOf (inF32 x) / (2 : ℚ) ^ (slotScale slot)
    let r := cvtEncOp slot mode x
    let clamped (lo hi : ℤ) : Prop := ∃ y : ℤ, RoundedInt mode u y ∧ r.1.toNat = (BitVec.ofInt 8 (max lo (min hi y))).toNat ∧
      ((0 : Nat) ∈ r.2 ↔ y < lo ∨ hi < y) ∧ (2 ∈ r.2 ↔ y = 0 ∧ (inF32 x).isZero = false)
    (slotFmt slot = .i8 → clamped (-128) 127) ∧ (slotFmt slot = .n8 → clamped 0 255) ∧
    (∀ n es, slotFmt slot = .t8 es ∧ n = 8 ∨ slotFmt slot = .t6 es ∧ n = 6 →
      let top : ℚ := 2 ^ ((n - 2) * 2 ^ es)
      (u = 0 → r = (0, [])) ∧
      (top ≤ |u| → r = (BitVec.ofNat 32 (if 0 < u then 2 ^ (n - 1) - 1 else 2 ^ (n - 1) + 1), if top < |u| then [0] else [])) ∧
      (u ≠ 0 → |u| * top ≤ 1 → r = (BitVec.ofNat 32 (if 0 < u then 1 else 2 ^ n - 1), []))) ∧
    (slotFmt slot ∈ [.f32, .bf16, .f16] →
      let f := slotFmt slot
      let y := roundFloat f mode ((inF32 x).scale (-slotScale slot))
      r.1.toNat = floatPattern f (if y.isInf = true ∧ slotSat slot = true then .fin y.sign (2 ^ (f.fracBits + 1) - 1) ((f.bias : Int) - f.fracBits) else y) ∧
      ((0 : Nat) ∈ r.2 ↔ y.isInf = true) ∧ (2 ∈ r.2 ↔ y.isZero = true ∧ (inF32 x).isZero = false))) ∧
  (∀ (slot : Word) (mode : Mode) (x : Word), (inF32 x).isNan = true → ∀ r ∈ [cvtEncOp slot mode x],
    (slotFmt slot ∈ [.i8, .n8] → r = (0, [0])) ∧ (∀ es, (slotFmt slot = .t8 es → r = (0x80, [])) ∧ (slotFmt slot = .t6 es → r = (0x20, []))) ∧
    (slotFmt slot = .f32 → r = (0x7FC00000, [])) ∧ (slotFmt slot = .bf16 → r = (0x7FC0, [])) ∧ (slotFmt slot = .f16 → r = (0x7E00, []))) ∧
  (∀ (slot : Word) (mode : Mode) (x : Word) (neg : Bool), inF32 x = .inf neg → ∀ r ∈ [cvtEncOp slot mode x],
    (slotFmt slot = .i8 → r = (if neg then 0x80 else 0x7F, [0])) ∧ (slotFmt slot = .n8 → r = (if neg then 0 else 0xFF, [0])) ∧
    (∀ es, (slotFmt slot = .t8 es → r = (if neg then 0x81 else 0x7F, [0])) ∧ (slotFmt slot = .t6 es → r = (if neg then 0x21 else 0x1F, [0]))) ∧
    ∀ q ∈ [(Fmt.f32, (0x80000000 : Word), (0x7F800000 : Word)), (.bf16, 0x8000, 0x7F80), (.f16, 0x8000, 0x7C00)], slotFmt slot = q.1 →
      r = ((if neg then q.2.1 else 0) + q.2.2 - (if slotSat slot then 1 else 0), if slotSat slot then [0] else [])) ∧
  -- what a tapered pattern stands for is encoded as that pattern
  (∀ (slot : Word) (mode : Mode) (x es n : Nat), es ≤ 2 → slotFmt slot = .t8 es ∧ n = 8 ∨ slotFmt slot = .t6 es ∧ n = 6 → x < 2 ^ n →
    encodeVal slot mode false (slotVal slot x) = (x, [])) ∧
  -- CVT.DEC rounds what its field stands for, the format's value times the power of two of the slot's scale
  (∀ (slot : Word) (mode : Mode) (a : Word), let f := slotFmt slot
    let x := a.toNat % 2 ^ f.width
    let sc : ℚ := (2 : ℚ) ^ (slotScale slot)
    ∃ v : Val, cvtDecOp slot mode a = (BitVec.ofNat 32 (outVal .f32 mode v).1, (outVal .f32 mode v).2) ∧
      (f = .i8 → v.isNan = false ∧ v.isInf = false ∧ ratOf v = ((BitVec.ofNat 8 x).toInt : ℚ) * sc) ∧
      (f = .n8 → v.isNan = false ∧ v.isInf = false ∧ ratOf v = (x : ℚ) * sc) ∧
      (∀ n es, f = .t8 es ∧ n = 8 ∨ f = .t6 es ∧ n = 6 → (v.isNan = true ↔ x = 2 ^ (n - 1)) ∧ v.isInf = false ∧ ratOf v = ratOf (taperedValue x n es) * sc) ∧
      (f ∈ [.f32, .bf16, .f16] → v.isNan = (floatValue f x).isNan ∧ v.isInf = (floatValue f x).isInf ∧ v.sign = (floatValue f x).sign ∧
        ratOf v = ratOf (floatValue f x) * sc)) ∧
  (∀ (slot : Word) (p : Nat) (d a : Word), narrowLegal (slotFmt slot) p = true →
    let w := (slotFmt slot).width
    let r := (narrowPackOp slot p d a).1
    (∀ j < 32, (j < w * p ∨ w * p + w ≤ j) → r.getLsbD j = d.getLsbD j) ∧
    r.toNat / 2 ^ (w * p) % 2 ^ w = (encodeVal slot (slotMode slot) false (inF32 a)).1 % 2 ^ w ∧
    narrowUnpackOp slot p r = cvtDecOp slot .rne (BitVec.ofNat 32 (r.toNat / 2 ^ (w * p) % 2 ^ w)))

/-- R175 to R180: the events of one class of one vector word, counted together. Above the threshold of the class the count returns to zero and the action
fires: with action 1 each thread of the word takes a fault of cause 0x20 after the word. Routed events go to the context's sum alone. -/
def Obligations.EventsAreCounted : Prop :=
  ∀ (s : State) (uid c n : Nat) (tids : List (Nat × Nat)) (word : Word), c < 4 → n ≠ 0 → (mfind s.teams uid).isSome → s.binds = [] →
    (let w := mget (0, 0) (s.team uid).windows c
     let ctl := (s.sysReg (0x4000 + 16 * (s.team uid).ctx + c)).toNat
     let e := min (2 ^ 32 - 1) (w.1 + n)
     let t := countEvents s uid false c n tids word
     mget (0, 0) (t.team uid).windows c = (if ctl % 2 ^ 32 < e then (0, w.2) else (e, w.2)) ∧
     (∀ k, k ≠ c → mget (0, 0) (t.team uid).windows k = mget (0, 0) (s.team uid).windows k) ∧
     (¬ctl % 2 ^ 32 < e → t.threads = s.threads ∧ t.mem = s.mem ∧ t.sys = s.sys ∧ t.irqs = s.irqs) ∧
     (ctl % 2 ^ 32 < e → ctl / 2 ^ 56 % 4 = 1 → (tids.map Prod.fst).Nodup → (∀ p ∈ tids, (mfind s.threads p.1).isSome) →
       t.mem = s.mem ∧ t.sys = s.sys ∧
       ∀ p ∈ tids, t.thread p.1 = { (s.thread p.1) with
         faults := (s.thread p.1).faults ++ [{ cause := 0x20, addr := 0, word := word, flags := 1, trapNo := p.2 }] }) ∧
     (ctl % 2 ^ 32 < e → ctl / 2 ^ 56 % 4 = 2 → t.threads = s.threads ∧ t.irqs = s.irqs ++ [.numeric (s.team uid).ctx c false])) ∧
    (let r := 0x4000 + 16 * (s.team uid).ctx + 4 + c
     let t := sumEvents s uid c n
     (t.sysReg r).toNat = ((s.sysReg r).toNat + n) % 2 ^ 64 ∧ (∀ k, k ≠ r → t.sysReg k = s.sysReg k) ∧ t = { s with sys := t.sys }) ∧
    (let len := (s.sysReg (0x4000 + 16 * (s.team uid).ctx + c)).toNat / 2 ^ 32 % 2 ^ 24
     let w := mget (0, 0) (s.team uid).windows c
     let t := countUnits s uid false n
     t = { s with teams := t.teams } ∧ mget (0, 0) (t.team uid).windows c = (w.1, w.2 + n) ∧
     (c ∈ (t.team uid).winFull ↔ c ∈ (s.team uid).winFull ∨ (len ≠ 0 ∧ len ≤ w.2 + n)))

/-- R82, R192 to R195: the crossbar. A lane that is not active, or not there, counts as zero; a pattern table counts as it stood at the start of the chain. -/
def Obligations.CrossbarResults : Prop :=
  ∀ (n : Bool) (d a b : Code),
    let entry (s : State) (l j : Nat) : Nat := (mget 0x80 ((s.issue.pt).getD (s.team (teamOf l)).pt) (128 * b.toNat + 4 * laneOf l + j)).toNat
    let lowest (s : State) (r : Nat) : Prop := ∃ m ∈ s.issue.lanes, (∀ x ∈ s.issue.lanes, laneOf m ≤ laneOf x) ∧ r = (s.src m b).toNat % 32
    WordGives (.xbPerm n d a b) .x n d (fun s l v => if 128 ≤ entry s l 0 then v = 0 else FromLane s (entry s l 0 % 32) a v) ∧
    WordGives (.xbPerm2 n d a b) .x n d (fun s l v =>
      let i := (s.src l b).toNat
      (i ≤ 31 → FromLane s i a v) ∧ (32 ≤ i → i ≤ 63 → FromLane s (i - 32) d v) ∧ (64 ≤ i → v = 0)) ∧
    WordGives (.xbShfl n d a b) .x n d (fun s l v => FromLane s (laneOf l ^^^ (s.src l b).toNat % 32) a v) ∧
    WordGives (.xbBcast n d a b) .x n d (fun s _ v => ∃ r, lowest s r ∧ FromLane s r a v) ∧
    WordGives (.xbRot n d a b) .x n d (fun s l v => ∃ r, lowest s r ∧ FromLane s ((laneOf l + 32 - r) % 32) a v) ∧
    WordGives (.xbTrn n d a b) .x n d (fun s l v => ∀ j < 4,
      let e := entry s l j
      if 128 ≤ e then v.toNat / 256 ^ j % 256 = 0
      else ∃ w, FromLane s (e % 32) a w ∧ v.toNat / 256 ^ j % 256 = w.toNat / 256 ^ (e / 32 % 4) % 256)

/-- An access of the device itself at a virtual address meets no malformed page-table entry (R201). -/
def Clear (s : State) (ctx : Nat) (va : DWord) : Prop := ∀ u, logDevice u s ctx va = s

/-! ### Memory words (R228, R229, R276 to R283) -/

/-- R228, R229, R276, R277, R337: STG and STS of a set put one entry per lane, in lane order, at the young end of the group's store queue, with the place that
the address computes and the bytes of the source; no byte of memory or scratchpad, no register and no other queue changes yet. STP writes the
private bytes of its own thread at once, and no others. -/
def Obligations.StoresAreQueued : Prop :=
  ∀ (d a : Code) (r : BitVec 2) (sz : BitVec 3) (off : BitVec 5),
    let queued (s t : State) (rel : Nat → QEntry → Prop) : Prop :=
      (∃ es, (t.group s.issue.group).queue = (s.group s.issue.group).queue ++ es ∧ List.Forall₂ rel s.issue.lanes es) ∧
      t.threads = s.threads ∧ t.mem = s.mem ∧ t.poison = s.poison ∧ t.sys = s.sys ∧ t.teams = s.teams ∧ t.loads = s.loads ∧
      ∀ g, g ≠ s.issue.group → t.group g = s.group g
    (∀ s, s.SetOk → (∀ l ∈ s.issue.lanes, verdict s l (.stg d a r sz off) = .pass) →
      ∃ t, exec (.stg d a r sz off) s = .next t ∧ queued s t (fun l e => EntryOf s l e ∧
        e.addr = BitVec.ofInt 64 ((s.wide l a).toNat + off.toInt * szBytes sz) ∧ (∃ bs, e.op = .store bs ∧ StoredBytes s l d sz bs) ∧
        ∃ leaf size, checkAccess s (s.team (teamOf l)).coreId (s.team (teamOf l)).ctx (teamOf l) e.addr (szBytes sz) .store = .at e.loc leaf size)) ∧
    (∀ s, s.SetOk → (∀ l ∈ s.issue.lanes, verdict s l (.sts d a sz off) = .pass) →
      ∃ t, exec (.sts d a sz off) s = .next t ∧ queued s t (fun l e => EntryOf s l e ∧
        (∃ bs, e.op = .store bs ∧ StoredBytes s l d sz bs) ∧ e.loc = .scratch (teamOf l) ((s.amount l a : Int) + off.toInt * szBytes sz).toNat)) ∧
    LaneGives (.stp d a sz off) (fun s l th =>
      let o := ((s.amount l a : Int) + off.toInt * szBytes sz).toNat
      th = { (s.thread l) with priv := th.priv } ∧ (∃ bs, StoredBytes s l d sz bs ∧ th.privBytes o (szBytes sz) = bs) ∧
      ∀ k, (k < o ∨ o + szBytes sz ≤ k) → mget 0 th.priv k = mget 0 (s.thread l).priv k)

/-- R111, R112, R229, R276, R277: LDG from an ordinary page, LDP and LDS, where no store of the group waits. LDG and LDP begin a load with the bytes of that moment (that an
LDG takes its value at its issue, of the moments that the rules allow, is the model's reading: log 31, DEDUCED); LDS is complete at once. No memory changes. -/
def Obligations.LoadsTakeTheirBytes : Prop :=
  ∀ (n : Bool) (d a : Code) (r : BitVec 2) (sz : BitVec 3) (off : BitVec 5),
    (∀ s l loc leaf size, Alone (.ldg n d a r sz off) s l → (s.group (grpOf l)).queue = [] →
      let va := BitVec.ofInt 64 ((s.wide l a).toNat + off.toInt * szBytes sz)
      checkAccess s (s.team (teamOf l)).coreId (s.team (teamOf l)).ctx (teamOf l) va (szBytes sz) .load = .at loc leaf size →
      ∃ t, exec (.ldg n d a r sz off) s = .next t ∧ KeepsRest s l t ∧
        LoadBegun s l t n d sz va (some (readNat s loc (szBytes sz))) (poisoned s loc (szBytes sz))) ∧
    AloneGives (.ldp n d a sz off) (fun s l t =>
      let o := ((s.amount l a : Int) + off.toInt * szBytes sz).toNat
      KeepsRest s l t ∧ LoadBegun s l t n d sz (BitVec.ofNat 64 o) (some (leNat ((s.thread l).privBytes o (szBytes sz)))) ((s.thread l).privPoison.contains (o / 32))) ∧
    (∀ s l, Alone (.lds n d a sz off) s l → (s.group (grpOf l)).queue = [] → (s.thread l).cond ≠ .exited →
      let o := ((s.amount l a : Int) + off.toInt * szBytes sz).toNat
      let v := readNat s (.scratch (teamOf l) o) (szBytes sz)
      (∀ x ∈ s.loads, x.id ≠ s.nextId) → (s.team (teamOf l)).oldUnits = [] → poisoned s (.scratch (teamOf l) o) (szBytes sz) = false →
      ∃ t, exec (.lds n d a sz off) s = .next t ∧ KeepsRest s l t ∧ t.loads = s.loads ∧
        if isBurin l then t.thread l = (if n then s.thread l else (s.thread l).setG d.toNat (extended sz 64 v))
        else LoadedRegs (s.thread l) (t.thread l) n d sz v ∧ mfind (t.thread l).latch 3 = some (loadWord sz v 0) ∧ (t.thread l).q3 = none)

/-- R111, R277: LOAD_DATA_RETURN of a load whose bytes have been read writes the destination and, where the load still owns it, q3; the record of the load is gone. -/
def Obligations.LoadDataReturns : Prop :=
  ∀ id, EventGives (.loadDataReturn id)
    (fun s => ∃ ld v, s.loads.find? (fun x => x.id = id) = some ld ∧ ld.parts = none ∧ ld.value = some v ∧ ld.poison = false ∧ (s.thread ld.tid).cond ≠ .exited ∧
      isBurin ld.tid = false ∧ (s.team (teamOf ld.tid)).oldUnits = [])
    (fun s t => ∃ ld v, s.loads.find? (fun x => x.id = id) = some ld ∧ ld.value = some v ∧
      t = { s with loads := s.loads.filter (fun x => decide (x.id ≠ id)), threads := t.threads } ∧ (∀ x, x ≠ ld.tid → t.thread x = s.thread x) ∧
      LoadedRegs (s.thread ld.tid) (t.thread ld.tid) ld.n ld.d ld.sz v ∧ SameButRegs (s.thread ld.tid) (t.thread ld.tid) ∧
      (∀ k, k ≠ 3 → mfind (t.thread ld.tid).latch k = mfind (s.thread ld.tid).latch k) ∧
      (t.thread ld.tid).q3 = (if (s.thread ld.tid).q3 = some id then none else (s.thread ld.tid).q3) ∧
      mfind (t.thread ld.tid).latch 3 = if (s.thread ld.tid).q3 = some id then some (loadWord ld.sz v 0) else mfind (s.thread ld.tid).latch 3)

/-- The atomic words with their place and function (R279). -/
def atomicWords (n : Bool) (d a b : Code) : List (Instr × Bool × BitVec 3) :=
  [(.atomgAdd n d a b, true, 0), (.atomgMinI n d a b, true, 1), (.atomgMaxI n d a b, true, 2), (.atomgAnd n d a b, true, 3), (.atomgOr n d a b, true, 4),
   (.atomgXor n d a b, true, 5), (.atomgXchg n d a b, true, 6), (.atomgCas n d a b, true, 7), (.atomsAdd n d a b, false, 0), (.atomsMinI n d a b, false, 1),
   (.atomsMaxI n d a b, false, 2), (.atomsAnd n d a b, false, 3), (.atomsOr n d a b, false, 4), (.atomsXor n d a b, false, 5),
   (.atomsXchg n d a b, false, 6), (.atomsCas n d a b, false, 7)]

/-- The entries that the lanes of a set make for the words that they name (R280, R281): one for each word, made by the first lane that names it, with the lanes that
name it in ascending order; `op` says what an entry holds of its lanes, each with its place in the set. -/
def Gathered (s : State) (place : Nat → Loc) (es : List QEntry) (op : QEntry → List (Nat × Nat) → Prop) : Prop :=
  (es.map (fun e => resolve s e.loc)).Nodup ∧ (∀ l ∈ s.issue.lanes, ∃ e ∈ es, resolve s e.loc = resolve s (place l)) ∧
  ∀ e ∈ es, let mine := s.issue.lanes.zipIdx.filter (fun x => decide (resolve s (place x.1) = resolve s e.loc))
    (∃ x, mine.head? = some x ∧ e.loc = place x.1 ∧ EntryOf s x.1 e) ∧ op e mine

/-- R228, R279 to R282: the atomic and reduction words put their request into the group's store queue and change no byte of memory; an atomic begins a load without a value yet. The lanes
of a set that name one word make one request, in ascending order. -/
def Obligations.AtomicsAreQueued : Prop :=
  ∀ (n : Bool) (d a b : Code),
    let one (s : State) (l : Nat) (t : State) (e : QEntry) : Prop :=
      (t.group (grpOf l)).queue = (s.group (grpOf l)).queue ++ [e] ∧ EntryOf s l e ∧ KeepsRest s l t
    let at_ (s : State) (l : Nat) (e : QEntry) (u : Use) : Prop := e.addr = s.src64 l a ∧ ∃ leaf size,
      checkAccess s (s.team (teamOf l)).coreId (s.team (teamOf l)).ctx (teamOf l) (s.src64 l a) 4 u = .at e.loc leaf size
    (∀ q ∈ atomicWords n d a b, ∀ s l, Alone q.1 s l → isBurin l = false → ∃ t e, exec q.1 s = .next t ∧ one s l t e ∧
      e.op = .atomic q.2.2 [(s.nextId, s.src l b, s.src l d)] ∧ LoadBegun s l t n d 4 e.addr none false ∧
      if q.2.1 then at_ s l e .atomic else e.loc = .scratch (teamOf l) (s.src l a).toNat) ∧
    (∀ q ∈ [(Instr.redfFadd a b, 0), (.redfFmin a b, 1), (.redfFmax a b, 2), (.redfHadd2 a b, 3), (.redfAddI a b, 5)], ∀ s l, Alone q.1 s l →
      ∃ t e, exec q.1 s = .next t ∧ one s l t e ∧ t.threads = s.threads ∧ e.op = .redf (BitVec.ofNat 3 q.2) [(l, s.src l b)] true ∧ at_ s l e .redf) ∧
    -- a set of any lanes: one entry for each word, its lanes in ascending order (R280, R281)
    (let set (i : Instr) (s : State) : Prop := Runs i s ∧ ∀ l ∈ s.issue.lanes, (mfind s.issue.snap l).isSome = true
     let goes (s : State) (place : Nat → Loc) (u : Use) : Prop := ∀ l ∈ s.issue.lanes, ∃ leaf size,
       checkAccess s (s.team (teamOf l)).coreId (s.team (teamOf l)).ctx (teamOf l) (s.src64 l a) 4 u = .at (place l) leaf size
     let queued (s t : State) (es : List QEntry) : Prop := (t.group s.issue.group).queue = (s.group s.issue.group).queue ++ es ∧
       (∀ g, g ≠ s.issue.group → t.group g = s.group g) ∧ t.mem = s.mem ∧ t.poison = s.poison ∧ t.sys = s.sys ∧ t.teams = s.teams
     (∀ q ∈ atomicWords n d a b, ∀ s place, set q.1 s → (∀ l ∈ s.issue.lanes, isBurin l = false) →
       (if q.2.1 then goes s place .atomic else ∀ l ∈ s.issue.lanes, place l = .scratch (teamOf l) (s.src l a).toNat) →
       ∃ t es, exec q.1 s = .next t ∧ queued s t es ∧ Gathered s place es (fun e mine => e.op = .atomic q.2.2 (mine.map (fun x => (s.nextId + x.2, s.src x.1 b, s.src x.1 d))))) ∧
     ∀ q ∈ [(Instr.redfFadd a b, 0), (.redfFmin a b, 1), (.redfFmax a b, 2), (.redfHadd2 a b, 3), (.redfAddI a b, 5)], ∀ s place, set q.1 s → goes s place .redf →
       ∃ t es, exec q.1 s = .next t ∧ queued s t es ∧ t.threads = s.threads ∧ Gathered s place es (fun e mine => ∃ last : Bool, (last = true ↔ es.getLast? = some e) ∧
         e.op = .redf (BitVec.ofNat 3 q.2) (mine.map (fun x => (x.1, s.src x.1 b))) last)) ∧
    -- an ACCRED goes where the line's address leads, or where the pin of ACC.ARM holds the line (R207)
    AloneGives (.redfAccred a b) (fun s l t => ∃ e record, one s l t e ∧ t.threads = s.threads ∧ e.op = .accred (s.src l b) (s.src64 l a) record ∧ e.addr = s.src64 l a ∧
      (pinOf s (teamOf l) (s.src64 l a) = none → at_ s l e .acc) ∧
      ∀ p, pinOf s (teamOf l) (s.src64 l a) = some p → e.loc = .phys (p.pa + (s.src64 l a).toNat % 128) ∧ record = p.record)

/-- The new value of an atomic function of a word (R279). -/
def AtomicGives (fn : BitVec 3) (m b c v : Word) : Prop :=
  (fn.toNat = 0 → v.toNat = (m.toNat + b.toNat) % 2 ^ 32) ∧ (fn.toNat = 1 → v = if m.toInt ≤ b.toInt then m else b) ∧
  (fn.toNat = 2 → v = if b.toInt ≤ m.toInt then m else b) ∧ (fn.toNat = 3 → v = m &&& b) ∧ (fn.toNat = 4 → v = m ||| b) ∧ (fn.toNat = 5 → v = m ^^^ b) ∧
  (fn.toNat = 6 → v = b) ∧ (fn.toNat = 7 → v = if m = c then b else m)

/-- The new value of a reduction function of a word (R281). -/
def RedfGives (fn : BitVec 3) (m b v : Word) : Prop :=
  (fn = 0 → v = (faddOp m b).1) ∧ (fn = 1 → v = (fminOp m b).1) ∧ (fn = 2 → v = (fmaxOp m b).1) ∧ (fn = 3 → v = (hadd2Op m b).1) ∧
  (fn = 5 → v.toNat = (m.toNat + b.toNat) % 2 ^ 32)

/-- A word at a place takes values one after another, from the one it holds in `s` to the one it holds in `t` (R280). -/
def TakesInTurn (s t : State) (loc : Loc) (n : Nat) (m : Nat → Word) (step : (k : Nat) → k < n → Word → Word → Prop) : Prop :=
  m 0 = BitVec.ofNat 32 (readNat s loc 4) ∧ (∀ k (h : k < n), step k h (m k) (m (k + 1))) ∧ BitVec.ofNat 32 (readNat t loc 4) = m n

/-- R228, R248, R271, R277, R279 to R281: STORE_QUEUE_LEAVE performs the oldest entry of a queue, at a place of memory or of a scratchpad. A store writes its bytes and no
other; an atomic applies its lanes in their order and gives each load the value that the word held just before; a reduction applies its lanes in their order, and the last
of its word counts the events (R177, R180; that they count as it leaves is the model's reading, log 35, DEDUCED). A store that stays in the core's L1 leaves the words that
its home holds, which instruction fetch reads, as they were (log 91, DEDUCED). An entry sent under an earlier incarnation of its core changes no memory and is logged: where
the error ring is off, ERRLOST counts it. -/
def Obligations.StoreQueueLeaves : Prop :=
  ∀ (g p : Nat) (e : QEntry) (q : List QEntry),
    let queued (s : State) : Prop := (s.group g).queue = e :: q ∧ s.binds = [] ∧ s.lost = []
    let fresh (s : State) : Prop := e.inc = incarnation s ⟨1, (s.team (g / 64)).coreId⟩
    -- a scratchpad is that of a team in the table
    let start (s : State) : Prop := queued s ∧ fresh s ∧ ∀ u o, e.loc = .scratch u o → (mfind s.teams u).isSome = true
    let left (s t : State) : Prop := (t.group g).queue = q ∧ (∀ x, x ≠ g → t.group x = s.group x) ∧ t.threads = s.threads ∧ t.sys = s.sys ∧
      ((∃ a, e.loc = .phys a) → t.teams = s.teams) ∧
      ∀ u o, e.loc = .scratch u o → t.mem = s.mem ∧ (∀ v, v ≠ u → t.team v = s.team v) ∧ t.team u = { (s.team u) with scratch := (t.team u).scratch }
    let others (s t : State) (n : Nat) : Prop := ∀ x, (∀ i, i < n → x ≠ e.loc.plus i) → readByte t x = readByte s x
    (∀ bs, e.op = .store bs → EventGives (.storeQueueLeave g) start (fun s t => left s t ∧ t.loads = s.loads ∧ readBytes t e.loc bs.length = bs ∧ others s t bs.length)) ∧
    (∀ bs, e.op = .store bs → e.loc = .phys p → e.rt = 0 → e.atHome = false → p % 128 + bs.length ≤ 128 →
      EventGives (.storeQueueLeave g) (fun s => start s ∧ (s.dirOf (p / 128)).dirty = false ∧ (s.dirOf (p / 128)).privatised = []) (fun s t =>
        (t.dirOf (p / 128)).dirty = true → ∀ k, k < 32 → homeWord t (p / 128) k = BitVec.ofNat 32 (readNat s (.phys (p / 128 * 128 + 4 * k)) 4))) ∧
    (∀ fn xs, e.op = .atomic fn xs → (xs.map Prod.fst).Nodup → EventGives (.storeQueueLeave g) start (fun s t =>
      left s t ∧ others s t 4 ∧ ∃ m, TakesInTurn s t e.loc xs.length m (fun k h old new => AtomicGives fn old xs[k].2.1 xs[k].2.2 new) ∧
        ∃ f : Load → Load, t.loads = s.loads.map f ∧ (∀ x, x.id ∉ xs.map Prod.fst → f x = x) ∧
          ∀ x k (h : k < xs.length), xs[k].1 = x.id → f x = { x with value := some (m k).toNat, poison := poisonAt s e.loc })) ∧
    (∀ fn xs last, e.op = .redf fn xs last → EventGives (.storeQueueLeave g) (fun s => start s ∧ (last = true → ringBase s 0x6012 = none)) (fun s t =>
      (last = false → left s t) ∧ (t.group g).queue = q ∧ (∀ x, x ≠ g → t.group x = s.group x) ∧ t.loads = s.loads ∧ others s t 4 ∧
      ∃ m, TakesInTurn s t e.loc xs.length m (fun k h old new => RedfGives fn old xs[k].2 new))) ∧
    -- the last request of its word (the only one that a word of one lane makes) counts the word's events in the team's vector windows
    (∀ fn x b, e.op = .redf fn [(x, b)] true →
      EventGives (.storeQueueLeave g) (fun s => start s ∧ e.loc = .phys p ∧ ringBase s 0x6012 = none ∧ (mfind s.teams (g / 64)).isSome = true ∧ (s.group g).events = []) (fun s t =>
      let m := BitVec.ofNat 32 (readNat s (.phys p) 4)
      let n (c : Nat) : Nat := classCount c (redfNew fn m b).2
      let old (c : Nat) : Nat × Nat := mget (0, 0) (s.team (g / 64)).windows c
      let now (c : Nat) : Nat × Nat := mget (0, 0) (t.team (g / 64)).windows c
      let ctl (c : Nat) : Nat := (s.sysReg (0x4000 + 16 * (s.team (g / 64)).ctx + c)).toNat
      let sum (c : Nat) : Nat := min (2 ^ 32 - 1) ((old c).1 + n c)
      let traps : List Nat := ([0, 1, 2, 3] : List Nat).filter (fun c => decide (n c ≠ 0 ∧ ctl c % 2 ^ 32 < sum c ∧ ctl c / 2 ^ 56 % 4 = 1))
      (t.group g).queue = q ∧ (t.group g).events = [] ∧ (∀ y, y ≠ g → t.group y = s.group y) ∧ t.loads = s.loads ∧ others s t 4 ∧ RedfGives fn m b (BitVec.ofNat 32 (readNat t (.phys p) 4)) ∧
      (∀ c, c < 4 → now c = if n c = 0 then old c else (if ctl c % 2 ^ 32 < sum c then 0 else sum c, (old c).2)) ∧ (∀ c, 4 ≤ c → now c = old c) ∧
      (t.team (g / 64)) = { (s.team (g / 64)) with windows := (t.team (g / 64)).windows } ∧ (∀ u, u ≠ g / 64 → t.team u = s.team u) ∧
      (∀ r, r ≠ 0x6014 → t.sysReg r = s.sysReg r) ∧ (∀ y, y ≠ x → t.thread y = s.thread y) ∧
      ((mfind s.threads x).isSome = true → t.thread x = { (s.thread x) with
        faults := (s.thread x).faults ++ traps.map (fun _ => { cause := 0x20, addr := 0, word := e.word, flags := 1, trapNo := e.trapNo }) }) ∧
      ((∀ c, c < 4 → n c = 0) → left s t))) ∧
    ((∃ bs, e.op = .store bs) ∨ (∃ fn lanes, e.op = .atomic fn lanes) ∨ (∃ fn lanes b, e.op = .redf fn lanes b) →
      EventGives (.storeQueueLeave g) (fun s => queued s ∧ ¬fresh s ∧ ringBase s 0x6012 = none ∧ ∀ o, e.loc ≠ .scratch (g / 64) o) (fun s t =>
        (t.group g).queue = q ∧ t.mem = s.mem ∧ t.poison = s.poison ∧ t.threads = s.threads ∧ t.teams = s.teams ∧
        (∀ n, n ≠ 0x6014 → t.sysReg n = s.sysReg n) ∧ (t.sysReg 0x6014).toNat = min (2 ^ 32 - 1) ((s.sysReg 0x6014).toNat % 2 ^ 32 + 1)))

/-- R210, R227, R231, R233, R234, R283: a fence. After any kind no atomic of the fence's threads waits in the group's queue; kinds 1 to 3 empty it; kind 0 leaves a queue without
atomics, memory and every privatised copy alone; kinds 1 to 3 at device scope or wider end the privatised copies of the core; kinds 0, 2 and 3 at team scope or wider drop the core's self-invalidating copies. -/
def Obligations.FencesOrder : Prop :=
  ∀ x : BitVec 6, Completes (.fence x) (fun s t =>
    let kind := x.toNat / 8
    let g := s.issue.group
    (kind = 0 → (∀ e ∈ (s.group g).queue, ∀ fn lanes, e.op ≠ .atomic fn lanes) → t.groups = s.groups ∧ t.mem = s.mem ∧ t.teams = s.teams ∧
      ∀ p ∈ s.dir, p.2.privatised ≠ [] → ∃ y ∈ t.dir, y.1 = p.1 ∧ y.2.privatised = p.2.privatised) ∧
    (∀ e ∈ (t.group g).queue, ∀ fn lanes, e.op = .atomic fn lanes → ∀ y ∈ lanes, ∀ ld ∈ s.loads, ld.id = y.1 → ld.tid ∉ s.issue.lanes) ∧
    (kind ≠ 0 → (t.group g).queue = []) ∧
    ((∀ e ∈ (s.group g).queue, (∃ bs, e.op = .store bs) ∧ e.inc = incarnation s ⟨1, (s.team s.issueTeam).coreId⟩) → (∀ c ∈ s.contributions, grpOf c.tid ≠ g) → t.threads = s.threads ∧ t.sys = s.sys ∧
      -- an acquire makes what the team's other loads through views have read already too old to be held (R247)
      t.loads = s.loads.map (fun ld => if kind ≠ 1 ∧ 0 < x.toNat % 8 ∧ teamOf ld.tid = s.issueTeam then { ld with parts := ld.parts.map ViewRead.passed } else ld) ∧
      (∀ k, k ≠ g → t.group k = s.group k) ∧
      (kind ≠ 0 → 3 ≤ x.toNat % 8 → ∀ p ∈ t.dir, mfind p.2.privatised (s.team s.issueTeam).coreId = none) ∧
      (kind ≠ 1 → 0 < x.toNat % 8 → ∀ p ∈ t.dir, ∀ c ∈ p.2.copies, ¬(c.1 = (s.team s.issueTeam).coreId ∧ c.2 = 2)) ∧
      ((s.group g).queue = [] → t.mem = s.mem)))

/-! ### Phase barriers, copies, maintenance, sharing (R213 to R219, R268, R284 to R310) -/

/-- What a word of one lane with a 32-bit result changes beside it: nothing of memory, registers or other threads; of the teams only what `f` says of
the lane's own. -/
def AnswersWith (s : State) (l : Nat) (d : Code) (v : Word) (f : Team → Team) (t : State) : Prop :=
  t.thread l = withResult s l .m false d v ∧ (∀ x, x ≠ l → t.thread x = s.thread x) ∧ t.mem = s.mem ∧ t.poison = s.poison ∧ t.sys = s.sys ∧
  ∀ u, t.team u = if u = teamOf l then f (s.team u) else s.team u

/-- R284, R287 to R289: the phase-barrier words, for a lane of a resident team. -/
def Obligations.PhaseBarrierWords : Prop :=
  ∀ (d a : Code) (k : BitVec 5),
    let bar (s : State) (l : Nat) : Barrier := s.bar (teamOf l) k.toNat
    let setBar (b : Barrier) (t : Team) : Team := { t with bars := mset ({} : Barrier) t.bars k.toNat b }
    let here (s : State) (l : Nat) : Prop := (mfind s.teams (teamOf l)).isSome = true
    let done (s : State) (l : Nat) : Prop := ((bar s l).phase.toNat + 2 ^ 32 - (s.narrow l a).toNat - 1) % 2 ^ 32 < 2 ^ 31
    AloneGives (.phInit d a k) (fun s l t => here s l →
      let q := s.amount l a
      if (bar s l).init then AnswersWith s l d 1 id t
      else if q = 0 ∨ 255 < q then AnswersWith s l d 2 id t
      else AnswersWith s l d 0 (setBar { init := true, quota := q }) t) ∧
    (∀ q ∈ [(Instr.phArrive d k, false), (.phEnd d k, true)], AloneGives q.1 (fun s l t => here s l →
      let bit (m : SMap Word) : SMap Word := mput m (groupIx (grpOf l)) (mget 0 m (groupIx (grpOf l)) ||| (1#32 <<< laneOf l))
      AnswersWith s l d (bar s l).phase (if isBurin l then id else setBar { (bar s l) with
        lanes := bit (bar s l).lanes, ended := if q.2 then bit (bar s l).ended else (bar s l).ended }) t ∧
      ∃ e, (t.group (grpOf l)).queue = (s.group (grpOf l)).queue ++ [e] ∧ EntryOf s l e ∧ e.op = .arrive k.toNat (bar s l).phase q.2)) ∧
    AloneGives (.phWait a k) (fun s l t => KeepsRest s l t ∧
      ∃ latch q3, t.thread l = { (s.thread l) with latch := latch, q3 := q3, cond := (t.thread l).cond } ∧
      (done s l → (t.thread l).cond = (s.thread l).cond) ∧ (¬done s l → (t.thread l).cond = .blocked (.phase k.toNat (s.narrow l a)))) ∧
    AloneGives (.phTest d a k) (fun s l t => (done s l → AnswersWith s l d 1 id t) ∧ (¬done s l → AnswersWith s l d 0 id t)) ∧
    WordGives (.phStat d k) .m false d (fun s l v =>
      let b := bar s l
      (b.quota ≤ 255 → b.arrived ≤ b.quota → v.toNat = (if b.lastError then 2 ^ 31 else 0) + (if b.init then 2 ^ 30 else 0) + (if b.error then 2 ^ 29 else 0) +
        (if b.pending ≠ 0 then 2 ^ 28 else 0) + (b.quota - b.arrived) * 2 ^ 16 + b.phase.toNat % 2 ^ 16)) ∧
    AloneGives (.phInval d k) (fun s l t => here s l →
      let busy : Prop := (∃ p ∈ s.threads, teamOf p.1 = teamOf l ∧ ((∃ x, p.2.cond = .blocked (.phase k.toNat x)) ∨ ∃ x, p.2.beneath = some (k.toNat, x))) ∨ (bar s l).pending ≠ 0 ∨ (bar s l).arrived ≠ 0 ∨
        ∃ p ∈ (bar s l).lanes, p.2 ≠ 0
      ((bar s l).init = false → AnswersWith s l d 2 id t) ∧ ((bar s l).init = true → busy → AnswersWith s l d 1 id t) ∧
      ((bar s l).init = true → ¬busy → AnswersWith s l d 0 (setBar { (bar s l) with init := false }) t))

/-- The arrival of one thread of a vector group passes the group's queue (R285). -/
def ArrivalOfGroup (g k : Nat) (phase : Word) (e : QEntry) (q : List QEntry) : Prop :=
  EventGives (.arrivalCounted g)
    (fun s => (s.group g).queue = e :: q ∧ (mfind s.teams (g / 64)).isSome = true ∧ (s.bar (g / 64) k).init = true ∧ (∀ c ∈ s.contributions, grpOf c.tid ≠ g))
    (fun s t =>
      let b := s.bar (g / 64) k
      let c := t.bar (g / 64) k
      let i := groupIx g
      let landed := mget 0 b.landed i ||| (1#32 <<< laneOf e.tid)
      -- every live thread has arrived, and no arrival or exit of the group still waits in its queue
      let all : Prop := (∀ p ∈ s.threads, grpOf p.1 = g → p.2.cond ≠ .exited → landed.getLsbD (laneOf p.1) = true) ∧ mget 0 b.lanes i &&& ~~~landed = 0 ∧ ∀ x ∈ q, x.op ≠ .leave
      let gone := (b.leaving + if mget 0 b.ended i = mget 0 b.lanes i then 1 else 0) % 256
      let stay := (b.quota + 256 - gone) % 256
      (t.group g).queue = q ∧ (∀ x, x ≠ g → t.group x = s.group x) ∧ t.mem = s.mem ∧ t.sys = s.sys ∧
      (∀ j, j ≠ k → t.bar (g / 64) j = s.bar (g / 64) j) ∧ (∀ u, u ≠ g / 64 → t.team u = s.team u) ∧
      (b.phase ≠ phase → c = b) ∧
      (b.phase = phase → i ∈ b.counted ∨ ¬all → c = { b with landed := mput b.landed i landed }) ∧
      (b.phase = phase → i ∉ b.counted → all →
        if (b.arrived + 1) % 256 = b.quota ∧ b.pending = 0 then
          c.phase = b.phase + 1 ∧ c.quota = stay ∧ c.arrived = 0 ∧ c.leaving = 0 ∧ c.lastError = b.error ∧ c.error = false ∧
          (c.init = true ↔ stay ≠ 0) ∧ c.lanes = [] ∧ c.landed = [] ∧ c.ended = [] ∧ c.counted = []
        else c = { b with landed := mput b.landed i landed, counted := sadd b.counted i, arrived := (b.arrived + 1) % 256, leaving := gone }))

/-- R285, R286, R288: ARRIVAL_COUNTED of a burin core's arrival and of one of a vector group's thread. The burin core's counts at once, a group's once all its live threads
have arrived; when it was the last and no byte is pending, the phase completes: the phase number rises by one, the members that left leave the quota, and the counts
start anew. That the items of 8 bits count modulo 256 is the model's choice, log 101 (DESIGN CHOICE). -/
def Obligations.ArrivalsComplete : Prop :=
  (∀ (g k : Nat) (phase : Word) (leaving : Bool) (e : QEntry) (q : List QEntry),
    e.op = .arrive k phase leaving → isBurin e.tid = true → teamOf e.tid = g / 64 →
    EventGives (.arrivalCounted g)
      (fun s => (s.group g).queue = e :: q ∧ (mfind s.teams (g / 64)).isSome = true ∧ (s.bar (g / 64) k).init = true ∧ (∀ c ∈ s.contributions, grpOf c.tid ≠ g))
      (fun s t =>
        let b := s.bar (g / 64) k
        let c := t.bar (g / 64) k
        let gone := (b.leaving + if leaving then 1 else 0) % 256
        let stay := (b.quota + 256 - gone) % 256
        (t.group g).queue = q ∧ (∀ x, x ≠ g → t.group x = s.group x) ∧ t.mem = s.mem ∧ t.sys = s.sys ∧
        (∀ j, j ≠ k → t.bar (g / 64) j = s.bar (g / 64) j) ∧ (∀ u, u ≠ g / 64 → t.team u = s.team u) ∧
        if (b.arrived + 1) % 256 = b.quota ∧ b.pending = 0 then
          c.phase = b.phase + 1 ∧ c.quota = stay ∧ c.arrived = 0 ∧ c.leaving = 0 ∧ c.lastError = b.error ∧ c.error = false ∧
          (c.init = true ↔ stay ≠ 0)
        else c = { b with arrived := (b.arrived + 1) % 256, leaving := gone })) ∧
    ∀ (g k : Nat) (phase : Word) (leaving : Bool) (e : QEntry) (q : List QEntry),
      e.op = .arrive k phase leaving → isBurin e.tid = false → grpOf e.tid = g → ArrivalOfGroup g k phase e q

/-- R291, R292, R298, R389: the streamer commands. A command that passes its checks enters the streamer as a request with the plan of its record, and D receives the
team's next identifier; CP.CANCEL removes a request that has written no byte (0), leaves a running one (1), and answers 2 for one that is gone. -/
def Obligations.StreamerCommands : Prop :=
  ∀ (d a : Code) (x : BitVec 6),
    let entered (s : State) (l : Nat) (p : Plan) (t : State) : Prop :=
      ∃ r, t.requests = s.requests ++ [r] ∧ r.id = s.nextId ∧ r.team = teamOf l ∧ r.tid = l ∧ r.rid = (s.team (teamOf l)).rid ∧ r.op = p.op ∧ r.cls = p.cls ∧
        r.acquire = p.acquire ∧ r.release = p.release ∧ r.scope = p.scope ∧ r.done = [] ∧ r.wrote = false ∧ r.ready = false ∧ r.held = none ∧ r.node = none ∧
        (∃ fs latch q3, t.thread l = { (Thread.dst { (s.thread l) with latch := latch, q3 := q3 } .m false d (s.team (teamOf l)).rid) with faults := fs }) ∧
        (∀ y, y ≠ l → t.thread y = s.thread y) ∧ t.mem = s.mem ∧ t.sys = s.sys ∧
        ((mfind s.teams (teamOf l)).isSome = true → (t.team (teamOf l)).rid = if (s.team (teamOf l)).rid + 1 = 0 then 1 else (s.team (teamOf l)).rid + 1)
    AloneGives (.cpIssue d a x) (fun s l t => isBurin l = false → ∃ p, copyChecks s l (s.src l a).toNat [1, 2] = .ok p ∧ entered s l p t) ∧
    AloneGives (.cpMcast d a x) (fun s l t => isBurin l = false → ∃ p, copyChecks s l (s.src l a).toNat [3, 4] = .ok p ∧ entered s l p t) ∧
    AloneGives (.gaWalk d a x) (fun s l t => isBurin l = false → ∃ w, walkChecks s l (s.src l a).toNat = .ok w ∧ entered s l w.plan t) ∧
    (∀ cancel : Bool, AloneGives (if cancel then .cpCancel d a else .gaStat d a) (fun s l t => isBurin l = false →
      let r := s.requests.find? (fun r => r.node.isNone && decide (r.team = teamOf l) && decide (r.rid = s.src l a))
      (∀ y, y ≠ l → t.thread y = s.thread y) ∧ t.mem = s.mem ∧ t.sys = s.sys ∧
      (r = none → t.requests = s.requests ∧ t.thread l = withResult s l .m false d 2) ∧
      let runs (q : Request) : Prop := if cancel then q.wrote = true else q.done ≠ []
      (∀ q, r = some q → runs q → t.requests = s.requests ∧ t.thread l = withResult s l .m false d 1) ∧
      (∀ q, r = some q → ¬runs q → q.regs = [] → t.thread l = withResult s l .m false d 0 ∧
        t.requests = if cancel then s.requests.filter (fun y => decide (y.id ≠ q.id)) else s.requests)))

/-- R201, R268, R299, R300: PREF changes nothing that a program sees; PIN of one line by the cases of its status; UNPIN only ends pins of its own context. -/
def Obligations.PrefetchAndPins : Prop :=
  ∀ (d a : Code) (x : BitVec 6) (y : BitVec 1),
    let core (s : State) (l : Nat) : Nat := (s.team (teamOf l)).coreId
    let ctx (s : State) (l : Nat) : Nat := (s.team (teamOf l)).ctx
    Completes (.pref a y) (fun s t => t.mem = s.mem ∧ t.threads = s.threads ∧ t.teams = s.teams ∧ t.groups = s.groups ∧ t.sys = s.sys ∧ t.pins = s.pins) ∧
    AloneGives (.pin d a 0) (fun s l t =>
      let va := s.src64 l a
      let gives (v : Nat) (pins : List (Nat × Nat)) : Prop := t = { s with pins := pins, threads := t.threads, dir := t.dir } ∧ (∀ u, u ≠ l → t.thread u = s.thread u) ∧
        t.thread l = withResult s l .m false d (BitVec.ofNat 32 v)
      ((∀ e size, translate s (core s l) (ctx s l) va.toNat = .leaf e size → 2 ≤ leafType e ∨ leafDomain e ≠ 0) →
        (metBad s (core s l) (ctx s l) va = none → gives (3 * 65536) s.pins) ∧
        -- a malformed entry that the walk meets is recorded beside the answer (R201)
        t.pins = s.pins ∧ t.thread l = withResult s l .m false d (3 * 65536) ∧ (∀ u, u ≠ l → t.thread u = s.thread u)) ∧
      (va.toNat < 2 ^ 57 → ∀ e size, translate s (core s l) (ctx s l) va.toNat = .leaf e size → leafType e < 2 → leafDomain e = 0 →
        let line := leafPhys e size va.toNat / 128
        if (ctx s l, line) ∈ s.pins then gives (if 14 ≤ pinnedWays s line then 65536 else 1) s.pins
        else if (s.cx (ctx s l) 5).toNat % 2 ^ 32 < (s.pins.filter (fun p => decide (p.1 = ctx s l))).length + 1 then gives (2 * 65536) s.pins
        else if 14 ≤ pinnedWays s line then gives 65536 s.pins
        else gives 1 (s.pins ++ [(ctx s l, line)]))) ∧
    AloneGives (.unpin a x) (fun s l t => t.threads = s.threads ∧ (∀ p ∈ t.pins, p ∈ s.pins) ∧
      ((∀ i, i ≤ x.toNat → metBad s (core s l) (ctx s l) (s.src64 l a + BitVec.ofNat 64 (128 * i)) = none) → t = { s with pins := t.pins }) ∧
      (∀ p ∈ s.pins, p.1 ≠ ctx s l → p ∈ t.pins) ∧
      ∀ e size, (s.src64 l a).toNat < 2 ^ 57 → translate s (core s l) (ctx s l) (s.src64 l a).toNat = .leaf e size → leafType e < 2 → leafDomain e = 0 →
        (ctx s l, leafPhys e size (s.src64 l a).toNat / 128) ∉ t.pins)

/-- R78, R193, R194, R248, R249, R301 to R303: CWB, CINV and IINV wait in the store queue; IINV drops the core's instruction-cache copies of its lines when it leaves; FETCHB empties the queue and what its threads have fetched ahead, and the core's instruction cache keeps its copies (these two are the
model's reading: log 36, DEDUCED); XB.TLOAD replaces one whole table. -/
def Obligations.MaintenanceWords : Prop :=
  ∀ (d a : Code) (z : BitVec 3) (k : BitVec 4),
    (∀ q ∈ [(Instr.cwb d a z, QOp.cwb z.toNat), (.cinv d a, QOp.cinv), (.iinv d a, QOp.iinv)], AloneGives q.1 (fun s l t =>
      KeepsRest s l t ∧ t.threads = s.threads ∧ ∃ e lines, (t.group (grpOf l)).queue = (s.group (grpOf l)).queue ++ [e] ∧ EntryOf s l e ∧ e.op = q.2 lines ∧
        (s.narrow l d = 0 → lines = []) ∧
        ∀ en size, 0 < (s.narrow l d).toNat → (s.wide l a).toNat % 128 + (s.narrow l d).toNat ≤ 128 →
          translate s (s.team (teamOf l)).coreId (s.team (teamOf l)).ctx ((s.wide l a).toNat / 128 * 128) = .leaf en size → leafType en < 3 →
          lines = [leafPhys en size ((s.wide l a).toNat / 128 * 128) / 128])) ∧
    (∀ (g : Nat) (e : QEntry) (q : List QEntry) (lines : List Nat), e.op = .iinv lines → EventGives (.storeQueueLeave g) (fun s => (s.group g).queue = e :: q)
      (fun s t => t.mem = s.mem ∧ t.threads = s.threads ∧ (t.group g).queue = q ∧
        ∀ c m, mfind (t.core c).icache m = if c = (s.team (g / 64)).coreId ∧ m ∈ lines then none else mfind (s.core c).icache m)) ∧
    AloneGives .fetchb (fun s l t => (∀ e ∈ (s.group (grpOf l)).queue, ∃ bs, e.op = .store bs) →
      (t.group (grpOf l)).queue = [] ∧ t.thread l = { (s.thread l) with line := none, ahead := [] } ∧ (∀ u, u ≠ l → t.thread u = s.thread u) ∧
      ((s.group (grpOf l)).queue = [] → t.mem = s.mem) ∧ t.cores = s.cores) ∧
    AloneGives (.xbTload a k) (fun s l t =>
      let off := (s.src l a).toNat
      (s.group (grpOf l)).queue = [] → (mfind s.teams (teamOf l)).isSome = true → poisoned s (.scratch (teamOf l) off) 128 = false →
      t = { s with teams := t.teams } ∧ (∀ u, t.team u = { (s.team u) with pt := (t.team u).pt }) ∧ (∀ u, u ≠ teamOf l → t.team u = s.team u) ∧
      (∀ e, e < 128 → mget 0x80 (t.team (teamOf l)).pt (128 * k.toNat + e) = readByte s (.scratch (teamOf l) (off + e))) ∧
      ∀ e, (e < 128 * k.toNat ∨ 128 * k.toNat + 128 ≤ e) → mget 0x80 (t.team (teamOf l)).pt e = mget 0x80 (s.team (teamOf l)).pt e)

/-- R217 to R219, R304, R305: the sharing words. -/
def Obligations.SharingWords : Prop :=
  Completes .shJoin (fun s t => (mfind s.teams s.issueTeam).isSome = true → t = { s with teams := t.teams } ∧
    ∀ u, t.team u = if u = s.issueTeam then { (s.team u) with joined := true } else s.team u) ∧
  Completes .shLeave (fun s t => ((s.team s.issueTeam).joined = false → t = s) ∧
    ((mfind s.teams s.issueTeam).isSome = true → s.requests = [] → (∀ p ∈ s.groups, p.2.queue = []) → t = { s with teams := t.teams } ∧
      ∀ u, t.team u = if u = s.issueTeam then { (s.team u) with joined := false } else s.team u)) ∧
  ∀ (d a : Code) (r : BitVec 4), LaneGives (.shWin d a r) (fun s l th =>
    let v : DWord := BitVec.ofNat 64 ((s.src64 l a).toNat + r.toNat * 2 ^ 21)
    th = if isBurin l then (s.thread l).gdst false d v else (s.thread l).dst64 .m false d v)

/-- R213 to R216, R227, R308, R309: SPMAP by the cases of its status (which free entry it takes is the model's choice, the lowest: log 59, DESIGN CHOICE); SPUNMAP and SPWB write
the bound bytes back once the group's own stores to them have left its queue, and SPUNMAP ends the binding. -/
def Obligations.ScratchpadBindings : Prop :=
  ∀ (d a : Code),
    AloneGives (.spmap d a) (fun s l t => (s.group (grpOf l)).queue = [] →
      let team := s.team (teamOf l)
      let c := (s.src l d).toNat
      let unit := c % 128
      let count := c / 2 ^ 8 % 128 + 1
      let taken (i : Nat) : Prop := (mfind (s.core team.coreId).spmap i).isSome = true
      if ∀ i, i < 16 → taken i then AnswersWith s l d 1 id t
      else if team.kern.scratch < (unit + count) * 4096 then AnswersWith s l d 2 id t
      else match bindUnits s team.coreId team.ctx (s.src64 l a).toNat count with
        | none => t.thread l = withResult s l .m false d 3 ∧ t.binds = s.binds ∧
          -- a malformed entry that the walk meets is recorded beside the answer (R201)
          ((∀ i, i < count → metBad s team.coreId team.ctx (BitVec.ofNat 64 ((s.src64 l a).toNat + 4096 * i)) = none) → AnswersWith s l d 3 id t)
        | some us =>
          if ∃ u ∈ us, ∃ b ∈ s.binds, u ∈ b.units then AnswersWith s l d 4 id t
          else if c.testBit 7 = true ∨ c.testBit 15 = true ∨ c / 2 ^ 17 ≠ 0 then AnswersWith s l d 5 id t
          else ∃ e, e < 16 ∧ ¬taken e ∧ (∀ i, i < e → taken i) ∧
            t.thread l = withResult s l .m false d (BitVec.ofNat 32 (16 * e)) ∧ t.mem = s.mem ∧
            t.binds = s.binds ++ [{ core := team.coreId, entry := e, team := teamOf l, off := unit * 4096, units := us }] ∧
            (c.testBit 16 = false → t.teams = s.teams) ∧
            (c.testBit 16 = true → (mfind s.teams (teamOf l)).isSome = true → ∀ i j, i < us.length → j < 4096 →
              mget 0 (t.team (teamOf l)).scratch (unit * 4096 + i * 4096 + j) = mget 0 s.mem (us.getD i 0 * 4096 + j))) ∧
    ∀ q ∈ [(Instr.spunmap d, true), (.spwb d, false)], AloneGives q.1 (fun s l t =>
      let found := s.binds.find? (fun b => decide (b.core = (s.team (teamOf l)).coreId ∧ b.entry = (s.src l d).toNat ∧ b.team = teamOf l))
      (found = none → AnswersWith s l d 1 id t ∧ t.binds = s.binds) ∧
      (∀ b, found = some b → ∀ e ∈ (t.group (grpOf l)).queue, e.writes s (.scratch (teamOf l) b.off) (4096 * b.units.length) = false) ∧
      ∀ b, found = some b → (s.group (grpOf l)).queue = [] → t.thread l = withResult s l .m false d 0 ∧ (∀ u, u ≠ l → t.thread u = s.thread u) ∧ t.teams = s.teams ∧ t.sys = s.sys ∧
        (b.units.Nodup → ∀ i j, i < b.units.length → j < 4096 →
          mget 0 t.mem (b.units.getD i 0 * 4096 + j) = mget 0 (s.team b.team).scratch (b.off + i * 4096 + j)) ∧
        (∀ x, x / 4096 ∉ b.units → mget 0 t.mem x = mget 0 s.mem x) ∧
        t.binds = if q.2 then s.binds.filter (fun x => !(decide (x.core = b.core) && decide (x.entry = b.entry))) else s.binds)

/-- R49, R50, R74, R306, R307: LAUNCH answers with the outcome of the append and, with outcome 0, moves the head of the queue on by one; DG.SIGNAL answers by the
kind and the status word of the node, and finishes an event node whose status word is 1, by whatever address it is named. Which walker and queue such a node has that no
walker runs, and the answer 3 for one whose failure has not been written yet, are the model's choice, log 75 (DESIGN CHOICE). -/
def Obligations.LaunchAndSignal : Prop :=
  ∀ (d a : Code),
    AloneGives (.launch d a) (fun s l t =>
      let q := (s.src l d).toNat
      let ctx := (s.team (teamOf l)).ctx
      let qd1 := (s.qd q 1).toNat
      (s.group (grpOf l)).queue = [] → (∀ c ∈ s.contributions, grpOf c.tid ≠ grpOf l) →
      (readVirt s (threadPlaces s (s.team (teamOf l)).coreId ctx (teamOf l)) [] (pieces (s.src64 l a).toNat 128)).2 = false →
      ∃ v, t.thread l = withResult s l .m false d (BitVec.ofNat 32 v) ∧
        v = (if 1023 < q then 2 else if qd1.testBit 13 = false ∨ (s.cx (qd1 / 2 ^ 16 % 64) 1).getLsbD 12 = false then 3
          else if qd1.testBit 11 = false ∨ ctx ≠ qd1 / 2 ^ 16 % 64 then 2
          else if (qHead s q + 2 ^ 32 - qTail s q) % 2 ^ 32 = 2 ^ (qd1 % 16) then 1 else 0) ∧
        (v ≠ 0 → t.mem = s.mem ∧ t.sys = s.sys) ∧
        (v = 0 → qHead t q = (qHead s q + 1) % 2 ^ 32 ∧ qTail t q = qTail s q ∧ (∀ n, n ≠ 0x1000 + 8 * q + 2 → n ≠ 0x6013 → n ≠ 0x6014 → t.sysReg n = s.sysReg n) ∧
          -- a malformed entry on the way to the slot is recorded (R201)
          (Clear s ctx (slotAddr s q (qHead s q)) → t.sysReg 0x6013 = s.sysReg 0x6013 ∧ t.sysReg 0x6014 = s.sysReg 0x6014))) ∧
    ∀ s l pa leaf size, Alone (.dgSignal d a) s l → s.binds = [] → s.lost = [] →
      checkPage s (s.team (teamOf l)).coreId (s.team (teamOf l)).ctx (teamOf l) (s.src64 l a) 64 .atomic true true = .at (.phys pa) leaf size →
      let ctx := (s.team (teamOf l)).ctx
      let kind := readNat s (.phys pa) 1
      let status := readNat s (.phys (pa + 26)) 2
      let node := (s.nodes.find? (fun n => decide (n.ctx = ctx ∧ n.addr = s.src64 l a))).or (s.nodes.find? (fun n => decide (devicePlace s n.ctx n.addr = some pa)))
      let n := node.getD (strayNode s ctx (s.src64 l a) pa)
      ∃ t v, exec (.dgSignal d a) s = .next t ∧ t.thread l = withResult s l .m false d (BitVec.ofNat 32 v) ∧
        (v ≠ 0 → t.mem = s.mem ∧ t.nodes = s.nodes) ∧ (kind ≠ 4 → v = 1) ∧ (kind = 4 → status = 0 → v = 2) ∧ (kind = 4 → 1 < status → v = 3) ∧
        (kind = 4 → status = 1 → n.done ≠ none → v = 3) ∧
        (kind = 4 → status = 1 → n.done = none → v = 0 ∧ (n.succs = 0 → devicePlace s n.ctx (n.addr + 26) = some (pa + 26) →
          readNat t (.phys (pa + 26)) 2 = 2 ∧ t.nodes = s.nodes.filter (fun m => decide (m ≠ n)) ∧
          t.completions = if n.root then s.completions ++ [{ q := n.q, seq := n.seq, status := 0, killed := 0, final := true }] else s.completions))

/-! ### Matrix words and the matrix engine (R170 to R174, R315 to R355) -/

/-- R315, R318, R329, R341 to R355: the words of major 0x3C. Seven of them put one entry, not started, at the young end of the team's matrix queue; MX.LOAD and MX.SWAP move
the marks of the plates at issue, ACC.ARM pins its lines with the places it took; MX.WAIT changes nothing once it issues; ACC.STAT answers with the state of its line. -/
def Obligations.MatrixWords : Prop :=
  let pushed (s : State) (l : Nat) (t : State) (op : MOp → Prop) : Prop :=
    (mfind s.teams (teamOf l)).isSome = true →
    (∃ e, (t.team (teamOf l)).queue = (s.team (teamOf l)).queue ++ [e] ∧ e.id = s.nextId ∧ e.team = teamOf l ∧ e.word = s.issue.word ∧ e.started = false ∧ e.row = 0 ∧
      op e.op) ∧
    (∃ fs, t.thread l = { (s.thread l) with faults := fs }) ∧ (∀ x, x ≠ l → t.thread x = s.thread x) ∧ t.mem = s.mem ∧ t.sys = s.sys ∧ t.groups = s.groups ∧
    (∀ u, u ≠ teamOf l → t.team u = s.team u) ∧
    t.team (teamOf l) = { (s.team (teamOf l)) with queue := (t.team (teamOf l)).queue, markActive := (t.team (teamOf l)).markActive, markShadow := (t.team (teamOf l)).markShadow }
  let marks (s : State) (l : Nat) (a b : Mark) (t : State) : Prop :=
    (mfind s.teams (teamOf l)).isSome = true → (t.team (teamOf l)).markActive = a ∧ (t.team (teamOf l)).markShadow = b
  let kept (s : State) (l : Nat) (t : State) : Prop := marks s l (s.team (teamOf l)).markActive (s.team (teamOf l)).markShadow t
  let rec_ (s : State) (l : Nat) (a : Code) (o n : Nat) : Nat := readNat s (.scratch (teamOf l) ((s.gsrc l a).toNat + o)) n
  (∀ a : Code, AloneGives (.mxLoad a) (fun s l t => (s.group (grpOf l)).queue = [] →
    pushed s l t (fun op => op = .load (rec_ s l a 0 4) (rec_ s l a 8 1) (rec_ s l a 4 4) (BitVec.ofNat 32 (rec_ s l a 12 4))) ∧
    marks s l (s.team (teamOf l)).markActive (some (rec_ s l a 8 1, rec_ s l a 4 4, BitVec.ofNat 32 (rec_ s l a 12 4))) t)) ∧
  AloneGives .mxSwap (fun s l t => pushed s l t (fun op => op = .swap) ∧ marks s l (s.team (teamOf l)).markShadow (s.team (teamOf l)).markActive t) ∧
  (∀ a : Code, AloneGives (.mxStream a) (fun s l t => pushed s l t (fun op => ∃ lines, op = .stream (readStream (scratchRecord s (teamOf l) (s.gsrc l a).toNat 64)) lines) ∧
    kept s l t)) ∧
  (∀ a : Code, AloneGives (.mxAdapt a) (fun s l t => pushed s l t (fun op => op = .adapt (s.gsrc l a)) ∧ kept s l t)) ∧
  (∀ d a : Code, AloneGives (.accArm d a) (fun s l t => pushed s l t (fun op => ∃ run : AccRun, op = .arm run (s.gsrc l d) ∧ run.length = (s.gsrc l d).toNat % 2 ^ 16 ∧
      (∀ i (h : i < run.length), run[i].1 = s.gsrc l a + BitVec.ofNat 64 (128 * i)) ∧
      ∀ x ∈ run, ∃ p ∈ t.accPins, p.team = teamOf l ∧ p.line = x.1.toNat / 128 ∧ p.pa = x.2.1 ∧ p.record = x.2.2) ∧ kept s l t)) ∧
  (∀ d a : Code, AloneGives (.accClear d a) (fun s l t => pushed s l t (fun op => ∃ run : AccRun, op = .clear run ∧ run.length = (s.gsrc l d).toNat % 2 ^ 16 ∧
      ∀ i (h : i < run.length), run[i].1 = s.gsrc l a + BitVec.ofNat 64 (128 * i)) ∧ kept s l t)) ∧
  (∀ (a : Code) (x : BitVec 5), AloneGives (.accDrain a x) (fun s l t => pushed s l t (fun op => ∃ run desc, op = .drain run desc ∧ desc.flags = x.toNat) ∧ kept s l t)) ∧
  (∀ s, Runs .mxWait s → exec .mxWait s = .next s) ∧
  ∀ (d a : Code) (s : State) (l : Nat) (ln : AccLine), Alone (.accStat d a) s l → mfind s.acc ((linePlace s (teamOf l) (s.gsrc l a)).1 / 128) = some ln →
    ln.count < 2 ^ 16 → ln.clamps < 2 ^ 16 →
    ∃ t v, exec (.accStat d a) s = .next t ∧ t.thread l = (if isBurin l then (s.thread l).gdst false d v else (s.thread l).dst64 .m false d v) ∧ t.mem = s.mem ∧
      v.toNat = ln.count + ln.clamps * 2 ^ 16 + ln.q.toNat * 2 ^ 32 + (if ln.armed then 2 ^ 40 else 0) + (if ln.float then 2 ^ 41 else 0) +
        (if ln.overfull then 2 ^ 42 else 0) + (if ln.poisoned then 2 ^ 43 else 0)

/-- `n` bytes of scratchpad from an offset, in bank rows of 16: those that an entry has read as it read them, the others as the burin core's loads find them, past what its
store queue took after the entry's issue (R229, R239, R319). That such a store is seen only once it has left the queue is the model's choice, log 71 (DESIGN CHOICE). -/
def BankBytes (s : State) (e : MEntry) (off n : Nat) : List Byte :=
  let gid := gidOf e.team 32
  let earlier := s.modGroup gid (fun g => { g with queue := g.queue.take (e.before - (s.group gid).left) })
  (List.range (ceilDiv n 16)).flatMap (fun i => ((mfind e.got i).map Prod.fst).getD (loadBytes earlier gid (.scratch e.team (off + 16 * i)) (min 16 (n - 16 * i))))

/-- R170 to R173, R271, R315, R318 to R322, R327 to R333, R353, R356: the steps of the matrix engine. An entry starts when those before it allow, and a swap exchanges the plates then; a row
that issues is counted and sends its 32 pass sums as one contribution; at its completion a load has filled the shadow plate, an arm has zeroed and armed its lines, a clear has
zeroed them and ended its team's pins on them (an entry sent under an earlier incarnation of its core changes no line), a drain counts its saturations at its counter word, and the entry leaves; a governor window ends.
These are the model's choices: that a cleared line holds quantum and kind 0, log 88 (DESIGN CHOICE), and that a bank row shows a store that the burin core issued
after the entry only once it has left the queue, log 71 (DESIGN CHOICE). -/
def Obligations.MatrixEngineSteps : Prop :=
  let first (id : Nat) (s : State) (e : MEntry) : Prop := s.entry id = some ([], e) ∧ (mfind s.teams e.team).isSome = true ∧ e ∈ (s.team e.team).queue
  let sent (s : State) (e : MEntry) : Prop := e.inc = incarnation s ⟨1, (s.team e.team).coreId⟩
  let zeroed (t : State) (x : DWord × Nat × Nat) (armed float : Bool) (q : BitVec 8) : Prop := ∃ ln, mfind t.acc (x.2.1 / 128) = some ln ∧ ln.armed = armed ∧ ln.float = float ∧
    ln.q = q ∧ ln.count = 0 ∧ ln.clamps = 0 ∧ ln.overfull = false ∧ ln.poisoned = false ∧ ln.body = [] ∧ ln.special = [] ∧ ln.elems = []
  (∀ id, EventGives (.matrixEntryStart id) (fun s => ∃ e, first id s e ∧ e.started = false) (fun s t => ∀ e, s.entry id = some ([], e) →
    let a := s.team e.team
    let b := t.team e.team
    { e with started := true } ∈ b.queue ∧
    ((∀ run d, e.op ≠ .drain run d) → (∀ d lines, e.op ≠ .stream d lines) → t = { s with teams := t.teams } ∧ ∀ u, u ≠ e.team → t.team u = s.team u) ∧
    (e.op = .swap → b.active = a.shadow ∧ b.shadow = a.active) ∧ (e.op ≠ .swap → b.active = a.active ∧ b.shadow = a.shadow) ∧
    (∀ table, e.op = .adapt table → b.adapter = table ∧ b.slices = []))) ∧
  (∀ id, EventGives (.matrixEntryComplete id) (fun s => ∃ e, first id s e ∧ entryDone s e = true) (fun s t => ∀ e, s.entry id = some ([], e) →
    let b := t.team e.team
    let left : Team := { (s.team e.team) with queue := (s.team e.team).queue.filter (fun x => decide (x.id ≠ id)) }
    b.queue = left.queue ∧ (∀ u, u ≠ e.team → (∀ run d, e.op ≠ .drain run d) → t.team u = s.team u) ∧
    (e.op = .swap ∨ (∃ table, e.op = .adapt table) → t = { s with teams := t.teams } ∧ b = left) ∧
    (∀ d lines, e.op = .stream d lines → d.phase = none → d.flags.testBit 1 = false → t = { s with teams := t.teams } ∧ b = left) ∧
    (∀ tile slot k tag, e.op = .load tile slot k tag →
      let n := k * (plateRow (slotFmt (slotWord s e.team slot))).getD 0
      -- an atomic of the burin core's own that writes the tile leaves its queue first
      (settleBank s e tile n = s → t = { s with teams := t.teams, threads := t.threads } ∧ b = { left with shadow := b.shadow }) ∧
      ∃ p, b.shadow = some p ∧ p.slot = slot ∧ p.k = k ∧ p.tag = tag ∧ p.tile = BankBytes (settleBank s e tile n) e tile n) ∧
    (∀ run ctl, e.op = .arm run ctl → sent s e → t = { s with teams := t.teams, acc := t.acc, accPins := t.accPins } ∧ b = left ∧
      ∀ x ∈ run.drop e.armed, zeroed t x true (ctl.getLsbD 24) (ctl.extractLsb' 16 8) ∧ ∃ p ∈ t.accPins, p.team = e.team ∧ p.line = x.1.toNat / 128) ∧
    (∀ run, e.op = .clear run → sent s e → t = { s with teams := t.teams, acc := t.acc, accPins := t.accPins } ∧ b = left ∧
      (∀ p ∈ s.accPins, p.team ≠ e.team → p ∈ t.accPins) ∧
      ∀ x ∈ run.drop e.armed, zeroed t x false false 0 ∧ ∀ p ∈ t.accPins, p.team = e.team → p.pa ≠ x.2.1) ∧
    ((∃ run ctl, e.op = .arm run ctl) ∨ (∃ run, e.op = .clear run) → ¬sent s e → ringBase s 0x6012 = none → t.acc = s.acc ∧ t.accPins = s.accPins) ∧
    (∀ run d, e.op = .drain run d → d.space = 1 → d.flags = 0 → e.out.lines = run.length → e.out.events = [] → e.out.bad = none →
      (∀ g ∈ drainGranules d e.out (slotFmt (slotWord s e.team d.slot)).width, g ∈ e.out.landed) → t = { s with teams := t.teams } ∧
      readNat t (.scratch e.team d.counter.toNat) 4 = min (2 ^ 32 - 1) e.out.sats))) ∧
  (∀ id, EventGives (.mainRowIssue id)
    (fun s => ∃ e d lines p, first id s e ∧ e.op = .stream d lines ∧ d.ids = none ∧ (s.team e.team).active = some p ∧ e.started = true ∧ e.row < d.rows ∧
      (s.team e.team).replays.length < 64 ∧ allowance s (s.team e.team).coreId ≠ 0)
    (fun s0 t => ∀ e d lines p, s0.entry id = some ([], e) → e.op = .stream d lines → (s0.team e.team).active = some p →
      let n := rowBytes (slotFmt (slotWord s0 e.team d.aslot)) p.k
      let s := settleBank s0 e (d.act + e.row * d.stride) n
      let x := BankBytes s e (d.act + e.row * d.stride) n
      let acts := denseElems (slotWord s e.team d.aslot) p.k x
      let weight (k n : Nat) : Val := (denseElems (slotWord s e.team p.slot) 32
        ((p.tile.drop (k * (plateRow (slotFmt (slotWord s e.team p.slot))).getD 0)).take ((plateRow (slotFmt (slotWord s e.team p.slot))).getD 0))).getD n (.fin false 0 0)
      { e with row := e.row + 1, got := [] } ∈ (t.team e.team).queue ∧
      (t.core (s.team e.team).coreId).rows = (s.core (s.team e.team).coreId).rows + 1 ∧
      ∃ c, t.contributions = s.contributions ++ [c] ∧ c.entry = some id ∧ c.addr = BitVec.ofNat 64 (d.acc.toNat + e.row * d.accStride) ∧ c.data.length = 32 ∧
        ∀ n (h : n < c.data.length), c.data[n] = BitVec.ofNat 32 (passSum .f32 ((acts.zip (List.range p.k)).map (fun q => (q.1, weight q.2 n)))).1)) ∧
  (∀ die core, EventGives (.governorWindow die core) (fun s => (s.core (die * 256 + core)).govDue = true) (fun s t => t = { s with cores := t.cores } ∧
    ∀ c, t.core c = if c = die * 256 + core then { (s.core c) with lastRows := (s.core c).rows, rows := 0, govDue := false } else s.core c)) ∧
  (∀ u n, EventGives (.adapterSliceArrival u n) (fun s => (s.team u).replays.length ≤ n ∨
      ∃ q, (s.team u).replays[n]? = some q ∧ ∃ e ∈ (s.team u).queue, e.id = q.entry ∧ e.held ≠ none) (fun s t => t = s)) ∧
  (∀ (u n i : Nat) (q : Replay) (raw da db : List Byte) (pa pb : Option Nat),
    let x := readAdapter raw
    let es (s : State) : Nat := adapterEs (slotFmt (slotWord s u x.slot))
    EventGives (.adapterSliceArrival u n)
      (fun s => (mfind s.teams u).isSome = true ∧ (s.team u).replays[n]? = some q ∧ q.desc = some raw ∧ (∀ e ∈ (s.team u).queue, e.held = none) ∧
        ((haveSlices (s.team u) q (x.sliceCount q.k)).zipIdx.find? (fun p => p.1.isNone)).map Prod.snd = some i ∧ q ∈ fitting s u 64 (s.team u).replays ∧
        (burinRead s u q.entry (x.ranges (es s) q i).1).2 = .bytes da pa ∧
        (burinRead (burinRead s u q.entry (x.ranges (es s) q i).1).1 u q.entry (x.ranges (es s) q i).2).2 = .bytes db pb ∧
        (s.team u).slices = [] ∧ es s = 1)
      (fun s t => ∃ c ∈ (t.team u).slices, c.table = (s.team u).adapter ∧ c.id = q.id ∧ c.tag = q.tag ∧ c.kpass = q.kpass ∧ c.index = i ∧ c.adata = da ∧ c.bdata = db)) ∧
  ∀ u : Nat, EventGives (.adapterSliceArrival u 0)
    (fun s => ∃ q, (s.team u).replays = [q] ∧ (∀ e ∈ (s.team u).queue, e.held = none) ∧ q.desc = none ∧ (s.team u).adapter = 0 ∧ (mfind s.teams u).isSome = true ∧
      (mfind s.threads (burinOf u)).isSome = true)
    (fun s t => (t.team u).replays = [] ∧ ∃ f, f.cause = 0x02 ∧ (t.thread (burinOf u)).faults = (s.thread (burinOf u)).faults ++ [f])

/-- R167, R170 to R173, R243, R271, R282, R327 to R332: an ACCRED contribution reaches its line. A float element takes the rounded sum; an exact element takes the value rounded to
the quantum and clamped, or the infinity or NaN; a full count refuses the whole contribution; an unarmed line reports to the thread. A row for an exact line leaves its second
half for an event of its own. A contribution sent under an earlier incarnation of its core reaches no line. A resident line that is evicted stands in its page in native form. -/
def Obligations.AccumulatorLines : Prop :=
  let sent (s : State) (c : Contribution) : Prop := c.inc = incarnation s ⟨1, (s.team c.team).coreId⟩
  (∀ id, EventGives (.accContribution id)
    (fun s => ∃ c w ln, s.contributions.find? (fun x => x.id = id) = some c ∧ sent s c ∧ c.next = none ∧ c.second = false ∧ c.data = [w] ∧ mfind s.acc (c.pa / 128) = some ln ∧
      ln.poisoned = false)
    (fun s t => ∀ c w ln, s.contributions.find? (fun x => x.id = id) = some c → c.data = [w] → mfind s.acc (c.pa / 128) = some ln →
      t.contributions = s.contributions.filter (fun x => decide (x.id ≠ id)) ∧ (∀ k, k ≠ c.pa / 128 → mfind t.acc k = mfind s.acc k) ∧
      ∃ m, mfind t.acc (c.pa / 128) = some m ∧ m.armed = ln.armed ∧ m.float = ln.float ∧ m.q = ln.q ∧ m.record = ln.record ∧
        (ln.armed = false → m = ln ∧ ((mfind s.threads c.tid).isSome = true → ∃ f, f.cause = 0x14 ∧ (t.thread c.tid).faults = (s.thread c.tid).faults ++ [f])) ∧
        (ln.armed = true → ln.count = 65535 → m = { ln with overfull := true }) ∧
        (ln.armed = true → ln.count ≠ 65535 → m.count = ln.count + 1 ∧ m.overfull = ln.overfull ∧
          (ln.float = true → m.clamps = ln.clamps ∧ ∀ j, mget 0 m.elems j = if j = c.offset / 4 then (faddOp (mget 0 ln.elems j) w).1 else mget 0 ln.elems j) ∧
          (ln.float = false → let sp := mget 0 ln.special (c.offset / 8)
            ((inF32 w).isNan = true → mget 0 m.special (c.offset / 8) = 3 ∧ m.body = ln.body) ∧
            (∀ neg : Bool, inF32 w = .inf neg → m.body = ln.body ∧ m.clamps = ln.clamps ∧
              let own : BitVec 2 := if neg then 2 else 1
              mget 0 m.special (c.offset / 8) = if sp = 0 ∨ sp = own then own else 3) ∧
            ((inF32 w).isNan = false → (inF32 w).isInf = false → m.special = ln.special ∧ ∃ n : ℤ, RoundedInt .rne (ratOf (inF32 w) / (2 : ℚ) ^ ln.q.toInt) n ∧
              m.clamps = (if 2 ^ 54 - 1 < n.natAbs then min 65535 (ln.clamps + 1) else ln.clamps) ∧
              ∀ j, mget 0 m.body j = if j = c.offset / 8 then BitVec.ofInt 72 ((mget 0 ln.body j).toInt + max (-(2 ^ 54 - 1)) (min (2 ^ 54 - 1) n)) else mget 0 ln.body j))))) ∧
  (∀ (id pa rec2 : Nat), EventGives (.accContribution id)
    (fun s => ∃ c ln, s.contributions.find? (fun x => x.id = id) = some c ∧ sent s c ∧ c.next = some (pa, rec2) ∧ c.second = false ∧ mfind s.acc (c.pa / 128) = some ln ∧
      ln.armed = true ∧ ln.float = false)
    (fun s t => ∀ c, s.contributions.find? (fun x => x.id = id) = some c → (∀ k, k ≠ c.pa / 128 → mfind t.acc k = mfind s.acc k) ∧
      ∃ r, t.contributions = s.contributions.filter (fun x => decide (x.id ≠ id)) ++ [r] ∧ r.id = id ∧ r.pa = pa ∧ r.record = rec2 ∧ r.data = c.data.drop 16 ∧ r.second = true)) ∧
  (∀ id, EventGives (.accContribution id) (fun s => ∃ c, s.contributions.find? (fun x => x.id = id) = some c ∧ ¬sent s c)
    (fun s t => t.acc = s.acc ∧ t.contributions = s.contributions.filter (fun x => decide (x.id ≠ id)) ∧ t.threads = s.threads)) ∧
  ∀ line, EventGives (.accLineEvict line) (fun s => ∃ ln, mfind s.acc line = some ln ∧ s.binds = [] ∧ s.lost = [] ∧
      (ln.record + 32 ≤ line * 128 ∨ line * 128 + 128 ≤ ln.record))
    (fun s t => ∀ ln, mfind s.acc line = some ln → t.acc = mdel s.acc line ∧ t.threads = s.threads ∧ t.teams = s.teams ∧
      (ln.float = false → ∀ j, j < 16 → readNat t (.phys (line * 128 + 8 * j)) 8 = (mget 0 ln.body j).toNat % 2 ^ 64 ∧
        (ln.record < 2 ^ 57 → readNat t (.phys (ln.record + j)) 1 = (mget 0 ln.body j).toNat / 2 ^ 64)) ∧
      (ln.float = true → ∀ j, j < 32 → readNat t (.phys (line * 128 + 4 * j)) 4 = (mget 0 ln.elems j).toNat) ∧
      (∀ a, (a < line * 128 ∨ line * 128 + 128 ≤ a) → (a < ln.record ∨ ln.record + 32 ≤ a) → readByte t (.phys a) = readByte s (.phys a)))

/-! ### Views (R360 to R392) -/

/-- R363, R374: a projected row holds one output for each row of the matrix, the pass sum of R168 over the exact products of latent element, scale and matrix element, rounded
once to f32 or to bf16; the row's events are those of its outputs in order. -/
def PressRowSums : Prop :=
  ∀ (s : State) (uid : Nat) (v : ViewReg) (scale : Word) (payload : List Byte),
    let lw := slotWord s uid v.lslot
    let mw := slotWord s uid v.mslot
    let f : Fmt := if v.bf16 then .bf16 else .f32
    let one : Val := inF32 scale
    let at' (w : Word) (bs : List Byte) (k : Nat) : Val := slotVal w (leNat ((bs.drop (k * viewEs (slotFmt w))).take (viewEs (slotFmt w))))
    ∃ outs : List (Nat × List Nat), outs.length = v.rows ∧ (∀ o ∈ outs, o.1 < 2 ^ f.width) ∧
      pressRow s uid v scale payload = (outs.flatMap (fun o => leBytes (f.width / 8) o.1), outs.flatMap Prod.snd) ∧
      ∀ i o, outs[i]? = some o →
        let terms : List (Val × Val) := (List.range v.cols).map (fun k => (at' lw payload k, at' mw v.data (i * v.cols + k)))
        let nan : Prop := terms ≠ [] ∧ one = .nan ∨ ∃ p ∈ terms, p.1 = .nan ∨ p.2 = .nan
        let inf : Prop := ∃ p ∈ terms, p.1.isInf = true ∨ one.isInf = true ∨ p.2.isInf = true
        let products : List ℚ := terms.map (fun p => ratOf p.1 * ratOf one * ratOf p.2)
        let triple (p : Val × Val) : Option Val := (specialProduct p.1 one).bind (fun x => if x.isInf = true then specialProduct x p.2
          else if p.2.isInf = true then (if p.1.isZero = true ∨ one.isZero = true then none else some (.inf ((p.1.sign != one.sign) != p.2.sign))) else some x)
        (nan → o = (floatPattern f .nan, [])) ∧
        (¬nan → inf → o = (floatPattern f (specialSum (terms.map triple)).1, (specialSum (terms.map triple)).2)) ∧
        (¬nan → ¬inf → (∀ x ∈ products, x = 0) → terms ≠ [] → o = (0, [])) ∧
        ∀ E : ℤ, ¬nan → ¬inf → (∃ x ∈ products, (2 : ℚ) ^ E ≤ |x|) → (∀ x ∈ products, |x| < (2 : ℚ) ^ (E + 1)) →
          let ul : ℚ := (2 : ℚ) ^ (E - 60)
          let sum : ℚ := (products.map (fun x => (if x < 0 then -1 else 1) * ((⌊|x| / ul⌋ : ℤ) : ℚ) * ul)).sum
          (sum = 0 → o = (0, [])) ∧ ∃ neg m e, ratOf (.fin neg m e) = sum ∧ o = outVal f .rne (.fin neg m e)

/-- R367, R368, R371 to R374, R381 to R387, R391, R392: the view words, for a lane of a resident team whose group has no store waiting. A load through a
view of linear latents begins with the row that it is to read and the translations that it took, and when its data returns the row is projected, as the thread reads it
then (R229): that it is read when the data returns is log 31 (DEDUCED). -/
def Obligations.ViewWords : Prop :=
  PressRowSums ∧ ∀ (d a : Code) (k : BitVec 3) (f : BitVec 3),
    let here (s : State) (l : Nat) : Prop := (mfind s.teams (teamOf l)).isSome = true ∧ (s.group (grpOf l)).queue = []
    let views (s : State) (l : Nat) : SMap ViewReg := (s.team (teamOf l)).views
    let answers (s : State) (l : Nat) (v : Word) (t : State) : Prop := ∃ fs, t.thread l = { withResult s l .m false d v with faults := fs }
    -- the matrix as a thread reads it, after an acquire where the view's flags ask for one (R382 to R384)
    let matrixOf (s : State) (l : Nat) (v : ViewReg) : List Byte :=
      let s1 := if v.flags.testBit 0 then acquire s (teamOf l) (v.flags / 2 % 8) else s
      (readVirt s1 (threadPlaces s1 (s.team (teamOf l)).coreId (s.team (teamOf l)).ctx (teamOf l)) [] (v.matrixRanges s (teamOf l))).1
    AloneGives (.vwSet d a k) (fun s l t => here s l →
      let v := readView (scratchRecord s (teamOf l) (s.src l a).toNat 64)
      let uid := teamOf l
      let core := (s.team uid).coreId
      -- the units that the register's own view leaves, unless a load or walk still uses it
      let own : Nat := match mfind (views s l) k.toNat with
        | some o => if bindingUsed s o.binding then 0 else viewUnits o
        | none => 0
      if ∃ p ∈ views s l, p.1 ≠ k.toNat ∧ p.2.aperture = v.aperture then answers s l 2 t ∧ t.teams = s.teams
      else if freeViewUnits s core + own < (v.matrixBytes s uid + 1023) / 1024 then answers s l 1 t ∧ t.teams = s.teams
      else answers s l 0 t ∧ (∃ w, mfind (views t l) k.toNat = some w ∧ w = { v with data := w.data, binding := w.binding } ∧ w.data = matrixOf s l v) ∧
        ∀ j, j ≠ k.toNat → mfind (views t l) j = mfind (views s l) j) ∧
    AloneGives (.vwRefresh d k) (fun s l t => here s l →
      match mfind (views s l) k.toNat with
      | none => answers s l 1 t ∧ t.teams = s.teams
      | some v => answers s l 0 t ∧ mfind (views t l) k.toNat = some { v with data := matrixOf s l v } ∧
        -- and the press holds no row of the view any more (R247)
        ∀ h ∈ (t.core (s.team (teamOf l)).coreId).press, ¬(h.team = teamOf l ∧ h.k = k.toNat)) ∧
    WordGives (.vwGet d f k) .m false d (fun s l w =>
      match mfind (s.team (teamOf l)).views k.toNat with
      | none => w = 0
      | some v => (f = 1 → w.toNat = v.aperture.toNat % 2 ^ 32) ∧ (f = 2 → w.toNat = v.aperture.toNat / 2 ^ 32) ∧ (f = 3 → w.toNat = v.matrix.toNat % 2 ^ 32) ∧
        (f = 4 → w.toNat = v.matrix.toNat / 2 ^ 32) ∧ (f = 0 → w = viewState v)) ∧
    AloneGives (.vwClear d k) (fun s l t => here s l → answers s l (if (mfind (views s l) k.toNat).isSome then 0 else 1) t ∧ mfind (views t l) k.toNat = none ∧ t.mem = s.mem) ∧
    (∀ s l pa, Alone (.btBind d a k) s l → here s l → s.binds = [] → s.lost = [] → placeOf s (s.team (teamOf l)).coreId (s.team (teamOf l)).ctx (s.src64 l a) = some (.phys pa) →
      let word (s : State) (o : Nat) : Nat := readNat s (.phys (pa + o)) 4
      ∃ t, exec (.btBind d a k) s = .next t ∧ ∃ v, t.thread l = withResult s l .m false d v ∧
        v = (if (mfind (s.team (teamOf l)).tslots k.toNat).isSome then 1 else if word s 8 = 0 ∨ 65536 < word s 8 then 3
          else if word s 0 ≠ (s.src l d).toNat then 2 else if word s 4 = 2 ^ 32 - 1 then 4 else 0) ∧
        (v ≠ 0 → t.mem = s.mem ∧ t.teams = s.teams) ∧
        (v = 0 → word t 4 = word s 4 + 1 ∧ (word s 4 = 0 → word t 12 = 0) ∧ mfind (t.team (teamOf l)).tslots k.toNat = some { base := s.src64 l a, pa := pa, version := s.src l d })) ∧
    AloneGives (.btRetire d k) (fun s l t => here s l → s.binds = [] → s.lost = [] →
      match mfind (s.team (teamOf l)).tslots k.toNat with
      | none => answers s l 1 t ∧ t.mem = s.mem ∧ t.teams = s.teams
      | some b => answers s l 0 t ∧ mfind (t.team (teamOf l)).tslots k.toNat = none ∧
        readNat t (.phys (b.pa + 4)) 4 = (readNat s (.phys (b.pa + 4)) 4 - 1) ∧
        (readNat s (.phys (b.pa + 4)) 4 = 1 → ((s.team (teamOf l)).ctx, b.base, b.pa, b.version) ∈ t.versions)) ∧
    (∀ (n : Bool) (r : BitVec 2) (sz : BitVec 3) (off : BitVec 5) (s : State) (l j : Nat) (v : ViewReg) (leaf : DWord), Alone (.ldg n d a r sz off) s l → here s l →
      let va := BitVec.ofInt 64 ((s.wide l a).toNat + off.toInt * szBytes sz)
      let team := s.team (teamOf l)
      let o := va.toNat % 2 ^ 40
      checkAccess s team.coreId team.ctx (teamOf l) va (szBytes sz) .load = .view leaf → viewAt s (teamOf l) va = some (j, v) → v.tslot = none → 0 < v.rowBytes →
      (o + szBytes sz - 1) / v.rowBytes = o / v.rowBytes →
      ∃ t, exec (.ldg n d a r sz off) s = .next t ∧ ∃ ld ∈ t.loads, ld.tid = l ∧ ld.d = d ∧ ld.n = n ∧ ld.sz = sz ∧ ld.addr = va ∧ ld.poison = false ∧ ld.value = none ∧
        ld.view = some (j, v.binding) ∧
        let tok : Token := { token := o / v.rowBytes, row := v.latentBase + BitVec.ofNat 64 (o / v.rowBytes * v.latentStride),
                             bytes := v.cols * viewEs (slotFmt (slotWord s (teamOf l) v.lslot)), block := none }
        ld.parts = some { k := j, view := v, off := o, size := szBytes sz, got := [], tokens := [tok], pages := tokenPages s l [tok] }) ∧
    ∀ (id : Nat) (ld : Load) (r : ViewRead) (tok : Token), ld.parts = some r → r.tokens = [tok] → tok.block = none → isBurin ld.tid = false →
      EventGives (.loadDataReturn id)
        (fun s => let team := s.team (teamOf ld.tid)
          s.loads.find? (fun x => x.id = id) = some ld ∧ (s.thread ld.tid).cond ≠ .exited ∧ team.oldUnits = [] ∧ (s.core team.coreId).press = [] ∧
          -- the group's queue holds only stores to memory of the core as it is
          ((s.group (grpOf ld.tid)).queue = [] ∨ (s.binds = [] ∧ s.lost = [] ∧
            ∀ e ∈ (s.group (grpOf ld.tid)).queue, (∃ bs, e.op = .store bs) ∧ (∃ a, e.loc = .phys a) ∧ e.inc = incarnation s ⟨1, team.coreId⟩)) ∧
          (readVirt s (r.places s (teamOf ld.tid)) r.got (pieces tok.row.toNat tok.bytes)).2 = false)
        (fun s t => let team := s.team (teamOf ld.tid)
          -- the thread sees its group's stores as if they had been performed (R229)
          let latent := (readVirt (drainQueue s (grpOf ld.tid)) (r.places s (teamOf ld.tid)) r.got (pieces tok.row.toNat tok.bytes)).1
          LoadedRegs (s.thread ld.tid) (t.thread ld.tid) ld.n ld.d ld.sz
            (leNat (((pressRow s (teamOf ld.tid) r.view 0x3F800000 latent).1.drop (r.off % r.view.rowBytes)).take r.size)))

/-! ### System words (R421 to R435) -/

/-- R419, R425 to R435: the words of major 0x3E but TRAP and ERET, for one lane of a resident team whose group has nothing waiting. That a PROOF run is
whole at its issue is the model's reading, log 34 (DEDUCED), and whether it passes is a free value, log 5. -/
def Obligations.SystemWords : Prop :=
  ∀ (d a : Code) (x : BitVec 6),
    let quiet (s : State) (l : Nat) : Prop := (s.group (grpOf l)).queue = [] ∧ (∀ c ∈ s.contributions, grpOf c.tid ≠ grpOf l) ∧ (mfind s.teams (teamOf l)).isSome = true ∧
      isBurin l = false ∧ s.binds = [] ∧ s.lost = []
    let same (s : State) (l : Nat) (t : State) : Prop := t.mem = s.mem ∧ t.poison = s.poison ∧ t.groups = s.groups ∧ ∀ y, y ≠ l → t.thread y = s.thread y
    AloneGives (.movsys d a) (fun s l t => quiet s l → same s l t ∧ t.sys = s.sys ∧ t.teams = s.teams ∧
      let n := (s.src l a).toNat
      ∃ v, t.thread l = (s.thread l).dst64 .k false d v ∧ (n ≠ 0x5002 → n ≠ 0x5042 → n ≠ 0x5007 → n ≠ 0x5047 → v = s.sysReg n) ∧ (n = 0x5002 ∨ n = 0x5042 → v = 0)) ∧
    AloneGives (.movsysW d a) (fun s l t => quiet s l → ∀ c k, c < 64 → k < 4 → (s.src l a).toNat = 0x4000 + 16 * c + k →
      let n := 0x4000 + 16 * c + k
      let v := (s.src64 l d).toNat
      same s l t ∧ t.threads = s.threads ∧ t.teams = s.teams ∧ (∀ m, m ≠ n → t.sysReg m = s.sysReg m) ∧ (t.sysReg n).toNat % 2 ^ 56 = v % 2 ^ 56 ∧
        (t.sysReg n).toNat / 2 ^ 56 % 4 = if v / 2 ^ 56 % 4 = 3 then (s.sysReg n).toNat / 2 ^ 56 % 4 else v / 2 ^ 56 % 4) ∧
    -- every other register: a register without behaviour of its own takes the bits that the map calls RW, and the rest of the device stays (R46, R333, R364, R426, R427)
    AloneGives (.movsysW d a) (fun s l t => quiet s l →
      let n := (s.src l a).toNat
      let v := s.src64 l d
      let alone : Prop := same s l t ∧ t.threads = s.threads ∧ ∀ m, m ≠ n → t.sysReg m = s.sysReg m
      let writes (mask : DWord) : Prop := alone ∧ t.teams = s.teams ∧ t.sysReg n = (s.sysReg n &&& ~~~mask) ||| (v &&& mask)
      let all : DWord := 0xFFFFFFFFFFFFFFFF
      let low : DWord := 0xFFFFFFFF
      let high : DWord := 0xFFFFFFFF00000000
      let ring : DWord := 0x01FFFFFFFFFFF01F
      (n < 0x200 → writes (if n % 8 = 1 then 0x3FFF else if n % 8 = 5 then low else if n % 8 = 7 then 0xFFFF else all)) ∧
      (∀ c k, c < 64 → 4 ≤ k → k < 16 → n = 0x4000 + 16 * c + k →
        writes (if k < 8 ∨ k = 10 then all else if k = 8 then 0x01FFFFFFFFFFF000 else if k = 9 then 0xF else 0)) ∧
      (∀ e k, e < 2 → k < 64 → n = 0x5000 + 64 * e + k →
        (k ≠ 2 → k ≠ 7 → (k = 3 ∨ k = 4 → (s.die e).unreported = []) →
          writes (if k = 0 ∨ k = 6 then low else if k = 1 then 0x01FF01FF else if k = 3 ∨ k = 5 then ring else if k = 4 then high else 0)) ∧
        (k = 7 → alone ∧ t.teams = s.teams ∧ t.sys = s.sys ∧ (t.die e).dgev = (s.die e).dgev.or (some (v &&& 0x01FFFFFFFFFFFFFF)))) ∧
      (0x200 ≤ n → n < 0x1000 ∨ (0x3400 ≤ n ∧ n < 0x4000) ∨ (0x4400 ≤ n ∧ n < 0x5000) ∨ (0x5080 ≤ n ∧ n < 0x6000) → writes 0) ∧
      (0x6000 ≤ n → n ≠ 0x6018 →
        writes (if n = 0x6010 ∨ n = 0x6012 then ring else if n = 0x6011 ∨ n = 0x6014 then low else if n = 0x6013 then high else 0)) ∧
      -- the queue descriptors (R48)
      (∀ q w, q < 1024 → w < 8 → n = 0x1000 + 8 * q + w →
        (w ≠ 1 → w ≠ 5 → writes (if w = 4 then low else if qEnabled s q = true then 0 else if w = 0 ∨ w = 3 then all else 0)) ∧
        (w = 5 → alone ∧ t.teams = s.teams ∧ t.sysReg n = if qEnabled s q then s.sysReg n else v &&& 0xF) ∧
        (w = 1 → qEnabled s q = true → v.getLsbD 13 = true → alone ∧ t.teams = s.teams ∧ t.sys = s.sys) ∧
        (w = 1 → qEnabled s q = true → v.getLsbD 13 = false → same s l t ∧ (t.qd q 1).toNat = (s.qd q 1).toNat - 2 ^ 13 ∧ qTail t q = qHead s q ∧ qHead t q = qHead s q ∧
          t.completions = s.completions ++ (List.range (qCount s q)).map (fun i =>
            { q := q, seq := BitVec.ofNat 32 (qTail s q + i), status := 0x11, killed := 0, final := true : Completion })) ∧
        (w = 1 → qEnabled s q = false → alone ∧ t.teams = s.teams ∧
          (t.qd q 1).toNat = v.toNat % 2 ^ 13 + v.toNat / 2 ^ 14 % 2 ^ 8 * 2 ^ 14 +
            (if v.getLsbD 13 = true ∧ 4 ≤ v.toNat % 16 ∧ v.toNat % 16 ≤ 12 ∧ v.toNat / 2 ^ 14 % 4 ≠ 3 ∧ 4 ≤ (s.qd q 5).toNat % 16 ∧ (s.qd q 5).toNat % 16 ≤ 12 ∧
              (s.qd q 0).toNat % 4096 = 0 ∧ (s.qd q 3).toNat % 4096 = 0 then 2 ^ 13 else 0))) ∧
      -- the answer to a held page with fail 0 (R410), and an eviction request (R428)
      (∀ e c, e < 2 → c < 64 → n = 0x5002 + 64 * e → ∀ page : DWord, page.toNat % 65536 = 0 → page.toNat < 2 ^ 57 → v = page + BitVec.ofNat 64 c →
        t.mem = s.mem ∧ t.sys = s.sys ∧ t.teams.length = s.teams.length ∧ (∀ r ∈ t.requests, r.die = e → r.ctx = c → r.held.map pageBase ≠ some page) ∧
        ∀ x th q f, mfind s.threads x = some th → th.cond = .blocked (.replay q f) → pageBase q = page → (s.team (teamOf x)).die = e → (s.team (teamOf x)).ctx = c → th.beneath = none →
          t.thread x = { th with cond := .ready }) ∧
      (n = 0x6018 →
        let old := (s.sysReg n).toNat
        let f := v.toNat % 2 ^ 12
        alone ∧
        (old / 2 ^ 16 % 4 = 1 → t.sysReg n = s.sysReg n ∧ t.teams = s.teams) ∧
        (old / 2 ^ 16 % 4 ≠ 1 → v.getLsbD 12 = false → (t.sysReg n).toNat = f + old / 2 ^ 16 % 4 * 2 ^ 16 ∧ t.teams = s.teams) ∧
        (old / 2 ^ 16 % 4 ≠ 1 → v.getLsbD 12 = true →
          let here (p : Nat × Team) : Prop := p.2.die = f / 2 ^ 8 % 2 ∧ p.2.core = f % 2 ^ 8 ∧ p.2.slot = f / 2 ^ 9 ∧ p.2.life ≠ .evicted
          ((∀ p ∈ s.teams, ¬here p) → (t.sysReg n).toNat = f + 2 * 2 ^ 16 ∧ t.teams = s.teams) ∧
          ∀ p, s.teams.filter (fun p => decide (p.2.die = f / 2 ^ 8 % 2 ∧ p.2.core = f % 2 ^ 8 ∧ p.2.slot = f / 2 ^ 9 ∧ p.2.life ≠ .evicted)) = [p] →
            (t.sysReg n).toNat = f + 2 ^ 16 ∧ (t.team p.1).evictAsked = true))) ∧
    AloneGives (.movtsysSlim a) (fun s l t => quiet s l → t = { s with teams := t.teams } ∧
      ∀ u, t.team u = if u = teamOf l then { (s.team u) with slim := s.src l a } else s.team u) ∧
    AloneGives .movtsysRunclr (fun s l t => quiet s l → t = { s with teams := t.teams } ∧
      ∀ u, t.team u = if u = teamOf l then { (s.team u) with runCount := 0 } else s.team u) ∧
    AloneGives (.syscall d a x) (fun s l t => quiet s l → (∀ p ∈ s.threads, p.1 ≠ l → grpOf p.1 = grpOf l → p.2.cond.inSyscall = false) →
      ∀ h k w r e, syscallHeader s (s.team (teamOf l)) = some (h, k, w, r) → 4 ≤ k → k ≤ 12 → poisoned s (.phys h) 64 = false →
      (if (w + 2 ^ 32 - r) % 2 ^ 32 = 2 ^ k then (t.thread l).cond = .blocked (.room d (quadSrc (s.pre l) a) x.toNat s.issue.pc s.issue.word) ∧ t.mem = s.mem
       else checkNormal s (s.team (teamOf l)).coreId (s.team (teamOf l)).ctx (s.cx (s.team (teamOf l)).ctx 4 + BitVec.ofNat 64 (64 + 64 * (w % 2 ^ k))) true true = some e →
         (e + 64 ≤ h ∨ h + 64 ≤ e) →
         (t.thread l).cond = .blocked (.reply d (s.cx (s.team (teamOf l)).ctx 4 + BitVec.ofNat 64 (64 + 64 * (w % 2 ^ k)))) ∧ readNat t (.phys e) 1 = x.toNat ∧ readNat t (.phys (e + 1)) 1 = laneOf l % 256 ∧
         readNat t (.phys (e + 2)) 1 = groupIx (grpOf l) % 256 ∧ readNat t (.phys (e + 4)) 4 = (s.team (teamOf l)).teamIx.toNat ∧
         readNat t (.phys (e + 8)) 8 = s.issue.pc.toNat ∧ (∀ i, i < 4 → a.toNat < 120 → readNat t (.phys (e + 16 + 4 * i)) 4 = (mget 0 (s.pre l).regs (a.toNat + i)).toNat) ∧
         readNat t (.phys (e + 40)) 4 = 0 ∧ readNat t (.phys (h + 4)) 4 = (w + 1) % 2 ^ 32 ∧ t.irqs = s.irqs ++ [.syscall (s.team (teamOf l)).ctx] ∧
         ∀ b, (b < e ∨ e + 64 ≤ b) → (b < h + 4 ∨ h + 8 ≤ b) → readByte t (.phys b) = readByte s (.phys b))) ∧
    AloneGives (.waitev d a) (fun s l t => quiet s l → (∀ p ∈ s.threads, p.1 ≠ l → grpOf p.1 = grpOf l → p.2.cond.inWaitev = false) →
      ∀ h, placeOf s (s.team (teamOf l)).coreId (s.team (teamOf l)).ctx (s.src64 l a) = some (.phys h) →
      let w := readNat s (.phys (h + 4)) 4
      let r := readNat s (.phys (h + 8)) 4
      same s l t ∧ t.teams = s.teams ∧
      (w = r → (t.thread l).cond = .blocked (.event d (s.src64 l a))) ∧
      (w ≠ r → (s.thread l).beneath = none → ((s.thread l).cond = .ready ∨ ∃ k x, (s.thread l).cond = .blocked (.phase k x)) →
        ∃ latch q3, (s.issue.kept = [] → latch = [] ∧ q3 = none) ∧
          t.thread l = Thread.dst { (s.thread l) with latch := latch, q3 := q3 } .k false d (BitVec.ofNat 32 (w + 2 ^ 32 - r)))) ∧
    AloneGives (.tlbinv d a) (fun s l t => quiet s l → (∀ p ∈ s.groups, p.2.queue = []) → (∀ c ∈ s.contributions, c.entry.isSome = true) →
      let c := (s.src l d).toNat
      let gone (y : Trans) : Prop := (c / 2 ^ 12 % 4 = 0 → y.tag.toNat = c % 2 ^ 12 ∧ y.base ≤ (s.src64 l a).toNat ∧ (s.src64 l a).toNat < y.base + y.size) ∧
        (c / 2 ^ 12 % 4 = 1 → y.tag.toNat = c % 2 ^ 12)
      (∀ ld, s.loads = [ld] → ∀ x ∈ t.loads, x.parts = none) ∧
      ((∀ ld ∈ s.loads, ld.parts = none) → same s l t ∧ t.threads = s.threads) ∧
      (∀ p ∈ t.cores, ∀ y ∈ p.2.tlb, ¬gone y) ∧ (∀ p ∈ t.dies, ∀ y ∈ p.2.tlb, ¬gone y) ∧
      (∀ r ∈ s.requests, r.node = none → r ∈ t.requests) ∧ (∀ r ∈ t.requests, r.node.isSome = true → ∀ p ∈ r.pages, ¬gone (heldTrans s r.ctx p))) ∧
    (∀ q ∈ [(Instr.halt d a, true), (.haltRes d a, false)], AloneGives q.1 (fun s l t => quiet s l →
      let c := (s.src l a).toNat
      same s l t ∧ t.teams = s.teams ∧ t.sys = s.sys ∧
      if enabledUnit s ⟨1, c⟩ then (t.core c).halted = q.2 ∧
          t.thread l = withResult s l .k false d (BitVec.ofNat 32 ((s.teams.filter (fun p => decide (p.2.coreId = c ∧ p.2.life ≠ .evicted))).length))
      else t.thread l = withResult s l .k false d 0xFFFFFFFF ∧ t.cores = s.cores)) ∧
    AloneGives (.proof d a) (fun s l t => quiet s l →
      let v := (s.src64 l a).toNat
      let cls := v / 2 ^ 32 % 2 ^ 16
      let number := v % 2 ^ 32
      (cls < 1 ∨ 5 < cls ∨ enabledUnit s ⟨cls, number⟩ = false → t.thread l = withResult s l .k false d 3 ∧ same s l t ∧ t.sys = s.sys) ∧
      -- a core that is not halted, or that holds a resident team
      (cls = 1 → enabledUnit s ⟨cls, number⟩ = true → ((s.core number).halted = false ∨ ∃ p ∈ s.teams, p.2.coreId = number ∧ p.2.life ≠ .evicted) →
        t.thread l = withResult s l .k false d 2 ∧ same s l t ∧ t.sys = s.sys) ∧
      (1 ≤ cls → cls ≤ 5 → enabledUnit s ⟨cls, number⟩ = true →
        (cls = 1 → (s.core number).halted = true ∧ ∀ p ∈ s.teams, p.2.coreId = number → p.2.life = .evicted) →
        (t.thread l = withResult s l .k false d 0 ∨ t.thread l = withResult s l .k false d 1) ∧
        (cls ≤ 3 → t.thread l ≠ withResult s l .k false d 0 → enabledUnit t ⟨cls, number⟩ = false)))


/-! ### Queues, registers and replays written from outside (R46 to R56, R75, R178, R410, R425 to R428) -/

/-- R46, R48 to R50, R56, R75, R178, R268, R410, R425 to R428: what an append, a queue's enabling and disabling, a write of a register, a request to an event node, an
answer to a held page, and a window of the memory controllers leave. These are the model's choices: that the event of a request to an event node both writes
the request and carries it out, log 8 (DESIGN CHOICE); which walker and queue an event node has that no walker runs, log 75
(DESIGN CHOICE); and that a record at a misaligned address and a graph queue's are appended as the outcomes here say, log 55 (DESIGN CHOICE). -/
def Obligations.RegisterEvents : Prop :=
  (∀ (q : Nat) (record : DWord), q < 1024 → EventGives (.qappAppend q record) (fun _ => True) (fun s t => ∃ o,
    t.replies = s.replies ++ [.append q o] ∧ t.sysReg (0x3000 + q) = BitVec.ofNat 64 o ∧ qTail t q = qTail s q ∧ t.threads = s.threads ∧
    o = (if qEnabled s q = false ∨ contextValid s (qOwner s q) = false then 3 else if s.qdBits q 1 9 9 = 0 then 2 else if qCount s q = 2 ^ qOrder s q then 1 else 0) ∧
    (o ≠ 0 → t.mem = s.mem ∧ t.teams = s.teams ∧ qHead t q = qHead s q) ∧
    (o = 0 → qHead t q = (qHead s q + 1) % 2 ^ 32 ∧
      ∀ pa, (∀ x ∈ pieces record.toNat 128, Clear s (qOwner s q) (BitVec.ofNat 64 x.1)) → devicePlace s (qOwner s q) (slotAddr s q (qHead s q)) = some pa → s.binds = [] → s.lost = [] → ∀ i, i < slotSize s q →
        readByte t (.phys (pa + i)) = (deviceBytes s (qOwner s q) record 128).getD i 0))) ∧
  (∀ (q : Nat) (v : DWord), q < 1024 → v.getLsbD 13 = true → EventGives (.queueEnable q v) (fun _ => True) (fun s t =>
    (qEnabled s q = true → t = s) ∧
    (qEnabled s q = false → t = { s with sys := t.sys } ∧ (∀ n, n ≠ 0x1001 + 8 * q → t.sysReg n = s.sysReg n) ∧
      (t.qd q 1).toNat = v.toNat % 2 ^ 13 + v.toNat / 2 ^ 14 % 2 ^ 8 * 2 ^ 14 +
        (if 4 ≤ v.toNat % 16 ∧ v.toNat % 16 ≤ 12 ∧ v.toNat / 2 ^ 14 % 4 ≠ 3 ∧ 4 ≤ (s.qd q 5).toNat % 16 ∧ (s.qd q 5).toNat % 16 ≤ 12 ∧
            (s.qd q 0).toNat % 4096 = 0 ∧ (s.qd q 3).toNat % 4096 = 0 then 2 ^ 13 else 0)))) ∧
  (∀ (q : Nat) (v : DWord), q < 1024 → v.getLsbD 13 = false → EventGives (.queueDisable q v) (fun _ => True) (fun s t =>
    t.mem = s.mem ∧ t.threads = s.threads ∧ t.teams = s.teams ∧
    (qEnabled s q = true → (t.qd q 1).toNat = (s.qd q 1).toNat - 2 ^ 13 ∧ qTail t q = qHead s q ∧ qHead t q = qHead s q ∧
      t.completions = s.completions ++ (List.range (qCount s q)).map (fun i =>
        { q := q, seq := BitVec.ofNat 32 (qTail s q + i), status := 0x11, killed := 0, final := true : Completion })) ∧
    (qEnabled s q = false → t.completions = s.completions ∧ (t.qd q 1).toNat = v.toNat % 2 ^ 13 + v.toNat / 2 ^ 14 % 2 ^ 8 * 2 ^ 14))) ∧
  (∀ (n : Nat) (v : DWord), EventGives (.systemRegisterWrite n v) (fun _ => True) (fun s t =>
    (∀ c w, c < 64 → w < 8 → n = 8 * c + w → (∀ m, m ≠ n → t.sysReg m = s.sysReg m) ∧ t.mem = s.mem ∧ t.threads = s.threads ∧ t.teams = s.teams ∧
      (w = 1 → (t.sysReg n).toNat = (s.sysReg n).toNat / 2 ^ 14 * 2 ^ 14 + v.toNat % 2 ^ 14) ∧
      (w = 5 → (t.sysReg n).toNat = (s.sysReg n).toNat / 2 ^ 32 * 2 ^ 32 + v.toNat % 2 ^ 32) ∧
      (w = 7 → (t.sysReg n).toNat = (s.sysReg n).toNat / 2 ^ 16 * 2 ^ 16 + v.toNat % 2 ^ 16) ∧
      (w ≠ 1 → w ≠ 5 → w ≠ 7 → t.sysReg n = v)) ∧
    (∀ q, q < 1024 → n = 0x1000 + 8 * q + 2 → t = s) ∧
    (∀ q, q < 1024 → n = 0x1000 + 8 * q → t = (if qEnabled s q then s else { s with sys := t.sys }) ∧ (qEnabled s q = false → t.sysReg n = v)) ∧
    (∀ q, q < 1024 → n = 0x1000 + 8 * q + 4 → t = { s with sys := t.sys } ∧ (∀ m, m ≠ n → t.sysReg m = s.sysReg m) ∧
      (t.sysReg n).toNat = (s.sysReg n).toNat / 2 ^ 32 * 2 ^ 32 + v.toNat % 2 ^ 32) ∧
    (∀ d, d < 2 → n = 0x5000 + 64 * d → t = { s with sys := t.sys } ∧ (∀ m, m ≠ n → t.sysReg m = s.sysReg m) ∧
      (t.sysReg n).toNat = (s.sysReg n).toNat / 2 ^ 32 * 2 ^ 32 + v.toNat % 2 ^ 32))) ∧
  (∀ ctx, ctx < 64 → EventGives (.contextValidClear ctx) (fun _ => True) (fun s t =>
    t.cx ctx 1 = s.cx ctx 1 &&& ~~~(0x1000 : DWord) ∧ (∀ m, m ≠ 8 * ctx + 1 → t.sysReg m = s.sysReg m) ∧ t = { s with sys := t.sys, pins := t.pins } ∧
    ((s.cx ctx 1).getLsbD 12 = true → t.pins = s.pins.filter (fun p => decide (p.1 ≠ ctx))))) ∧
  (∀ (die ctx : Nat) (addr : DWord), ctx < 64 → addr.toNat % 64 = 0 → addr.toNat < 2 ^ 57 → EventGives (.dgevRequest die (addr + BitVec.ofNat 64 ctx))
    (fun s => (s.die die).dgev = none ∧ s.binds = [] ∧ s.lost = []) (fun s t =>
      (t.die die).dgev = none ∧
      (devicePlace s ctx addr = none → (t.die die).dgevResult = 1 ∧ (Clear s ctx addr → t = { s with dies := t.dies })) ∧
      (∀ pa, devicePlace s ctx addr = some pa →
        (readNat s (.phys pa) 1 ≠ 4 → (t.die die).dgevResult = 1 ∧ t = { s with dies := t.dies, dir := t.dir }) ∧
        (readNat s (.phys pa) 1 = 4 → readNat s (.phys (pa + 26)) 2 = 0 → (t.die die).dgevResult = 2 ∧ t = { s with dies := t.dies, dir := t.dir }) ∧
        let n := ((s.node ctx addr).or (s.nodes.find? (fun n => decide (devicePlace s n.ctx n.addr = some pa)))).getD (strayNode s ctx addr pa)
        (readNat s (.phys pa) 1 = 4 → 1 < readNat s (.phys (pa + 26)) 2 ∨ (readNat s (.phys (pa + 26)) 2 = 1 ∧ n.done.isSome = true) →
          (t.die die).dgevResult = 3 ∧ t = { s with dies := t.dies, dir := t.dir }) ∧
        (readNat s (.phys pa) 1 = 4 → readNat s (.phys (pa + 26)) 2 = 1 → n.done = none → n.succs = 0 →
          devicePlace s n.ctx (n.addr + 26) = some (pa + 26) →
          (t.die die).dgevResult = 0 ∧ readNat t (.phys (pa + 26)) 2 = 2 ∧ t.nodes = s.nodes.filter (fun m => decide (m ≠ n)) ∧
          (∀ a, (a < pa + 26 ∨ pa + 28 ≤ a) → readByte t (.phys a) = readByte s (.phys a)) ∧
          t.completions = s.completions ++ if n.root then [{ q := n.q, seq := n.seq, status := 0, killed := 0, final := true }] else [])))) ∧
  (∀ (die ctx : Nat) (page : DWord), ctx < 64 → page.toNat % 65536 = 0 → page.toNat < 2 ^ 57 → EventGives (.replayAnswer die (page + BitVec.ofNat 64 ctx)) (fun _ => True) (fun s t =>
    let held (p : Nat × Thread) : Prop := ∃ q f, p.2.cond = .blocked (.replay q f) ∧ pageBase q = page ∧ (s.team (teamOf p.1)).die = die ∧ (s.team (teamOf p.1)).ctx = ctx
    t.mem = s.mem ∧ t.sys = s.sys ∧
    (∀ x th, mfind s.threads x = some th → held (x, th) → th.beneath = none → t.thread x = { th with cond := .ready }) ∧
    (∀ x th k a, mfind s.threads x = some th → s.threads.filter (fun p => decide (p.1 = x)) = [(x, th)] → held (x, th) → th.beneath = some (k, a) →
      t.thread x = { th with cond := .blocked (.phase k a), beneath := none }) ∧
    (∀ x, (∀ p ∈ s.threads, p.1 = x → ¬held p) → t.thread x = s.thread x) ∧
    (∀ r ∈ t.requests, r.die = die → r.ctx = ctx → r.held.map pageBase ≠ some page) ∧ t.requests.length = s.requests.length)) ∧
  -- an answer with fail 1, for one thread, one request or one matrix queue entry that is held on the page
  (∀ (die ctx : Nat) (page : DWord), ctx < 64 → page.toNat % 65536 = 0 → page.toNat < 2 ^ 57 →
    let thread (s : State) (p : Nat × Thread) : Prop := ∃ q f, p.2.cond = .blocked (.replay q f) ∧ pageBase q = page ∧ (s.team (teamOf p.1)).die = die ∧ (s.team (teamOf p.1)).ctx = ctx
    let request (r : Request) : Prop := r.die = die ∧ r.ctx = ctx ∧ r.held.map pageBase = some page
    let entry (s : State) (u : Nat) (e : MEntry) : Prop := (s.team u).die = die ∧ (s.team u).ctx = ctx ∧ e.held.map pageBase = some page
    let fail : DWord := page + BitVec.ofNat 64 (256 + ctx)
    (∀ (x : Nat) (th : Thread) (q : DWord) (f : TrapInfo), f.cause = 0x10 → f.bad = none → f.entry = none → th.cond = .blocked (.replay q f) → th.beneath = none → th.trapping = none →
      EventGives (.replayAnswer die fail)
        (fun s => mfind s.threads x = some th ∧ (s.threads.map Prod.fst).Nodup ∧ thread s (x, th) ∧ (∀ p ∈ s.threads, p.1 ≠ x → ¬thread s p) ∧ (∀ r ∈ s.requests, ¬request r) ∧
          (∀ p ∈ s.teams, ∀ e ∈ p.2.queue, ¬entry s p.1 e) ∧ (mfind s.teams (teamOf x)).isSome = true ∧ (s.team (teamOf x)).life = .running)
        (fun s t =>
          (isBurin x = true ∨ (s.team (teamOf x)).kern.handler = 0 → (t.team (teamOf x)).life = .dying ∧ ∃ r, (t.team (teamOf x)).kill = some r ∧ r.cause = 0x10) ∧
          (isBurin x = false → (s.team (teamOf x)).kern.handler ≠ 0 → (∀ l ∈ s.loads, l.tid ≠ x) → (∃ ps, framePlaces s x true = .ok ps) →
            (t.thread x).pc = (s.team (teamOf x)).kern.handler ∧ (t.thread x).trapping = some (1#32 <<< laneOf x) ∧ (t.thread x).cond = .ready ∧ (t.thread x).regs = th.regs ∧
              ∀ y, grpOf y ≠ grpOf x → t.thread y = s.thread y))) ∧
    (∀ r : Request, request r → EventGives (.replayAnswer die fail)
      (fun s => r ∈ s.requests ∧ (s.requests.map (fun x => x.id)).Nodup ∧ (∀ x ∈ s.requests, request x → x = r) ∧ (∀ p ∈ s.threads, ¬thread s p) ∧
        ∀ p ∈ s.teams, ∀ e ∈ p.2.queue, ¬entry s p.1 e)
      (fun s t => t.requests = s.requests.filter (fun x => decide (x.id ≠ r.id)) ∧
        (∀ a, r.node = some a → ∀ n ∈ t.nodes, n.ctx = ctx → n.addr = a → n.done = some 0x1FF) ∧
        (r.regs = [] → t.mem = s.mem ∧ t.threads = s.threads) ∧
        ∀ g, r.regs = [g] → (mfind s.teams g.team).isSome = true →
          let b := s.bar g.team g.k
          let c := t.bar g.team g.k
          if b.init = true ∧ b.arrived = b.quota ∧ b.pending ≤ g.left then c.phase = b.phase + 1 ∧ c.lastError = true ∧ c.error = false
          else c = { b with pending := b.pending - g.left, error := true } ∧ t.mem = s.mem ∧ t.threads = s.threads)) ∧
    ∀ (u : Nat) (e : MEntry), e.held.map pageBase = some page → EventGives (.replayAnswer die fail)
      (fun s => ∃ x, mfind s.teams u = some x ∧ x.life = .running ∧ x.die = die ∧ x.ctx = ctx ∧ e ∈ x.queue ∧ (∀ p ∈ s.teams, ∀ m ∈ p.2.queue, entry s p.1 m → p.1 = u ∧ m = e) ∧
        (s.teams.map Prod.fst).Nodup ∧ x.queue.Nodup ∧ (∀ p ∈ s.threads, ¬thread s p) ∧ ∀ r ∈ s.requests, ¬request r)
      (fun _ t => (t.team u).life = .dying ∧ ∃ r, (t.team u).kill = some r ∧ r.cause = 0x10 ∧ r.lane = 0xFF ∧ r.group = 0xFF)) ∧
  (∀ v : DWord, EventGives (.evictreqWrite v) (fun _ => True) (fun s t =>
    let old := (s.sysReg 0x6018).toNat
    let f := v.toNat % 2 ^ 12
    (∀ n, n ≠ 0x6018 → t.sysReg n = s.sysReg n) ∧ t.mem = s.mem ∧ t.threads = s.threads ∧
    (old / 2 ^ 16 % 4 = 1 → t = s) ∧
    (old / 2 ^ 16 % 4 ≠ 1 → v.getLsbD 12 = false → t = { s with sys := t.sys } ∧ (t.sysReg 0x6018).toNat = f + old / 2 ^ 16 % 4 * 2 ^ 16) ∧
    (old / 2 ^ 16 % 4 ≠ 1 → v.getLsbD 12 = true → teamIn s (f / 2 ^ 8 % 2) (f % 2 ^ 8) (f / 2 ^ 9) = none → t = { s with sys := t.sys } ∧ (t.sysReg 0x6018).toNat = f + 2 * 2 ^ 16) ∧
    (∀ u, old / 2 ^ 16 % 4 ≠ 1 → v.getLsbD 12 = true → teamIn s (f / 2 ^ 8 % 2) (f % 2 ^ 8) (f / 2 ^ 9) = some u →
      (t.sysReg 0x6018).toNat = f + 2 ^ 16 ∧ (t.team u).evictAsked = true ∧ ∀ x, x ≠ u → t.team x = s.team x))) ∧
  EventGives .hbmWindow (fun _ => True) (fun s t => t = { s with hbm := t.hbm, hbmAllow := t.hbmAllow, freeCount := t.freeCount } ∧
    ∀ c, c < 64 → (mget 0 s.hbmAllow c ≠ 0 → mget 0 t.hbm c ≤ mget 0 s.hbmAllow c) ∧ mget 0 t.hbmAllow c = (s.cx c 2).toNat / 2 ^ 32)

/-! ### Placement and dependence graphs (R40, R44, R48 to R66, R72 to R76) -/

/-- What the start of a node leaves, by its kind (R72, R73, R76): `s` is the state when it starts, `old` the nodes that run on, `a` the node's address, at place `pa`.
A copy becomes a request of the walkers' own channel, a launch an append to its queue, a signal a store; event and join do nothing; a bad record fails, which its finish
carries out. -/
def NodeStarted (s : State) (old : List Node) (t : State) (ctx die : Nat) (a : DWord) (pa q : Nat) (seq : Word) (root : Bool) : Prop :=
  let rec_ := readBytes s (.phys pa) 64
  let kind := fld rec_ 0 1
  let good : Prop := nodeLegal rec_ = true ∧ fld rec_ 4 4 = 0
  let payload := BitVec.ofNat 64 (fld rec_ 8 8)
  let raw := (devicePlace s ctx payload).map (fun p => readBytes s (.phys p) 64)
  let copies : Prop := ∃ x, raw = some x ∧ copyLegal x (readCopy x) [1] 1 = true ∧ (readCopy x).space = 0 ∧ (readCopy x).fromScratch = false
  let dest := fld rec_ 1 2
  let o := if qEnabled s dest = false ∨ contextValid s (qOwner s dest) = false then 3 else if s.qdBits dest 1 11 11 = 0 ∨ ctx ≠ qOwner s dest then 2
    else if qCount s dest = 2 ^ qOrder s dest then 1 else 0
  let slot := if good ∧ kind = 2 ∧ o = 0 then devicePlace s ctx (slotAddr s dest (qHead s dest)) else none
  let target := if good ∧ kind = 3 then devicePlace s ctx payload else none
  let wrote := if good ∧ kind = 2 ∧ o = 0 then deviceWrite Feed.device.unit s ctx (slotAddr s dest (qHead s dest)) ((deviceBytes s ctx payload 128).take (slotSize s dest))
    else if good ∧ kind = 3 then deviceWrite (walkerUnit die) s ctx payload (leBytes 8 (fld rec_ 32 8)) else s
  -- no access has met a malformed entry, whose record goes to the error ring, and the status word's page is still where it was after the append or the store
  let stays : Prop := t.errSeq = s.errSeq ∧ devicePlace wrote ctx (a + 26) = some (pa + 26)
  let apart (b n : Nat) : Prop := b + n ≤ pa + 26 ∨ pa + 28 ≤ b
  ∃ n, t.nodes = old ++ [n] ∧ n.ctx = ctx ∧ n.die = die ∧ n.addr = a ∧ n.q = q ∧ n.seq = seq ∧ n.root = root ∧ n.list = BitVec.ofNat 64 (fld rec_ 16 8) ∧ n.succs = fld rec_ 24 2 ∧
    (stays → readNat t (.phys (pa + 26)) 2 = 1) ∧
    (stays → ∀ b, apart b 1 → (∀ p, slot = some p → b < p ∨ p + slotSize s dest ≤ b) → (∀ p, target = some p → b < p ∨ p + 8 ≤ b) → readByte t (.phys b) = readByte s (.phys b)) ∧
    (¬good → n.done = some 0x1FF ∧ t.requests = s.requests) ∧
    (good → kind = 1 → ¬copies → n.done = some 0x1FF ∧ t.requests = s.requests) ∧
    (good → kind = 1 → copies → n.done = none ∧ ∃ r, t.requests = s.requests ++ [r] ∧ r.node = some a ∧ r.ctx = ctx ∧ r.die = die ∧ r.done = [] ∧ r.held = none ∧ r.inc = incarnation s ⟨5, 256 * die + 1⟩ ∧
      ∀ x, raw = some x → r.op = .linear (readCopy x).count (.global (BitVec.ofNat 64 (readCopy x).src)) (.global (BitVec.ofNat 64 (readCopy x).dst)) ∧
        r.acquire = (readCopy x).acquire ∧ r.release = (readCopy x).release ∧ r.scope = (readCopy x).scope) ∧
    (good → kind = 2 → o ≠ 0 → n.done = some (0x100 + o) ∧ qHead t dest = qHead s dest) ∧
    (good → kind = 2 → o = 0 → n.done = none ∧ n.slot = some (dest, qHead s dest % 2 ^ qOrder s dest) ∧ qHead t dest = (qHead s dest + 1) % 2 ^ 32 ∧ qTail t dest = qTail s dest ∧
      mfind t.feeds (slotKey s dest (qHead s dest)) = some (ctx, a) ∧
      ∀ p, stays → slot = some p → apart p (slotSize s dest) → ∀ i, i < slotSize s dest → readByte t (.phys (p + i)) = (deviceBytes s ctx payload 128).getD i 0) ∧
    (good → kind = 3 → n.done = some 0 ∧ ∀ p, stays → target = some p → apart p 8 → readNat t (.phys p) 8 = fld rec_ 32 8) ∧
    (good → kind = 4 → n.done = none) ∧ (good → kind = 5 → n.done = some 0)

/-- R40, R44, R48, R51 to R54, R58, R61 to R66, R72 to R74, R76, R122, R439: a launch slot that is taken, a target that is fixed, a cluster that starts (on which of the
free rectangles is a free value, log 5; with which stamp its threads stand there is log 57, DESIGN CHOICE), a run limit that is met, a completion entry, and
the nodes of a graph: each kind's start, its finish and failure, and the successor whose count reaches zero. That a graph slot with a misaligned node address or a nonzero zero field fails is the model's reading, log 16 (DEDUCED), and that one
whose address does not translate fails its choice, log 56 (DESIGN CHOICE). -/
def Obligations.PlacementSteps : Prop :=
  let dry (s : State) : Prop := s.binds = [] ∧ s.lost = []
  (∀ die q, EventGives (.takeLaunchSlot die q) (fun _ => True) (fun s t =>
    let r := deviceRead s (qOwner s q) (slotAddr s q (qTail s q)) 128
    let key := slotKey s q (qTail s q)
    (nextQueue s die ≠ some q → t = s) ∧
    (nextQueue s die = some q → qTail t q = (qTail s q + 1) % 2 ^ 32 ∧ qHead t q = qHead s q ∧ takenOf t q = takenOf s q + 1 ∧ (t.errSeq = s.errSeq → t.mem = s.mem) ∧ t.threads = s.threads ∧ t.teams = s.teams ∧
      (fld r 0 8 % 64 ≠ 0 → ∃ c ∈ t.completions, c.q = q ∧ c.seq = BitVec.ofNat 32 (qTail s q) ∧ c.status = 1 ∧ c.final = true) ∧
      (∀ c, refusal s q key r = some c → t.grids = s.grids ∧ ∃ x, t.completions = s.completions ++ [x] ∧ x.q = q ∧ x.seq = BitVec.ofNat 32 (qTail s q) ∧ x.status = c ∧ x.killed = 0 ∧ x.final = true ∧ x.node = mfind s.feeds key) ∧
      (refusal s q key r = none → t.completions = s.completions ∧ t.nextId = s.nextId + 1 ∧ ∃ g, mfind t.grids s.nextId = some g ∧ g.q = q ∧ g.seq = BitVec.ofNat 32 (qTail s q) ∧
        g.ctx = qOwner s q ∧ g.prio = qPriority s q ∧ g.teams = teamCount r ∧ g.w = fld r 12 1 ∧ g.h = fld r 13 1 ∧ g.argBase = BitVec.ofNat 64 (fld r 16 8) ∧ g.argStride = fld r 24 4 ∧
        g.adapter = BitVec.ofNat 64 (fld r 32 8) ∧ g.runLimit = fld r 40 8 ∧ g.next = 0 ∧ g.ended = 0)))) ∧
  (∀ grid, EventGives (.ageingExpiry grid) (fun s => ∃ g x, mfind s.grids grid = some g ∧ g.target = some x) (fun s t => ∀ g x, mfind s.grids grid = some g → g.target = some x →
    (x.age < (s.sysReg (0x5000 + 64 * x.die)).toNat % 2 ^ 32 → t = s) ∧
    ((s.sysReg (0x5000 + 64 * x.die)).toNat % 2 ^ 32 ≤ x.age → t = { s with grids := t.grids } ∧ mfind t.grids grid = some { g with target := some { x with fixed := true } } ∧
      ∀ k, k ≠ grid → mfind t.grids k = mfind s.grids k))) ∧
  (∀ die grid, EventGives (.clusterStart die grid) (fun s => ∃ g, mfind s.grids grid = some g ∧ startRects s die grid g ≠ [] ∧ g.kern.groups ≤ 32) (fun s t => ∀ g, mfind s.grids grid = some g →
    (∃ n, mfind t.grids grid = some n ∧ n.next = g.next + 1) ∧
    ∃ c ∈ startRects s die grid g, ∀ k (h : k < (rect c.1 c.2 g.w g.h).length), ∃ u, mfind t.teams (s.nextId + k) = some u ∧ u.grid = grid ∧ u.ctx = g.ctx ∧ u.life = .running ∧
      u.die = die ∧ u.core = (rect c.1 c.2 g.w g.h)[k] ∧ u.clRank = k ∧ u.teamIx = BitVec.ofNat 32 (g.next * (g.w * g.h) + k) ∧ u.teamCnt = BitVec.ofNat 32 g.teams ∧ u.kern = g.kern ∧
      u.slots = g.slots ∧ u.arg = g.argBase + BitVec.ofNat 64 ((g.next * (g.w * g.h) + k) * g.argStride) ∧ u.runLimit = g.runLimit ∧ u.adapter = g.adapter ∧ u.rid = 1 ∧ u.joined = false ∧
      -- barriers not initialised, views and table slots unbound, the run counter and the windows zero, and every byte of the scratchpad zero (R58, R177)
      u.bars = [] ∧ u.views = [] ∧ u.tslots = [] ∧ u.runCount = 0 ∧ u.windows = [] ∧ u.pt = [] ∧
      ((∀ b ∈ s.binds, b.team ≠ s.nextId + k) → u.scratch = [] ∧ u.scratchPoison = []) ∧
      (∀ x l, x < g.kern.groups → l < 32 → mfind t.threads (tidOf (s.nextId + k) x l) = some { pc := g.kern.entry, sp := BitVec.ofNat 32 g.kern.stack, stamp := s.clock }) ∧
      (g.kern.burin ≠ 0 → mfind t.threads (burinOf (s.nextId + k)) = some { pc := g.kern.burin, sp := BitVec.ofNat 32 g.kern.stack, stamp := s.clock }))) ∧
  (∀ u, EventGives (.runLimitKill u) (fun _ => True) (fun s t => ∀ x, mfind s.teams u = some x →
    (x.life = .running → x.runLimit ≠ 0 → x.runLimit ≤ x.runCount → (t.team u).life = .dying ∧ ∃ r, (t.team u).kill = some r ∧ r.cause = 0x22 ∧ r.lane = 0xFF ∧ r.group = 0xFF) ∧
    (x.life ≠ .running ∨ x.runLimit = 0 ∨ x.runCount < x.runLimit → t = s))) ∧
  (∀ q, EventGives (.completionEntryWrite q) (fun _ => True) (fun s t => ∀ c, s.completions.find? (fun c => decide (c.q = q)) = some c →
    let w := (s.qd q 4).toNat / 2 ^ 32
    let r := (s.qd q 4).toNat % 2 ^ 32
    let m := (s.qd q 5).toNat % 16
    (2 ^ m ≤ (w + 2 ^ 32 - r) % 2 ^ 32 → t = s) ∧
    ((w + 2 ^ 32 - r) % 2 ^ 32 < 2 ^ m → (t.qd q 4).toNat = (w + 1) % 2 ^ 32 * 2 ^ 32 + r ∧ t.completions = s.completions.erase c ∧ t.threads = s.threads ∧
      ∀ pa, devicePlace s (qOwner s q) (s.qd q 3 + BitVec.ofNat 64 (16 * (w % 2 ^ m))) = some pa → dry s →
        readNat t (.phys pa) 8 = c.seq.toNat ∧ readNat t (.phys (pa + 8)) 1 = c.status % 256 ∧ readNat t (.phys (pa + 9)) 3 = 0 ∧
        readNat t (.phys (pa + 12)) 4 = min c.killed (2 ^ 32 - 1) ∧ ∀ a, (a < pa ∨ pa + 16 ≤ a) → readByte t (.phys a) = readByte s (.phys a)))) ∧
  (∀ die q, EventGives (.graphSlotTake die q) (fun s => graphReady s die q = true ∧ dry s) (fun s t =>
    let r := deviceRead s (qOwner s q) (slotAddr s q (qTail s q)) 64
    let a := BitVec.ofNat 64 (fld r 0 8)
    qTail t q = (qTail s q + 1) % 2 ^ 32 ∧ qHead t q = qHead s q ∧
    (fld r 0 8 % 64 ≠ 0 ∨ zeroAt r 8 56 = false → t.nodes = s.nodes ∧
      t.completions = s.completions ++ [{ q := q, seq := BitVec.ofNat 32 (qTail s q), status := 0x10, killed := 0, final := true }]) ∧
    (Clear s (qOwner s q) (slotAddr s q (qTail s q)) → fld r 0 8 % 64 = 0 → zeroAt r 8 56 = true → devicePlace s (qOwner s q) a = none → t.nodes = s.nodes ∧
      t.completions = s.completions ++ [{ q := q, seq := BitVec.ofNat 32 (qTail s q), status := 0x10, killed := 0, final := true }]) ∧
    (∀ pa, Clear s (qOwner s q) (slotAddr s q (qTail s q)) → fld r 0 8 % 64 = 0 → zeroAt r 8 56 = true → devicePlace s (qOwner s q) a = some pa → devicePlace s (qOwner s q) (a + 26) = some (pa + 26) → nodeLegal (readBytes s (.phys pa) 64) = true →
      fld (readBytes s (.phys pa) 64) 4 4 = 0 → 4 ≤ fld (readBytes s (.phys pa) 64) 0 1 →
      ∃ n, t.nodes = s.nodes ++ [n] ∧ n.ctx = qOwner s q ∧ n.addr = a ∧ n.list = BitVec.ofNat 64 (fld (readBytes s (.phys pa) 64) 16 8) ∧ n.succs = fld (readBytes s (.phys pa) 64) 24 2 ∧ n.q = q ∧ n.seq = BitVec.ofNat 32 (qTail s q) ∧ n.root = true ∧
        n.done = (if fld (readBytes s (.phys pa) 64) 0 1 = 4 then none else some 0) ∧ t.completions = s.completions ∧
        readNat t (.phys (pa + 26)) 2 = 1 ∧ ∀ b, (b < pa + 26 ∨ pa + 28 ≤ b) → readByte t (.phys b) = readByte s (.phys b)) ∧
    -- whatever the node's kind
    (∀ pa, Clear s (qOwner s q) (slotAddr s q (qTail s q)) → fld r 0 8 % 64 = 0 → zeroAt r 8 56 = true → devicePlace s (qOwner s q) a = some pa → devicePlace s (qOwner s q) (a + 26) = some (pa + 26) →
      t.completions = s.completions ∧ NodeStarted (takeSlot s q) s.nodes t (qOwner s q) die a pa q (BitVec.ofNat 32 (qTail s q)) true))) ∧
  ∀ (ctx : Nat) (addr : DWord), EventGives (.nodeFinish ctx addr) dry (fun s t =>
    (s.node ctx addr = none → t = s) ∧
    ∀ n, s.node ctx addr = some n → (n.done = none → t = s) ∧
      (∀ st, n.done = some st → st ≠ 0 → t.nodes = s.nodes.filter (fun m => decide (m ≠ n)) ∧
        t.completions = s.completions ++ [{ q := n.q, seq := n.seq, status := 0x10, killed := 0, final := n.root }] ∧
        ∀ p, devicePlace s n.ctx (n.addr + 26) = some p →
          readNat t (.phys p) 2 = st % 65536 ∧ ∀ b, (b < p ∨ p + 2 ≤ b) → readByte t (.phys b) = readByte s (.phys b)) ∧
      (n.done = some 0 → n.succs = 0 → t.nodes = s.nodes.filter (fun m => decide (m ≠ n)) ∧
        t.completions = s.completions ++ (if n.root then [{ q := n.q, seq := n.seq, status := 0, killed := 0, final := true }] else []) ∧
        ∀ p, devicePlace s n.ctx (n.addr + 26) = some p →
          readNat t (.phys p) 2 = 2 ∧ ∀ b, (b < p ∨ p + 2 ≤ b) → readByte t (.phys b) = readByte s (.phys b)) ∧
      (∀ pa k, n.done = some 0 → n.succs = 1 →
        let s1 := setStatus n.die (walkerRelease s) n.ctx n.addr 2
        let x := BitVec.ofNat 64 (deviceNat s n.ctx n.list 8)
        (∀ p ∈ pieces n.list.toNat 8, Clear s1 n.ctx (BitVec.ofNat 64 p.1)) →
        (devicePlace s1 n.ctx x).isSome = true → devicePlace s1 n.ctx (x + 4) = some pa → readNat s1 (.phys pa) 4 = k →
        (2 ≤ k → readNat t (.phys pa) 4 = k - 1 ∧ t.nodes = s.nodes.filter (fun m => decide (m ≠ n)) ∧
          ∀ b, (b < pa ∨ pa + 4 ≤ b) → readByte t (.phys b) = readByte s1 (.phys b)) ∧
        (k = 0 → (s.dropNode n).node n.ctx x = none → t.nodes = s.nodes.filter (fun m => decide (m ≠ n)) ∧
          t.completions = s.completions ++ (if n.root then [{ q := n.q, seq := n.seq, status := 0, killed := 0, final := true }] else []) ++
            [{ q := n.q, seq := n.seq, status := 0x10, killed := 0, final := false }] ∧
          ∀ p, devicePlace s1 n.ctx (x + 26) = some p →
            readNat t (.phys p) 2 = 0x1FE ∧ ∀ b, (b < p ∨ p + 2 ≤ b) → readByte t (.phys b) = readByte s1 (.phys b))) ∧
      -- the successor whose count reaches zero starts, of the same queue and slot, and is no root
      (∀ px, n.done = some 0 → n.succs = 1 →
        let s1 := setStatus n.die (walkerRelease s) n.ctx n.addr 2
        let x := BitVec.ofNat 64 (deviceNat s n.ctx n.list 8)
        let s2 := deviceWrite (walkerUnit n.die) s1 n.ctx (x + 4) (leBytes 4 0)
        (∀ p ∈ pieces n.list.toNat 8, Clear s1 n.ctx (BitVec.ofNat 64 p.1)) →
        (devicePlace s1 n.ctx x).isSome = true → deviceNat s1 n.ctx (x + 4) 4 = 1 → devicePlace s2 n.ctx x = some px → devicePlace s2 n.ctx (x + 26) = some (px + 26) →
        t.completions = s.completions ++ (if n.root then [{ q := n.q, seq := n.seq, status := 0, killed := 0, final := true }] else []) ∧
        NodeStarted s2 (s.nodes.filter (fun m => decide (m ≠ n))) t n.ctx n.die x px n.q n.seq false))


/-! ### Teams, their faults and waits (R67, R177, R368, R401, R411, R415 to R417, R428, R431, R432, R438, R439) -/

/-- R147, R177, R368, R401, R411, R416, R417, R431, R432, R438, R439: how teams end, leave and come back, for a team with nothing of its own in flight that is not joined;
a window that is full, a fault that is delivered, a version that is freed, the end of a SYSCALL and of a WAITEV. That a thread whose entry or header does not
translate waits on is the model's choice, log 58 (DESIGN CHOICE). -/
def Obligations.TeamsEndAndWait : Prop :=
  let dry (s : State) : Prop := s.binds = [] ∧ s.lost = []
  let calm (s : State) (u : Nat) : Prop := (∀ p ∈ s.groups, p.1 / 64 = u → p.2.queue = []) ∧ (∀ c ∈ s.contributions, c.team ≠ u) ∧ (∀ r ∈ s.requests, r.team ≠ u) ∧
    (∀ l ∈ s.loads, teamOf l.tid ≠ u) ∧ (s.team u).joined = false
  let gone (s : State) (u k : Nat) (t : State) : Prop := mfind t.teams u = none ∧ (∀ x, teamOf x = u → mfind t.threads x = none) ∧ (∀ x, teamOf x ≠ u → mfind t.threads x = mfind s.threads x) ∧
    ∀ g, mfind s.grids (s.team u).grid = some g →
      (g.ended + 1 < g.teams → ∃ n, mfind t.grids (s.team u).grid = some n ∧ n.ended = g.ended + 1 ∧ n.killed = g.killed + k) ∧
      (g.teams ≤ g.ended + 1 → mfind t.grids (s.team u).grid = none ∧
        t.completions = s.completions ++ [{ q := g.q, seq := g.seq, status := if g.killed + k = 0 then 0 else 0x10, killed := g.killed + k, final := true, node := g.node }])
  (∀ u, EventGives (.killComplete u) (fun s => calm s u ∧ ∃ x, mfind s.teams u = some x ∧ x.life = .dying ∧ x.queue = [] ∧ x.replays = []) (fun s t => gone s u 1 t)) ∧
  (∀ u, EventGives (.teamRetire u) (fun s => calm s u ∧ mayRetire s u = true) (fun s t => gone s u 0 t)) ∧
  (∀ u, EventGives (.teamRetire u) (fun s => ∃ p ∈ s.threads, teamOf p.1 = u ∧ (p.2.cond ≠ .exited ∨ p.2.faults ≠ [])) (fun s t => t = s)) ∧
  (∀ u, EventGives (.eviction u) (fun s => calm s u ∧ mayEvict s u = true) (fun s t => (t.team u).life = .evicted ∧ (t.team u).evictAsked = false ∧
    t.threads = s.threads ∧ (∀ b ∈ t.binds, b.team ≠ u) ∧ ∀ x, x ≠ u → (t.team x).life = (s.team x).life)) ∧
  (∀ u, EventGives (.eviction u) (fun s => mayEvict s u = false) (fun s t => t = s)) ∧
  (∀ (u : Nat) (p : Place), EventGives (.teamResume u [p]) (fun s => ∃ x, mfind s.teams u = some x ∧ x.life = .evicted ∧ x.joined = false ∧ resumable s u = true ∧
      placesFit s [u] [p] = true) (fun s t => (t.team u).life = .running ∧ (t.team u).die = p.die ∧ (t.team u).core = p.core ∧ (t.team u).slot = p.slot ∧
      (t.team u).savedReqs = [] ∧ (t.team u).teamIx = (s.team u).teamIx ∧ (t.team u).area = (s.team u).area ∧
      ∀ y, teamOf y ≠ u → t.thread y = s.thread y)) ∧
  (∀ (u : Nat) (w : WindowKind) (c : Fin 4), EventGives (.numericWindowClose u w c) (fun _ => True) (fun s t =>
    let key := (match w with
      | .vector => 0
      | .matrix => 4) + c.val
    if key ∈ (s.team u).winFull then
      t = { s with teams := t.teams } ∧ mget (0, 0) (t.team u).windows key = (0, 0) ∧ (∀ k, k ∈ (t.team u).winFull ↔ k ∈ (s.team u).winFull ∧ k ≠ key) ∧
        (∀ k, k ≠ key → mget (0, 0) (t.team u).windows k = mget (0, 0) (s.team u).windows k) ∧ ∀ x, x ≠ u → t.team x = s.team x
    else t = s)) ∧
  (∀ x, EventGives (.afterIssueFaultDelivery x) (fun s => ∃ th f, mfind s.threads x = some th ∧ th.faults = [f] ∧ (s.threads.map Prod.fst).Nodup ∧
      (s.team (teamOf x)).life = .running ∧ (mfind s.teams (teamOf x)).isSome = true ∧ th.trapping = none ∧ (∀ p ∈ s.threads, p.1 ≠ x → grpOf p.1 = grpOf x → p.2.faults = []) ∧ f.bad = none ∧ f.entry = none)
    (fun s t => ∀ th f, mfind s.threads x = some th → th.faults = [f] →
      (th.cond = .exited → (t.team (teamOf x)).life = .dying ∧ ∃ r, (t.team (teamOf x)).kill = some r ∧ r.cause = f.cause) ∧
      (th.cond = .ready → th.roomHeld = false → (isBurin x = true ∨ (s.team (teamOf x)).kern.handler = 0 ∨ f.cause = 0x22 ∨ f.cause = 0x30) →
        (t.team (teamOf x)).life = .dying ∧ ∃ r, (t.team (teamOf x)).kill = some r ∧ r.cause = f.cause) ∧
      (th.cond = .ready → th.roomHeld = false → isBurin x = false → (s.team (teamOf x)).kern.handler ≠ 0 → f.cause ≠ 0x22 → f.cause ≠ 0x30 → (∀ l ∈ s.loads, l.tid ≠ x) →
          (∃ ps, framePlaces s x true = .ok ps) →
        (t.thread x).pc = (s.team (teamOf x)).kern.handler ∧ (t.thread x).trapping = some (1#32 <<< laneOf x) ∧ (t.thread x).faults = [] ∧ (t.thread x).cond = .ready ∧
          (t.thread x).regs = th.regs ∧ ∀ y, grpOf y ≠ grpOf x → t.thread y = s.thread y) ∧
      (∀ why, th.cond = .blocked why → t = s) ∧ (th.cond = .ready → th.roomHeld = true → t = s) ∧ (∀ k p, th.cond = .parked k → th.beneath = some p → t = s))) ∧
  (∀ (ctx : Nat) (base : DWord) (ver : Word), EventGives (.versionFreed ctx base ver) (fun s => ∀ v ∈ s.versions, ¬(v.1 = ctx ∧ v.2.1 = base ∧ v.2.2.2 = ver)) (fun s t => t = s)) ∧
  (∀ (ctx : Nat) (base : DWord) (ver : Word) (pa : Nat), EventGives (.versionFreed ctx base ver) (fun s => dry s ∧ s.versions = [(ctx, base, pa, ver)]) (fun s t =>
      let used : Prop := readNat s (.phys (pa + 4)) 4 ≠ 0 ∨ (∃ r ∈ s.requests, r.table = some (pa, ver)) ∨ (∃ l ∈ s.loads, l.table = some (pa, ver)) ∨
        ∃ p ∈ s.teams, ∃ r ∈ p.2.savedReqs, r.table = some (pa, ver)
      (used → t = s) ∧
      (¬used → readNat t (.phys (pa + 12)) 4 = 1 ∧ t.versions = [] ∧ (∀ b, (b < pa + 12 ∨ pa + 16 ≤ b) → readByte t (.phys b) = readByte s (.phys b)) ∧
        ∀ c, ∀ e ∈ (t.core c).btc, ¬(e.tag = ctxTag s ctx ∧ e.base = base ∧ e.version = ver)))) ∧
  (∀ x, EventGives (.syscallAnswered x) (fun _ => True) (fun s t => ∀ d e, (s.thread x).cond = .blocked (.reply d e) →
    (placeOf s (s.coreOf x) (s.ctxOf x) e = none → t = s) ∧
    ∀ p, placeOf s (s.coreOf x) (s.ctxOf x) e = some p →
      (readNat s (p.plus 40) 4 ≠ 1 → t = s) ∧
      (readNat s (p.plus 40) 4 = 1 → t.mem = s.mem ∧ t.teams = s.teams ∧ (∀ y, y ≠ x → t.thread y = s.thread y) ∧
        let v := BitVec.ofNat 64 (readNat s (p.plus 32) 8)
        let answered (th : Thread) : Thread := if isBurin x then th.gdst false d v else th.dst64 .k false d v
        ((s.thread x).beneath = none → t.thread x = answered { (s.thread x) with cond := .ready }) ∧
        ∀ k a, (s.thread x).beneath = some (k, a) → t.thread x = answered { (s.thread x) with cond := .blocked (.phase k a), beneath := none }))) ∧
  ∀ x, EventGives (.waitevWake x) (fun s => ∀ p ∈ s.threads, p.1 ≠ x → grpOf p.1 = grpOf x → p.2.cond.inWaitev = false) (fun s t => ∀ d h, (s.thread x).cond = .blocked (.event d h) →
    (placeOf s (s.coreOf x) (s.ctxOf x) h = none → t = s) ∧
    ∀ p, placeOf s (s.coreOf x) (s.ctxOf x) h = some p →
      let w := readNat s (p.plus 4) 4
      let r := readNat s (p.plus 8) 4
      (w = r → t = s) ∧
      (w ≠ r → t.mem = s.mem ∧ t.teams = s.teams ∧ (∀ y, y ≠ x → t.thread y = s.thread y) ∧
        let v := BitVec.ofNat 32 (w + 2 ^ 32 - r)
        let counted (th : Thread) : Thread := if isBurin x then th.gdst false d (v.setWidth 64) else th.dst .k false d v
        ((s.thread x).beneath = none → t.thread x = counted { (s.thread x) with cond := .ready }) ∧
        ∀ k a, (s.thread x).beneath = some (k, a) → t.thread x = counted { (s.thread x) with cond := .blocked (.phase k a), beneath := none }))

/-! ### The streamer (R209, R239 to R241, R290 to R293) -/

/-- The global address of the byte at a dense offset of a tensor copy's box, elements of `es` bytes; none where the element lies outside the tensor (R296). -/
def boxByte (lay : Layout) (es q : Nat) : Option Nat :=
  let x := q % (lay.boxOf 0 * es) / es
  match lay.rowAddr (q / (lay.boxOf 0 * es)) with
  | some a => if lay.span.1 ≤ x ∧ x < lay.span.1 + lay.span.2 then some ((a + es * (lay.coord 0 + x).toNat + q % es) % 2 ^ 64) else none
  | none => none

/-- The global address of the first byte of a row of the box that lies in the tensor. -/
def rowStart (lay : Layout) (es row : Nat) : Option Nat := (lay.rowAddr row).map (fun a => (a + es * (lay.coord 0 + lay.span.1).toNat) % 2 ^ 64)

/-- R209, R219, R225, R240, R241, R290, R291, R296, R297, R378: a beat of a linear copy in a team's own scratchpad, from a translated page to it, to a page or to the window of a member, puts
the bytes of its 32-byte granule, as the request has read them already or as they stand, and counts them on the barrier; so does a beat of a tensor copy, byte by byte as
the layout has them, and a beat of a gather walk, with the row of its token; one that meets an on-demand page is held; one of a core or walker declared dead since is dropped (R271); a request ends when its beats have landed. -/
def Obligations.StreamerSteps : Prop :=
  let moving (s : State) (r : Request) (id b : Nat) : Prop := s.request id = some r ∧ r.held = none ∧ r.ready = true ∧ b ∉ r.done ∧ b < r.total ∧
    r.inc = incarnation s r.unit ∧ r.got = [] ∧ (mfind s.teams r.team).isSome = true ∧ s.binds = [] ∧ s.lost = []
  let landed (t : State) (r : Request) (id b : Nat) : Prop := ∃ q, t.request id = some q ∧ q.done = sadd r.done b ∧ q.op = r.op ∧ q.held = none ∧ q.wrote = true
  -- the pages of `n` bytes have been translated, and lie one after the other
  let mapped (r : Request) (a n : Nat) (e : DWord) (size : Nat) : Prop := size % 32 = 0 ∧ ∀ k, k < n → mfind r.pages ((a + k) % 2 ^ 64 / 65536) = some (e, size) ∧
    leafPhys e size ((a + k) % 2 ^ 64) = leafPhys e size a + k
  (∀ id b, EventGives (.streamerBeat id b)
    (fun s => ∃ r n src d, s.request id = some r ∧ r.held = none ∧ r.ready = true ∧ b ∉ r.done ∧ b < r.total ∧ r.op = .linear n src (.own d) ∧ r.inc = incarnation s r.unit ∧
      (mfind s.teams r.team).isSome = true ∧ s.binds = [] ∧ b < granules d n ∧ 0 < n ∧ (∀ x ∈ r.got, x.2.bytes.length = 32) ∧
      ((∃ a, src = .own a) ∨ ∃ a e size, src = .global a ∧ leafRead e = true ∧ size % 32 = 0 ∧ (∀ k, k < n → mfind r.pages ((a.toNat + k) % 2 ^ 64 / 65536) = some (e, size) ∧
        leafPhys e size ((a.toNat + k) % 2 ^ 64) = leafPhys e size a.toNat + k)))
    (fun s t => ∀ r n src d, s.request id = some r → r.op = .linear n src (.own d) →
      let g := granule d n b
      let place (k : Nat) : Loc := match src with
        | .own a => .scratch r.team (a + (g.1 - d) + k)
        | .global a => match mfind r.pages (a.toNat / 65536) with
          | some (e, size) => .phys (leafPhys e size a.toNat + (g.1 - d) + k)
          | none => .phys 0
        | .window _ _ => .phys 0
      -- the granule of a source byte, by number, and the byte as the request has read it already or as it stands
      let at_ (k : Nat) : Nat × Nat := match src with
        | .own a => (2 ^ 59 + (a + (g.1 - d) + k) / 32, (a + (g.1 - d) + k) % 32)
        | .global a => ((a.toNat + (g.1 - d) + k) % 2 ^ 64 / 32, (a.toNat + (g.1 - d) + k) % 32)
        | .window _ _ => (0, 0)
      let byte (k : Nat) : Byte := match mfind r.got (at_ k).1 with
        | some x => x.bytes.getD (at_ k).2 0
        | none => readByte s (place k)
      t.mem = s.mem ∧ (r.regs = [] → t.threads = s.threads) ∧ (∃ r2, t.request id = some r2 ∧ r2.done = sadd r.done b ∧ r2.op = r.op ∧ r2.held = none) ∧
      (∀ k, k < g.2 → readByte t (.scratch r.team (g.1 + k)) = byte k) ∧
      (∀ o, (o < g.1 ∨ g.1 + g.2 ≤ o) → readByte t (.scratch r.team o) = readByte s (.scratch r.team o)) ∧
      (r.regs = [] → ∀ k, t.bar r.team k = s.bar r.team k) ∧
      (∀ k left, r.regs = [⟨r.team, k, left⟩] → (s.bar r.team k).arrived ≠ (s.bar r.team k).quota →
        (t.bar r.team k).pending = (s.bar r.team k).pending - min g.2 left ∧ (t.bar r.team k).phase = (s.bar r.team k).phase))) ∧
  (∀ id b, EventGives (.streamerBeat id b)
    (fun s => ∃ r n a d p, s.request id = some r ∧ r.held = none ∧ r.ready = true ∧ b ∉ r.done ∧ b < r.total ∧ r.op = .linear n (.global a) (.own d) ∧ r.pages = [] ∧ r.inc = incarnation s r.unit ∧
      b < granules d n ∧ 0 < n ∧ s.binds = [] ∧
      checkPage s r.coreId r.ctx r.team (BitVec.ofNat 64 (a.toNat + ((granule d n b).1 - d))) 1 .engineRead true false = .hold p)
    (fun s t => ∀ r, s.request id = some r → ∃ q, t.request id = some { r with held := some q } ∧ t.teams = s.teams ∧ t.threads = s.threads)) ∧
  (∀ id b, EventGives (.streamerBeat id b)
    (fun s => ∃ r n src d, s.request id = some r ∧ r.held = none ∧ b ∉ r.done ∧ b < r.total ∧ r.op = .linear n src (.own d) ∧ b < granules d n ∧ 0 < n ∧
      r.inc ≠ incarnation s r.unit)
    (fun s t => ∀ r, s.request id = some r → t.threads = s.threads ∧
      (∃ q, t.request id = some q ∧ q.done = sadd r.done b ∧ q.wrote = r.wrote) ∧
      (s.binds = [] ∨ ringBase s 0x6012 = none → t.teams = s.teams) ∧
      (ringBase s 0x6012 = none → t.mem = s.mem ∧ (t.sysReg 0x6014).toNat = min (2 ^ 32 - 1) ((s.sysReg 0x6014).toNat % 2 ^ 32 + 1)))) ∧
  -- a beat to a member's window, of a copy or of a multicast: rank by rank, each from its first granule (R219, R297)
  (∀ id b, EventGives (.streamerBeat id b)
    (fun s => ∃ r n a ranks d m, moving s r id b ∧ r.op = .linear n (.own a) (.window ranks d) ∧ 0 < n ∧ b / granules d n < ranks.length ∧
      r.failed.testBit (ranks.getD (b / granules d n) 0) = false ∧
      windowPlace s r.team (ranks.getD (b / granules d n) 0) (granule d n (b % granules d n)).1 = some (.scratch m (granule d n (b % granules d n)).1))
    (fun s t => ∀ r n a ranks d m, s.request id = some r → r.op = .linear n (.own a) (.window ranks d) →
      let g := granule d n (b % granules d n)
      windowPlace s r.team (ranks.getD (b / granules d n) 0) g.1 = some (.scratch m g.1) →
      t.mem = s.mem ∧ landed t r id b ∧
      (∀ k, k < g.2 → readByte t (.scratch m (g.1 + k)) = readByte s (.scratch r.team (a + (g.1 - d) + k))) ∧
      (∀ u o, (u ≠ m ∨ o < g.1 ∨ g.1 + g.2 ≤ o) → readByte t (.scratch u o) = readByte s (.scratch u o)) ∧
      (∀ k left, r.regs = [⟨m, k, left⟩] → (s.bar m k).arrived ≠ (s.bar m k).quota →
        (t.bar m k).pending = (s.bar m k).pending - min g.2 left ∧ (t.bar m k).phase = (s.bar m k).phase))) ∧
  -- a beat to a global destination
  (∀ id b, EventGives (.streamerBeat id b)
    (fun s => ∃ r n a d e size, moving s r id b ∧ r.op = .linear n (.own a) (.global d) ∧ 0 < n ∧ b < granules d.toNat n ∧ mapped r d.toNat n e size ∧ leafWrite e = true)
    (fun s t => ∀ r n a d e size, s.request id = some r → r.op = .linear n (.own a) (.global d) → mapped r d.toNat n e size →
      let g := granule d.toNat n b
      let p := leafPhys e size d.toNat + (g.1 - d.toNat)
      landed t r id b ∧ (r.regs = [] → t.teams = s.teams ∧ t.threads = s.threads) ∧
      (∀ k, k < g.2 → readByte t (.phys (p + k)) = readByte s (.scratch r.team (a + (g.1 - d.toNat) + k))) ∧
      ∀ x, (x < p ∨ p + g.2 ≤ x) → readByte t (.phys x) = readByte s (.phys x))) ∧
  -- a beat of a tensor copy to the scratchpad (R296): byte by byte the element that the box has there, or its fill
  (∀ id b, EventGives (.streamerBeat id b)
    (fun s => ∃ r lay d own e size, moving s r id b ∧ r.op = .tensor false lay (.own d) own ∧ b < granules d (lay.bytes (r.fmt s)) ∧ 0 < lay.bytes (r.fmt s) ∧
      lay.boxOf 0 * elemSize (r.fmt s) % 16 = 0 ∧ (lay.swizzle = 0 ∨ lay.bytes (r.fmt s) % (16 * 2 ^ (lay.swizzle + 1)) = 0) ∧ size % 32 = 0 ∧ leafRead e = true ∧
      ∀ q va, q < lay.bytes (r.fmt s) → boxByte lay (elemSize (r.fmt s)) q = some va → mfind r.pages (va / 65536) = some (e, size))
    (fun s t => ∀ r lay d own e size, s.request id = some r → r.op = .tensor false lay (.own d) own →
      (∀ q va, q < lay.bytes (r.fmt s) → boxByte lay (elemSize (r.fmt s)) q = some va → mfind r.pages (va / 65536) = some (e, size)) →
      let es := elemSize (r.fmt s)
      let g := granule d (lay.bytes (r.fmt s)) b
      t.mem = s.mem ∧ landed t r id b ∧
      (∀ k, k < g.2 →
        let o := g.1 - d + k
        let q := unswz lay.swizzle (o / 16 * 16) + o % 16
        readByte t (.scratch r.team (g.1 + k)) = match boxByte lay es q with
          | some va => readByte s (.phys (leafPhys e size va))
          | none => (fillBytes (r.fmt s) lay.fill).getD (q % es) 0) ∧
      ∀ o, (o < g.1 ∨ g.1 + g.2 ≤ o) → readByte t (.scratch r.team o) = readByte s (.scratch r.team o))) ∧
  -- a beat of a tensor copy to memory: the bytes of one row of the box that lie in the tensor
  (∀ id b, EventGives (.streamerBeat id b)
    (fun s => ∃ r lay sc own a e size, moving s r id b ∧ r.op = .tensor true lay sc own ∧ rowStart lay (elemSize (r.fmt s)) (b / rowBeats (lay.boxOf 0 * elemSize (r.fmt s))) = some a ∧
      0 < (granule a (lay.span.2 * elemSize (r.fmt s)) (b % rowBeats (lay.boxOf 0 * elemSize (r.fmt s)))).2 ∧ mapped r a (lay.span.2 * elemSize (r.fmt s)) e size ∧ leafWrite e = true)
    (fun s t => ∀ r lay sc own a e size, s.request id = some r → r.op = .tensor true lay sc own →
      let es := elemSize (r.fmt s)
      let row := b / rowBeats (lay.boxOf 0 * es)
      rowStart lay es row = some a → mapped r a (lay.span.2 * es) e size →
      let g := granule a (lay.span.2 * es) (b % rowBeats (lay.boxOf 0 * es))
      let p := leafPhys e size a + (g.1 - a)
      landed t r id b ∧
      (∀ k, k < g.2 → readByte t (.phys (p + k)) = readByte s (.scratch r.team (own + swz lay.swizzle (row * lay.boxOf 0 * es + lay.span.1 * es + (g.1 - a) + k)))) ∧
      ∀ x, (x < p ∨ p + g.2 ≤ x) → readByte t (.phys x) = readByte s (.phys x))) ∧
  -- a beat of a gather walk (R363, R378): its granule of the row of a token of a near block, formed already or formed now from a readable block without errors
  (∀ id b, EventGives (.streamerBeat id b)
    (fun s => ∃ r dest stride tokens start v k through n blk e size, moving s r id b ∧ r.op = .walk dest stride tokens start v k through ∧
      tokens[b / rowBeats (walkLen (r.fmt s) v through)]? = some (n, blk) ∧
      0 < (granule (dest + (n - start) * stride) (walkLen (r.fmt s) v through) (b % rowBeats (walkLen (r.fmt s) v through))).2 ∧
      blk.toNat % 2048 = 0 ∧ mapped r blk.toNat (128 + 16 * rowPitch v.cols (viewEs (r.fmt s))) e size ∧ leafRead e = true ∧
      let byte (o : Nat) : Nat := (readByte s (.phys (leafPhys e size blk.toNat + o))).toNat
      (∀ o, o < 128 + 16 * rowPitch v.cols (viewEs (r.fmt s)) → poisonAt s (.phys (leafPhys e size blk.toNat + o)) = false) ∧
      byte 0 + 256 * byte 1 = v.cols ∧ byte 2 = fmtCode (r.fmt s) ∧ byte 3 = fmtEs (r.fmt s) ∧ byte 4 ≤ 16)
    (fun s t => ∀ r dest stride tokens start v k through n blk e size, s.request id = some r → r.op = .walk dest stride tokens start v k through →
      let len := walkLen (r.fmt s) v through
      let rb := rowPitch v.cols (viewEs (r.fmt s))
      tokens[b / rowBeats len]? = some (n, blk) → mapped r blk.toNat (128 + 16 * rb) e size →
      let p := leafPhys e size blk.toNat
      let past : Prop := (readByte s (.phys (p + 4))).toNat ≤ n % 16
      let d := dest + (n - start) * stride
      let g := granule d len (b % rowBeats len)
      -- a row past the valid ones is zeros with scale 1
      ∀ (scale : Word) (payload row : List Byte),
        (past → scale = 0x3F800000 ∧ payload = List.replicate rb 0) → (¬past → scale.toNat = readNat s (.phys (p + 64 + 4 * (n % 16))) 4 ∧ payload = readBytes s (.phys (p + 128 + n % 16 * rb)) rb) →
        (match mfind r.rows (b / rowBeats len) with
          | some x => row = x.1
          | none => row = if through then (pressRow s r.team v scale payload).1 else leBytes 4 scale.toNat ++ List.replicate 12 0 ++ payload) →
        landed t r id b ∧ (through = false → t.mem = s.mem) ∧
        (∀ k, k < g.2 → readByte t (.scratch r.team (g.1 + k)) = row.getD (g.1 - d + k) 0) ∧
        (∀ o, (o < g.1 ∨ g.1 + g.2 ≤ o) → readByte t (.scratch r.team o) = readByte s (.scratch r.team o)) ∧
        (∀ k left, r.regs = [⟨r.team, k, left⟩] → (s.bar r.team k).arrived ≠ (s.bar r.team k).quota →
          (t.bar r.team k).pending = (s.bar r.team k).pending - min g.2 left ∧ (t.bar r.team k).phase = (s.bar r.team k).phase))) ∧
  (∀ id b, EventGives (.streamerBeat id b) (fun s => ∀ r, s.request id = some r → r.held ≠ none ∨ b ∈ r.done ∨ r.total ≤ b) (fun s t => t = s)) ∧
  (∀ id, EventGives (.copyComplete id) (fun s => ∃ r, s.request id = some r ∧ r.held = none ∧ r.ready = true ∧ ∀ b, b < r.total → b ∈ r.done) (fun s t =>
    ∀ r, s.request id = some r → t.requests = s.requests.filter (fun x => decide (x.id ≠ id)) ∧ t.mem = s.mem ∧ t.threads = s.threads ∧
      (∀ a, r.node = some a → ∀ n ∈ t.nodes, n.ctx = r.ctx → n.addr = a → n.done = some 0) ∧ (r.node = none → t.nodes = s.nodes))) ∧
  ∀ id, EventGives (.copyComplete id) (fun s => ∀ r, s.request id = some r → r.held ≠ none) (fun s t => t = s)

/-! ### The world outside (R223, R252, R267, R440 to R447) -/

/-- An access of an agent outside, by its number in replies, at a physical place: data read is answered, bytes written stand, an atomic does both. -/
def OutsideGives (i : Instr) (who : Nat) (acc : OutsideAccess) (place : State → Option Nat) : Prop :=
  EventGives i (fun s => s.binds = [] ∧ s.lost = [] ∧ (place s).isSome = true) (fun s t => ∀ p, place s = some p → t.threads = s.threads ∧ t.teams = s.teams ∧ t.sys = s.sys ∧
    match acc with
    | .load _ n => t.replies = s.replies ++ [.data who (some (readBytes s (.phys p) n)) (poisoned s (.phys p) n)] ∧ t.mem = s.mem
    | .store _ data => t.replies = s.replies ∧ (∀ k, k < data.length → readByte t (.phys (p + k)) = data.getD k 0) ∧
        ∀ a, (a < p ∨ p + data.length ≤ a) → readByte t (.phys a) = readByte s (.phys a)
    | .atomic _ fn b c => t.replies = s.replies ++ [.data who (some (leBytes 4 (readNat s (.phys p) 4))) (poisonAt s (.phys p))] ∧
        readNat t (.phys p) 4 = (atomicNew fn (BitVec.ofNat 32 (readNat s (.phys p) 4)) b c).toNat ∧
        ∀ a, (a < p ∨ p + 4 ≤ a) → readByte t (.phys a) = readByte s (.phys a))

/-- R223, R252, R267, R441 to R445, R447: accesses of system cores, host and peers; the network port; reset and boot, a quote, heat. That an RDMA range without a normal
page is answered negatively, that boot needs three images, and which register measures which of them, are the model's choice (log 11, DESIGN CHOICE); so are
the refusal of a system core's access without translation (log 76, DESIGN CHOICE), outcome 2 for a capsule whose queue number lies above 1,023 (log 77, DESIGN CHOICE),
and that reset and a critical temperature leave memory empty (log 24, DESIGN CHOICE). -/
def Obligations.OutsideEvents : Prop :=
  (∀ ctx acc, OutsideGives (.systemCoreAccess ctx acc) 0 acc (fun s => devicePlace s ctx (accessAddr acc))) ∧
  (∀ ctx acc, EventGives (.systemCoreAccess ctx acc) (fun s => devicePlace s ctx (accessAddr acc) = none) (fun s t =>
    t.replies = s.replies ++ [.data 0 none false] ∧ t.threads = s.threads ∧ (Clear s ctx (accessAddr acc) → t = { s with replies := t.replies }))) ∧
  (∀ acc, OutsideGives (.hostAccess acc) 1 acc (fun _ => some (accessAddr acc).toNat)) ∧
  (∀ peer acc, OutsideGives (.peerAccess peer acc) (0x100 + peer) acc (fun _ => some (accessAddr acc).toNat)) ∧
  (∀ peer acc, EventGives (.peerAccess peer acc) (fun s => peer ∈ s.lost) (fun s t => t = s)) ∧
  (∀ peer, EventGives (.peerLinkLoss peer) (fun _ => True) (fun s t => peer ∈ t.lost ∧ (∀ x, x ≠ peer → (x ∈ t.lost ↔ x ∈ s.lost)) ∧ (peer ∈ s.lost → t = s) ∧
    (peer ∉ s.lost → ringBase s 0x6012 = none → (t.sysReg 0x6014).toNat = min (2 ^ 32 - 1) ((s.sysReg 0x6014).toNat % 2 ^ 32 + 1) ∧ t.mem = s.mem))) ∧
  (∀ (c : Nat) (data : List Byte), EventGives (.sendEvent c data) (fun _ => True) (fun s t =>
    let old := (s.conn c 6).toNat
    (data.length ≠ 192 ∨ capsuleGood s c data = false → t = { s with conns := t.conns } ∧ (∀ k, k ≠ 8 * c + 6 → mget 0 t.conns k = mget 0 s.conns k) ∧
      (t.conn c 6).toNat = old / 2 ^ 32 * 2 ^ 32 + min (2 ^ 32 - 1) (old % 2 ^ 32 + 1)) ∧
    ((s.conn c 0).getLsbD 30 = false → capsuleGood s c data = false) ∧
    (data.length = 192 → capsuleGood s c data = true →
      let q := fld data 6 2
      let o := if 1023 < q then 2 else if qEnabled s q = false ∨ contextValid s (qOwner s q) = false then 3
        else if s.qdBits q 1 10 10 = 0 ∨ (s.conn c 0).toNat / 2 ^ 24 % 64 ≠ qOwner s q then 2 else if qCount s q = 2 ^ qOrder s q then 1 else 0
      t.conn c 1 = BitVec.ofNat 64 (fld data 8 8) ∧
      (o = 0 → qHead t q = (qHead s q + 1) % 2 ^ 32 ∧ t.conn c 6 = s.conn c 6) ∧
      (o ≠ 0 → t.mem = s.mem ∧ t.sys = s.sys ∧ (t.conn c 6).toNat = min (2 ^ 32 - 1) (old / 2 ^ 32 + 1) * 2 ^ 32 + old % 2 ^ 32)))) ∧
  (∀ (c : Nat) (addr : DWord) (data : List Byte), EventGives (.rdmaWrite c addr data) (fun s => s.binds = [] ∧ s.lost = []) (fun s t =>
    (netPieces s (connCtx s c) true (pieces addr.toNat data.length) = none → t.replies = s.replies ++ [.nak c] ∧ t.threads = s.threads ∧
      ((∀ x ∈ pieces addr.toNat data.length, Clear s (connCtx s c) (BitVec.ofNat 64 x.1)) → t = { s with replies := t.replies })) ∧
    ∀ p, netPieces s (connCtx s c) true (pieces addr.toNat data.length) = some [(p, data.length)] → t.replies = s.replies ∧ t.threads = s.threads ∧
      (∀ k, k < data.length → readByte t (.phys (p + k)) = data.getD k 0) ∧ ∀ a, (a < p ∨ p + data.length ≤ a) → readByte t (.phys a) = readByte s (.phys a))) ∧
  (∀ (c : Nat) (addr : DWord) (n : Nat), EventGives (.rdmaRead c addr n) (fun _ => True) (fun s t =>
    (netPieces s (connCtx s c) false (pieces addr.toNat n) = none → t.replies = s.replies ++ [.nak c] ∧ t.threads = s.threads ∧
      ((∀ x ∈ pieces addr.toNat n, Clear s (connCtx s c) (BitVec.ofNat 64 x.1)) → t = { s with replies := t.replies })) ∧
    ∀ p, netPieces s (connCtx s c) false (pieces addr.toNat n) = some [(p, n)] →
      t = { s with dir := t.dir, replies := s.replies ++ [.data (0x1000 + c) (some (readBytes s (.phys p) n)) (poisoned s (.phys p) n)] })) ∧
  (∀ c, EventGives (.rdmaAtomic c) (fun _ => True) (fun s t => t = { s with replies := s.replies ++ [.nak c] })) ∧
  (∀ images : List Firmware, EventGives (.resetEvent images) (fun _ => True) (fun _ t => t.mem = [] ∧ t.sys = [] ∧ t.threads = [] ∧ t.teams = [] ∧ t.grids = [] ∧ t.conns = [] ∧
    (3 ≤ images.length → (∀ f ∈ images, stageGood [] f = true) → t.boot = .running) ∧
    (images.length < 3 → t.boot = .stopped) ∧
    (∀ f fs, images = f :: fs → stageGood [] f = false → t.boot = .stopped ∧ t.meas = []) ∧
    (images.length ≤ 8 → (∀ f ∈ images, stageGood [] f = true) → ∀ k (h : k < images.length), mfind t.meas k = some (sha3 (List.replicate 32 0 ++ sha3 images[k].body))))) ∧
  (∀ nonce : List Byte, EventGives (.quote nonce) (fun _ => True) (fun s t =>
    let regs := (List.range 8).flatMap (fun k => mget (List.replicate 32 0) s.meas k)
    t = { s with replies := s.replies ++ [.quote (Config.mldsaSign (Config.attestationKey Config.deviceSecret regs) (sha3 (nonce ++ regs ++ inventory s)))] })) ∧
  (∀ die, EventGives (.thermalThreshold die) (fun _ => True) (fun s t => (t.die die).clock = (s.die die).clock + 1 ∧ t.irqs = s.irqs ++ [.thermal die] ∧ t.mem = s.mem ∧
    t.threads = s.threads ∧ ∀ d, d ≠ die → t.die d = s.die d)) ∧
  EventGives .criticalTemperature (fun _ => True) (fun _ t => t.boot = .off ∧ t.mem = [] ∧ t.teams = [] ∧ t.threads = [] ∧ t.sys = [])

/-! ### Coherence, moves and reliability (R255 to R274, R332, R418, R419) -/

/-- R255, R259, R262 to R265, R268, R270 to R273, R418, R419: a cache that evicts, pages that move (when an error strikes the copy is a free value, log 5), a page laid out
again, an agent declared dead, a stale message, a soft error and the end of a proof run. That the sequence number of the first error record is 0 is the
model's choice, log 33 (DESIGN CHOICE). -/
def Obligations.ReliabilityEvents : Prop :=
  let lost (s t : State) : Prop := (t.sysReg 0x6014).toNat = min (2 ^ 32 - 1) ((s.sysReg 0x6014).toNat % 2 ^ 32 + 1)
  (∀ die core line, EventGives (.cacheLineEviction (.l1 die core) line) (fun _ => True) (fun s t => t = { s with dir := t.dir } ∧
    mfind (t.dirOf line).copies (die * 256 + core) = none ∧ (t.dirOf line).owner ≠ some (die * 256 + core) ∧ mfind (t.dirOf line).privatised (die * 256 + core) = none)) ∧
  (∀ die line, EventGives (.cacheLineEviction (.slice die) line) (fun _ => True) (fun s t => t = { s with dir := t.dir } ∧
    (homeOf s line = die → (∃ p ∈ s.pins, p.2 = line) → t = s) ∧
    (homeOf s line ≠ die ∨ (∀ p ∈ s.pins, p.2 ≠ line) → (t.dirOf line).at die = .i ∧ (t.dirOf line).privatised = [] ∧ ∀ p ∈ (t.dirOf line).copies, p.1 / 256 ≠ die))) ∧
  (∀ m ∈ [(Instr.moveRehome 0, 0x5005, 0x5006, [1]), (.moveRehome 1, 0x5045, 0x5046, [1]), (.moveToPool, 0x6010, 0x6011, [2]), (.moveFromPool, 0x6010, 0x6011, [3])],
    EventGives m.1 (fun s => ringBase s m.2.1 = none ∨ (s.sysReg m.2.2.1).toNat % 2 ^ 32 = (s.sysReg m.2.2.1).toNat / 2 ^ 32) (fun s t => t = s) ∧
    EventGives m.1
      (fun s => s.binds = [] ∧ s.lost = [] ∧ s.acc = [] ∧ s.contributions = [] ∧ (∀ p ∈ s.groups, p.2.queue = []) ∧ s.MemInv ∧
        ∃ a r, nextMove s m.2.1 m.2.2.1 = some (a, r) ∧ r.kind ∈ m.2.2.2)
      (fun s t => ∀ a r, nextMove s m.2.1 m.2.2.1 = some (a, r) →
        let old := (s.sysReg m.2.2.1).toNat
        let status := readNat t (.phys (a + 2)) 2
        (t.sysReg m.2.2.1).toNat = (old / 2 ^ 32 + 1) % 2 ^ 32 * 2 ^ 32 + old % 2 ^ 32 ∧
        (moveLeaf s r m.2.2.2 = none → status = 4) ∧
        ∀ e size, moveLeaf s r m.2.2.2 = some (e, size) →
          let page := leafPhys e size r.va
          let inside (line : Nat) : Prop := page ≤ 128 * line ∧ 128 * line < page + size
          let pinned : Prop := ∃ p ∈ s.accPins, inside (p.pa / 128) ∨ inside (p.record / 128)
          -- the page has a pending re-pack under this mapping or another (R270)
          let pending : Prop := (∃ p ∈ s.repacks, p.1 = r.ctx ∧ p.2.toNat = r.va) ∨ ∃ p ∈ repackRanges s, p.1 < page + size ∧ page < p.1 + p.2
          ((∃ p ∈ s.pins, inside p.2) → status = 2) ∧ ((∀ p ∈ s.pins, ¬inside p.2) → pinned → status = 3) ∧
          ((∀ p ∈ s.pins, ¬inside p.2) → ¬pinned →
            (pending → status = 5) ∧
            (¬pending → (status = 1 ∨ status = 6) ∧
              -- an error that a payload word holds, confined or not, is met by the copy: its line is poisoned at the new place (R265, R364)
              (s.loads = [] → ∀ p ∈ s.confined, p.1 / 4 ∈ s.poison → page ≤ 8 * p.1 → 8 * p.1 < page + size → status = 6) ∧
              let entry := relocate page size r.base r.leafAt
              (∀ o, o < size → (r.base + o < a + 2 ∨ a + 4 ≤ r.base + o) → (r.base + o < entry ∨ entry + 8 ≤ r.base + o) →
                readByte t (.phys (r.base + o)) = readByte s (.phys (page + o))) ∧
              ((entry + 8 ≤ a + 2 ∨ a + 4 ≤ entry) → readNat t (.phys entry) 8 % 2 ^ 57 / 2 ^ 16 = r.base / 2 ^ 16))))) ∧
  (∀ (ctx : Nat) (page : DWord), EventGives (.repack ctx page) (fun _ => True) (fun s t => t = { s with repacks := s.repacks.filter (fun p => decide (p ≠ (ctx, page))) })) ∧
  (∀ u : UnitId, EventGives (.agentDeadScrub u) (fun _ => True) (fun s t => incarnation t u = incarnation s u + 1 ∧ t.mem = s.mem ∧ t.threads = s.threads ∧
    (u.cls = 1 → (∀ p ∈ t.dir, mfind p.2.copies u.number = none ∧ p.2.owner ≠ some u.number ∧ mfind p.2.privatised u.number = none) ∧
      (∀ p ∈ s.dir, p.2.owner = some u.number → p.2.dirty = true → mfind p.2.privatised u.number = none → ∀ g, g < 4 → 4 * p.1 + g ∈ t.poison) ∧
      -- lines bound to its scratchpad, which held their only current copy (R214)
      t.binds = s.binds.filter (fun b => decide (b.core ≠ u.number)) ∧ ∀ b ∈ s.binds, b.core = u.number → ∀ k ∈ b.units, ∀ g, g < 128 → 128 * k + g ∈ t.poison) ∧
    -- accumulator lines that stood at its slice (R328)
    (∀ k ln, u.cls = 2 → homeOf s k = u.number / 256 → sliceOf s (u.number / 256) k = some (u.number % 256) → mfind s.acc k = some ln →
      mfind t.acc k = some { ln with poisoned := true }) ∧
    ∀ g ∈ s.poison, g ∈ t.poison)) ∧
  (∀ (u : UnitId) (inc : BitVec 16) (addr : DWord), EventGives (.staleIncarnation u inc addr) (fun _ => True) (fun s t =>
    (inc = incarnation s u → t = s) ∧ (inc ≠ incarnation s u → t.threads = s.threads ∧ (s.binds = [] ∨ ringBase s 0x6012 = none → t.teams = s.teams) ∧
      (ringBase s 0x6012 = none → lost s t ∧ t.mem = s.mem ∧ t.dir = s.dir)))) ∧
  (∀ (u : UnitId) (e : SoftErr), EventGives (.softError u e) (fun s => enabledUnit s u = false) (fun s t => t = s)) ∧
  (∀ (u : UnitId) (e : SoftErr), EventGives (.softError u e) (fun s => s.binds = [] ∧ s.lost = [] ∧ enabledUnit s u = true) (fun s t => u ∈ t.proofs ∧
    ((e.corrected = true ∨ ∀ x o, e.place ≠ .stack x o) → t.threads = s.threads) ∧
    (e.corrected = true → ringBase s 0x6012 = none → t.poison = s.poison ∧ t.mem = s.mem ∧ t.dir = s.dir ∧ lost s t) ∧
    (∀ a, e.corrected = false → e.place = .data a true → ringBase s 0x6012 = none → a / 32 ∈ t.poison ∧ lost s t) ∧
    (∀ a, e.corrected = false → e.place = .data a false → ringBase s 0x6012 = none → t.poison = s.poison ∧ t.mem = s.mem ∧ lost s t ∧
      (u.cls = 1 → mfind (t.dirOf (a / 128)).copies u.number = none) ∧ (u.cls = 2 → (t.dirOf (a / 128)).at (u.number / 256) = .i)) ∧
    (∀ a, e.corrected = false → e.place = .line a false → ringBase s 0x6012 = none → t.poison = s.poison ∧ t.mem = s.mem ∧
      (t.dirOf (a / 128)).privatised = [] ∧ ∀ p ∈ (t.dirOf (a / 128)).copies, 2 ≤ p.1 / 256) ∧
    (∀ x o, e.corrected = false → e.place = .scratch x o → (mfind s.teams x).isSome = true → o / 32 ∈ (t.team x).scratchPoison) ∧
    (∀ x o, e.corrected = false → e.place = .stack x o → (mfind s.threads x).isSome = true → o / 32 ∈ (t.thread x).privPoison) ∧
    (∀ a, e.corrected = true → e.place = .clean a → ∀ pa k, ringBase s 0x6012 = some (pa, k) →
      let w := (s.sysReg 0x6013).toNat % 2 ^ 32
      let r := (s.sysReg 0x6013).toNat / 2 ^ 32
      (2 ^ k ≤ (w + 2 ^ 32 - r) % 2 ^ 32 → lost s t) ∧
      ((w + 2 ^ 32 - r) % 2 ^ 32 < 2 ^ k → (t.sysReg 0x6013).toNat = r * 2 ^ 32 + (w + 1) % 2 ^ 32 ∧
        let b := pa + 32 * (w % 2 ^ k)
        readNat t (.phys b) 2 = 1 ∧ readNat t (.phys (b + 2)) 2 = u.cls % 2 ^ 16 ∧ readNat t (.phys (b + 4)) 4 = u.number % 2 ^ 32 ∧ readNat t (.phys (b + 8)) 8 = a % 2 ^ 64 ∧
        readNat t (.phys (b + 16)) 2 = 0xFFFF ∧ readNat t (.phys (b + 18)) 2 = (incarnation s u).toNat ∧ readNat t (.phys (b + 24)) 8 = s.errSeq % 2 ^ 64)))) ∧
  ∀ (u : UnitId) (pass : Bool), EventGives (.proofRunComplete u pass) (fun _ => True) (fun s t =>
    (u ∉ s.proofs → t = s) ∧
    (u ∈ s.proofs → pass = true → t.proofs = s.proofs.filter (fun v => decide (v ≠ u)) ∧ ∀ v, enabledUnit t v = enabledUnit s v) ∧
    (u ∈ s.proofs → pass = false → 1 ≤ u.cls → u.cls ≤ 4 → (u.cls = 1 → ∀ p ∈ s.teams, p.2.coreId = u.number → p.2.life = .evicted) →
      enabledUnit t u = false ∧ t.threads = s.threads ∧ t.proofs = s.proofs.filter (fun v => decide (v ≠ u))))


/-! ### Encodings (R81, R87, R90 to R92) -/

/-- R81, R87 to R92: words written out from the encoding tables decode to the instructions they stand for; reserved majors, functions and values are no instruction. -/
def Obligations.DecodeKnownWords : Prop :=
  (∀ p ∈ [((0x02001008 : Word), Instr.add false 0 4 1), (0x0B060412, .ltI true 3 1 2), (0x0E040000, .movs 1 0), (0x2C241A38, .movi 9 0x1A38),
      (0x2E09C000, .movhi 2 0x1C000), (0x38500000, .nop), (0x400C0410, .fadd false 6 1 2), (0x4010081B, .ffma false 8 2 3), (0x42081404, .fclass false 4 5),
      (0x44060BE1, .frsq false 3 2), (0x460E0416, .hdot2 false 7 1 2), (0x50060428, .xbPerm false 3 1 5)] ++
      [(0x50060412, .xbShfl false 3 1 2), (0x7460C103, .cwb 6 4 3), (0x7480C100, .iinv 6 4), (0x74900000, .fetchb), (0x76000000, .shJoin), (0x76100000, .shLeave),
      (0x76306100, .launch 3 4), (0x76406100, .dgSignal 3 4), (0x7650E100, .spmap 7 4), (0x7660E000, .spunmap 7), (0x7670E000, .spwb 7), (0x7C300001, .movtsysRunclr)],
    decode p.1 = .ok p.2 ∧ decode (p.1 ||| 0x80000000) = .ok p.2) ∧
  (∀ w ∈ [(0x00000000 : Word), 0x7E000000, 0x12000000, 0x0A000007], ∃ r, decode w = .error r) ∧
  ∀ w r, decode w = .error r → decodeWord w = .illegalInstruction w

/-- R81, R87, R90 to R92: decoding an instruction's word gives it back, with every operand at every value; and a word that decodes is that of its instruction but for the chain bit. -/
def Obligations.DecodeAndEncodeAgree : Prop :=
  (∀ i w, i.wellFormed = true → encode i = some w → decode w = .ok i ∧ w.getLsbD 31 = false) ∧
  ∀ w i, decode w = .ok i → i.wellFormed = true ∧ encode i = some (w &&& 0x7FFFFFFF)

/-! ### Steps of the device -/

/-- R46, R48, R66, R178, R333, R425, R426, R444, R447: what reset leaves, and that before a boot has succeeded, and after one that failed, nothing moves but a reset and what the management controller does about
temperatures, which is the model's reading, log 92 (DEDUCED). -/
def Obligations.ResetState : Prop :=
  (State.reset.boot = .rom ∧ State.reset.MemInv ∧ (∀ a, readByte State.reset (.phys a) = 0) ∧ State.reset.threads = [] ∧ State.reset.teams = [] ∧
    (∀ c w, c < 64 → w < 8 → State.reset.cx c w = 0) ∧ (∀ q, q < 1024 → State.reset.qd q 0 = 0 ∧ State.reset.qd q 1 = 4 ∧ State.reset.qd q 2 = 0 ∧ State.reset.qd q 5 = 4) ∧
    (∀ c k, c < 64 → k < 4 → State.reset.sysReg (0x4000 + 16 * c + k) = 0xFFFFFFFF) ∧ ∀ d, d < 2 → State.reset.sysReg (0x5000 + 64 * d) = 65536) ∧
  (∀ s, (s.boot = .rom ∨ s.boot = .stopped) → (∀ images, s.agenda.head? ≠ some (.event (.resetEvent images))) →
    s.agenda.head? ≠ some (.event .criticalTemperature) → (∀ die, s.agenda.head? ≠ some (.event (.thermalThreshold die))) → step s = .next (settle { s with agenda := s.agenda.tail })) ∧
  (∀ s i r, (s.boot = .rom ∨ s.boot = .stopped) → s.agenda = .event i :: r → (i = .criticalTemperature ∨ ∃ die, i = .thermalThreshold die) →
    step s = settled (exec i { s with agenda := r })) ∧
  (∀ s, s.boot = .off → (∀ images, s.agenda.head? ≠ some (.event (.resetEvent images))) → step s = .fault .unpowered) ∧
  (∀ s images r, s.boot ≠ .running → s.agenda = .event (.resetEvent images) :: r → step s = settled (exec (.resetEvent images) { s with agenda := r }))

/-- The set that a move of the agenda selects: a quadrant's, or the burin core's (R103). -/
def movedSet (s : State) : Move → Option (List Nat)
  | .issue die core quad => selectSet s (die * 256 + core) quad
  | .burin die core => selectBurin s (die * 256 + core)
  | _ => none

/-- R77, R80, R82, R86, R101, R103: when a set's word has been fetched and no lane fails a check, a step is the meaning of the instruction that the word decodes to, in the
state in which the set issues (lanes in ascending order, the PC at the next word), with the bookkeeping after it: latches kept, units counted, sets merged, groups exchanged.
The words of a longer chain run in slot order, every source of the chain read before any result of it is written.
An event of the agenda is the meaning of its row; a move that waits for a proof run, a re-pack or room in the table of walks is kept, and those kept go on in the order in which they came (R204, R206, R419, log 60, DEDUCED); what must come at once comes before any move
(log 37, DEDUCED). -/
def Obligations.StepRunsDecoded : Prop :=
  (∀ (s : State) (m : Move) (r : List Move) (l : Nat) (ls : List Nat) (c : Chain) (a : DWord) (w : Word), s.boot = .running → s.agenda = m :: r → urgent s = none → released s = none →
      moveWaits { s with agenda := r } m = false →
    let s1 := { s with agenda := r }
    let pc := (s.thread l).pc
    let s2 := finishLanes (fillTrans s1 (s1.coreOf l) (s1.ctxOf l) pc.toNat) (l :: ls)
    let s3 := eachLane (fun s x => s.modThread x (fun t => { t with line := some (lineBase pc) })) s2 (l :: ls)
    let s4 := (beginIssue s3 (grpOf l) (l :: ls) pc c.next).atWord a w
    let s5 := eachLane (fun s x => s.modThread x (fun t => { t with pc := c.next, stamp := s.clock, rank := 0, roomHeld := false })) { s4 with issue := { s4.issue with checked := true } } (l :: ls)
    movedSet s1 m = some (l :: ls) → (∀ x ∈ l :: ls, (s.thread x).faultComes = false) → chainAt s1 l = .ok c → c.words = [(a, w)] →
    (∀ x ∈ l :: ls, fetchVerdict s2 x c = .pass) → (∀ x ∈ l :: ls, ∀ k ∈ [3, 4, 5, 6, 7], checkStep k s4 x (decodeWord w) = .pass) →
    step s = settled (match exec (decodeWord w) s5 with
      | .next v =>
        let x := { (wordDone v (decodeWord w)) with issue := ({} : Issue) }
        .next (if groupIx (grpOf l) ≠ 32 ∧ mayBlock (decodeWord w) = true then exchange x (grpOf l) (decide (decodeWord w = .yield)) else x)
      | o => o)) ∧
  -- a chain of any length runs its words in slot order
  (∀ (s : State) (m : Move) (r : List Move) (l : Nat) (ls : List Nat) (c : Chain), s.boot = .running → s.agenda = m :: r → urgent s = none → released s = none →
      moveWaits { s with agenda := r } m = false →
    let s1 := { s with agenda := r }
    let pc := (s.thread l).pc
    let s2 := finishLanes (fillTrans s1 (s1.coreOf l) (s1.ctxOf l) pc.toNat) (l :: ls)
    let s3 := eachLane (fun s x => s.modThread x (fun t => { t with line := some (lineBase pc) })) s2 (l :: ls)
    let s4 := beginIssue s3 (grpOf l) (l :: ls) pc c.next
    let s5 := eachLane (fun s x => s.modThread x (fun t => { t with pc := c.next, stamp := s.clock, rank := 0, roomHeld := false })) { s4 with issue := { s4.issue with checked := true } } (l :: ls)
    movedSet s1 m = some (l :: ls) → (∀ x ∈ l :: ls, (s.thread x).faultComes = false) → chainAt s1 l = .ok c → c.words ≠ [] →
    (∀ x ∈ l :: ls, fetchVerdict s2 x c = .pass) → (∀ x ∈ l :: ls, ∀ p ∈ c.words, ∀ k ∈ [3, 4, 5, 6, 7], checkStep k (s4.atWord p.1 p.2) x (decodeWord p.2) = .pass) →
    step s = settled (match runWords s5 c.words with
      | .next v =>
        let x := { v with issue := ({} : Issue) }
        .next (if groupIx (grpOf l) ≠ 32 ∧ (∃ p ∈ c.words, mayBlock (decodeWord p.2) = true) then exchange x (grpOf l) (decide (∃ p ∈ c.words, decodeWord p.2 = .yield)) else x)
      | o => o)) ∧
  -- every source of the words of a chain is read before any result is written; results take effect in word order (R82)
  (∀ (n m : Bool) (d e a b x y : Code),
    let alu : List (Instr × ((Code → Word) → Word)) := [(.add n d a b, fun r => r a + r b), (.sub n d a b, fun r => r a - r b), (.mad n d a b, fun r => r d + r a * r b)]
    let float : List (Instr × ((Code → Word) → Word)) := [(.fadd m e x y, fun r => (faddOp (r x) (r y)).1), (.fmul m e x y, fun r => (fmulOp (r x) (r y)).1),
      (.ffma m e x y, fun r => (ffmaOp (r e) (r x) (r y)).1)]
    ∀ p ∈ alu, ∀ q ∈ float, ∀ k ∈ [((p, n, d), (q, m, e)), ((q, m, e), (p, n, d))], ∀ (s : State) (a1 a2 : DWord) (w1 w2 : Word),
      s.SetOk → s.issue.checked = true → (∀ l ∈ s.issue.lanes, isBurin l = false ∧ (mfind s.issue.snap l).isSome = true) → decodeWord w1 = k.1.1.1 → decodeWord w2 = k.2.1.1 →
      ∃ t, runWords s [(a1, w1), (a2, w2)] = .next t ∧ ∀ l ∈ s.issue.lanes, ∀ c : Code, c.toNat < 120 → (t.thread l).src c =
        if c = k.2.2.2 ∧ k.2.2.1 = false then k.2.1.2 (s.src l) else if c = k.1.2.2 ∧ k.1.2.1 = false then k.1.1.2 (s.src l) else (s.thread l).src c) ∧
  (∀ s l c, chainAt s l = .ok c → ∃ p, fetchPage s l = .ok p ∧
    let d := s.dirOf (p / 128)
    let slot := (s.thread l).pc.toNat % 128 / 4
    (heldWord s l (p / 128) slot = none →
      (d.dirty = false → d.privatised = [] → c.words.head? = some ((s.thread l).pc, BitVec.ofNat 32 (readNat s (.phys (p / 128 * 128 + (s.thread l).pc.toNat % 128)) 4))) ∧
      -- bytes that stand in an L1 alone are not fetched (R248, log 91, DEDUCED)
      ∀ ws w, (d.dirty = true ∨ d.privatised ≠ []) → mfind s.homeWords (p / 128) = some ws → mfind ws slot = some w → c.words.head? = some ((s.thread l).pc, w))) ∧
  (∀ s i r, s.boot = .running → s.agenda = .event i :: r → urgent s = none → released s = none → moveWaits { s with agenda := r } (.event i) = false → i.wellFormed = true →
    step s = settled (exec i { s with agenda := r })) ∧
  -- a move that must wait joins those that wait; of these the first that need not wait any more comes before the agenda
  (∀ s m r, s.boot = .running → s.agenda = m :: r → urgent s = none → released s = none → moveWaits { s with agenda := r } m = true →
    step s = .next (settle { s with agenda := r, waiting := s.waiting ++ [m] })) ∧
  (∀ s i before after, s.boot = .running → urgent s = none → s.waiting = before ++ .event i :: after → (∀ m ∈ before, moveWaits s m = true) → moveWaits s (.event i) = false →
    .event i ∉ before → i.wellFormed = true → step s = settled (exec i { s with waiting := before ++ after })) ∧
  ∀ s i, s.boot = .running → urgent s = some i → step s = settled (exec i s)

/-- Every step keeps the canonical form of memory: a byte that reads as an unwritten one is not listed, and addresses rise. -/
def Obligations.StepKeepsMemoryForm : Prop := ∀ s t, s.MemInv → step s = .next t → t.MemInv

/-- No instruction and no event of the device stops it: `exec` always answers a next state, and a step does but where the module is powered off (R447). -/
def Obligations.EveryStepGoesOn : Prop := (∀ i s, ∃ t, exec i s = .next t) ∧ ∀ s : State, s.boot ≠ .off → s.Goes
end

