-- ==== Sys2Proof/Laws/Dispatch.lean ====
section
/-! SUPPORT. One equation per instruction: what `exec` calls for it. Proofs rewrite with these and never unfold the dispatch itself. -/

namespace Sys2Proof.Machine

variable (s : State)

@[simp] theorem exec_add n d a b : exec (.add n d a b) s = execAdd n d a b s := rfl
@[simp] theorem exec_sub n d a b : exec (.sub n d a b) s = execSub n d a b s := rfl
@[simp] theorem exec_mul n d a b : exec (.mul n d a b) s = execMul n d a b s := rfl
@[simp] theorem exec_mulhiI n d a b : exec (.mulhiI n d a b) s = execMulhiI n d a b s := rfl
@[simp] theorem exec_mulhiN n d a b : exec (.mulhiN n d a b) s = execMulhiN n d a b s := rfl
@[simp] theorem exec_mad n d a b : exec (.mad n d a b) s = execMad n d a b s := rfl
@[simp] theorem exec_minI n d a b : exec (.minI n d a b) s = execMinI n d a b s := rfl
@[simp] theorem exec_maxI n d a b : exec (.maxI n d a b) s = execMaxI n d a b s := rfl
@[simp] theorem exec_minN n d a b : exec (.minN n d a b) s = execMinN n d a b s := rfl
@[simp] theorem exec_maxN n d a b : exec (.maxN n d a b) s = execMaxN n d a b s := rfl
@[simp] theorem exec_absInt n d a : exec (.absInt n d a) s = execAbsInt n d a s := rfl
@[simp] theorem exec_addsatI n d a b : exec (.addsatI n d a b) s = execAddsatI n d a b s := rfl
@[simp] theorem exec_subsatI n d a b : exec (.subsatI n d a b) s = execSubsatI n d a b s := rfl
@[simp] theorem exec_clz n d a : exec (.clz n d a) s = execClz n d a s := rfl
@[simp] theorem exec_popc n d a : exec (.popc n d a) s = execPopc n d a s := rfl
@[simp] theorem exec_brev n d a : exec (.brev n d a) s = execBrev n d a s := rfl
@[simp] theorem exec_andW n d a b : exec (.andW n d a b) s = execAndW n d a b s := rfl
@[simp] theorem exec_orW n d a b : exec (.orW n d a b) s = execOrW n d a b s := rfl
@[simp] theorem exec_xorW n d a b : exec (.xorW n d a b) s = execXorW n d a b s := rfl
@[simp] theorem exec_andn n d a b : exec (.andn n d a b) s = execAndn n d a b s := rfl
@[simp] theorem exec_orn n d a b : exec (.orn n d a b) s = execOrn n d a b s := rfl
@[simp] theorem exec_xnor n d a b : exec (.xnor n d a b) s = execXnor n d a b s := rfl
@[simp] theorem exec_sel n d a b : exec (.sel n d a b) s = execSel n d a b s := rfl
@[simp] theorem exec_mov n d a : exec (.mov n d a) s = execMov n d a s := rfl
@[simp] theorem exec_shl n d a b : exec (.shl n d a b) s = execShl n d a b s := rfl
@[simp] theorem exec_shr n d a b : exec (.shr n d a b) s = execShr n d a b s := rfl
@[simp] theorem exec_sar n d a b : exec (.sar n d a b) s = execSar n d a b s := rfl
@[simp] theorem exec_rol n d a b : exec (.rol n d a b) s = execRol n d a b s := rfl
@[simp] theorem exec_shl64 n d a b : exec (.shl64 n d a b) s = execShl64 n d a b s := rfl
@[simp] theorem exec_shr64 n d a b : exec (.shr64 n d a b) s = execShr64 n d a b s := rfl
@[simp] theorem exec_bfx n d a b : exec (.bfx n d a b) s = execBfx n d a b s := rfl
@[simp] theorem exec_bfi n d a b : exec (.bfi n d a b) s = execBfi n d a b s := rfl
@[simp] theorem exec_cmpEq n d a b : exec (.cmpEq n d a b) s = execCmpEq n d a b s := rfl
@[simp] theorem exec_cmpNe n d a b : exec (.cmpNe n d a b) s = execCmpNe n d a b s := rfl
@[simp] theorem exec_ltI n d a b : exec (.ltI n d a b) s = execLtI n d a b s := rfl
@[simp] theorem exec_leI n d a b : exec (.leI n d a b) s = execLeI n d a b s := rfl
@[simp] theorem exec_ltN n d a b : exec (.ltN n d a b) s = execLtN n d a b s := rfl
@[simp] theorem exec_leN n d a b : exec (.leN n d a b) s = execLeN n d a b s := rfl
@[simp] theorem exec_tst n d a b : exec (.tst n d a b) s = execTst n d a b s := rfl
@[simp] theorem exec_voteAny n d a : exec (.voteAny n d a) s = execVoteAny n d a s := rfl
@[simp] theorem exec_voteAll n d a : exec (.voteAll n d a) s = execVoteAll n d a s := rfl
@[simp] theorem exec_voteBal n d a : exec (.voteBal n d a) s = execVoteBal n d a s := rfl
@[simp] theorem exec_matchLanes n d a : exec (.matchLanes n d a) s = execMatchLanes n d a s := rfl
@[simp] theorem exec_actmask n d : exec (.actmask n d) s = execActmask n d s := rfl
@[simp] theorem exec_movs d imm : exec (.movs d imm) s = execMovs d imm s := rfl
@[simp] theorem exec_add64 n d a b : exec (.add64 n d a b) s = execAdd64 n d a b s := rfl
@[simp] theorem exec_sub64 n d a b : exec (.sub64 n d a b) s = execSub64 n d a b s := rfl
@[simp] theorem exec_addxI n d a b : exec (.addxI n d a b) s = execAddxI n d a b s := rfl
@[simp] theorem exec_addxN n d a b : exec (.addxN n d a b) s = execAddxN n d a b s := rfl
@[simp] theorem exec_cmplt64 n d a b : exec (.cmplt64 n d a b) s = execCmplt64 n d a b s := rfl
@[simp] theorem exec_cmpeq64 n d a b : exec (.cmpeq64 n d a b) s = execCmpeq64 n d a b s := rfl
@[simp] theorem exec_mov64 n d a : exec (.mov64 n d a) s = execMov64 n d a s := rfl
@[simp] theorem exec_addi n d a imm : exec (.addi n d a imm) s = execAddi n d a imm s := rfl
@[simp] theorem exec_andi n d a imm : exec (.andi n d a imm) s = execAndi n d a imm s := rfl
@[simp] theorem exec_ori n d a imm : exec (.ori n d a imm) s = execOri n d a imm s := rfl
@[simp] theorem exec_xori n d a imm : exec (.xori n d a imm) s = execXori n d a imm s := rfl
@[simp] theorem exec_shli n d a imm : exec (.shli n d a imm) s = execShli n d a imm s := rfl
@[simp] theorem exec_shri n d a imm : exec (.shri n d a imm) s = execShri n d a imm s := rfl
@[simp] theorem exec_sari n d a imm : exec (.sari n d a imm) s = execSari n d a imm s := rfl
@[simp] theorem exec_roli n d a imm : exec (.roli n d a imm) s = execRoli n d a imm s := rfl
@[simp] theorem exec_cmpiEq n d a imm : exec (.cmpiEq n d a imm) s = execCmpiEq n d a imm s := rfl
@[simp] theorem exec_cmpiNe n d a imm : exec (.cmpiNe n d a imm) s = execCmpiNe n d a imm s := rfl
@[simp] theorem exec_cmpiLtI n d a imm : exec (.cmpiLtI n d a imm) s = execCmpiLtI n d a imm s := rfl
@[simp] theorem exec_cmpiLeI n d a imm : exec (.cmpiLeI n d a imm) s = execCmpiLeI n d a imm s := rfl
@[simp] theorem exec_cmpiLtN n d a imm : exec (.cmpiLtN n d a imm) s = execCmpiLtN n d a imm s := rfl
@[simp] theorem exec_cmpiLeN n d a imm : exec (.cmpiLeN n d a imm) s = execCmpiLeN n d a imm s := rfl
@[simp] theorem exec_cmpiGtI n d a imm : exec (.cmpiGtI n d a imm) s = execCmpiGtI n d a imm s := rfl
@[simp] theorem exec_cmpiGeI n d a imm : exec (.cmpiGeI n d a imm) s = execCmpiGeI n d a imm s := rfl
@[simp] theorem exec_movi d imm : exec (.movi d imm) s = execMovi d imm s := rfl
@[simp] theorem exec_movhi d imm : exec (.movhi d imm) s = execMovhi d imm s := rfl
@[simp] theorem exec_bnz h a slot dline : exec (.bnz h a slot dline) s = execBnz h a slot dline s := rfl
@[simp] theorem exec_bz h a slot dline : exec (.bz h a slot dline) s = execBz h a slot dline s := rfl
@[simp] theorem exec_jmp h slot dline : exec (.jmp h slot dline) s = execJmp h slot dline s := rfl
@[simp] theorem exec_call h slot dline : exec (.call h slot dline) s = execCall h slot dline s := rfl
@[simp] theorem exec_jmpi a : exec (.jmpi a) s = execJmpi a s := rfl
@[simp] theorem exec_calli a : exec (.calli a) s = execCalli a s := rfl
@[simp] theorem exec_rjEnrol k : exec (.rjEnrol k) s = execRjEnrol k s := rfl
@[simp] theorem exec_rjWait k : exec (.rjWait k) s = execRjWait k s := rfl
@[simp] theorem exec_rjStrike k : exec (.rjStrike k) s = execRjStrike k s := rfl
@[simp] theorem exec_rjQuery d k : exec (.rjQuery d k) s = execRjQuery d k s := rfl
@[simp] theorem exec_spadd a x : exec (.spadd a x) s = execSpadd a x s := rfl
@[simp] theorem exec_spget d : exec (.spget d) s = execSpget d s := rfl
@[simp] theorem exec_spset a : exec (.spset a) s = execSpset a s := rfl
@[simp] theorem exec_brk x : exec (.brk x) s = execBrk x s := rfl
@[simp] theorem exec_fadd n d a b : exec (.fadd n d a b) s = execFadd n d a b s := rfl
@[simp] theorem exec_fsub n d a b : exec (.fsub n d a b) s = execFsub n d a b s := rfl
@[simp] theorem exec_fmul n d a b : exec (.fmul n d a b) s = execFmul n d a b s := rfl
@[simp] theorem exec_ffma n d a b : exec (.ffma n d a b) s = execFfma n d a b s := rfl
@[simp] theorem exec_ffms n d a b : exec (.ffms n d a b) s = execFfms n d a b s := rfl
@[simp] theorem exec_fmin n d a b : exec (.fmin n d a b) s = execFmin n d a b s := rfl
@[simp] theorem exec_fmax n d a b : exec (.fmax n d a b) s = execFmax n d a b s := rfl
@[simp] theorem exec_fcpsgn n d a b : exec (.fcpsgn n d a b) s = execFcpsgn n d a b s := rfl
@[simp] theorem exec_feq n d a b : exec (.feq n d a b) s = execFeq n d a b s := rfl
@[simp] theorem exec_flt n d a b : exec (.flt n d a b) s = execFlt n d a b s := rfl
@[simp] theorem exec_fle n d a b : exec (.fle n d a b) s = execFle n d a b s := rfl
@[simp] theorem exec_funord n d a b : exec (.funord n d a b) s = execFunord n d a b s := rfl
@[simp] theorem exec_fclass n d a : exec (.fclass n d a) s = execFclass n d a s := rfl
@[simp] theorem exec_fabs n d a : exec (.fabs n d a) s = execFabs n d a s := rfl
@[simp] theorem exec_fneg n d a : exec (.fneg n d a) s = execFneg n d a s := rfl
@[simp] theorem exec_frcp n d a : exec (.frcp n d a) s = execFrcp n d a s := rfl
@[simp] theorem exec_frsq n d a : exec (.frsq n d a) s = execFrsq n d a s := rfl
@[simp] theorem exec_fsqrt n d a : exec (.fsqrt n d a) s = execFsqrt n d a s := rfl
@[simp] theorem exec_fexp2 n d a : exec (.fexp2 n d a) s = execFexp2 n d a s := rfl
@[simp] theorem exec_flog2 n d a : exec (.flog2 n d a) s = execFlog2 n d a s := rfl
@[simp] theorem exec_ftanh n d a : exec (.ftanh n d a) s = execFtanh n d a s := rfl
@[simp] theorem exec_fsin n d a : exec (.fsin n d a) s = execFsin n d a s := rfl
@[simp] theorem exec_fcos n d a : exec (.fcos n d a) s = execFcos n d a s := rfl
@[simp] theorem exec_hadd2 n d a b : exec (.hadd2 n d a b) s = execHadd2 n d a b s := rfl
@[simp] theorem exec_hsub2 n d a b : exec (.hsub2 n d a b) s = execHsub2 n d a b s := rfl
@[simp] theorem exec_hmul2 n d a b : exec (.hmul2 n d a b) s = execHmul2 n d a b s := rfl
@[simp] theorem exec_hfma2 n d a b : exec (.hfma2 n d a b) s = execHfma2 n d a b s := rfl
@[simp] theorem exec_hmin2 n d a b : exec (.hmin2 n d a b) s = execHmin2 n d a b s := rfl
@[simp] theorem exec_hmax2 n d a b : exec (.hmax2 n d a b) s = execHmax2 n d a b s := rfl
@[simp] theorem exec_hdot2 n d a b : exec (.hdot2 n d a b) s = execHdot2 n d a b s := rfl
@[simp] theorem exec_cvtF2i n d a r : exec (.cvtF2i n d a r) s = execCvtF2i n d a r s := rfl
@[simp] theorem exec_cvtF2n n d a r : exec (.cvtF2n n d a r) s = execCvtF2n n d a r s := rfl
@[simp] theorem exec_cvtI2f n d a r : exec (.cvtI2f n d a r) s = execCvtI2f n d a r s := rfl
@[simp] theorem exec_cvtN2f n d a r : exec (.cvtN2f n d a r) s = execCvtN2f n d a r s := rfl
@[simp] theorem exec_cvtF2bf n d a r : exec (.cvtF2bf n d a r) s = execCvtF2bf n d a r s := rfl
@[simp] theorem exec_cvtBf2f n d a : exec (.cvtBf2f n d a) s = execCvtBf2f n d a s := rfl
@[simp] theorem exec_cvtF2h n d a r : exec (.cvtF2h n d a r) s = execCvtF2h n d a r s := rfl
@[simp] theorem exec_cvtH2f n d a : exec (.cvtH2f n d a) s = execCvtH2f n d a s := rfl
@[simp] theorem exec_cvtFrnd n d a r : exec (.cvtFrnd n d a r) s = execCvtFrnd n d a r s := rfl
@[simp] theorem exec_cvtEnc n d a k r : exec (.cvtEnc n d a k r) s = execCvtEnc n d a k r s := rfl
@[simp] theorem exec_cvtDec n d a k r : exec (.cvtDec n d a k r) s = execCvtDec n d a k r s := rfl
@[simp] theorem exec_narrowPack n d a k p : exec (.narrowPack n d a k p) s = execNarrowPack n d a k p s := rfl
@[simp] theorem exec_narrowUnpack n d a k p : exec (.narrowUnpack n d a k p) s = execNarrowUnpack n d a k p s := rfl
@[simp] theorem exec_xbPerm n d a b : exec (.xbPerm n d a b) s = execXbPerm n d a b s := rfl
@[simp] theorem exec_xbPerm2 n d a b : exec (.xbPerm2 n d a b) s = execXbPerm2 n d a b s := rfl
@[simp] theorem exec_xbShfl n d a b : exec (.xbShfl n d a b) s = execXbShfl n d a b s := rfl
@[simp] theorem exec_xbBcast n d a b : exec (.xbBcast n d a b) s = execXbBcast n d a b s := rfl
@[simp] theorem exec_xbRot n d a b : exec (.xbRot n d a b) s = execXbRot n d a b s := rfl
@[simp] theorem exec_xbTrn n d a b : exec (.xbTrn n d a b) s = execXbTrn n d a b s := rfl
@[simp] theorem exec_ldg n d a r sz off : exec (.ldg n d a r sz off) s = execLdg n d a r sz off s := rfl
@[simp] theorem exec_stg d a r sz off : exec (.stg d a r sz off) s = execStg d a r sz off s := rfl
@[simp] theorem exec_lds n d a sz off : exec (.lds n d a sz off) s = execLds n d a sz off s := rfl
@[simp] theorem exec_sts d a sz off : exec (.sts d a sz off) s = execSts d a sz off s := rfl
@[simp] theorem exec_ldp n d a sz off : exec (.ldp n d a sz off) s = execLdp n d a sz off s := rfl
@[simp] theorem exec_stp d a sz off : exec (.stp d a sz off) s = execStp d a sz off s := rfl
@[simp] theorem exec_atomgAdd n d a b : exec (.atomgAdd n d a b) s = execAtomgAdd n d a b s := rfl
@[simp] theorem exec_atomgMinI n d a b : exec (.atomgMinI n d a b) s = execAtomgMinI n d a b s := rfl
@[simp] theorem exec_atomgMaxI n d a b : exec (.atomgMaxI n d a b) s = execAtomgMaxI n d a b s := rfl
@[simp] theorem exec_atomgAnd n d a b : exec (.atomgAnd n d a b) s = execAtomgAnd n d a b s := rfl
@[simp] theorem exec_atomgOr n d a b : exec (.atomgOr n d a b) s = execAtomgOr n d a b s := rfl
@[simp] theorem exec_atomgXor n d a b : exec (.atomgXor n d a b) s = execAtomgXor n d a b s := rfl
@[simp] theorem exec_atomgXchg n d a b : exec (.atomgXchg n d a b) s = execAtomgXchg n d a b s := rfl
@[simp] theorem exec_atomgCas n d a b : exec (.atomgCas n d a b) s = execAtomgCas n d a b s := rfl
@[simp] theorem exec_atomsAdd n d a b : exec (.atomsAdd n d a b) s = execAtomsAdd n d a b s := rfl
@[simp] theorem exec_atomsMinI n d a b : exec (.atomsMinI n d a b) s = execAtomsMinI n d a b s := rfl
@[simp] theorem exec_atomsMaxI n d a b : exec (.atomsMaxI n d a b) s = execAtomsMaxI n d a b s := rfl
@[simp] theorem exec_atomsAnd n d a b : exec (.atomsAnd n d a b) s = execAtomsAnd n d a b s := rfl
@[simp] theorem exec_atomsOr n d a b : exec (.atomsOr n d a b) s = execAtomsOr n d a b s := rfl
@[simp] theorem exec_atomsXor n d a b : exec (.atomsXor n d a b) s = execAtomsXor n d a b s := rfl
@[simp] theorem exec_atomsXchg n d a b : exec (.atomsXchg n d a b) s = execAtomsXchg n d a b s := rfl
@[simp] theorem exec_atomsCas n d a b : exec (.atomsCas n d a b) s = execAtomsCas n d a b s := rfl
@[simp] theorem exec_redfFadd a b : exec (.redfFadd a b) s = execRedfFadd a b s := rfl
@[simp] theorem exec_redfFmin a b : exec (.redfFmin a b) s = execRedfFmin a b s := rfl
@[simp] theorem exec_redfFmax a b : exec (.redfFmax a b) s = execRedfFmax a b s := rfl
@[simp] theorem exec_redfHadd2 a b : exec (.redfHadd2 a b) s = execRedfHadd2 a b s := rfl
@[simp] theorem exec_redfAccred a b : exec (.redfAccred a b) s = execRedfAccred a b s := rfl
@[simp] theorem exec_redfAddI a b : exec (.redfAddI a b) s = execRedfAddI a b s := rfl
@[simp] theorem exec_fence x : exec (.fence x) s = execFence x s := rfl
@[simp] theorem exec_phInit d a k : exec (.phInit d a k) s = execPhInit d a k s := rfl
@[simp] theorem exec_phArrive d k : exec (.phArrive d k) s = execPhArrive d k s := rfl
@[simp] theorem exec_phWait a k : exec (.phWait a k) s = execPhWait a k s := rfl
@[simp] theorem exec_phTest d a k : exec (.phTest d a k) s = execPhTest d a k s := rfl
@[simp] theorem exec_phEnd d k : exec (.phEnd d k) s = execPhEnd d k s := rfl
@[simp] theorem exec_phStat d k : exec (.phStat d k) s = execPhStat d k s := rfl
@[simp] theorem exec_phInval d k : exec (.phInval d k) s = execPhInval d k s := rfl
@[simp] theorem exec_cpIssue d a x : exec (.cpIssue d a x) s = execCpIssue d a x s := rfl
@[simp] theorem exec_cpMcast d a x : exec (.cpMcast d a x) s = execCpMcast d a x s := rfl
@[simp] theorem exec_cpCancel d a : exec (.cpCancel d a) s = execCpCancel d a s := rfl
@[simp] theorem exec_pref a x : exec (.pref a x) s = execPref a x s := rfl
@[simp] theorem exec_pin d a x : exec (.pin d a x) s = execPin d a x s := rfl
@[simp] theorem exec_unpin a x : exec (.unpin a x) s = execUnpin a x s := rfl
@[simp] theorem exec_cwb d a x : exec (.cwb d a x) s = execCwb d a x s := rfl
@[simp] theorem exec_cinv d a : exec (.cinv d a) s = execCinv d a s := rfl
@[simp] theorem exec_iinv d a : exec (.iinv d a) s = execIinv d a s := rfl
@[simp] theorem exec_xbTload a k : exec (.xbTload a k) s = execXbTload a k s := rfl
@[simp] theorem exec_shWin d a r : exec (.shWin d a r) s = execShWin d a r s := rfl
@[simp] theorem exec_launch d a : exec (.launch d a) s = execLaunch d a s := rfl
@[simp] theorem exec_dgSignal d a : exec (.dgSignal d a) s = execDgSignal d a s := rfl
@[simp] theorem exec_spmap d a : exec (.spmap d a) s = execSpmap d a s := rfl
@[simp] theorem exec_spunmap d : exec (.spunmap d) s = execSpunmap d s := rfl
@[simp] theorem exec_spwb d : exec (.spwb d) s = execSpwb d s := rfl
@[simp] theorem exec_mxLoad a : exec (.mxLoad a) s = execMxLoad a s := rfl
@[simp] theorem exec_mxStream a : exec (.mxStream a) s = execMxStream a s := rfl
@[simp] theorem exec_mxAdapt a : exec (.mxAdapt a) s = execMxAdapt a s := rfl
@[simp] theorem exec_accArm d a : exec (.accArm d a) s = execAccArm d a s := rfl
@[simp] theorem exec_accDrain a x : exec (.accDrain a x) s = execAccDrain a x s := rfl
@[simp] theorem exec_accClear d a : exec (.accClear d a) s = execAccClear d a s := rfl
@[simp] theorem exec_accStat d a : exec (.accStat d a) s = execAccStat d a s := rfl
@[simp] theorem exec_vwSet d a k : exec (.vwSet d a k) s = execVwSet d a k s := rfl
@[simp] theorem exec_vwRefresh d k : exec (.vwRefresh d k) s = execVwRefresh d k s := rfl
@[simp] theorem exec_vwGet d fsel k : exec (.vwGet d fsel k) s = execVwGet d fsel k s := rfl
@[simp] theorem exec_vwClear d k : exec (.vwClear d k) s = execVwClear d k s := rfl
@[simp] theorem exec_gaWalk d a x : exec (.gaWalk d a x) s = execGaWalk d a x s := rfl
@[simp] theorem exec_gaStat d a : exec (.gaStat d a) s = execGaStat d a s := rfl
@[simp] theorem exec_btBind d a slot : exec (.btBind d a slot) s = execBtBind d a slot s := rfl
@[simp] theorem exec_btRetire d slot : exec (.btRetire d slot) s = execBtRetire d slot s := rfl
@[simp] theorem exec_trap a x : exec (.trap a x) s = execTrap a x s := rfl
@[simp] theorem exec_movsys d a : exec (.movsys d a) s = execMovsys d a s := rfl
@[simp] theorem exec_movsysW d a : exec (.movsysW d a) s = execMovsysW d a s := rfl
@[simp] theorem exec_movtsysSlim a : exec (.movtsysSlim a) s = execMovtsysSlim a s := rfl
@[simp] theorem exec_syscall d a x : exec (.syscall d a x) s = execSyscall d a x s := rfl
@[simp] theorem exec_waitev d a : exec (.waitev d a) s = execWaitev d a s := rfl
@[simp] theorem exec_tlbinv d a : exec (.tlbinv d a) s = execTlbinv d a s := rfl
@[simp] theorem exec_halt d a : exec (.halt d a) s = execHalt d a s := rfl
@[simp] theorem exec_haltRes d a : exec (.haltRes d a) s = execHaltRes d a s := rfl
@[simp] theorem exec_proof d a : exec (.proof d a) s = execProof d a s := rfl
@[simp] theorem exec_takeLaunchSlot die q : exec (.takeLaunchSlot die q) s = execTakeLaunchSlot die q s := rfl
@[simp] theorem exec_ageingExpiry grid : exec (.ageingExpiry grid) s = execAgeingExpiry grid s := rfl
@[simp] theorem exec_clusterStart die grid : exec (.clusterStart die grid) s = execClusterStart die grid s := rfl
@[simp] theorem exec_runLimitKill team : exec (.runLimitKill team) s = execRunLimitKill team s := rfl
@[simp] theorem exec_completionEntryWrite q : exec (.completionEntryWrite q) s = execCompletionEntryWrite q s := rfl
@[simp] theorem exec_graphSlotTake die q : exec (.graphSlotTake die q) s = execGraphSlotTake die q s := rfl
@[simp] theorem exec_nodeFinish ctx node : exec (.nodeFinish ctx node) s = execNodeFinish ctx node s := rfl
@[simp] theorem exec_loadDataReturn load : exec (.loadDataReturn load) s = execLoadDataReturn load s := rfl
@[simp] theorem exec_storeQueueLeave queue : exec (.storeQueueLeave queue) s = execStoreQueueLeave queue s := rfl
@[simp] theorem exec_arrivalCounted queue : exec (.arrivalCounted queue) s = execArrivalCounted queue s := rfl
@[simp] theorem exec_streamerBeat req beat : exec (.streamerBeat req beat) s = execStreamerBeat req beat s := rfl
@[simp] theorem exec_copyComplete req : exec (.copyComplete req) s = execCopyComplete req s := rfl
@[simp] theorem exec_matrixEntryStart entry : exec (.matrixEntryStart entry) s = execMatrixEntryStart entry s := rfl
@[simp] theorem exec_matrixEntryComplete entry : exec (.matrixEntryComplete entry) s = execMatrixEntryComplete entry s := rfl
@[simp] theorem exec_mainRowIssue entry : exec (.mainRowIssue entry) s = execMainRowIssue entry s := rfl
@[simp] theorem exec_governorWindow die core : exec (.governorWindow die core) s = execGovernorWindow die core s := rfl
@[simp] theorem exec_accContribution contribution : exec (.accContribution contribution) s = execAccContribution contribution s := rfl
@[simp] theorem exec_adapterSliceArrival team slice : exec (.adapterSliceArrival team slice) s = execAdapterSliceArrival team slice s := rfl
@[simp] theorem exec_accLineEvict line : exec (.accLineEvict line) s = execAccLineEvict line s := rfl
@[simp] theorem exec_numericWindowClose team window cls : exec (.numericWindowClose team window cls) s = execNumericWindowClose team window cls s := rfl
@[simp] theorem exec_afterIssueFaultDelivery unit : exec (.afterIssueFaultDelivery unit) s = execAfterIssueFaultDelivery unit s := rfl
@[simp] theorem exec_killComplete team : exec (.killComplete team) s = execKillComplete team s := rfl
@[simp] theorem exec_teamRetire team : exec (.teamRetire team) s = execTeamRetire team s := rfl
@[simp] theorem exec_eviction team : exec (.eviction team) s = execEviction team s := rfl
@[simp] theorem exec_teamResume team places : exec (.teamResume team places) s = execTeamResume team places s := rfl
@[simp] theorem exec_moveRehome die : exec (.moveRehome die) s = execMoveRehome die s := rfl
@[simp] theorem exec_versionFreed ctx base version : exec (.versionFreed ctx base version) s = execVersionFreed ctx base version s := rfl
@[simp] theorem exec_syscallAnswered unit : exec (.syscallAnswered unit) s = execSyscallAnswered unit s := rfl
@[simp] theorem exec_waitevWake unit : exec (.waitevWake unit) s = execWaitevWake unit s := rfl
@[simp] theorem exec_illegalInstruction w : exec (.illegalInstruction w) s = execIllegalInstruction w s := rfl
@[simp] theorem exec_qappAppend q record : exec (.qappAppend q record) s = execQappAppend q record s := rfl
@[simp] theorem exec_queueEnable q value : exec (.queueEnable q value) s = execQueueEnable q value s := rfl
@[simp] theorem exec_queueDisable q value : exec (.queueDisable q value) s = execQueueDisable q value s := rfl
@[simp] theorem exec_systemRegisterWrite number value : exec (.systemRegisterWrite number value) s = execSystemRegisterWrite number value s := rfl
@[simp] theorem exec_dgevRequest die value : exec (.dgevRequest die value) s = execDgevRequest die value s := rfl
@[simp] theorem exec_evictreqWrite value : exec (.evictreqWrite value) s = execEvictreqWrite value s := rfl
@[simp] theorem exec_replayAnswer die value : exec (.replayAnswer die value) s = execReplayAnswer die value s := rfl
@[simp] theorem exec_repack ctx page : exec (.repack ctx page) s = execRepack ctx page s := rfl
@[simp] theorem exec_agentDeadScrub unit : exec (.agentDeadScrub unit) s = execAgentDeadScrub unit s := rfl
@[simp] theorem exec_softError unit err : exec (.softError unit err) s = execSoftError unit err s := rfl
@[simp] theorem exec_proofRunComplete unit pass : exec (.proofRunComplete unit pass) s = execProofRunComplete unit pass s := rfl
@[simp] theorem exec_sendEvent conn payload : exec (.sendEvent conn payload) s = execSendEvent conn payload s := rfl
@[simp] theorem exec_rdmaWrite conn addr data : exec (.rdmaWrite conn addr data) s = execRdmaWrite conn addr data s := rfl
@[simp] theorem exec_rdmaRead conn addr size : exec (.rdmaRead conn addr size) s = execRdmaRead conn addr size s := rfl
@[simp] theorem exec_rdmaAtomic conn : exec (.rdmaAtomic conn) s = execRdmaAtomic conn s := rfl
@[simp] theorem exec_resetEvent images : exec (.resetEvent images) s = execResetEvent images s := rfl
@[simp] theorem exec_quote nonce : exec (.quote nonce) s = execQuote nonce s := rfl
@[simp] theorem exec_thermalThreshold die : exec (.thermalThreshold die) s = execThermalThreshold die s := rfl
@[simp] theorem exec_systemCoreAccess ctx acc : exec (.systemCoreAccess ctx acc) s = execSystemCoreAccess ctx acc s := rfl
@[simp] theorem exec_hostAccess acc : exec (.hostAccess acc) s = execHostAccess acc s := rfl
@[simp] theorem exec_peerAccess peer acc : exec (.peerAccess peer acc) s = execPeerAccess peer acc s := rfl
@[simp] theorem exec_peerLinkLoss peer : exec (.peerLinkLoss peer) s = execPeerLinkLoss peer s := rfl
@[simp] theorem exec_cacheLineEviction cache line : exec (.cacheLineEviction cache line) s = execCacheLineEviction cache line s := rfl
@[simp] theorem exec_contextValidClear ctx : exec (.contextValidClear ctx) s = execContextValidClear ctx s := rfl
@[simp] theorem exec_staleIncarnation unit inc addr : exec (.staleIncarnation unit inc addr) s = execStaleIncarnation unit inc addr s := rfl
@[simp] theorem exec_ret : exec (.ret) s = execRet s := rfl
@[simp] theorem exec_exit : exec (.exit) s = execExit s := rfl
@[simp] theorem exec_yield : exec (.yield) s = execYield s := rfl
@[simp] theorem exec_nop : exec (.nop) s = execNop s := rfl
@[simp] theorem exec_fetchb : exec (.fetchb) s = execFetchb s := rfl
@[simp] theorem exec_shJoin : exec (.shJoin) s = execShJoin s := rfl
@[simp] theorem exec_shLeave : exec (.shLeave) s = execShLeave s := rfl
@[simp] theorem exec_mxSwap : exec (.mxSwap) s = execMxSwap s := rfl
@[simp] theorem exec_mxWait : exec (.mxWait) s = execMxWait s := rfl
@[simp] theorem exec_eret : exec (.eret) s = execEret s := rfl
@[simp] theorem exec_movtsysRunclr : exec (.movtsysRunclr) s = execMovtsysRunclr s := rfl
@[simp] theorem exec_hbmWindow : exec (.hbmWindow) s = execHbmWindow s := rfl
@[simp] theorem exec_moveToPool : exec (.moveToPool) s = execMoveToPool s := rfl
@[simp] theorem exec_moveFromPool : exec (.moveFromPool) s = execMoveFromPool s := rfl
@[simp] theorem exec_criticalTemperature : exec (.criticalTemperature) s = execCriticalTemperature s := rfl

end Sys2Proof.Machine
end

