-- ==== Sys2Proof/Laws/Sparse.lean ====
section
/-! SUPPORT. Sparse tables: a read after a write, a write elsewhere, and the canonical form that every operation keeps. -/

namespace Sys2Proof.Machine

variable {β : Type}

/-! ### Reads after writes -/

@[simp] theorem mfind_nil (j : Nat) : mfind ([] : SMap β) j = none := rfl

theorem mfind_cons (k : Nat) (v : β) (m : SMap β) (j : Nat) : mfind ((k, v) :: m) j = if k = j then some v else mfind m j := rfl

@[simp] theorem mfind_mput_same (m : SMap β) (j : Nat) (v : β) : mfind (mput m j v) j = some v := by
  induction m with
  | nil => simp [mput, mfind]
  | cons p m ih =>
    obtain ⟨k, u⟩ := p
    simp only [mput]
    split
    · simp [mfind]
    · split
      · simp [mfind]
      · simp [mfind, ih]; intro h; omega

theorem mfind_mput_other (m : SMap β) (j x : Nat) (v : β) (h : x ≠ j) : mfind (mput m j v) x = mfind m x := by
  induction m with
  | nil => simp [mput, mfind]; omega
  | cons p m ih =>
    obtain ⟨k, u⟩ := p
    simp only [mput]
    split
    · simp [mfind]; omega
    · split
      · subst_vars; simp [mfind, Ne.symm h]
      · simp [mfind, ih]

theorem mfind_mput (m : SMap β) (j x : Nat) (v : β) : mfind (mput m j v) x = if x = j then some v else mfind m x := by
  split
  · subst_vars; simp
  · exact mfind_mput_other m j x v ‹_›

theorem mfind_filter (m : SMap β) (p : Nat → Bool) (x : Nat) : mfind (m.filter (fun q => p q.1)) x = if p x then mfind m x else none := by
  induction m with
  | nil => simp [mfind]
  | cons q m ih =>
    obtain ⟨k, u⟩ := q
    by_cases hp : p k <;> by_cases hk : k = x <;> simp_all [mfind]

@[simp] theorem mfind_mdel_same (m : SMap β) (j : Nat) : mfind (mdel m j) j = none := by
  have := mfind_filter m (fun k => decide (k ≠ j)) j
  simpa [mdel] using this

theorem mfind_mdel_other (m : SMap β) (j x : Nat) (h : x ≠ j) : mfind (mdel m j) x = mfind m x := by
  have := mfind_filter m (fun k => decide (k ≠ j)) x
  simpa [mdel, h] using this

@[simp] theorem mget_mput_same (d : β) (m : SMap β) (j : Nat) (v : β) : mget d (mput m j v) j = v := by simp [mget]

theorem mget_mput_other (d : β) (m : SMap β) (j x : Nat) (v : β) (h : x ≠ j) : mget d (mput m j v) x = mget d m x := by
  simp [mget, mfind_mput_other m j x v h]

@[simp] theorem mget_mset_same [DecidableEq β] (d : β) (m : SMap β) (j : Nat) (v : β) : mget d (mset d m j v) j = v := by
  unfold mset mget
  split <;> simp [*]

theorem mget_mset_other [DecidableEq β] (d : β) (m : SMap β) (j x : Nat) (v : β) (h : x ≠ j) : mget d (mset d m j v) x = mget d m x := by
  unfold mset mget
  split
  · rw [mfind_mdel_other m j x h]
  · rw [mfind_mput_other m j x v h]

theorem mget_mset [DecidableEq β] (d : β) (m : SMap β) (j x : Nat) (v : β) : mget d (mset d m j v) x = if x = j then v else mget d m x := by
  split
  · subst_vars; simp
  · exact mget_mset_other d m j x v ‹_›

theorem mfind_mmod (m : SMap β) (j x : Nat) (f : β → β) : mfind (mmod m j f) x = if x = j then (mfind m x).map f else mfind m x := by
  induction m with
  | nil => simp [mmod, mfind]
  | cons p m ih =>
    obtain ⟨k, u⟩ := p
    simp only [mmod, List.map_cons] at ih ⊢
    by_cases hk : k = j <;> by_cases hx : k = x <;> simp_all [mfind]

/-! ### The canonical form -/

/-- Keys strictly rising, as a proposition. -/
def Ordered (m : SMap β) : Prop := m.Pairwise (fun p q => p.1 < q.1)

theorem msorted_iff (m : SMap β) : msorted m = true ↔ Ordered m := by
  induction m with
  | nil => simp [msorted, Ordered]
  | cons p m ih =>
    cases m with
    | nil => simp [msorted, Ordered]
    | cons q m =>
      obtain ⟨j, u⟩ := p
      obtain ⟨k, v⟩ := q
      simp only [msorted, Bool.and_eq_true, decide_eq_true_eq, ih, Ordered, List.pairwise_cons]
      constructor
      · rintro ⟨h, hq, hm⟩
        refine ⟨?_, hq, hm⟩
        intro a ha
        rcases List.mem_cons.1 ha with rfl | ha
        · exact h
        · exact Nat.lt_trans h (hq a ha)
      · rintro ⟨h, hq, hm⟩
        exact ⟨h _ (List.mem_cons_self ..), hq, hm⟩

theorem mwf_iff [DecidableEq β] (d : β) (m : SMap β) : mwf d m = true ↔ Ordered m ∧ ∀ p ∈ m, p.2 ≠ d := by
  simp [mwf, msorted_iff]

theorem mem_mput {m : SMap β} {j : Nat} {v : β} {p : Nat × β} (h : p ∈ mput m j v) : p = (j, v) ∨ p ∈ m := by
  induction m with
  | nil => simp [mput] at h; exact .inl h
  | cons q m ih =>
    obtain ⟨k, u⟩ := q
    simp only [mput] at h
    split at h
    · simpa using h
    · split at h
      · rcases List.mem_cons.1 h with h | h
        · exact .inl h
        · exact .inr (List.mem_cons_of_mem _ h)
      · rcases List.mem_cons.1 h with h | h
        · exact .inr (h ▸ List.mem_cons_self ..)
        · rcases ih h with h | h
          · exact .inl h
          · exact .inr (List.mem_cons_of_mem _ h)

theorem ordered_mput {m : SMap β} (h : Ordered m) (j : Nat) (v : β) : Ordered (mput m j v) := by
  induction m with
  | nil => simp [mput, Ordered]
  | cons q m ih =>
    obtain ⟨k, u⟩ := q
    have hm : Ordered m := (List.pairwise_cons.1 h).2
    have hk := (List.pairwise_cons.1 h).1
    simp only [mput]
    split
    · refine List.pairwise_cons.2 ⟨?_, h⟩
      intro a ha
      rcases List.mem_cons.1 ha with rfl | ha
      · assumption
      · exact Nat.lt_trans ‹_› (hk a ha)
    · split
      · subst_vars
        exact List.pairwise_cons.2 ⟨hk, hm⟩
      · refine List.pairwise_cons.2 ⟨?_, ih hm⟩
        intro a ha
        rcases mem_mput ha with rfl | ha
        · simp only; omega
        · exact hk a ha

theorem ordered_filter {m : SMap β} (h : Ordered m) (p : Nat × β → Bool) : Ordered (m.filter p) := List.Pairwise.filter p h

theorem wf_mdel [DecidableEq β] {d : β} {m : SMap β} (h : mwf d m = true) (j : Nat) : mwf d (mdel m j) = true := by
  obtain ⟨ho, hd⟩ := (mwf_iff d m).1 h
  exact (mwf_iff d _).2 ⟨ordered_filter ho _, fun p hp => hd p (List.mem_filter.1 hp).1⟩

theorem wf_filter [DecidableEq β] {d : β} {m : SMap β} (h : mwf d m = true) (p : Nat × β → Bool) : mwf d (m.filter p) = true := by
  obtain ⟨ho, hd⟩ := (mwf_iff d m).1 h
  exact (mwf_iff d _).2 ⟨ordered_filter ho _, fun q hq => hd q (List.mem_filter.1 hq).1⟩

theorem wf_mput [DecidableEq β] {d : β} {m : SMap β} (h : mwf d m = true) (j : Nat) {v : β} (hv : v ≠ d) : mwf d (mput m j v) = true := by
  obtain ⟨ho, hd⟩ := (mwf_iff d m).1 h
  refine (mwf_iff d _).2 ⟨ordered_mput ho j v, fun p hp => ?_⟩
  rcases mem_mput hp with rfl | hp
  · exact hv
  · exact hd p hp

/-- Setting a key keeps the canonical form. -/
theorem wf_mset [DecidableEq β] {d : β} {m : SMap β} (h : mwf d m = true) (j : Nat) (v : β) : mwf d (mset d m j v) = true := by
  unfold mset
  split
  · exact wf_mdel h j
  · exact wf_mput h j ‹_›

/-- Entries of a canonical table entered in another keep its form. -/
theorem wf_foldl_mput [DecidableEq β] {d : β} (f : Nat → Nat) (ps : List (Nat × β)) (hp : ∀ p ∈ ps, p.2 ≠ d) {m : SMap β} (h : mwf d m = true) :
    mwf d (ps.foldl (fun m p => mput m (f p.1) p.2) m) = true := by
  induction ps generalizing m with
  | nil => exact h
  | cons p ps ih =>
    exact ih (fun q hq => hp q (List.mem_cons_of_mem _ hq)) (wf_mput h _ (hp p (List.mem_cons_self ..)))

end Sys2Proof.Machine
end

