-- ==== Sys2Proof/Laws/State.lean ====
section
/-! SUPPORT. One lemma per field of State per update: no later proof unfolds a record update. Then what the tables read as after an update. -/

namespace Sys2Proof.Machine

variable (s : State)

/-! ### setThread -/

@[simp] theorem State.setThread_boot (tid : Nat) (x : Thread) : (s.setThread tid x).boot = s.boot := rfl
@[simp] theorem State.setThread_meas (tid : Nat) (x : Thread) : (s.setThread tid x).meas = s.meas := rfl
@[simp] theorem State.setThread_sys (tid : Nat) (x : Thread) : (s.setThread tid x).sys = s.sys := rfl
@[simp] theorem State.setThread_conns (tid : Nat) (x : Thread) : (s.setThread tid x).conns = s.conns := rfl
@[simp] theorem State.setThread_mem (tid : Nat) (x : Thread) : (s.setThread tid x).mem = s.mem := rfl
@[simp] theorem State.setThread_poison (tid : Nat) (x : Thread) : (s.setThread tid x).poison = s.poison := rfl
@[simp] theorem State.setThread_confined (tid : Nat) (x : Thread) : (s.setThread tid x).confined = s.confined := rfl
@[simp] theorem State.setThread_dir (tid : Nat) (x : Thread) : (s.setThread tid x).dir = s.dir := rfl
@[simp] theorem State.setThread_binds (tid : Nat) (x : Thread) : (s.setThread tid x).binds = s.binds := rfl
@[simp] theorem State.setThread_pins (tid : Nat) (x : Thread) : (s.setThread tid x).pins = s.pins := rfl
@[simp] theorem State.setThread_homes (tid : Nat) (x : Thread) : (s.setThread tid x).homes = s.homes := rfl
@[simp] theorem State.setThread_repacks (tid : Nat) (x : Thread) : (s.setThread tid x).repacks = s.repacks := rfl
@[simp] theorem State.setThread_threads (tid : Nat) (x : Thread) : (s.setThread tid x).threads = mput s.threads tid x := rfl
@[simp] theorem State.setThread_groups (tid : Nat) (x : Thread) : (s.setThread tid x).groups = s.groups := rfl
@[simp] theorem State.setThread_teams (tid : Nat) (x : Thread) : (s.setThread tid x).teams = s.teams := rfl
@[simp] theorem State.setThread_cores (tid : Nat) (x : Thread) : (s.setThread tid x).cores = s.cores := rfl
@[simp] theorem State.setThread_dies (tid : Nat) (x : Thread) : (s.setThread tid x).dies = s.dies := rfl
@[simp] theorem State.setThread_grids (tid : Nat) (x : Thread) : (s.setThread tid x).grids = s.grids := rfl
@[simp] theorem State.setThread_taken (tid : Nat) (x : Thread) : (s.setThread tid x).taken = s.taken := rfl
@[simp] theorem State.setThread_feeds (tid : Nat) (x : Thread) : (s.setThread tid x).feeds = s.feeds := rfl
@[simp] theorem State.setThread_systemFeed (tid : Nat) (x : Thread) : (s.setThread tid x).systemFeed = s.systemFeed := rfl
@[simp] theorem State.setThread_completions (tid : Nat) (x : Thread) : (s.setThread tid x).completions = s.completions := rfl
@[simp] theorem State.setThread_nodes (tid : Nat) (x : Thread) : (s.setThread tid x).nodes = s.nodes := rfl
@[simp] theorem State.setThread_hbm (tid : Nat) (x : Thread) : (s.setThread tid x).hbm = s.hbm := rfl
@[simp] theorem State.setThread_hbmAllow (tid : Nat) (x : Thread) : (s.setThread tid x).hbmAllow = s.hbmAllow := rfl
@[simp] theorem State.setThread_loads (tid : Nat) (x : Thread) : (s.setThread tid x).loads = s.loads := rfl
@[simp] theorem State.setThread_requests (tid : Nat) (x : Thread) : (s.setThread tid x).requests = s.requests := rfl
@[simp] theorem State.setThread_acc (tid : Nat) (x : Thread) : (s.setThread tid x).acc = s.acc := rfl
@[simp] theorem State.setThread_accPins (tid : Nat) (x : Thread) : (s.setThread tid x).accPins = s.accPins := rfl
@[simp] theorem State.setThread_contributions (tid : Nat) (x : Thread) : (s.setThread tid x).contributions = s.contributions := rfl
@[simp] theorem State.setThread_versions (tid : Nat) (x : Thread) : (s.setThread tid x).versions = s.versions := rfl
@[simp] theorem State.setThread_incarnations (tid : Nat) (x : Thread) : (s.setThread tid x).incarnations = s.incarnations := rfl
@[simp] theorem State.setThread_proofs (tid : Nat) (x : Thread) : (s.setThread tid x).proofs = s.proofs := rfl
@[simp] theorem State.setThread_errSeq (tid : Nat) (x : Thread) : (s.setThread tid x).errSeq = s.errSeq := rfl
@[simp] theorem State.setThread_irqs (tid : Nat) (x : Thread) : (s.setThread tid x).irqs = s.irqs := rfl
@[simp] theorem State.setThread_replies (tid : Nat) (x : Thread) : (s.setThread tid x).replies = s.replies := rfl
@[simp] theorem State.setThread_lost (tid : Nat) (x : Thread) : (s.setThread tid x).lost = s.lost := rfl
@[simp] theorem State.setThread_deadChannels (tid : Nat) (x : Thread) : (s.setThread tid x).deadChannels = s.deadChannels := rfl
@[simp] theorem State.setThread_issue (tid : Nat) (x : Thread) : (s.setThread tid x).issue = s.issue := rfl
@[simp] theorem State.setThread_agenda (tid : Nat) (x : Thread) : (s.setThread tid x).agenda = s.agenda := rfl
@[simp] theorem State.setThread_waiting (tid : Nat) (x : Thread) : (s.setThread tid x).waiting = s.waiting := rfl
@[simp] theorem State.setThread_probe (tid : Nat) (x : Thread) : (s.setThread tid x).probe = s.probe := rfl
@[simp] theorem State.setThread_freeCount (tid : Nat) (x : Thread) : (s.setThread tid x).freeCount = s.freeCount := rfl
@[simp] theorem State.setThread_nextId (tid : Nat) (x : Thread) : (s.setThread tid x).nextId = s.nextId := rfl
@[simp] theorem State.setThread_clock (tid : Nat) (x : Thread) : (s.setThread tid x).clock = s.clock := rfl
@[simp] theorem State.setThread_turn (tid : Nat) (x : Thread) : (s.setThread tid x).turn = s.turn := rfl

/-! ### modThread -/

@[simp] theorem State.modThread_boot (tid : Nat) (f : Thread → Thread) : (s.modThread tid f).boot = s.boot := rfl
@[simp] theorem State.modThread_meas (tid : Nat) (f : Thread → Thread) : (s.modThread tid f).meas = s.meas := rfl
@[simp] theorem State.modThread_sys (tid : Nat) (f : Thread → Thread) : (s.modThread tid f).sys = s.sys := rfl
@[simp] theorem State.modThread_conns (tid : Nat) (f : Thread → Thread) : (s.modThread tid f).conns = s.conns := rfl
@[simp] theorem State.modThread_mem (tid : Nat) (f : Thread → Thread) : (s.modThread tid f).mem = s.mem := rfl
@[simp] theorem State.modThread_poison (tid : Nat) (f : Thread → Thread) : (s.modThread tid f).poison = s.poison := rfl
@[simp] theorem State.modThread_confined (tid : Nat) (f : Thread → Thread) : (s.modThread tid f).confined = s.confined := rfl
@[simp] theorem State.modThread_dir (tid : Nat) (f : Thread → Thread) : (s.modThread tid f).dir = s.dir := rfl
@[simp] theorem State.modThread_binds (tid : Nat) (f : Thread → Thread) : (s.modThread tid f).binds = s.binds := rfl
@[simp] theorem State.modThread_pins (tid : Nat) (f : Thread → Thread) : (s.modThread tid f).pins = s.pins := rfl
@[simp] theorem State.modThread_homes (tid : Nat) (f : Thread → Thread) : (s.modThread tid f).homes = s.homes := rfl
@[simp] theorem State.modThread_repacks (tid : Nat) (f : Thread → Thread) : (s.modThread tid f).repacks = s.repacks := rfl
@[simp] theorem State.modThread_threads (tid : Nat) (f : Thread → Thread) : (s.modThread tid f).threads = mput s.threads tid (f (s.thread tid)) := rfl
@[simp] theorem State.modThread_groups (tid : Nat) (f : Thread → Thread) : (s.modThread tid f).groups = s.groups := rfl
@[simp] theorem State.modThread_teams (tid : Nat) (f : Thread → Thread) : (s.modThread tid f).teams = s.teams := rfl
@[simp] theorem State.modThread_cores (tid : Nat) (f : Thread → Thread) : (s.modThread tid f).cores = s.cores := rfl
@[simp] theorem State.modThread_dies (tid : Nat) (f : Thread → Thread) : (s.modThread tid f).dies = s.dies := rfl
@[simp] theorem State.modThread_grids (tid : Nat) (f : Thread → Thread) : (s.modThread tid f).grids = s.grids := rfl
@[simp] theorem State.modThread_taken (tid : Nat) (f : Thread → Thread) : (s.modThread tid f).taken = s.taken := rfl
@[simp] theorem State.modThread_feeds (tid : Nat) (f : Thread → Thread) : (s.modThread tid f).feeds = s.feeds := rfl
@[simp] theorem State.modThread_systemFeed (tid : Nat) (f : Thread → Thread) : (s.modThread tid f).systemFeed = s.systemFeed := rfl
@[simp] theorem State.modThread_completions (tid : Nat) (f : Thread → Thread) : (s.modThread tid f).completions = s.completions := rfl
@[simp] theorem State.modThread_nodes (tid : Nat) (f : Thread → Thread) : (s.modThread tid f).nodes = s.nodes := rfl
@[simp] theorem State.modThread_hbm (tid : Nat) (f : Thread → Thread) : (s.modThread tid f).hbm = s.hbm := rfl
@[simp] theorem State.modThread_hbmAllow (tid : Nat) (f : Thread → Thread) : (s.modThread tid f).hbmAllow = s.hbmAllow := rfl
@[simp] theorem State.modThread_loads (tid : Nat) (f : Thread → Thread) : (s.modThread tid f).loads = s.loads := rfl
@[simp] theorem State.modThread_requests (tid : Nat) (f : Thread → Thread) : (s.modThread tid f).requests = s.requests := rfl
@[simp] theorem State.modThread_acc (tid : Nat) (f : Thread → Thread) : (s.modThread tid f).acc = s.acc := rfl
@[simp] theorem State.modThread_accPins (tid : Nat) (f : Thread → Thread) : (s.modThread tid f).accPins = s.accPins := rfl
@[simp] theorem State.modThread_contributions (tid : Nat) (f : Thread → Thread) : (s.modThread tid f).contributions = s.contributions := rfl
@[simp] theorem State.modThread_versions (tid : Nat) (f : Thread → Thread) : (s.modThread tid f).versions = s.versions := rfl
@[simp] theorem State.modThread_incarnations (tid : Nat) (f : Thread → Thread) : (s.modThread tid f).incarnations = s.incarnations := rfl
@[simp] theorem State.modThread_proofs (tid : Nat) (f : Thread → Thread) : (s.modThread tid f).proofs = s.proofs := rfl
@[simp] theorem State.modThread_errSeq (tid : Nat) (f : Thread → Thread) : (s.modThread tid f).errSeq = s.errSeq := rfl
@[simp] theorem State.modThread_irqs (tid : Nat) (f : Thread → Thread) : (s.modThread tid f).irqs = s.irqs := rfl
@[simp] theorem State.modThread_replies (tid : Nat) (f : Thread → Thread) : (s.modThread tid f).replies = s.replies := rfl
@[simp] theorem State.modThread_lost (tid : Nat) (f : Thread → Thread) : (s.modThread tid f).lost = s.lost := rfl
@[simp] theorem State.modThread_deadChannels (tid : Nat) (f : Thread → Thread) : (s.modThread tid f).deadChannels = s.deadChannels := rfl
@[simp] theorem State.modThread_issue (tid : Nat) (f : Thread → Thread) : (s.modThread tid f).issue = s.issue := rfl
@[simp] theorem State.modThread_agenda (tid : Nat) (f : Thread → Thread) : (s.modThread tid f).agenda = s.agenda := rfl
@[simp] theorem State.modThread_waiting (tid : Nat) (f : Thread → Thread) : (s.modThread tid f).waiting = s.waiting := rfl
@[simp] theorem State.modThread_probe (tid : Nat) (f : Thread → Thread) : (s.modThread tid f).probe = s.probe := rfl
@[simp] theorem State.modThread_freeCount (tid : Nat) (f : Thread → Thread) : (s.modThread tid f).freeCount = s.freeCount := rfl
@[simp] theorem State.modThread_nextId (tid : Nat) (f : Thread → Thread) : (s.modThread tid f).nextId = s.nextId := rfl
@[simp] theorem State.modThread_clock (tid : Nat) (f : Thread → Thread) : (s.modThread tid f).clock = s.clock := rfl
@[simp] theorem State.modThread_turn (tid : Nat) (f : Thread → Thread) : (s.modThread tid f).turn = s.turn := rfl

/-! ### setGroup -/

@[simp] theorem State.setGroup_boot (gid : Nat) (x : Group) : (s.setGroup gid x).boot = s.boot := rfl
@[simp] theorem State.setGroup_meas (gid : Nat) (x : Group) : (s.setGroup gid x).meas = s.meas := rfl
@[simp] theorem State.setGroup_sys (gid : Nat) (x : Group) : (s.setGroup gid x).sys = s.sys := rfl
@[simp] theorem State.setGroup_conns (gid : Nat) (x : Group) : (s.setGroup gid x).conns = s.conns := rfl
@[simp] theorem State.setGroup_mem (gid : Nat) (x : Group) : (s.setGroup gid x).mem = s.mem := rfl
@[simp] theorem State.setGroup_poison (gid : Nat) (x : Group) : (s.setGroup gid x).poison = s.poison := rfl
@[simp] theorem State.setGroup_confined (gid : Nat) (x : Group) : (s.setGroup gid x).confined = s.confined := rfl
@[simp] theorem State.setGroup_dir (gid : Nat) (x : Group) : (s.setGroup gid x).dir = s.dir := rfl
@[simp] theorem State.setGroup_binds (gid : Nat) (x : Group) : (s.setGroup gid x).binds = s.binds := rfl
@[simp] theorem State.setGroup_pins (gid : Nat) (x : Group) : (s.setGroup gid x).pins = s.pins := rfl
@[simp] theorem State.setGroup_homes (gid : Nat) (x : Group) : (s.setGroup gid x).homes = s.homes := rfl
@[simp] theorem State.setGroup_repacks (gid : Nat) (x : Group) : (s.setGroup gid x).repacks = s.repacks := rfl
@[simp] theorem State.setGroup_threads (gid : Nat) (x : Group) : (s.setGroup gid x).threads = s.threads := rfl
@[simp] theorem State.setGroup_groups (gid : Nat) (x : Group) : (s.setGroup gid x).groups = mput s.groups gid x := rfl
@[simp] theorem State.setGroup_teams (gid : Nat) (x : Group) : (s.setGroup gid x).teams = s.teams := rfl
@[simp] theorem State.setGroup_cores (gid : Nat) (x : Group) : (s.setGroup gid x).cores = s.cores := rfl
@[simp] theorem State.setGroup_dies (gid : Nat) (x : Group) : (s.setGroup gid x).dies = s.dies := rfl
@[simp] theorem State.setGroup_grids (gid : Nat) (x : Group) : (s.setGroup gid x).grids = s.grids := rfl
@[simp] theorem State.setGroup_taken (gid : Nat) (x : Group) : (s.setGroup gid x).taken = s.taken := rfl
@[simp] theorem State.setGroup_feeds (gid : Nat) (x : Group) : (s.setGroup gid x).feeds = s.feeds := rfl
@[simp] theorem State.setGroup_systemFeed (gid : Nat) (x : Group) : (s.setGroup gid x).systemFeed = s.systemFeed := rfl
@[simp] theorem State.setGroup_completions (gid : Nat) (x : Group) : (s.setGroup gid x).completions = s.completions := rfl
@[simp] theorem State.setGroup_nodes (gid : Nat) (x : Group) : (s.setGroup gid x).nodes = s.nodes := rfl
@[simp] theorem State.setGroup_hbm (gid : Nat) (x : Group) : (s.setGroup gid x).hbm = s.hbm := rfl
@[simp] theorem State.setGroup_hbmAllow (gid : Nat) (x : Group) : (s.setGroup gid x).hbmAllow = s.hbmAllow := rfl
@[simp] theorem State.setGroup_loads (gid : Nat) (x : Group) : (s.setGroup gid x).loads = s.loads := rfl
@[simp] theorem State.setGroup_requests (gid : Nat) (x : Group) : (s.setGroup gid x).requests = s.requests := rfl
@[simp] theorem State.setGroup_acc (gid : Nat) (x : Group) : (s.setGroup gid x).acc = s.acc := rfl
@[simp] theorem State.setGroup_accPins (gid : Nat) (x : Group) : (s.setGroup gid x).accPins = s.accPins := rfl
@[simp] theorem State.setGroup_contributions (gid : Nat) (x : Group) : (s.setGroup gid x).contributions = s.contributions := rfl
@[simp] theorem State.setGroup_versions (gid : Nat) (x : Group) : (s.setGroup gid x).versions = s.versions := rfl
@[simp] theorem State.setGroup_incarnations (gid : Nat) (x : Group) : (s.setGroup gid x).incarnations = s.incarnations := rfl
@[simp] theorem State.setGroup_proofs (gid : Nat) (x : Group) : (s.setGroup gid x).proofs = s.proofs := rfl
@[simp] theorem State.setGroup_errSeq (gid : Nat) (x : Group) : (s.setGroup gid x).errSeq = s.errSeq := rfl
@[simp] theorem State.setGroup_irqs (gid : Nat) (x : Group) : (s.setGroup gid x).irqs = s.irqs := rfl
@[simp] theorem State.setGroup_replies (gid : Nat) (x : Group) : (s.setGroup gid x).replies = s.replies := rfl
@[simp] theorem State.setGroup_lost (gid : Nat) (x : Group) : (s.setGroup gid x).lost = s.lost := rfl
@[simp] theorem State.setGroup_deadChannels (gid : Nat) (x : Group) : (s.setGroup gid x).deadChannels = s.deadChannels := rfl
@[simp] theorem State.setGroup_issue (gid : Nat) (x : Group) : (s.setGroup gid x).issue = s.issue := rfl
@[simp] theorem State.setGroup_agenda (gid : Nat) (x : Group) : (s.setGroup gid x).agenda = s.agenda := rfl
@[simp] theorem State.setGroup_waiting (gid : Nat) (x : Group) : (s.setGroup gid x).waiting = s.waiting := rfl
@[simp] theorem State.setGroup_probe (gid : Nat) (x : Group) : (s.setGroup gid x).probe = s.probe := rfl
@[simp] theorem State.setGroup_freeCount (gid : Nat) (x : Group) : (s.setGroup gid x).freeCount = s.freeCount := rfl
@[simp] theorem State.setGroup_nextId (gid : Nat) (x : Group) : (s.setGroup gid x).nextId = s.nextId := rfl
@[simp] theorem State.setGroup_clock (gid : Nat) (x : Group) : (s.setGroup gid x).clock = s.clock := rfl
@[simp] theorem State.setGroup_turn (gid : Nat) (x : Group) : (s.setGroup gid x).turn = s.turn := rfl

/-! ### modGroup -/

@[simp] theorem State.modGroup_boot (gid : Nat) (f : Group → Group) : (s.modGroup gid f).boot = s.boot := rfl
@[simp] theorem State.modGroup_meas (gid : Nat) (f : Group → Group) : (s.modGroup gid f).meas = s.meas := rfl
@[simp] theorem State.modGroup_sys (gid : Nat) (f : Group → Group) : (s.modGroup gid f).sys = s.sys := rfl
@[simp] theorem State.modGroup_conns (gid : Nat) (f : Group → Group) : (s.modGroup gid f).conns = s.conns := rfl
@[simp] theorem State.modGroup_mem (gid : Nat) (f : Group → Group) : (s.modGroup gid f).mem = s.mem := rfl
@[simp] theorem State.modGroup_poison (gid : Nat) (f : Group → Group) : (s.modGroup gid f).poison = s.poison := rfl
@[simp] theorem State.modGroup_confined (gid : Nat) (f : Group → Group) : (s.modGroup gid f).confined = s.confined := rfl
@[simp] theorem State.modGroup_dir (gid : Nat) (f : Group → Group) : (s.modGroup gid f).dir = s.dir := rfl
@[simp] theorem State.modGroup_binds (gid : Nat) (f : Group → Group) : (s.modGroup gid f).binds = s.binds := rfl
@[simp] theorem State.modGroup_pins (gid : Nat) (f : Group → Group) : (s.modGroup gid f).pins = s.pins := rfl
@[simp] theorem State.modGroup_homes (gid : Nat) (f : Group → Group) : (s.modGroup gid f).homes = s.homes := rfl
@[simp] theorem State.modGroup_repacks (gid : Nat) (f : Group → Group) : (s.modGroup gid f).repacks = s.repacks := rfl
@[simp] theorem State.modGroup_threads (gid : Nat) (f : Group → Group) : (s.modGroup gid f).threads = s.threads := rfl
@[simp] theorem State.modGroup_groups (gid : Nat) (f : Group → Group) : (s.modGroup gid f).groups = mput s.groups gid (f (s.group gid)) := rfl
@[simp] theorem State.modGroup_teams (gid : Nat) (f : Group → Group) : (s.modGroup gid f).teams = s.teams := rfl
@[simp] theorem State.modGroup_cores (gid : Nat) (f : Group → Group) : (s.modGroup gid f).cores = s.cores := rfl
@[simp] theorem State.modGroup_dies (gid : Nat) (f : Group → Group) : (s.modGroup gid f).dies = s.dies := rfl
@[simp] theorem State.modGroup_grids (gid : Nat) (f : Group → Group) : (s.modGroup gid f).grids = s.grids := rfl
@[simp] theorem State.modGroup_taken (gid : Nat) (f : Group → Group) : (s.modGroup gid f).taken = s.taken := rfl
@[simp] theorem State.modGroup_feeds (gid : Nat) (f : Group → Group) : (s.modGroup gid f).feeds = s.feeds := rfl
@[simp] theorem State.modGroup_systemFeed (gid : Nat) (f : Group → Group) : (s.modGroup gid f).systemFeed = s.systemFeed := rfl
@[simp] theorem State.modGroup_completions (gid : Nat) (f : Group → Group) : (s.modGroup gid f).completions = s.completions := rfl
@[simp] theorem State.modGroup_nodes (gid : Nat) (f : Group → Group) : (s.modGroup gid f).nodes = s.nodes := rfl
@[simp] theorem State.modGroup_hbm (gid : Nat) (f : Group → Group) : (s.modGroup gid f).hbm = s.hbm := rfl
@[simp] theorem State.modGroup_hbmAllow (gid : Nat) (f : Group → Group) : (s.modGroup gid f).hbmAllow = s.hbmAllow := rfl
@[simp] theorem State.modGroup_loads (gid : Nat) (f : Group → Group) : (s.modGroup gid f).loads = s.loads := rfl
@[simp] theorem State.modGroup_requests (gid : Nat) (f : Group → Group) : (s.modGroup gid f).requests = s.requests := rfl
@[simp] theorem State.modGroup_acc (gid : Nat) (f : Group → Group) : (s.modGroup gid f).acc = s.acc := rfl
@[simp] theorem State.modGroup_accPins (gid : Nat) (f : Group → Group) : (s.modGroup gid f).accPins = s.accPins := rfl
@[simp] theorem State.modGroup_contributions (gid : Nat) (f : Group → Group) : (s.modGroup gid f).contributions = s.contributions := rfl
@[simp] theorem State.modGroup_versions (gid : Nat) (f : Group → Group) : (s.modGroup gid f).versions = s.versions := rfl
@[simp] theorem State.modGroup_incarnations (gid : Nat) (f : Group → Group) : (s.modGroup gid f).incarnations = s.incarnations := rfl
@[simp] theorem State.modGroup_proofs (gid : Nat) (f : Group → Group) : (s.modGroup gid f).proofs = s.proofs := rfl
@[simp] theorem State.modGroup_errSeq (gid : Nat) (f : Group → Group) : (s.modGroup gid f).errSeq = s.errSeq := rfl
@[simp] theorem State.modGroup_irqs (gid : Nat) (f : Group → Group) : (s.modGroup gid f).irqs = s.irqs := rfl
@[simp] theorem State.modGroup_replies (gid : Nat) (f : Group → Group) : (s.modGroup gid f).replies = s.replies := rfl
@[simp] theorem State.modGroup_lost (gid : Nat) (f : Group → Group) : (s.modGroup gid f).lost = s.lost := rfl
@[simp] theorem State.modGroup_deadChannels (gid : Nat) (f : Group → Group) : (s.modGroup gid f).deadChannels = s.deadChannels := rfl
@[simp] theorem State.modGroup_issue (gid : Nat) (f : Group → Group) : (s.modGroup gid f).issue = s.issue := rfl
@[simp] theorem State.modGroup_agenda (gid : Nat) (f : Group → Group) : (s.modGroup gid f).agenda = s.agenda := rfl
@[simp] theorem State.modGroup_waiting (gid : Nat) (f : Group → Group) : (s.modGroup gid f).waiting = s.waiting := rfl
@[simp] theorem State.modGroup_probe (gid : Nat) (f : Group → Group) : (s.modGroup gid f).probe = s.probe := rfl
@[simp] theorem State.modGroup_freeCount (gid : Nat) (f : Group → Group) : (s.modGroup gid f).freeCount = s.freeCount := rfl
@[simp] theorem State.modGroup_nextId (gid : Nat) (f : Group → Group) : (s.modGroup gid f).nextId = s.nextId := rfl
@[simp] theorem State.modGroup_clock (gid : Nat) (f : Group → Group) : (s.modGroup gid f).clock = s.clock := rfl
@[simp] theorem State.modGroup_turn (gid : Nat) (f : Group → Group) : (s.modGroup gid f).turn = s.turn := rfl

/-! ### setTeam -/

@[simp] theorem State.setTeam_boot (uid : Nat) (x : Team) : (s.setTeam uid x).boot = s.boot := rfl
@[simp] theorem State.setTeam_meas (uid : Nat) (x : Team) : (s.setTeam uid x).meas = s.meas := rfl
@[simp] theorem State.setTeam_sys (uid : Nat) (x : Team) : (s.setTeam uid x).sys = s.sys := rfl
@[simp] theorem State.setTeam_conns (uid : Nat) (x : Team) : (s.setTeam uid x).conns = s.conns := rfl
@[simp] theorem State.setTeam_mem (uid : Nat) (x : Team) : (s.setTeam uid x).mem = s.mem := rfl
@[simp] theorem State.setTeam_poison (uid : Nat) (x : Team) : (s.setTeam uid x).poison = s.poison := rfl
@[simp] theorem State.setTeam_confined (uid : Nat) (x : Team) : (s.setTeam uid x).confined = s.confined := rfl
@[simp] theorem State.setTeam_dir (uid : Nat) (x : Team) : (s.setTeam uid x).dir = s.dir := rfl
@[simp] theorem State.setTeam_binds (uid : Nat) (x : Team) : (s.setTeam uid x).binds = s.binds := rfl
@[simp] theorem State.setTeam_pins (uid : Nat) (x : Team) : (s.setTeam uid x).pins = s.pins := rfl
@[simp] theorem State.setTeam_homes (uid : Nat) (x : Team) : (s.setTeam uid x).homes = s.homes := rfl
@[simp] theorem State.setTeam_repacks (uid : Nat) (x : Team) : (s.setTeam uid x).repacks = s.repacks := rfl
@[simp] theorem State.setTeam_threads (uid : Nat) (x : Team) : (s.setTeam uid x).threads = s.threads := rfl
@[simp] theorem State.setTeam_groups (uid : Nat) (x : Team) : (s.setTeam uid x).groups = s.groups := rfl
@[simp] theorem State.setTeam_teams (uid : Nat) (x : Team) : (s.setTeam uid x).teams = mput s.teams uid x := rfl
@[simp] theorem State.setTeam_cores (uid : Nat) (x : Team) : (s.setTeam uid x).cores = s.cores := rfl
@[simp] theorem State.setTeam_dies (uid : Nat) (x : Team) : (s.setTeam uid x).dies = s.dies := rfl
@[simp] theorem State.setTeam_grids (uid : Nat) (x : Team) : (s.setTeam uid x).grids = s.grids := rfl
@[simp] theorem State.setTeam_taken (uid : Nat) (x : Team) : (s.setTeam uid x).taken = s.taken := rfl
@[simp] theorem State.setTeam_feeds (uid : Nat) (x : Team) : (s.setTeam uid x).feeds = s.feeds := rfl
@[simp] theorem State.setTeam_systemFeed (uid : Nat) (x : Team) : (s.setTeam uid x).systemFeed = s.systemFeed := rfl
@[simp] theorem State.setTeam_completions (uid : Nat) (x : Team) : (s.setTeam uid x).completions = s.completions := rfl
@[simp] theorem State.setTeam_nodes (uid : Nat) (x : Team) : (s.setTeam uid x).nodes = s.nodes := rfl
@[simp] theorem State.setTeam_hbm (uid : Nat) (x : Team) : (s.setTeam uid x).hbm = s.hbm := rfl
@[simp] theorem State.setTeam_hbmAllow (uid : Nat) (x : Team) : (s.setTeam uid x).hbmAllow = s.hbmAllow := rfl
@[simp] theorem State.setTeam_loads (uid : Nat) (x : Team) : (s.setTeam uid x).loads = s.loads := rfl
@[simp] theorem State.setTeam_requests (uid : Nat) (x : Team) : (s.setTeam uid x).requests = s.requests := rfl
@[simp] theorem State.setTeam_acc (uid : Nat) (x : Team) : (s.setTeam uid x).acc = s.acc := rfl
@[simp] theorem State.setTeam_accPins (uid : Nat) (x : Team) : (s.setTeam uid x).accPins = s.accPins := rfl
@[simp] theorem State.setTeam_contributions (uid : Nat) (x : Team) : (s.setTeam uid x).contributions = s.contributions := rfl
@[simp] theorem State.setTeam_versions (uid : Nat) (x : Team) : (s.setTeam uid x).versions = s.versions := rfl
@[simp] theorem State.setTeam_incarnations (uid : Nat) (x : Team) : (s.setTeam uid x).incarnations = s.incarnations := rfl
@[simp] theorem State.setTeam_proofs (uid : Nat) (x : Team) : (s.setTeam uid x).proofs = s.proofs := rfl
@[simp] theorem State.setTeam_errSeq (uid : Nat) (x : Team) : (s.setTeam uid x).errSeq = s.errSeq := rfl
@[simp] theorem State.setTeam_irqs (uid : Nat) (x : Team) : (s.setTeam uid x).irqs = s.irqs := rfl
@[simp] theorem State.setTeam_replies (uid : Nat) (x : Team) : (s.setTeam uid x).replies = s.replies := rfl
@[simp] theorem State.setTeam_lost (uid : Nat) (x : Team) : (s.setTeam uid x).lost = s.lost := rfl
@[simp] theorem State.setTeam_deadChannels (uid : Nat) (x : Team) : (s.setTeam uid x).deadChannels = s.deadChannels := rfl
@[simp] theorem State.setTeam_issue (uid : Nat) (x : Team) : (s.setTeam uid x).issue = s.issue := rfl
@[simp] theorem State.setTeam_agenda (uid : Nat) (x : Team) : (s.setTeam uid x).agenda = s.agenda := rfl
@[simp] theorem State.setTeam_waiting (uid : Nat) (x : Team) : (s.setTeam uid x).waiting = s.waiting := rfl
@[simp] theorem State.setTeam_probe (uid : Nat) (x : Team) : (s.setTeam uid x).probe = s.probe := rfl
@[simp] theorem State.setTeam_freeCount (uid : Nat) (x : Team) : (s.setTeam uid x).freeCount = s.freeCount := rfl
@[simp] theorem State.setTeam_nextId (uid : Nat) (x : Team) : (s.setTeam uid x).nextId = s.nextId := rfl
@[simp] theorem State.setTeam_clock (uid : Nat) (x : Team) : (s.setTeam uid x).clock = s.clock := rfl
@[simp] theorem State.setTeam_turn (uid : Nat) (x : Team) : (s.setTeam uid x).turn = s.turn := rfl

/-! ### modTeam -/

@[simp] theorem State.modTeam_boot (uid : Nat) (f : Team → Team) : (s.modTeam uid f).boot = s.boot := rfl
@[simp] theorem State.modTeam_meas (uid : Nat) (f : Team → Team) : (s.modTeam uid f).meas = s.meas := rfl
@[simp] theorem State.modTeam_sys (uid : Nat) (f : Team → Team) : (s.modTeam uid f).sys = s.sys := rfl
@[simp] theorem State.modTeam_conns (uid : Nat) (f : Team → Team) : (s.modTeam uid f).conns = s.conns := rfl
@[simp] theorem State.modTeam_mem (uid : Nat) (f : Team → Team) : (s.modTeam uid f).mem = s.mem := rfl
@[simp] theorem State.modTeam_poison (uid : Nat) (f : Team → Team) : (s.modTeam uid f).poison = s.poison := rfl
@[simp] theorem State.modTeam_confined (uid : Nat) (f : Team → Team) : (s.modTeam uid f).confined = s.confined := rfl
@[simp] theorem State.modTeam_dir (uid : Nat) (f : Team → Team) : (s.modTeam uid f).dir = s.dir := rfl
@[simp] theorem State.modTeam_binds (uid : Nat) (f : Team → Team) : (s.modTeam uid f).binds = s.binds := rfl
@[simp] theorem State.modTeam_pins (uid : Nat) (f : Team → Team) : (s.modTeam uid f).pins = s.pins := rfl
@[simp] theorem State.modTeam_homes (uid : Nat) (f : Team → Team) : (s.modTeam uid f).homes = s.homes := rfl
@[simp] theorem State.modTeam_repacks (uid : Nat) (f : Team → Team) : (s.modTeam uid f).repacks = s.repacks := rfl
@[simp] theorem State.modTeam_threads (uid : Nat) (f : Team → Team) : (s.modTeam uid f).threads = s.threads := rfl
@[simp] theorem State.modTeam_groups (uid : Nat) (f : Team → Team) : (s.modTeam uid f).groups = s.groups := rfl
@[simp] theorem State.modTeam_teams (uid : Nat) (f : Team → Team) : (s.modTeam uid f).teams = mmod s.teams uid f := rfl
@[simp] theorem State.modTeam_cores (uid : Nat) (f : Team → Team) : (s.modTeam uid f).cores = s.cores := rfl
@[simp] theorem State.modTeam_dies (uid : Nat) (f : Team → Team) : (s.modTeam uid f).dies = s.dies := rfl
@[simp] theorem State.modTeam_grids (uid : Nat) (f : Team → Team) : (s.modTeam uid f).grids = s.grids := rfl
@[simp] theorem State.modTeam_taken (uid : Nat) (f : Team → Team) : (s.modTeam uid f).taken = s.taken := rfl
@[simp] theorem State.modTeam_feeds (uid : Nat) (f : Team → Team) : (s.modTeam uid f).feeds = s.feeds := rfl
@[simp] theorem State.modTeam_systemFeed (uid : Nat) (f : Team → Team) : (s.modTeam uid f).systemFeed = s.systemFeed := rfl
@[simp] theorem State.modTeam_completions (uid : Nat) (f : Team → Team) : (s.modTeam uid f).completions = s.completions := rfl
@[simp] theorem State.modTeam_nodes (uid : Nat) (f : Team → Team) : (s.modTeam uid f).nodes = s.nodes := rfl
@[simp] theorem State.modTeam_hbm (uid : Nat) (f : Team → Team) : (s.modTeam uid f).hbm = s.hbm := rfl
@[simp] theorem State.modTeam_hbmAllow (uid : Nat) (f : Team → Team) : (s.modTeam uid f).hbmAllow = s.hbmAllow := rfl
@[simp] theorem State.modTeam_loads (uid : Nat) (f : Team → Team) : (s.modTeam uid f).loads = s.loads := rfl
@[simp] theorem State.modTeam_requests (uid : Nat) (f : Team → Team) : (s.modTeam uid f).requests = s.requests := rfl
@[simp] theorem State.modTeam_acc (uid : Nat) (f : Team → Team) : (s.modTeam uid f).acc = s.acc := rfl
@[simp] theorem State.modTeam_accPins (uid : Nat) (f : Team → Team) : (s.modTeam uid f).accPins = s.accPins := rfl
@[simp] theorem State.modTeam_contributions (uid : Nat) (f : Team → Team) : (s.modTeam uid f).contributions = s.contributions := rfl
@[simp] theorem State.modTeam_versions (uid : Nat) (f : Team → Team) : (s.modTeam uid f).versions = s.versions := rfl
@[simp] theorem State.modTeam_incarnations (uid : Nat) (f : Team → Team) : (s.modTeam uid f).incarnations = s.incarnations := rfl
@[simp] theorem State.modTeam_proofs (uid : Nat) (f : Team → Team) : (s.modTeam uid f).proofs = s.proofs := rfl
@[simp] theorem State.modTeam_errSeq (uid : Nat) (f : Team → Team) : (s.modTeam uid f).errSeq = s.errSeq := rfl
@[simp] theorem State.modTeam_irqs (uid : Nat) (f : Team → Team) : (s.modTeam uid f).irqs = s.irqs := rfl
@[simp] theorem State.modTeam_replies (uid : Nat) (f : Team → Team) : (s.modTeam uid f).replies = s.replies := rfl
@[simp] theorem State.modTeam_lost (uid : Nat) (f : Team → Team) : (s.modTeam uid f).lost = s.lost := rfl
@[simp] theorem State.modTeam_deadChannels (uid : Nat) (f : Team → Team) : (s.modTeam uid f).deadChannels = s.deadChannels := rfl
@[simp] theorem State.modTeam_issue (uid : Nat) (f : Team → Team) : (s.modTeam uid f).issue = s.issue := rfl
@[simp] theorem State.modTeam_agenda (uid : Nat) (f : Team → Team) : (s.modTeam uid f).agenda = s.agenda := rfl
@[simp] theorem State.modTeam_waiting (uid : Nat) (f : Team → Team) : (s.modTeam uid f).waiting = s.waiting := rfl
@[simp] theorem State.modTeam_probe (uid : Nat) (f : Team → Team) : (s.modTeam uid f).probe = s.probe := rfl
@[simp] theorem State.modTeam_freeCount (uid : Nat) (f : Team → Team) : (s.modTeam uid f).freeCount = s.freeCount := rfl
@[simp] theorem State.modTeam_nextId (uid : Nat) (f : Team → Team) : (s.modTeam uid f).nextId = s.nextId := rfl
@[simp] theorem State.modTeam_clock (uid : Nat) (f : Team → Team) : (s.modTeam uid f).clock = s.clock := rfl
@[simp] theorem State.modTeam_turn (uid : Nat) (f : Team → Team) : (s.modTeam uid f).turn = s.turn := rfl

/-! ### modCore -/

@[simp] theorem State.modCore_boot (c : Nat) (f : Core → Core) : (s.modCore c f).boot = s.boot := rfl
@[simp] theorem State.modCore_meas (c : Nat) (f : Core → Core) : (s.modCore c f).meas = s.meas := rfl
@[simp] theorem State.modCore_sys (c : Nat) (f : Core → Core) : (s.modCore c f).sys = s.sys := rfl
@[simp] theorem State.modCore_conns (c : Nat) (f : Core → Core) : (s.modCore c f).conns = s.conns := rfl
@[simp] theorem State.modCore_mem (c : Nat) (f : Core → Core) : (s.modCore c f).mem = s.mem := rfl
@[simp] theorem State.modCore_poison (c : Nat) (f : Core → Core) : (s.modCore c f).poison = s.poison := rfl
@[simp] theorem State.modCore_confined (c : Nat) (f : Core → Core) : (s.modCore c f).confined = s.confined := rfl
@[simp] theorem State.modCore_dir (c : Nat) (f : Core → Core) : (s.modCore c f).dir = s.dir := rfl
@[simp] theorem State.modCore_binds (c : Nat) (f : Core → Core) : (s.modCore c f).binds = s.binds := rfl
@[simp] theorem State.modCore_pins (c : Nat) (f : Core → Core) : (s.modCore c f).pins = s.pins := rfl
@[simp] theorem State.modCore_homes (c : Nat) (f : Core → Core) : (s.modCore c f).homes = s.homes := rfl
@[simp] theorem State.modCore_repacks (c : Nat) (f : Core → Core) : (s.modCore c f).repacks = s.repacks := rfl
@[simp] theorem State.modCore_threads (c : Nat) (f : Core → Core) : (s.modCore c f).threads = s.threads := rfl
@[simp] theorem State.modCore_groups (c : Nat) (f : Core → Core) : (s.modCore c f).groups = s.groups := rfl
@[simp] theorem State.modCore_teams (c : Nat) (f : Core → Core) : (s.modCore c f).teams = s.teams := rfl
@[simp] theorem State.modCore_cores (c : Nat) (f : Core → Core) : (s.modCore c f).cores = mset ({} : Core) s.cores c (f (s.core c)) := rfl
@[simp] theorem State.modCore_dies (c : Nat) (f : Core → Core) : (s.modCore c f).dies = s.dies := rfl
@[simp] theorem State.modCore_grids (c : Nat) (f : Core → Core) : (s.modCore c f).grids = s.grids := rfl
@[simp] theorem State.modCore_taken (c : Nat) (f : Core → Core) : (s.modCore c f).taken = s.taken := rfl
@[simp] theorem State.modCore_feeds (c : Nat) (f : Core → Core) : (s.modCore c f).feeds = s.feeds := rfl
@[simp] theorem State.modCore_systemFeed (c : Nat) (f : Core → Core) : (s.modCore c f).systemFeed = s.systemFeed := rfl
@[simp] theorem State.modCore_completions (c : Nat) (f : Core → Core) : (s.modCore c f).completions = s.completions := rfl
@[simp] theorem State.modCore_nodes (c : Nat) (f : Core → Core) : (s.modCore c f).nodes = s.nodes := rfl
@[simp] theorem State.modCore_hbm (c : Nat) (f : Core → Core) : (s.modCore c f).hbm = s.hbm := rfl
@[simp] theorem State.modCore_hbmAllow (c : Nat) (f : Core → Core) : (s.modCore c f).hbmAllow = s.hbmAllow := rfl
@[simp] theorem State.modCore_loads (c : Nat) (f : Core → Core) : (s.modCore c f).loads = s.loads := rfl
@[simp] theorem State.modCore_requests (c : Nat) (f : Core → Core) : (s.modCore c f).requests = s.requests := rfl
@[simp] theorem State.modCore_acc (c : Nat) (f : Core → Core) : (s.modCore c f).acc = s.acc := rfl
@[simp] theorem State.modCore_accPins (c : Nat) (f : Core → Core) : (s.modCore c f).accPins = s.accPins := rfl
@[simp] theorem State.modCore_contributions (c : Nat) (f : Core → Core) : (s.modCore c f).contributions = s.contributions := rfl
@[simp] theorem State.modCore_versions (c : Nat) (f : Core → Core) : (s.modCore c f).versions = s.versions := rfl
@[simp] theorem State.modCore_incarnations (c : Nat) (f : Core → Core) : (s.modCore c f).incarnations = s.incarnations := rfl
@[simp] theorem State.modCore_proofs (c : Nat) (f : Core → Core) : (s.modCore c f).proofs = s.proofs := rfl
@[simp] theorem State.modCore_errSeq (c : Nat) (f : Core → Core) : (s.modCore c f).errSeq = s.errSeq := rfl
@[simp] theorem State.modCore_irqs (c : Nat) (f : Core → Core) : (s.modCore c f).irqs = s.irqs := rfl
@[simp] theorem State.modCore_replies (c : Nat) (f : Core → Core) : (s.modCore c f).replies = s.replies := rfl
@[simp] theorem State.modCore_lost (c : Nat) (f : Core → Core) : (s.modCore c f).lost = s.lost := rfl
@[simp] theorem State.modCore_deadChannels (c : Nat) (f : Core → Core) : (s.modCore c f).deadChannels = s.deadChannels := rfl
@[simp] theorem State.modCore_issue (c : Nat) (f : Core → Core) : (s.modCore c f).issue = s.issue := rfl
@[simp] theorem State.modCore_agenda (c : Nat) (f : Core → Core) : (s.modCore c f).agenda = s.agenda := rfl
@[simp] theorem State.modCore_waiting (c : Nat) (f : Core → Core) : (s.modCore c f).waiting = s.waiting := rfl
@[simp] theorem State.modCore_probe (c : Nat) (f : Core → Core) : (s.modCore c f).probe = s.probe := rfl
@[simp] theorem State.modCore_freeCount (c : Nat) (f : Core → Core) : (s.modCore c f).freeCount = s.freeCount := rfl
@[simp] theorem State.modCore_nextId (c : Nat) (f : Core → Core) : (s.modCore c f).nextId = s.nextId := rfl
@[simp] theorem State.modCore_clock (c : Nat) (f : Core → Core) : (s.modCore c f).clock = s.clock := rfl
@[simp] theorem State.modCore_turn (c : Nat) (f : Core → Core) : (s.modCore c f).turn = s.turn := rfl

/-! ### modDie -/

@[simp] theorem State.modDie_boot (d : Nat) (f : Die → Die) : (s.modDie d f).boot = s.boot := rfl
@[simp] theorem State.modDie_meas (d : Nat) (f : Die → Die) : (s.modDie d f).meas = s.meas := rfl
@[simp] theorem State.modDie_sys (d : Nat) (f : Die → Die) : (s.modDie d f).sys = s.sys := rfl
@[simp] theorem State.modDie_conns (d : Nat) (f : Die → Die) : (s.modDie d f).conns = s.conns := rfl
@[simp] theorem State.modDie_mem (d : Nat) (f : Die → Die) : (s.modDie d f).mem = s.mem := rfl
@[simp] theorem State.modDie_poison (d : Nat) (f : Die → Die) : (s.modDie d f).poison = s.poison := rfl
@[simp] theorem State.modDie_confined (d : Nat) (f : Die → Die) : (s.modDie d f).confined = s.confined := rfl
@[simp] theorem State.modDie_dir (d : Nat) (f : Die → Die) : (s.modDie d f).dir = s.dir := rfl
@[simp] theorem State.modDie_binds (d : Nat) (f : Die → Die) : (s.modDie d f).binds = s.binds := rfl
@[simp] theorem State.modDie_pins (d : Nat) (f : Die → Die) : (s.modDie d f).pins = s.pins := rfl
@[simp] theorem State.modDie_homes (d : Nat) (f : Die → Die) : (s.modDie d f).homes = s.homes := rfl
@[simp] theorem State.modDie_repacks (d : Nat) (f : Die → Die) : (s.modDie d f).repacks = s.repacks := rfl
@[simp] theorem State.modDie_threads (d : Nat) (f : Die → Die) : (s.modDie d f).threads = s.threads := rfl
@[simp] theorem State.modDie_groups (d : Nat) (f : Die → Die) : (s.modDie d f).groups = s.groups := rfl
@[simp] theorem State.modDie_teams (d : Nat) (f : Die → Die) : (s.modDie d f).teams = s.teams := rfl
@[simp] theorem State.modDie_cores (d : Nat) (f : Die → Die) : (s.modDie d f).cores = s.cores := rfl
@[simp] theorem State.modDie_dies (d : Nat) (f : Die → Die) : (s.modDie d f).dies = mset ({} : Die) s.dies d (f (s.die d)) := rfl
@[simp] theorem State.modDie_grids (d : Nat) (f : Die → Die) : (s.modDie d f).grids = s.grids := rfl
@[simp] theorem State.modDie_taken (d : Nat) (f : Die → Die) : (s.modDie d f).taken = s.taken := rfl
@[simp] theorem State.modDie_feeds (d : Nat) (f : Die → Die) : (s.modDie d f).feeds = s.feeds := rfl
@[simp] theorem State.modDie_systemFeed (d : Nat) (f : Die → Die) : (s.modDie d f).systemFeed = s.systemFeed := rfl
@[simp] theorem State.modDie_completions (d : Nat) (f : Die → Die) : (s.modDie d f).completions = s.completions := rfl
@[simp] theorem State.modDie_nodes (d : Nat) (f : Die → Die) : (s.modDie d f).nodes = s.nodes := rfl
@[simp] theorem State.modDie_hbm (d : Nat) (f : Die → Die) : (s.modDie d f).hbm = s.hbm := rfl
@[simp] theorem State.modDie_hbmAllow (d : Nat) (f : Die → Die) : (s.modDie d f).hbmAllow = s.hbmAllow := rfl
@[simp] theorem State.modDie_loads (d : Nat) (f : Die → Die) : (s.modDie d f).loads = s.loads := rfl
@[simp] theorem State.modDie_requests (d : Nat) (f : Die → Die) : (s.modDie d f).requests = s.requests := rfl
@[simp] theorem State.modDie_acc (d : Nat) (f : Die → Die) : (s.modDie d f).acc = s.acc := rfl
@[simp] theorem State.modDie_accPins (d : Nat) (f : Die → Die) : (s.modDie d f).accPins = s.accPins := rfl
@[simp] theorem State.modDie_contributions (d : Nat) (f : Die → Die) : (s.modDie d f).contributions = s.contributions := rfl
@[simp] theorem State.modDie_versions (d : Nat) (f : Die → Die) : (s.modDie d f).versions = s.versions := rfl
@[simp] theorem State.modDie_incarnations (d : Nat) (f : Die → Die) : (s.modDie d f).incarnations = s.incarnations := rfl
@[simp] theorem State.modDie_proofs (d : Nat) (f : Die → Die) : (s.modDie d f).proofs = s.proofs := rfl
@[simp] theorem State.modDie_errSeq (d : Nat) (f : Die → Die) : (s.modDie d f).errSeq = s.errSeq := rfl
@[simp] theorem State.modDie_irqs (d : Nat) (f : Die → Die) : (s.modDie d f).irqs = s.irqs := rfl
@[simp] theorem State.modDie_replies (d : Nat) (f : Die → Die) : (s.modDie d f).replies = s.replies := rfl
@[simp] theorem State.modDie_lost (d : Nat) (f : Die → Die) : (s.modDie d f).lost = s.lost := rfl
@[simp] theorem State.modDie_deadChannels (d : Nat) (f : Die → Die) : (s.modDie d f).deadChannels = s.deadChannels := rfl
@[simp] theorem State.modDie_issue (d : Nat) (f : Die → Die) : (s.modDie d f).issue = s.issue := rfl
@[simp] theorem State.modDie_agenda (d : Nat) (f : Die → Die) : (s.modDie d f).agenda = s.agenda := rfl
@[simp] theorem State.modDie_waiting (d : Nat) (f : Die → Die) : (s.modDie d f).waiting = s.waiting := rfl
@[simp] theorem State.modDie_probe (d : Nat) (f : Die → Die) : (s.modDie d f).probe = s.probe := rfl
@[simp] theorem State.modDie_freeCount (d : Nat) (f : Die → Die) : (s.modDie d f).freeCount = s.freeCount := rfl
@[simp] theorem State.modDie_nextId (d : Nat) (f : Die → Die) : (s.modDie d f).nextId = s.nextId := rfl
@[simp] theorem State.modDie_clock (d : Nat) (f : Die → Die) : (s.modDie d f).clock = s.clock := rfl
@[simp] theorem State.modDie_turn (d : Nat) (f : Die → Die) : (s.modDie d f).turn = s.turn := rfl

/-! ### setSys -/

@[simp] theorem State.setSys_boot (n : Nat) (v : DWord) : (s.setSys n v).boot = s.boot := rfl
@[simp] theorem State.setSys_meas (n : Nat) (v : DWord) : (s.setSys n v).meas = s.meas := rfl
@[simp] theorem State.setSys_sys (n : Nat) (v : DWord) : (s.setSys n v).sys = if v = sysReset n then mdel s.sys n else mput s.sys n v := rfl
@[simp] theorem State.setSys_conns (n : Nat) (v : DWord) : (s.setSys n v).conns = s.conns := rfl
@[simp] theorem State.setSys_mem (n : Nat) (v : DWord) : (s.setSys n v).mem = s.mem := rfl
@[simp] theorem State.setSys_poison (n : Nat) (v : DWord) : (s.setSys n v).poison = s.poison := rfl
@[simp] theorem State.setSys_confined (n : Nat) (v : DWord) : (s.setSys n v).confined = s.confined := rfl
@[simp] theorem State.setSys_dir (n : Nat) (v : DWord) : (s.setSys n v).dir = s.dir := rfl
@[simp] theorem State.setSys_binds (n : Nat) (v : DWord) : (s.setSys n v).binds = s.binds := rfl
@[simp] theorem State.setSys_pins (n : Nat) (v : DWord) : (s.setSys n v).pins = s.pins := rfl
@[simp] theorem State.setSys_homes (n : Nat) (v : DWord) : (s.setSys n v).homes = s.homes := rfl
@[simp] theorem State.setSys_repacks (n : Nat) (v : DWord) : (s.setSys n v).repacks = s.repacks := rfl
@[simp] theorem State.setSys_threads (n : Nat) (v : DWord) : (s.setSys n v).threads = s.threads := rfl
@[simp] theorem State.setSys_groups (n : Nat) (v : DWord) : (s.setSys n v).groups = s.groups := rfl
@[simp] theorem State.setSys_teams (n : Nat) (v : DWord) : (s.setSys n v).teams = s.teams := rfl
@[simp] theorem State.setSys_cores (n : Nat) (v : DWord) : (s.setSys n v).cores = s.cores := rfl
@[simp] theorem State.setSys_dies (n : Nat) (v : DWord) : (s.setSys n v).dies = s.dies := rfl
@[simp] theorem State.setSys_grids (n : Nat) (v : DWord) : (s.setSys n v).grids = s.grids := rfl
@[simp] theorem State.setSys_taken (n : Nat) (v : DWord) : (s.setSys n v).taken = s.taken := rfl
@[simp] theorem State.setSys_feeds (n : Nat) (v : DWord) : (s.setSys n v).feeds = s.feeds := rfl
@[simp] theorem State.setSys_systemFeed (n : Nat) (v : DWord) : (s.setSys n v).systemFeed = s.systemFeed := rfl
@[simp] theorem State.setSys_completions (n : Nat) (v : DWord) : (s.setSys n v).completions = s.completions := rfl
@[simp] theorem State.setSys_nodes (n : Nat) (v : DWord) : (s.setSys n v).nodes = s.nodes := rfl
@[simp] theorem State.setSys_hbm (n : Nat) (v : DWord) : (s.setSys n v).hbm = s.hbm := rfl
@[simp] theorem State.setSys_hbmAllow (n : Nat) (v : DWord) : (s.setSys n v).hbmAllow = s.hbmAllow := rfl
@[simp] theorem State.setSys_loads (n : Nat) (v : DWord) : (s.setSys n v).loads = s.loads := rfl
@[simp] theorem State.setSys_requests (n : Nat) (v : DWord) : (s.setSys n v).requests = s.requests := rfl
@[simp] theorem State.setSys_acc (n : Nat) (v : DWord) : (s.setSys n v).acc = s.acc := rfl
@[simp] theorem State.setSys_accPins (n : Nat) (v : DWord) : (s.setSys n v).accPins = s.accPins := rfl
@[simp] theorem State.setSys_contributions (n : Nat) (v : DWord) : (s.setSys n v).contributions = s.contributions := rfl
@[simp] theorem State.setSys_versions (n : Nat) (v : DWord) : (s.setSys n v).versions = s.versions := rfl
@[simp] theorem State.setSys_incarnations (n : Nat) (v : DWord) : (s.setSys n v).incarnations = s.incarnations := rfl
@[simp] theorem State.setSys_proofs (n : Nat) (v : DWord) : (s.setSys n v).proofs = s.proofs := rfl
@[simp] theorem State.setSys_errSeq (n : Nat) (v : DWord) : (s.setSys n v).errSeq = s.errSeq := rfl
@[simp] theorem State.setSys_irqs (n : Nat) (v : DWord) : (s.setSys n v).irqs = s.irqs := rfl
@[simp] theorem State.setSys_replies (n : Nat) (v : DWord) : (s.setSys n v).replies = s.replies := rfl
@[simp] theorem State.setSys_lost (n : Nat) (v : DWord) : (s.setSys n v).lost = s.lost := rfl
@[simp] theorem State.setSys_deadChannels (n : Nat) (v : DWord) : (s.setSys n v).deadChannels = s.deadChannels := rfl
@[simp] theorem State.setSys_issue (n : Nat) (v : DWord) : (s.setSys n v).issue = s.issue := rfl
@[simp] theorem State.setSys_agenda (n : Nat) (v : DWord) : (s.setSys n v).agenda = s.agenda := rfl
@[simp] theorem State.setSys_waiting (n : Nat) (v : DWord) : (s.setSys n v).waiting = s.waiting := rfl
@[simp] theorem State.setSys_probe (n : Nat) (v : DWord) : (s.setSys n v).probe = s.probe := rfl
@[simp] theorem State.setSys_freeCount (n : Nat) (v : DWord) : (s.setSys n v).freeCount = s.freeCount := rfl
@[simp] theorem State.setSys_nextId (n : Nat) (v : DWord) : (s.setSys n v).nextId = s.nextId := rfl
@[simp] theorem State.setSys_clock (n : Nat) (v : DWord) : (s.setSys n v).clock = s.clock := rfl
@[simp] theorem State.setSys_turn (n : Nat) (v : DWord) : (s.setSys n v).turn = s.turn := rfl

/-! ### atWord -/

@[simp] theorem State.atWord_boot (a : DWord) (w : Word) : (s.atWord a w).boot = s.boot := rfl
@[simp] theorem State.atWord_meas (a : DWord) (w : Word) : (s.atWord a w).meas = s.meas := rfl
@[simp] theorem State.atWord_sys (a : DWord) (w : Word) : (s.atWord a w).sys = s.sys := rfl
@[simp] theorem State.atWord_conns (a : DWord) (w : Word) : (s.atWord a w).conns = s.conns := rfl
@[simp] theorem State.atWord_mem (a : DWord) (w : Word) : (s.atWord a w).mem = s.mem := rfl
@[simp] theorem State.atWord_poison (a : DWord) (w : Word) : (s.atWord a w).poison = s.poison := rfl
@[simp] theorem State.atWord_confined (a : DWord) (w : Word) : (s.atWord a w).confined = s.confined := rfl
@[simp] theorem State.atWord_dir (a : DWord) (w : Word) : (s.atWord a w).dir = s.dir := rfl
@[simp] theorem State.atWord_binds (a : DWord) (w : Word) : (s.atWord a w).binds = s.binds := rfl
@[simp] theorem State.atWord_pins (a : DWord) (w : Word) : (s.atWord a w).pins = s.pins := rfl
@[simp] theorem State.atWord_homes (a : DWord) (w : Word) : (s.atWord a w).homes = s.homes := rfl
@[simp] theorem State.atWord_repacks (a : DWord) (w : Word) : (s.atWord a w).repacks = s.repacks := rfl
@[simp] theorem State.atWord_threads (a : DWord) (w : Word) : (s.atWord a w).threads = s.threads := rfl
@[simp] theorem State.atWord_groups (a : DWord) (w : Word) : (s.atWord a w).groups = s.groups := rfl
@[simp] theorem State.atWord_teams (a : DWord) (w : Word) : (s.atWord a w).teams = s.teams := rfl
@[simp] theorem State.atWord_cores (a : DWord) (w : Word) : (s.atWord a w).cores = s.cores := rfl
@[simp] theorem State.atWord_dies (a : DWord) (w : Word) : (s.atWord a w).dies = s.dies := rfl
@[simp] theorem State.atWord_grids (a : DWord) (w : Word) : (s.atWord a w).grids = s.grids := rfl
@[simp] theorem State.atWord_taken (a : DWord) (w : Word) : (s.atWord a w).taken = s.taken := rfl
@[simp] theorem State.atWord_feeds (a : DWord) (w : Word) : (s.atWord a w).feeds = s.feeds := rfl
@[simp] theorem State.atWord_systemFeed (a : DWord) (w : Word) : (s.atWord a w).systemFeed = s.systemFeed := rfl
@[simp] theorem State.atWord_completions (a : DWord) (w : Word) : (s.atWord a w).completions = s.completions := rfl
@[simp] theorem State.atWord_nodes (a : DWord) (w : Word) : (s.atWord a w).nodes = s.nodes := rfl
@[simp] theorem State.atWord_hbm (a : DWord) (w : Word) : (s.atWord a w).hbm = s.hbm := rfl
@[simp] theorem State.atWord_hbmAllow (a : DWord) (w : Word) : (s.atWord a w).hbmAllow = s.hbmAllow := rfl
@[simp] theorem State.atWord_loads (a : DWord) (w : Word) : (s.atWord a w).loads = s.loads := rfl
@[simp] theorem State.atWord_requests (a : DWord) (w : Word) : (s.atWord a w).requests = s.requests := rfl
@[simp] theorem State.atWord_acc (a : DWord) (w : Word) : (s.atWord a w).acc = s.acc := rfl
@[simp] theorem State.atWord_accPins (a : DWord) (w : Word) : (s.atWord a w).accPins = s.accPins := rfl
@[simp] theorem State.atWord_contributions (a : DWord) (w : Word) : (s.atWord a w).contributions = s.contributions := rfl
@[simp] theorem State.atWord_versions (a : DWord) (w : Word) : (s.atWord a w).versions = s.versions := rfl
@[simp] theorem State.atWord_incarnations (a : DWord) (w : Word) : (s.atWord a w).incarnations = s.incarnations := rfl
@[simp] theorem State.atWord_proofs (a : DWord) (w : Word) : (s.atWord a w).proofs = s.proofs := rfl
@[simp] theorem State.atWord_errSeq (a : DWord) (w : Word) : (s.atWord a w).errSeq = s.errSeq := rfl
@[simp] theorem State.atWord_irqs (a : DWord) (w : Word) : (s.atWord a w).irqs = s.irqs := rfl
@[simp] theorem State.atWord_replies (a : DWord) (w : Word) : (s.atWord a w).replies = s.replies := rfl
@[simp] theorem State.atWord_lost (a : DWord) (w : Word) : (s.atWord a w).lost = s.lost := rfl
@[simp] theorem State.atWord_deadChannels (a : DWord) (w : Word) : (s.atWord a w).deadChannels = s.deadChannels := rfl
@[simp] theorem State.atWord_issue (a : DWord) (w : Word) : (s.atWord a w).issue = { s.issue with word := w, addr := a } := rfl
@[simp] theorem State.atWord_agenda (a : DWord) (w : Word) : (s.atWord a w).agenda = s.agenda := rfl
@[simp] theorem State.atWord_waiting (a : DWord) (w : Word) : (s.atWord a w).waiting = s.waiting := rfl
@[simp] theorem State.atWord_probe (a : DWord) (w : Word) : (s.atWord a w).probe = s.probe := rfl
@[simp] theorem State.atWord_freeCount (a : DWord) (w : Word) : (s.atWord a w).freeCount = s.freeCount := rfl
@[simp] theorem State.atWord_nextId (a : DWord) (w : Word) : (s.atWord a w).nextId = s.nextId := rfl
@[simp] theorem State.atWord_clock (a : DWord) (w : Word) : (s.atWord a w).clock = s.clock := rfl
@[simp] theorem State.atWord_turn (a : DWord) (w : Word) : (s.atWord a w).turn = s.turn := rfl

/-! ### What tables read as -/

@[simp] theorem State.thread_setThread_same (tid : Nat) (x : Thread) : (s.setThread tid x).thread tid = x := by simp [State.thread]
theorem State.thread_setThread_other (tid y : Nat) (x : Thread) (h : y ≠ tid) : (s.setThread tid x).thread y = s.thread y := by
  simp [State.thread, mget_mput_other _ _ _ _ _ h]
@[simp] theorem State.thread_modThread_same (tid : Nat) (f : Thread → Thread) : (s.modThread tid f).thread tid = f (s.thread tid) := by
  simp [State.modThread]
theorem State.thread_modThread_other (tid y : Nat) (f : Thread → Thread) (h : y ≠ tid) : (s.modThread tid f).thread y = s.thread y := by
  simp [State.modThread, State.thread_setThread_other _ _ _ _ h]
@[simp] theorem State.group_setGroup_same (gid : Nat) (x : Group) : (s.setGroup gid x).group gid = x := by simp [State.group]
theorem State.group_setGroup_other (gid y : Nat) (x : Group) (h : y ≠ gid) : (s.setGroup gid x).group y = s.group y := by
  simp [State.group, mget_mput_other _ _ _ _ _ h]
@[simp] theorem State.group_modGroup_same (gid : Nat) (f : Group → Group) : (s.modGroup gid f).group gid = f (s.group gid) := by
  simp [State.modGroup]
theorem State.group_modGroup_other (gid y : Nat) (f : Group → Group) (h : y ≠ gid) : (s.modGroup gid f).group y = s.group y := by
  simp [State.modGroup, State.group_setGroup_other _ _ _ _ h]

/-- A team that stands in the table is the changed one. -/
theorem State.team_modTeam_same (uid : Nat) (f : Team → Team) (h : (mfind s.teams uid).isSome) : (s.modTeam uid f).team uid = f (s.team uid) := by
  obtain ⟨t, ht⟩ := Option.isSome_iff_exists.1 h
  simp [State.team, mget, mfind_mmod, ht]
theorem State.team_modTeam_other (uid y : Nat) (f : Team → Team) (h : y ≠ uid) : (s.modTeam uid f).team y = s.team y := by
  simp [State.team, mget, mfind_mmod, h]
@[simp] theorem State.core_modCore_same (c : Nat) (f : Core → Core) : (s.modCore c f).core c = f (s.core c) := by simp [State.core]
theorem State.core_modCore_other (c y : Nat) (f : Core → Core) (h : y ≠ c) : (s.modCore c f).core y = s.core y := by
  simp [State.core, mget_mset_other _ _ _ _ _ h]
@[simp] theorem State.die_modDie_same (d : Nat) (f : Die → Die) : (s.modDie d f).die d = f (s.die d) := by simp [State.die]
theorem State.die_modDie_other (d y : Nat) (f : Die → Die) (h : y ≠ d) : (s.modDie d f).die y = s.die y := by
  simp [State.die, mget_mset_other _ _ _ _ _ h]
@[simp] theorem State.sysReg_setSys_same (n : Nat) (v : DWord) : (s.setSys n v).sysReg n = v := by
  unfold State.sysReg
  by_cases h : v = sysReset n <;> simp [h]
theorem State.sysReg_setSys_other (n m : Nat) (v : DWord) (h : m ≠ n) : (s.setSys n v).sysReg m = s.sysReg m := by
  unfold State.sysReg
  by_cases hv : v = sysReset n <;> simp [hv, mfind_mdel_other _ _ _ h, mfind_mput_other _ _ _ _ h]

end Sys2Proof.Machine
end

