-- ==== Sys2Proof/Laws/Issue.lean ====
section
/-! SUPPORT. What a word does to its issuing set: the lanes that pass, lane by lane, and the shapes of the families. -/

namespace Sys2Proof.Machine

/-! ### Passing and failing lanes -/

theorem Runs.ne {i : Instr} {s : State} (h : Runs i s) : s.issue.lanes ≠ [] := h.1.1
theorem Runs.sorted {i : Instr} {s : State} (h : Runs i s) : s.issue.lanes.Pairwise (· < ·) := h.1.2.1
theorem Runs.group {i : Instr} {s : State} (h : Runs i s) {l : Nat} (hl : l ∈ s.issue.lanes) : grpOf l = s.issue.group := h.1.2.2 l hl

theorem Runs.passing_eq {i : Instr} {s : State} (h : Runs i s) : passing s i = s.issue.lanes := by
  unfold passing
  split
  · rfl
  · rcases h.2 with hc | hv
    · contradiction
    · exact List.filter_eq_self.2 (fun l hl => by simp [hv l hl])

theorem Runs.failing_eq {i : Instr} {s : State} (h : Runs i s) : failing s i = [] := by
  unfold failing
  split
  · rfl
  · rcases h.2 with hc | hv
    · contradiction
    · refine List.filter_eq_nil_iff.2 ?_
      intro p hp
      obtain ⟨l, hl, rfl⟩ := List.mem_map.1 hp
      simp [hv l hl]

theorem takeTrap_nil (s : State) (gid : Nat) : takeTrap s gid [] = s := rfl

theorem stopLanes_nil (s : State) : stopLanes s [] = s := rfl

/-- A word whose set passes has its effect on the whole set. -/
theorem issued_eq {i : Instr} {s : State} (h : Runs i s) (eff : State → List Nat → State) : issued i s eff = .next (eff s s.issue.lanes) := by
  unfold issued issueWord
  rw [h.failing_eq, h.passing_eq, stopLanes_nil]
  simp [h.ne]

/-! ### Lane by lane -/

/-- Lanes in turn, each changing its own thread alone: the threads of the list are changed, nothing else. -/
theorem eachLane_threads (f : State → Nat → Thread) (g : State → Nat → State) (ls : List Nat) (hn : ls.Nodup)
    (hg : ∀ s l, g s l = s.setThread l (f s l))
    (hf : ∀ s l m, l ≠ m → ∀ x, f (s.setThread m x) l = f s l) (s : State) :
    eachLane g s ls = { s with threads := (eachLane g s ls).threads } ∧
    (∀ x, x ∉ ls → mfind (eachLane g s ls).threads x = mfind s.threads x) ∧ ∀ l ∈ ls, (eachLane g s ls).thread l = f s l := by
  induction ls generalizing s with
  | nil => simp [eachLane]
  | cons l ls ih =>
    obtain ⟨hl, hls⟩ := List.nodup_cons.1 hn
    obtain ⟨h1, h2, h3⟩ := ih hls (g s l)
    simp only [eachLane]
    rw [hg] at h1 h2 h3 ⊢
    refine ⟨?_, ?_, ?_⟩
    · rw [h1]; rfl
    · intro x hx
      rw [h2 x (fun hm => hx (List.mem_cons_of_mem _ hm))]
      exact mfind_mput_other _ _ _ _ (fun h => hx (h ▸ List.mem_cons_self ..))
    · intro m hm
      rcases List.mem_cons.1 hm with rfl | hm
      · have : mfind (eachLane g (s.setThread m (f s m)) ls).threads m = some (f s m) := by
          rw [h2 m hl]; simp
        simp [State.thread, mget, this]
      · rw [h3 m hm]
        exact hf s m l (fun h => hl (h ▸ hm)) _

theorem nodup_of_sorted {ls : List Nat} (h : ls.Pairwise (· < ·)) : ls.Nodup := h.imp (fun h => Nat.ne_of_lt h)

/-! ### Sources are read before results -/

@[simp] theorem State.pre_setThread_other (s : State) (l m : Nat) (h : l ≠ m) (x : Thread) : (s.setThread m x).pre l = s.pre l := by
  simp [State.pre, State.thread_setThread_other _ _ _ _ h]
theorem State.src_setThread_other (s : State) (l m : Nat) (h : l ≠ m) (x : Thread) : (s.setThread m x).src l = s.src l := by
  funext c; simp [State.src, h]
theorem State.gsrc_setThread_other (s : State) (l m : Nat) (h : l ≠ m) (x : Thread) : (s.setThread m x).gsrc l = s.gsrc l := by
  funext c; simp [State.gsrc, h]
theorem State.wide_setThread_other (s : State) (l m : Nat) (h : l ≠ m) (x : Thread) : (s.setThread m x).wide l = s.wide l := by
  funext c; simp [State.wide, State.gsrc, State.src64, h]
theorem State.narrow_setThread_other (s : State) (l m : Nat) (h : l ≠ m) (x : Thread) : (s.setThread m x).narrow l = s.narrow l := by
  funext c; simp [State.narrow, State.gsrc, State.src, h]
theorem State.amount_setThread_other (s : State) (l m : Nat) (h : l ≠ m) (x : Thread) : (s.setThread m x).amount l = s.amount l := by
  funext c; simp [State.amount, State.gsrc, State.src, h]

/-! ### The families -/

/-- A word whose effect is, lane by lane, a change of the lane's own thread from its own sources. -/
theorem laneGives_of (i : Instr) (f : State → Nat → Thread) (g : State → Nat → State)
    (he : ∀ s, exec i s = issued i s (eachLane g)) (hg : ∀ s l, g s l = s.setThread l (f s l))
    (hf : ∀ s l m, l ≠ m → ∀ x, f (s.setThread m x) l = f s l) : LaneGives i (fun s l th => th = f s l) := by
  intro s h
  have hk := eachLane_threads f g s.issue.lanes (nodup_of_sorted h.sorted) hg hf s
  exact ⟨_, by rw [he, issued_eq h], ⟨hk.1, hk.2.1⟩, hk.2.2⟩

theorem LaneGives.mono {i : Instr} {p q : State → Nat → Thread → Prop} (h : LaneGives i p) (hpq : ∀ s l th, p s l th → q s l th) : LaneGives i q := by
  intro s hr
  obtain ⟨t, he, ho, hl⟩ := h s hr
  exact ⟨t, he, ho, fun l hm => hpq _ _ _ (hl l hm)⟩

/-- The words of `aluWord`. -/
theorem aluWord_gives (i : Instr) (n : Bool) (d : Code) (f : (w : Nat) → (Code → BitVec w) → BitVec w)
    (he : ∀ s, exec i s = aluWord i n d f s) (rel : (w : Nat) → (Code → BitVec w) → BitVec w → Prop)
    (h32 : ∀ r, rel 32 r (f 32 r)) (h64 : ∀ r, rel 64 r (f 64 r)) : AluGives i n d rel := by
  have h := laneGives_of i
    (fun s l => if isBurin l then (s.thread l).gdst n d (f 64 (s.gsrc l)) else (s.thread l).dst .i n d (f 32 (s.src l)))
    (fun s l => if isBurin l then s.put64 .i l n d (f 64 (s.gsrc l)) else s.put .i l n d (f 32 (s.src l)))
    (fun s => by rw [he]; rfl)
    (fun s l => by by_cases hb : isBurin l <;> simp [hb, State.put, State.put64, State.modThread])
    (fun s l m hm x => by
      simp only [State.gsrc_setThread_other s l m hm x, State.src_setThread_other s l m hm x, State.thread_setThread_other s m l x hm])
  refine h.mono (fun s l th e => ?_)
  subst e
  by_cases hb : isBurin l <;> simp only [hb, ↓reduceIte]
  · exact ⟨_, h64 _, rfl⟩
  · exact ⟨_, h32 _, rfl⟩

/-- The words of `pairWord`. -/
theorem pairWord_gives (i : Instr) (n : Bool) (d : Code) (f : State → Nat → DWord) (he : ∀ s, exec i s = pairWord i n d f s)
    (hf : ∀ s l m, l ≠ m → ∀ x, f (s.setThread m x) l = f s l) (rel : State → Nat → DWord → Prop) (hr : ∀ s l, rel s l (f s l)) :
    PairGives i n d rel := by
  have h := laneGives_of i (fun s l => if isBurin l then (s.thread l).gdst n d (f s l) else (s.thread l).dst64 .i n d (f s l))
    (fun s l => s.put64 .i l n d (f s l)) (fun s => by rw [he]; rfl)
    (fun s l => by simp [State.put64, State.modThread])
    (fun s l m hm x => by simp only [hf s l m hm x, State.thread_setThread_other s m l x hm])
  exact h.mono (fun s l th e => ⟨_, hr s l, e⟩)

/-- Words of one 32-bit result per lane. -/
theorem putWord_gives (i : Instr) (p : Pipe) (n : Bool) (d : Code) (f : State → Nat → Word)
    (he : ∀ s, exec i s = issued i s (eachLane (fun s l => s.put p l n d (f s l))))
    (hf : ∀ s l m, l ≠ m → ∀ x, f (s.setThread m x) l = f s l) (rel : State → Nat → Word → Prop) (hr : ∀ s l, rel s l (f s l)) :
    WordGives i p n d rel := by
  have h := laneGives_of i (fun s l => if isBurin l then (s.thread l).gdst n d ((f s l).setWidth 64) else (s.thread l).dst p n d (f s l))
    (fun s l => s.put p l n d (f s l)) he
    (fun s l => by simp [State.put, State.modThread])
    (fun s l m hm x => by simp only [hf s l m hm x, State.thread_setThread_other s m l x hm])
  exact h.mono (fun s l th e => ⟨_, hr s l, e⟩)

/-- Words of the crossing kind: every source is read before any result is written. -/
theorem crossWord_gives (i : Instr) (n : Bool) (d : Code) (f : State → List Nat → Nat → Word) (he : ∀ s, exec i s = crossWord i n d f s)
    (rel : State → Nat → Word → Prop) (hr : ∀ s l, rel s l (f s s.issue.lanes l)) : WordGives i .x n d rel := by
  intro s h
  have hk := eachLane_threads
    (fun s' l => if isBurin l then (s'.thread l).gdst n d ((f s s.issue.lanes l).setWidth 64) else (s'.thread l).dst .x n d (f s s.issue.lanes l))
    (fun s' l => s'.put .x l n d (f s s.issue.lanes l)) s.issue.lanes (nodup_of_sorted h.sorted)
    (fun s l => by simp [State.put, State.modThread])
    (fun s' l m hm x => by simp only [State.thread_setThread_other s' m l x hm]) s
  refine ⟨_, by rw [he]; unfold crossWord; rw [issued_eq h], ⟨hk.1, hk.2.1⟩, fun l hl => ⟨_, hr s l, ?_⟩⟩
  exact hk.2.2 l hl

end Sys2Proof.Machine
end

