-- ==== Sys2Proof/Laws/Memory.lean ====
section
/-! SUPPORT. What the operations of memory do: their frames, what is read after a write, and that each keeps the canonical form. -/

namespace Sys2Proof.Machine

/-! ### Little-endian numbers -/

@[simp] theorem leBytes_length (n x : Nat) : (leBytes n x).length = n := by
  induction n generalizing x with
  | zero => rfl
  | succ n ih => simp [leBytes, ih]

theorem leNat_leBytes (n x : Nat) : leNat (leBytes n x) = x % 2 ^ (8 * n) := by
  induction n generalizing x with
  | zero => simp [leBytes, leNat, Nat.mod_one]
  | succ n ih =>
    have h : 2 ^ (8 * (n + 1)) = 256 * 2 ^ (8 * n) := by rw [show 8 * (n + 1) = 8 + 8 * n by omega, Nat.pow_add]
    simp only [leBytes, leNat, ih, BitVec.toNat_ofNat, h]
    rw [Nat.mod_mul]

@[simp] theorem readBytes_length (s : State) (l : Loc) (n : Nat) : (readBytes s l n).length = n := by
  induction n generalizing l with
  | zero => rfl
  | succ n ih => simp [readBytes, ih]

theorem Loc.plus_plus (l : Loc) (m n : Nat) : (l.plus m).plus n = l.plus (m + n) := by
  cases l <;> simp [Loc.plus, Nat.add_assoc]

theorem Loc.plus_zero (l : Loc) : l.plus 0 = l := by cases l <;> rfl

theorem readBytes_getD (s : State) (l : Loc) (n i : Nat) (h : i < n) : (readBytes s l n).getD i 0 = readByte s (l.plus i) := by
  induction n generalizing l i with
  | zero => omega
  | succ n ih =>
    cases i with
    | zero => simp [readBytes, Loc.plus_zero]
    | succ i =>
      have := ih (l.plus 1) i (by omega)
      simp only [readBytes, List.getD_cons_succ, this, Loc.plus_plus]
      rw [Nat.add_comm]

/-- Reads of equal bytes are equal. -/
theorem readBytes_congr {s t : State} (l m : Loc) (n : Nat) (h : ∀ i, i < n → readByte t (m.plus i) = readByte s (l.plus i)) : readBytes t m n = readBytes s l n := by
  induction n generalizing l m with
  | zero => rfl
  | succ n ih =>
    simp only [readBytes]
    have h0 : readByte t m = readByte s l := by simpa [Loc.plus_zero] using h 0 (by omega)
    rw [h0, ih (l.plus 1) (m.plus 1) (fun i hi => ?_)]
    have := h (i + 1) (by omega)
    rw [Loc.plus_plus, Loc.plus_plus, Nat.add_comm 1 i]; exact this

theorem readNat_lt (s : State) (l : Loc) (n : Nat) : readNat s l n < 2 ^ (8 * n) := by
  unfold readNat
  induction n generalizing l with
  | zero => simp [readBytes, leNat]
  | succ n ih =>
    have h : 2 ^ (8 * (n + 1)) = 256 * 2 ^ (8 * n) := by rw [show 8 * (n + 1) = 8 + 8 * n by omega, Nat.pow_add]
    have h1 := ih (l.plus 1)
    have h2 := (readByte s l).isLt
    simp only [readBytes, leNat, h]
    omega

/-! ### Places -/

theorem resolve_phys {s : State} (h : s.binds = []) (l : Loc) : resolve s l = l := by
  cases l <;> simp [resolve, h]

@[simp] theorem resolve_scratch (s : State) (u o : Nat) : resolve s (.scratch u o) = .scratch u o := rfl

theorem resolve_congr {s t : State} (h : t.binds = s.binds) (l : Loc) : resolve t l = resolve s l := by
  cases l <;> simp [resolve, h]

theorem readByte_congr {s t : State} (hb : t.binds = s.binds) (hm : t.mem = s.mem) (ht : t.teams = s.teams) (l : Loc) : readByte t l = readByte s l := by
  unfold readByte
  rw [resolve_congr hb]
  cases resolve s l <;> simp [rawByte, hm, State.team, ht]

theorem readBytes_same {s t : State} (hb : t.binds = s.binds) (hm : t.mem = s.mem) (ht : t.teams = s.teams) (l : Loc) (n : Nat) : readBytes t l n = readBytes s l n :=
  readBytes_congr l l n (fun _ _ => readByte_congr hb hm ht _)

/-! ### Frames: a write changes memory bytes and scratchpads alone -/

/-- Only memory, its poison and what teams hold in their scratchpads differ. -/
def OnlyBytes (s t : State) : Prop := t = { s with mem := t.mem, teams := t.teams, poison := t.poison, confined := t.confined }

theorem OnlyBytes.refl (s : State) : OnlyBytes s s := rfl

theorem OnlyBytes.trans {s t u : State} (h : OnlyBytes s t) (k : OnlyBytes t u) : OnlyBytes s u := by
  unfold OnlyBytes at *
  rw [k, h]

theorem rawSet_only (s : State) (l : Loc) (v : Byte) : OnlyBytes s (rawSet s l v) := by
  unfold OnlyBytes rawSet
  cases l with
  | phys a => simp only; split <;> rfl
  | scratch t o => rfl

theorem writeByte_only (s : State) (l : Loc) (v : Byte) : OnlyBytes s (writeByte s l v) := rawSet_only s _ v

theorem writeBytes_only (s : State) (l : Loc) (vs : List Byte) : OnlyBytes s (writeBytes s l vs) := by
  induction vs generalizing s l with
  | nil => rfl
  | cons v vs ih => exact (writeByte_only s l v).trans (ih _ _)

theorem setPoison_only (s : State) (l : Loc) (on : Bool) : OnlyBytes s (setPoison s l on) := by
  unfold OnlyBytes setPoison
  split <;> rfl

theorem writeBeat_only (s : State) (l : Loc) (vs : List Byte) (bad : Bool) : OnlyBytes s (writeBeat s l vs bad) := by
  unfold writeBeat
  simp only
  split
  · exact (writeBytes_only s l vs).trans (setPoison_only _ _ _)
  · split
    · exact (writeBytes_only s l vs).trans (setPoison_only _ _ _)
    · exact writeBytes_only s l vs

theorem writeBeats_only (n : Nat) (s : State) (l : Loc) (vs : List Byte) : OnlyBytes s (writeBeats n s l vs) := by
  induction n generalizing s l vs with
  | zero => rfl
  | succ n ih =>
    simp only [writeBeats]
    split
    · rfl
    · exact (writeBeat_only _ _ _ _).trans (ih _ _ _)

theorem writeOut_only (s : State) (l : Loc) (vs : List Byte) : OnlyBytes s (writeOut s l vs) := writeBeats_only _ s l vs
theorem writeNat_only (s : State) (l : Loc) (n v : Nat) : OnlyBytes s (writeNat s l n v) := writeBytes_only s l _

theorem OnlyBytes.binds {s t : State} (h : OnlyBytes s t) : t.binds = s.binds := by rw [h]
theorem OnlyBytes.lost {s t : State} (h : OnlyBytes s t) : t.lost = s.lost := by rw [h]
theorem OnlyBytes.threads {s t : State} (h : OnlyBytes s t) : t.threads = s.threads := by rw [h]
theorem OnlyBytes.sys {s t : State} (h : OnlyBytes s t) : t.sys = s.sys := by rw [h]
theorem OnlyBytes.probe {s t : State} (h : OnlyBytes s t) : t.probe = s.probe := by rw [h]
theorem OnlyBytes.eitherWalk {s t : State} (h : OnlyBytes s t) (ctx va : Nat) : eitherWalk t ctx va = eitherWalk s ctx va := by
  rw [h]
  rfl
theorem OnlyBytes.sysReg {s t : State} (h : OnlyBytes s t) (n : Nat) : t.sysReg n = s.sysReg n := by simp [State.sysReg, h.sys]

/-! ### Read after write, where nothing is bound and every peer is reached -/

/-- No binding holds and no peer is lost: a physical place is itself. -/
def State.Plain (s : State) : Prop := s.binds = [] ∧ s.lost = []

theorem State.Plain.only {s t : State} (h : s.Plain) (k : OnlyBytes s t) : t.Plain := ⟨k.binds.trans h.1, k.lost.trans h.2⟩

theorem readByte_phys {s : State} (h : s.binds = []) (a : Nat) : readByte s (.phys a) = mget unwritten s.mem a := by
  simp [readByte, resolve_phys h, rawByte]

theorem writeByte_phys {s : State} (h : s.Plain) (a : Nat) (v : Byte) : writeByte s (.phys a) v = { s with mem := mset unwritten s.mem a v } := by
  simp [writeByte, resolve_phys h.1, rawSet, lostPeer, h.2]

theorem readByte_writeByte {s : State} (h : s.Plain) (a b : Nat) (v : Byte) :
    readByte (writeByte s (.phys a) v) (.phys b) = if b = a then v else readByte s (.phys b) := by
  rw [readByte_phys h.1, readByte_phys (h.only (writeByte_only s _ v)).1, writeByte_phys h]
  exact mget_mset _ _ _ _ _

/-- What memory reads as after bytes have been written to it: those bytes in their run, elsewhere what stood there. -/
theorem readByte_writeBytes {s : State} (h : s.Plain) (a b : Nat) (vs : List Byte) :
    readByte (writeBytes s (.phys a) vs) (.phys b) = if a ≤ b ∧ b < a + vs.length then vs.getD (b - a) 0 else readByte s (.phys b) := by
  induction vs generalizing s a with
  | nil => simp [writeBytes]
  | cons v vs ih =>
    have h1 : (writeByte s (.phys a) v).Plain := h.only (writeByte_only _ _ _)
    simp only [writeBytes, Loc.plus, ih h1, readByte_writeByte h, List.length_cons]
    by_cases hb : b = a
    · subst hb
      rw [if_neg (by omega), if_pos rfl, if_pos (by omega), Nat.sub_self]; rfl
    · by_cases hr : a + 1 ≤ b ∧ b < a + 1 + vs.length
      · rw [if_pos hr, if_pos (by omega)]
        obtain ⟨k, hk⟩ : ∃ k, b - a = k + 1 := ⟨b - a - 1, by omega⟩
        rw [hk, List.getD_cons_succ, show b - (a + 1) = k by omega]
      · rw [if_neg hr, if_neg hb, if_neg (by omega)]

/-- Poison marks no byte. -/
theorem readByte_setPoison (s : State) (l : Loc) (on : Bool) (m : Loc) : readByte (setPoison s l on) m = readByte s m := by
  have hb : (setPoison s l on).binds = s.binds := (setPoison_only s l on).binds
  unfold readByte
  rw [resolve_congr hb]
  unfold setPoison
  split
  · cases resolve s m <;> rfl
  · cases resolve s m with
    | phys a => rfl
    | scratch u o =>
      simp only [rawByte, State.team, State.modTeam, mget, mfind_mmod]
      split
      · subst_vars; cases mfind s.teams _ <;> rfl
      · rfl

theorem readByte_writeBeat (s : State) (l m : Loc) (vs : List Byte) (bad : Bool) : readByte (writeBeat s l vs bad) m = readByte (writeBytes s l vs) m := by
  unfold writeBeat
  simp only
  split
  · exact readByte_setPoison _ _ _ _
  · split
    · exact readByte_setPoison _ _ _ _
    · rfl

theorem granule_lt (l : Loc) : l.granule < 32 := by cases l <;> simp [Loc.granule] <;> omega

theorem readByte_writeBeats {s : State} (h : s.Plain) (n a b : Nat) (vs : List Byte) (hn : vs.length < n) :
    readByte (writeBeats n s (.phys a) vs) (.phys b) = if a ≤ b ∧ b < a + vs.length then vs.getD (b - a) 0 else readByte s (.phys b) := by
  induction n generalizing s a vs with
  | zero => omega
  | succ n ih =>
    simp only [writeBeats]
    split
    · rename_i he
      have : vs = [] := by simpa using he
      subst this; simp
    · rename_i he
      have hne : vs ≠ [] := by simpa using he
      have hl : 0 < vs.length := List.length_pos_iff.2 hne
      have hg := granule_lt (.phys a)
      generalize hk : 32 - (Loc.phys a).granule = k
      have hp : (writeBeat s (.phys a) (vs.take k) false).Plain := h.only (writeBeat_only _ _ _ _)
      rw [show (Loc.phys a).plus k = .phys (a + k) from rfl, ih hp (a + k) (vs.drop k) (by simp; omega), readByte_writeBeat, readByte_writeBytes h]
      simp only [List.length_drop, List.length_take]
      by_cases h1 : a + k ≤ b ∧ b < a + k + (vs.length - k)
      · rw [if_pos h1, if_pos (by omega), List.getD_eq_getElem?_getD, List.getElem?_drop, List.getD_eq_getElem?_getD, show k + (b - (a + k)) = b - a by omega]
      · rw [if_neg h1]
        by_cases h2 : a ≤ b ∧ b < a + min k vs.length
        · rw [if_pos h2, if_pos (by omega), List.getD_eq_getElem?_getD, List.getElem?_take, List.getD_eq_getElem?_getD, if_pos (by omega)]
        · rw [if_neg h2, if_neg (by omega)]

/-- What memory reads as after a write of the device or of an agent outside. -/
theorem readByte_writeOut {s : State} (h : s.Plain) (a b : Nat) (vs : List Byte) :
    readByte (writeOut s (.phys a) vs) (.phys b) = if a ≤ b ∧ b < a + vs.length then vs.getD (b - a) 0 else readByte s (.phys b) :=
  readByte_writeBeats h _ a b vs (by omega)

theorem readBytes_eq_of {s : State} (a n : Nat) (vs : List Byte) (hl : vs.length = n) (h : ∀ i, i < n → readByte s (.phys (a + i)) = vs.getD i 0) :
    readBytes s (.phys a) n = vs := by
  refine List.ext_getElem (by simp [hl]) (fun i h1 h2 => ?_)
  have e := readBytes_getD s (.phys a) n i (by simpa using h1)
  rw [List.getD_eq_getElem?_getD, List.getElem?_eq_getElem h1, Option.getD_some] at e
  rw [e, show (Loc.phys a).plus i = .phys (a + i) from rfl, h i (by simpa using h1), List.getD_eq_getElem?_getD, List.getElem?_eq_getElem h2, Option.getD_some]

theorem readBytes_writeBytes {s : State} (h : s.Plain) (a : Nat) (vs : List Byte) : readBytes (writeBytes s (.phys a) vs) (.phys a) vs.length = vs :=
  readBytes_eq_of a _ vs rfl (fun i hi => by rw [readByte_writeBytes h, if_pos (by omega), show a + i - a = i by omega])

theorem readBytes_writeOut {s : State} (h : s.Plain) (a : Nat) (vs : List Byte) : readBytes (writeOut s (.phys a) vs) (.phys a) vs.length = vs :=
  readBytes_eq_of a _ vs rfl (fun i hi => by rw [readByte_writeOut h, if_pos (by omega), show a + i - a = i by omega])

/-- A number written is read back, as far as its bytes hold it. -/
theorem readNat_writeNat {s : State} (h : s.Plain) (a n v : Nat) : readNat (writeNat s (.phys a) n v) (.phys a) n = v % 2 ^ (8 * n) := by
  have := readBytes_writeBytes h a (leBytes n v)
  rw [leBytes_length] at this
  rw [readNat, writeNat, this, leNat_leBytes]

/-- A number elsewhere is as it was. -/
theorem readNat_writeBytes_other {s : State} (h : s.Plain) (a b n : Nat) (vs : List Byte) (hd : b + n ≤ a ∨ a + vs.length ≤ b) :
    readNat (writeBytes s (.phys a) vs) (.phys b) n = readNat s (.phys b) n := by
  refine congrArg leNat (readBytes_congr _ _ _ (fun i hi => ?_))
  rw [show (Loc.phys b).plus i = .phys (b + i) from rfl, readByte_writeBytes h, if_neg (by omega)]

theorem readNat_writeOut_other {s : State} (h : s.Plain) (a b n : Nat) (vs : List Byte) (hd : b + n ≤ a ∨ a + vs.length ≤ b) :
    readNat (writeOut s (.phys a) vs) (.phys b) n = readNat s (.phys b) n := by
  refine congrArg leNat (readBytes_congr _ _ _ (fun i hi => ?_))
  rw [show (Loc.phys b).plus i = .phys (b + i) from rfl, readByte_writeOut h, if_neg (by omega)]

/-! ### Scratchpads -/

theorem readByte_scratch (s : State) (u o : Nat) : readByte s (.scratch u o) = mget 0 (s.team u).scratch o := rfl

theorem team_modTeam (s : State) (u x : Nat) (f : Team → Team) (h : (mfind s.teams u).isSome = true) :
    (s.modTeam u f).team x = if x = u then f (s.team u) else s.team x := by
  simp only [State.team, State.modTeam, mget, mfind_mmod]
  split
  · subst_vars
    obtain ⟨t, ht⟩ := Option.isSome_iff_exists.1 h
    simp [ht]
  · rfl

theorem isSome_modTeam (s : State) (u x : Nat) (f : Team → Team) : (mfind (s.modTeam u f).teams x).isSome = (mfind s.teams x).isSome := by
  simp only [State.modTeam, mfind_mmod]
  split <;> simp

theorem readByte_writeByte_scratch {s : State} (u o p : Nat) (v : Byte) (h : (mfind s.teams u).isSome = true) :
    readByte (writeByte s (.scratch u o) v) (.scratch u p) = if p = o then v else readByte s (.scratch u p) := by
  simp only [readByte_scratch, writeByte, resolve_scratch, rawSet, team_modTeam s u u _ h, if_true, mget_mset]

theorem readByte_writeBytes_scratch {s : State} (u o p : Nat) (vs : List Byte) (h : (mfind s.teams u).isSome = true) :
    readByte (writeBytes s (.scratch u o) vs) (.scratch u p) = if o ≤ p ∧ p < o + vs.length then vs.getD (p - o) 0 else readByte s (.scratch u p) := by
  induction vs generalizing s o with
  | nil => simp [writeBytes]
  | cons v vs ih =>
    have h1 : (mfind (writeByte s (.scratch u o) v).teams u).isSome = true := by
      rw [writeByte, resolve_scratch, rawSet, isSome_modTeam]; exact h
    simp only [writeBytes, Loc.plus, ih (o + 1) h1, readByte_writeByte_scratch u o p v h, List.length_cons]
    by_cases hb : p = o
    · subst hb
      rw [if_neg (by omega), if_pos rfl, if_pos (by omega), Nat.sub_self]; rfl
    · by_cases hr : o + 1 ≤ p ∧ p < o + 1 + vs.length
      · rw [if_pos hr, if_pos (by omega)]
        obtain ⟨k, hk⟩ : ∃ k, p - o = k + 1 := ⟨p - o - 1, by omega⟩
        rw [hk, List.getD_cons_succ, show p - (o + 1) = k by omega]
      · rw [if_neg hr, if_neg hb, if_neg (by omega)]

/-! ### The canonical form of memory -/

theorem rawSet_inv {s : State} (h : s.MemInv) (l : Loc) (v : Byte) : (rawSet s l v).MemInv := by
  unfold rawSet
  cases l with
  | phys a =>
    simp only
    split
    · exact h
    · exact wf_mset h a v
  | scratch t o => exact h

theorem writeByte_inv {s : State} (h : s.MemInv) (l : Loc) (v : Byte) : (writeByte s l v).MemInv := rawSet_inv h _ v

theorem writeBytes_inv {s : State} (h : s.MemInv) (l : Loc) (vs : List Byte) : (writeBytes s l vs).MemInv := by
  induction vs generalizing s l with
  | nil => exact h
  | cons v vs ih => exact ih (writeByte_inv h l v) _

theorem writeNat_inv {s : State} (h : s.MemInv) (l : Loc) (n v : Nat) : (writeNat s l n v).MemInv := writeBytes_inv h l _

theorem setPoison_inv {s : State} (h : s.MemInv) (l : Loc) (on : Bool) : (setPoison s l on).MemInv := by
  unfold setPoison
  split <;> exact h

theorem writeBeat_inv {s : State} (h : s.MemInv) (l : Loc) (vs : List Byte) (bad : Bool) : (writeBeat s l vs bad).MemInv := by
  unfold writeBeat
  simp only
  split
  · exact setPoison_inv (writeBytes_inv h l vs) _ _
  · split
    · exact setPoison_inv (writeBytes_inv h l vs) _ _
    · exact writeBytes_inv h l vs

theorem writeBeats_inv (n : Nat) {s : State} (h : s.MemInv) (l : Loc) (vs : List Byte) : (writeBeats n s l vs).MemInv := by
  induction n generalizing s l vs with
  | zero => exact h
  | succ n ih =>
    simp only [writeBeats]
    split
    · exact h
    · exact ih (writeBeat_inv h _ _ _) _ _

theorem writeOut_inv {s : State} (h : s.MemInv) (l : Loc) (vs : List Byte) : (writeOut s l vs).MemInv := writeBeats_inv _ h l vs

theorem copyUnits_inv {s : State} (h : s.MemInv) (team off pa n : Nat) : (copyUnits s team off pa n).MemInv := by
  induction n with
  | zero => exact h
  | succ n ih => exact wf_mset ih _ _

theorem copyPoison_mem (s : State) (team off pa n : Nat) : (copyPoison s team off pa n).mem = s.mem := by
  induction n with
  | zero => rfl
  | succ n ih => exact ih

theorem copyPoison_inv {s : State} (h : s.MemInv) (team off pa n : Nat) : (copyPoison s team off pa n).MemInv := by
  unfold State.MemInv
  rw [copyPoison_mem]
  exact h

theorem copyUnit_inv {s : State} (h : s.MemInv) (team off pa : Nat) : (copyUnit s team off pa).MemInv := by
  unfold copyUnit
  exact copyPoison_inv (copyUnits_inv h _ _ _ _) _ _ _ _

theorem writeBackUnits_inv {s : State} (h : s.MemInv) (team off : Nat) (us : List Nat) : (writeBackUnits s team off us).MemInv := by
  induction us generalizing s off with
  | nil => exact h
  | cons u us ih =>
    simp only [writeBackUnits]
    exact ih (copyUnit_inv h team off (u * 4096)) _

theorem writeBack_inv {s : State} (h : s.MemInv) (b : Bind) : (writeBack s b).MemInv := writeBackUnits_inv h _ _ _

/-- A page copied to its new place. -/
theorem copyPage_inv {s : State} (h : s.MemInv) (old size new : Nat) : (copyPage s old size new).MemInv := by
  refine wf_foldl_mput (fun a => relocate old size new a) _ (fun p hp => ?_) (wf_filter h _)
  have hm : p ∈ s.mem := (List.mem_filter.1 hp).1
  have := (mwf_iff unwritten s.mem).1 h
  exact this.2 p hm

/-! ### Where lines stand in HBM5 (R12) -/

/-- A line's place: a channel of the part and a place within its capacity. -/
theorem spotOf_bound {line : Nat} {p : Nat × Nat} (h : spotOf line = some p) : p.1 < 384 ∧ p.2 < channelLines := by
  unfold spotOf at h
  split at h <;> [skip; cases h]
  simp only at h
  split at h <;> [skip; cases h]
  cases h
  refine ⟨Nat.mod_lt _ (by decide), Nat.div_lt_of_lt_mul ?_⟩
  exact Nat.lt_of_lt_of_le (Fin.isLt _) (by decide)

/-- No two lines share a place. -/
theorem spotOf_injective {a b : Nat} {p : Nat × Nat} (ha : spotOf a = some p) (hb : spotOf b = some p) : a = b := by
  unfold spotOf at ha hb
  split at ha <;> [skip; cases ha]
  split at hb <;> [skip; cases hb]
  rename_i h1 h2
  simp only at ha hb
  split at ha <;> [skip; cases ha]
  split at hb <;> [skip; cases hb]
  rename_i k1 k2
  have h := (Option.some.inj ha).trans (Option.some.inj hb).symm
  have hm := congrArg Prod.fst h
  have hd := congrArg Prod.snd h
  simp only at hm hd
  have hk (x y : Nat) (u : x % 384 = y % 384) (v : x / 384 = y / 384) : x = y := by omega
  have hl := congrArg Fin.val (Config.lineSpot.injective (Fin.ext (hk _ _ hm hd)))
  simp only at hl
  have hp : (Config.pageSpot ⟨a / 2 ^ 14, by omega⟩).val = (Config.pageSpot ⟨b / 2 ^ 14, by omega⟩).val := by omega
  have hq := congrArg Fin.val (Config.pageSpot.injective (Fin.ext hp))
  simp only at hq
  omega

/-- Whether a line lies outside HBM5 is said of its run of 2 MiB. -/
theorem farLine_run {i : Fin (2 ^ 35)} {line : Nat} (h : line / 2 ^ 14 = (Config.pageSpot.symm i).val) : farLine line = decide (294912 ≤ i.val) := by
  have hl : line < 2 ^ 49 := by have := (Config.pageSpot.symm i).isLt; omega
  have he : (⟨line / 2 ^ 14, by omega⟩ : Fin (2 ^ 35)) = Config.pageSpot.symm i := Fin.ext h
  unfold farLine channelOf spotOf
  rw [dif_pos hl]
  simp only [he, Equiv.apply_symm_apply]
  by_cases hi : i.val < 294912
  · simp [hi]
  · simp [hi]
    omega

end Sys2Proof.Machine
end

