-- ==== Sys2Proof/Laws/Ops.lean ====
section
/-! SUPPORT. What the shared operations do, said once: the operations that leave memory alone, and the canonical form of memory kept by the
queues, accumulator lines, the press, the streamer, kills, taking a trap and returning from one. -/

namespace Sys2Proof.Machine

/-! ### Lists of lanes -/

/-- What each lane keeps, all of them keep. -/
theorem eachLane_keeps {p : State → Prop} {f : State → Nat → State} (hf : ∀ s l, p s → p (f s l)) (s : State) (ls : List Nat) (h : p s) : p (eachLane f s ls) := by
  induction ls generalizing s with
  | nil => exact h
  | cons l ls ih => exact ih _ (hf s l h)

theorem eachLane_mem {f : State → Nat → State} (hf : ∀ s l, (f s l).mem = s.mem) (s : State) (ls : List Nat) : (eachLane f s ls).mem = s.mem :=
  eachLane_keeps (p := fun t => t.mem = s.mem) (fun t l h => (hf t l).trans h) s ls rfl

theorem foldl_keeps {β : Type} {p : State → Prop} {f : State → β → State} (hf : ∀ s x, p s → p (f s x)) (xs : List β) (s : State) (h : p s) : p (xs.foldl f s) := by
  induction xs generalizing s with
  | nil => exact h
  | cons x xs ih => exact ih _ (hf s x h)

theorem foldl_mem {β : Type} {f : State → β → State} (hf : ∀ s x, (f s x).mem = s.mem) (xs : List β) (s : State) : (xs.foldl f s).mem = s.mem :=
  foldl_keeps (p := fun t => t.mem = s.mem) (fun t x h => (hf t x).trans h) xs s rfl

/-- An operation that leaves memory alone keeps its canonical form. -/
theorem State.MemInv.of_mem {s t : State} (h : s.MemInv) (e : t.mem = s.mem) : t.MemInv := by
  unfold State.MemInv
  rw [e]
  exact h

/-! ### Operations that leave memory alone -/

@[simp] theorem fitL1_mem (s : State) (c l : Nat) : (fitL1 s c l).mem = s.mem := rfl
@[simp] theorem fitL2_mem (s : State) (d l : Nat) : (fitL2 s d l).mem = s.mem := rfl
@[simp] theorem modDir_mem (s : State) (l : Nat) (f : Dir → Dir) : (s.modDir l f).mem = s.mem := rfl
@[simp] theorem dirStore_mem (s : State) (c : Nat) (rt : BitVec 2) (pa n : Nat) (p : Bool) : (dirStore s c rt pa n p).mem = s.mem := by simp [dirStore]
@[simp] theorem dirLoad_mem (s : State) (c : Nat) (rt : BitVec 2) (pa n : Nat) : (dirLoad s c rt pa n).mem = s.mem := by simp [dirLoad]
@[simp] theorem dirWrite_mem (s : State) (d pa : Nat) : (dirWrite s d pa).mem = s.mem := by simp [dirWrite]
@[simp] theorem dirRead_mem (s : State) (d pa : Nat) : (dirRead s d pa).mem = s.mem := by simp [dirRead]
@[simp] theorem hostSector_mem (s : State) (pa : Nat) (w : Bool) : (hostSector s pa w).mem = s.mem := rfl

@[simp] theorem noteWrite_mem (s : State) (d : Nat) (l : Loc) : (noteWrite s d l).mem = s.mem := by unfold noteWrite; split <;> simp
@[simp] theorem noteHome_mem (s : State) (l : Loc) : (noteHome s l).mem = s.mem := by unfold noteHome; split <;> simp
@[simp] theorem noteAtomic_mem (s : State) (l : Loc) : (noteAtomic s l).mem = s.mem := by
  unfold noteAtomic
  split
  · rfl
  · split <;> simp
@[simp] theorem noteRead_mem (s : State) (d : Nat) (l : Loc) : (noteRead s d l).mem = s.mem := by unfold noteRead; split <;> simp
@[simp] theorem noteReads_mem (s : State) (d : Nat) (l : Loc) (n : Nat) : (noteReads s d l n).mem = s.mem := foldl_mem (fun t x => noteRead_mem t d x) _ s
@[simp] theorem noteHomes_mem (s : State) (l : Loc) (n : Nat) : (noteHomes s l n).mem = s.mem := foldl_mem noteHome_mem _ s
@[simp] theorem noteHomeReads_mem (s : State) (l : Loc) (n : Nat) : (noteHomeReads s l n).mem = s.mem :=
  foldl_mem (fun t x => noteRead_mem t (lineHome t x) x) _ s
@[simp] theorem noteLoad_mem (s : State) (c : Nat) (rt : BitVec 2) (l : Loc) (e : DWord) (n : Nat) : (noteLoad s c rt l e n).mem = s.mem := by
  unfold noteLoad
  split
  · rfl
  · split <;> simp
@[simp] theorem noteStore_mem (s : State) (c : Nat) (rt : BitVec 2) (b h : Bool) (l : Loc) (n : Nat) : (noteStore s c rt b h l n).mem = s.mem := by
  unfold noteStore
  split
  · rfl
  · split <;> simp

@[simp] theorem noteVirt_mem (pl : Places) (home : DWord → Bool) (die : Nat) (s : State) (ps : List (Nat × Nat)) : (noteVirt pl home die s ps).mem = s.mem := by
  induction ps generalizing s with
  | nil => rfl
  | cons p ps ih =>
    simp only [noteVirt, ih]
    split <;> (try split) <;> simp
@[simp] theorem noteRow_mem (s : State) (pl : Places) (got : Granules) (home : DWord → Bool) (die : Nat) (t : Token) : (noteRow s pl got home die t).mem = s.mem := noteVirt_mem _ _ _ _ _
@[simp] theorem dirWriteBack_mem (s : State) (core scope line : Nat) : (dirWriteBack s core scope line).mem = s.mem := by
  unfold dirWriteBack; split <;> rfl
@[simp] theorem dirDrop_mem (s : State) (core line : Nat) : (dirDrop s core line).mem = s.mem := rfl
@[simp] theorem eachDir_mem (s : State) (f : Nat → Dir → Dir) : (s.eachDir f).mem = s.mem := rfl
@[simp] theorem acquireCopies_mem (s : State) (c scope : Nat) : (acquireCopies s c scope).mem = s.mem := by
  unfold acquireCopies
  split
  · rfl
  · simp only; split <;> rfl
@[simp] theorem acquire_mem (s : State) (u scope : Nat) : (acquire s u scope).mem = s.mem := by
  unfold acquire
  split
  · rfl
  · exact acquireCopies_mem _ _ _
@[simp] theorem engineAcquire_mem (s : State) (u scope : Nat) : (engineAcquire s u scope).mem = s.mem := acquireCopies_mem _ _ _
@[simp] theorem farRelease_mem (s : State) : (farRelease s).mem = s.mem := rfl
@[simp] theorem endPrivatised_mem (s : State) (core scope : Nat) : (endPrivatised s core scope).mem = s.mem := by
  unfold endPrivatised
  split
  · rfl
  · simp only; split <;> rfl

@[simp] theorem noteHeld_mem (s t : State) (rt : BitVec 2) (l : Loc) (bs : List Byte) : (noteHeld s t rt l bs).mem = t.mem := by
  unfold noteHeld
  split <;> rfl

@[simp] theorem cacheTrans_mem (s : State) (die : Nat) (t : Trans) : (cacheTrans s die t).mem = s.mem := by
  unfold cacheTrans
  split <;> rfl
@[simp] theorem dropWalk_mem (s : State) (die : Nat) (w : PendingWalk) : (dropWalk s die w).mem = s.mem := rfl
@[simp] theorem endWalk_mem (s : State) (die : Nat) (w : PendingWalk) : (endWalk s die w).mem = s.mem := by
  unfold endWalk
  split
  · exact cacheTrans_mem _ _ _
  · rfl
@[simp] theorem missWalk_mem (s : State) (die : Nat) (tag : BitVec 12) (va : Nat) : (missWalk s die tag va).mem = s.mem := by
  unfold missWalk
  split <;> rfl
@[simp] theorem walkStart_mem (s : State) (die ctx va : Nat) : (walkStart s die ctx va).mem = s.mem := by
  unfold walkStart
  simp only
  split <;> rfl
@[simp] theorem walkStep_mem (s : State) (die i : Nat) : (walkStep s die i).mem = s.mem := by
  unfold walkStep
  split
  · rfl
  · split
    · rfl
    · exact endWalk_mem _ _ _
@[simp] theorem fillTrans_mem (s : State) (core ctx va : Nat) : (fillTrans s core ctx va).mem = s.mem := by
  unfold fillTrans
  split
  · simp only
    split
    · rfl
    · split <;> simp
  · rfl
@[simp] theorem pendFault_mem (s : State) (tid : Nat) (f : TrapInfo) : (pendFault s tid f).mem = s.mem := rfl
@[simp] theorem pendFaults_mem (f : TrapInfo) (ps : List (Nat × Nat)) (s : State) : (pendFaults s f ps).mem = s.mem := by
  induction ps generalizing s with
  | nil => rfl
  | cons p ps ih => exact ih _
@[simp] theorem setAcc_mem (s : State) (pa : Nat) (l : AccLine) : (setAcc s pa l).mem = s.mem := rfl
@[simp] theorem accReport_mem (s : State) (c : Contribution) (a : DWord) : (accReport s c a).mem = s.mem := rfl
@[simp] theorem sumEvents_mem (s : State) (u c n : Nat) : (sumEvents s u c n).mem = s.mem := by unfold sumEvents; simp only; split <;> rfl
@[simp] theorem countUnits_mem (s : State) (u : Nat) (b : Bool) (n : Nat) : (countUnits s u b n).mem = s.mem := by unfold countUnits; split <;> rfl
@[simp] theorem closeWindow_mem (s : State) (u : Nat) (b : Bool) (c : Nat) : (closeWindow s u b c).mem = s.mem := by unfold closeWindow; split <;> rfl
@[simp] theorem wakePhase_mem (s : State) (u k : Nat) : (wakePhase s u k).mem = s.mem := by unfold wakePhase; simp only; split <;> simp
@[simp] theorem tryComplete_mem (s : State) (u k : Nat) : (tryComplete s u k).mem = s.mem := by
  unfold tryComplete
  split
  · simp [State.modBar]
  · rfl
@[simp] theorem countMember_mem (s : State) (u k : Nat) (b : Bool) : (countMember s u k b).mem = s.mem := by simp [countMember, State.modBar]
@[simp] theorem tryGroup_mem (s : State) (g k : Nat) : (tryGroup s g k).mem = s.mem := by
  unfold tryGroup
  simp only
  split
  · simp [State.modBar]
  · rfl
@[simp] theorem landArrival_mem (s : State) (tid k : Nat) (w : Word) (b : Bool) : (landArrival s tid k w b).mem = s.mem := by
  unfold landArrival
  simp only
  split
  · split <;> simp [State.modBar]
  · split <;> simp
@[simp] theorem landBytes_mem (s : State) (u k n : Nat) (b : Bool) : (landBytes s u k n b).mem = s.mem := by simp [landBytes, State.modBar]
@[simp] theorem withdraw_mem (b : Bool) (rs : List Reg) (s : State) : (withdraw b s rs).mem = s.mem := by
  induction rs generalizing s with
  | nil => rfl
  | cons r rs ih => simp [withdraw, ih]
@[simp] theorem withdrawAll_mem (b : Bool) (rs : List Request) (s : State) : (withdrawAll b s rs).mem = s.mem := by
  induction rs generalizing s with
  | nil => rfl
  | cons r rs ih => simp [withdrawAll, ih]
@[simp] theorem enqueue_mem (s : State) (g : Nat) (es : List QEntry) : (enqueue s g es).mem = s.mem := rfl
@[simp] theorem invalidate_mem (s : State) (ls : List Nat) : (invalidate s ls).mem = s.mem := by
  refine eachLane_mem ?_ s ls
  exact fun _ _ => rfl
@[simp] theorem mergeSets_mem (s : State) (g : Nat) (o : List Nat) : (mergeSets s g o).mem = s.mem := rfl
@[simp] theorem releaseTest_mem (s : State) (g k : Nat) : (releaseTest s g k).mem = s.mem := by unfold releaseTest; simp only; split <;> rfl
@[simp] theorem arriveMask_mem (s : State) (g k : Nat) (l : Word) : (arriveMask s g k l).mem = s.mem := rfl
@[simp] theorem strikeMask_mem (s : State) (g k : Nat) (l : Word) : (strikeMask s g k l).mem = s.mem := rfl
@[simp] theorem strikeFrom_mem (s : State) (g k : Nat) (l : Word) : (strikeFrom s g k l).mem = s.mem := by
  unfold strikeFrom; simp only; split <;> simp
@[simp] theorem strikeAll_mem (s : State) (g : Nat) (l : Word) : (strikeAll s g l).mem = s.mem := eachLane_mem (fun t k => strikeFrom_mem t g k l) s _
@[simp] theorem freeUnits_mem (s : State) (u : Nat) : (freeUnits s u).mem = s.mem := by unfold freeUnits; simp only; split <;> rfl
@[simp] theorem leaveTrap_mem (s : State) (g : Nat) (ls : List Nat) : (leaveTrap s g ls).mem = s.mem := rfl
@[simp] theorem exitThreads_mem (s : State) (g : Nat) (ls : List Nat) : (exitThreads s g ls).mem = s.mem := by
  have h : (eachLane (fun s l => s.modThread l (fun t => { t with cond := .exited, beneath := none })) (leaveTrap s g ls) ls).mem = s.mem :=
    by refine eachLane_mem (s := leaveTrap s g ls) ?_ ls; exact fun _ _ => rfl
  unfold exitThreads
  simp only
  split
  · simp [h]
  · split <;> split <;> simp [h]
@[simp] theorem dropRows_mem (s : State) (u k : Nat) : (dropRows s u k).mem = s.mem := rfl
@[simp] theorem unbindView_mem (s : State) (u k : Nat) : (unbindView s u k).mem = s.mem := by unfold unbindView; split <;> rfl
@[simp] theorem markNode_mem (s : State) (c : Nat) (a : DWord) (n : Nat) : (markNode s c a n).mem = s.mem := rfl
@[simp] theorem modRequest_mem (s : State) (i : Nat) (f : Request → Request) : (s.modRequest i f).mem = s.mem := rfl
@[simp] theorem dropRequest_mem (s : State) (i : Nat) : (s.dropRequest i).mem = s.mem := rfl
@[simp] theorem failRequest_mem (s : State) (i : Nat) : (failRequest s i).mem = s.mem := by
  unfold failRequest
  split
  · rfl
  · simp only; split <;> simp
@[simp] theorem countLanded_mem (s : State) (i u n : Nat) : (countLanded s i u n).mem = s.mem := by unfold countLanded; split <;> simp
/-! ### The canonical form of memory: records, events, lines -/

theorem deviceOut_inv {s : State} (h : s.MemInv) (l : Loc) (bs : List Byte) : (deviceOut s l bs).MemInv := writeOut_inv (h.of_mem (noteHomes_mem s l _)) _ _

theorem ringPush_inv {s t : State} (h : s.MemInv) {b i n : Nat} {r : List Byte} (e : ringPush s b i n r = some t) : t.MemInv := by
  unfold ringPush at e
  split at e
  · cases e
  · simp only at e
    split at e
    · cases e
    · simp only [Option.some.injEq] at e
      subst e
      exact (deviceOut_inv h _ _).of_mem (State.setSys_mem _ _ _)

theorem logError_inv {s : State} (h : s.MemInv) (k : Nat) (u : UnitId) (a : Nat) (c : Option Nat) (w : Word) : (logError s k u a c w).MemInv := by
  unfold logError
  simp only
  split
  · next e => exact State.MemInv.of_mem (ringPush_inv h e) rfl
  · exact h.of_mem (State.setSys_mem _ _ _)

theorem numericIrq_inv {s : State} (h : s.MemInv) (u : Nat) (m : Bool) (c : Nat) : (numericIrq s u m c).MemInv := logError_inv h _ _ _ _ _

theorem fireAction_inv {s : State} (h : s.MemInv) (u : Nat) (m : Bool) (c : Nat) (ts : List (Nat × Nat)) (w : Word) : (fireAction s u m c ts w).MemInv := by
  unfold fireAction
  simp only
  split
  · split
    · exact h.of_mem (pendFaults_mem _ _ _)
    · split
      · exact h
      · exact numericIrq_inv h _ _ _
  · exact numericIrq_inv h _ _ _
  · exact h

theorem countEvents_inv {s : State} (h : s.MemInv) (u : Nat) (m : Bool) (c n : Nat) (ts : List (Nat × Nat)) (w : Word) : (countEvents s u m c n ts w).MemInv := by
  unfold countEvents
  split
  · exact h
  · simp only
    split
    · exact fireAction_inv (h.of_mem (State.modTeam_mem _ _ _)) _ _ _ _ _
    · exact h.of_mem (State.modTeam_mem _ _ _)

theorem raiseEvents_inv {s : State} (h : s.MemInv) (u : Nat) (sl : Option Word) (evs : List ((Nat × Nat) × List Nat)) (w : Word) : (raiseEvents s u sl evs w).MemInv := by
  refine eachLane_keeps (fun t c ht => ?_) s _ h
  simp only
  split
  · exact ht.of_mem (sumEvents_mem _ _ _ _)
  · exact countEvents_inv ht _ _ _ _ _ _

theorem raiseMatrix_inv {s : State} (h : s.MemInv) (sl : Option Word) (u : Nat) (w : Word) (cs : List Nat) : (raiseMatrix sl u w s cs).MemInv := by
  induction cs generalizing s with
  | nil => exact h
  | cons c cs ih =>
    simp only [raiseMatrix]
    split
    · exact ih (h.of_mem (sumEvents_mem _ _ _ _))
    · exact ih (countEvents_inv h _ _ _ _ _ _)

theorem accGive_inv {s : State} (h : s.MemInv) (c : Contribution) (pa : Nat) (l : AccLine) (cs : List (Nat × Word)) : (accGive s c pa l cs).MemInv := by
  unfold accGive
  split
  · exact h.of_mem (setAcc_mem _ _ _)
  · exact raiseMatrix_inv (h.of_mem (setAcc_mem _ _ _)) _ _ _ _

theorem accRefuse_inv {s : State} (h : s.MemInv) (c : Contribution) (l : AccLine) (a : DWord) : (accRefuse s c l a).MemInv := by
  unfold accRefuse
  split
  · exact h
  · exact h.of_mem (accReport_mem _ _ _)

theorem accApply_inv {s : State} (h : s.MemInv) (c : Contribution) : (accApply s c).1.MemInv := by
  have hs (l : AccLine) : (setAcc s c.pa l).MemInv := h.of_mem (setAcc_mem _ _ _)
  unfold accApply
  simp only
  split
  · exact accRefuse_inv (hs _) _ _ _
  · split
    · simp only
      split
      · exact accRefuse_inv (hs _) _ _ _
      · exact accGive_inv (hs _) _ _ _ _
    · split
      · exact accGive_inv (hs _) _ _ _ _
      · split <;> exact accGive_inv (hs _) _ _ _ _

theorem accEvict_inv {s : State} (h : s.MemInv) (line : Nat) : (accEvict s line).MemInv := by
  unfold accEvict
  split
  · exact h
  · simp only
    split
    · exact writeOut_inv (writeOut_inv h _ _) _ _
    · exact writeOut_inv h _ _

/-! ### Store queues -/

theorem logStale_inv {s : State} (h : s.MemInv) (u : UnitId) (a : Nat) : (logStale s u a).MemInv := logError_inv h _ _ _ _ _

theorem applyContribution_inv {s : State} (h : s.MemInv) (i : Nat) : (applyContribution s i).MemInv := by
  unfold applyContribution
  split
  · exact h
  · next c _ =>
    simp only
    split
    · exact logStale_inv (by exact h) _ _
    · exact State.MemInv.of_mem (accApply_inv (s := { s with contributions := s.contributions.filter (fun c => decide (c.id ≠ i)) }) h c) rfl

theorem applyContributions_inv {s : State} (h : s.MemInv) (is : List Nat) : (applyContributions s is).MemInv := by
  induction is generalizing s with
  | nil => exact h
  | cons i is ih => exact ih (applyContribution_inv (applyContribution_inv h i) i)

theorem settleGroup_inv {s : State} (h : s.MemInv) (g : Nat) : (settleGroup s g).MemInv := applyContributions_inv h _

theorem atomicLanes_inv (fn : BitVec 3) (l : Loc) {s : State} (h : s.MemInv) (xs : List (Nat × Word × Word)) : (atomicLanes fn l s xs).MemInv := by
  induction xs generalizing s with
  | nil => exact h
  | cons x xs ih => exact ih (writeNat_inv (by exact h) _ _ _)

theorem redfLanes_inv (fn : BitVec 3) (l : Loc) {s : State} (h : s.MemInv) (xs : List (Nat × Word)) : (redfLanes fn l s xs).1.MemInv := by
  induction xs generalizing s with
  | nil => exact h
  | cons x xs ih => exact ih (writeNat_inv h _ _ _)

theorem performLive_inv {s : State} (h : s.MemInv) (g : Nat) (e : QEntry) : (performLive s g e).MemInv := by
  unfold performLive
  simp only
  split
  · exact writeBytes_inv (h.of_mem ((noteHeld_mem _ _ _ _ _).trans (noteStore_mem _ _ _ _ _ _ _))) _ _
  · exact atomicLanes_inv _ _ (h.of_mem (noteAtomic_mem _ _)) _
  · next fn ls last _ =>
    have hr := redfLanes_inv fn e.loc (h.of_mem (noteAtomic_mem s e.loc)) ls
    split
    · exact raiseEvents_inv (by exact hr) _ _ _ _
    · exact hr
  · exact h
  · exact h.of_mem (eachLane_mem (fun t l => dirWriteBack_mem _ _ _ _) _ _)
  · exact h.of_mem (eachLane_mem (fun t l => dirDrop_mem _ _ _) _ _)
  · exact h
  · exact (settleGroup_inv h g).of_mem (landArrival_mem _ _ _ _ _)
  · exact (settleGroup_inv h g).of_mem (eachLane_mem (fun t k => tryGroup_mem _ _ _) _ _)

@[simp] theorem dropLoads_mem (s : State) (e : QEntry) : (dropLoads s e).mem = s.mem := by unfold dropLoads; split <;> rfl

/-- Whatever an entry of a store queue does, memory keeps its canonical form. -/
theorem performEntry_inv {s : State} (h : s.MemInv) (g : Nat) (e : QEntry) : (performEntry s g e).MemInv := by
  unfold performEntry
  simp only
  split
  · exact logStale_inv (h.of_mem (dropLoads_mem _ _)) _ _
  · exact performLive_inv h _ _

theorem leaveHead_inv {s : State} (h : s.MemInv) (g : Nat) : (leaveHead s g).MemInv := by
  unfold leaveHead
  split
  · exact h
  · exact performEntry_inv (by exact h) _ _

theorem leaveN_inv (n : Nat) {s : State} (h : s.MemInv) (g : Nat) : (leaveN n s g).MemInv := by
  induction n generalizing s with
  | zero => exact h
  | succ n ih => exact ih (leaveHead_inv h g)

theorem drainQueue_inv {s : State} (h : s.MemInv) (g : Nat) : (drainQueue s g).MemInv := leaveN_inv _ h g
theorem drainTeam_inv {s : State} (h : s.MemInv) (u : Nat) : (drainTeam s u).MemInv := by
  unfold drainTeam
  exact eachLane_keeps (p := State.MemInv) (fun _ g ht => drainQueue_inv ht g) _ _ h
theorem settleLoad_inv {s : State} (h : s.MemInv) (g : Nat) (l : Loc) (n : Nat) : (settleLoad s g l n).MemInv := leaveN_inv _ h g
theorem releaseGroup_inv {s : State} (h : s.MemInv) (g scope : Nat) : (releaseGroup s g scope).MemInv :=
  (settleGroup_inv (drainQueue_inv h g) g).of_mem (endPrivatised_mem _ _ _)

/-- A queue without entries has nothing to drain. -/
theorem drainQueue_empty {s : State} {g : Nat} (h : (s.group g).queue = []) : drainQueue s g = s := by
  unfold drainQueue
  rw [h]
  rfl

/-! ### The press and the streamer -/

theorem countConfined_inv {s : State} (h : s.MemInv) (core ctx : Nat) (ws : List Nat) : (countConfined s core ctx ws).MemInv := by
  induction ws generalizing s with
  | nil => exact h
  | cons w ws ih => exact ih (logError_inv (h.of_mem (State.setSys_mem _ _ _)) _ _ _ _ _)

theorem ownGranule_inv {s : State} (h : s.MemInv) (g : Nat) (pl : Places) (got : Granules) (n : Nat) : (ownGranule s g pl got n).1.MemInv := by
  unfold ownGranule
  split
  · exact settleLoad_inv h _ _ _
  · exact h

theorem ownGranules_inv (g : Nat) (pl : Places) {s : State} (h : s.MemInv) (got : Granules) (ns : List Nat) : (ownGranules g pl s got ns).1.MemInv := by
  induction ns generalizing s got with
  | nil => exact h
  | cons n ns ih => exact ih (ownGranule_inv h _ _ _ _) _

theorem projectToken_inv {s : State} (h : s.MemInv) (g u : Nat) (r : ViewRead) (x : Token) : (projectToken s g u r x).1.MemInv := by
  unfold projectToken
  simp only
  split
  · exact h
  · have ho (t : Token) (pl : Places) (home : DWord → Bool) (die : Nat) (got : Granules) (ns : List Nat) :
        (noteRow (ownGranules g pl s got ns).1 pl (ownGranules g pl s got ns).2 home die t).MemInv := (ownGranules_inv g pl h got ns).of_mem (noteRow_mem _ _ _ _ _ _)
    split
    · exact ho _ _ _ _ _ _
    · have hr (t : State) (v : List Nat) (ws : List Nat) (c cx : Nat) (ht : t.MemInv) : (raiseMatrix none u 0 (countConfined t c cx ws) v).MemInv :=
        raiseMatrix_inv (countConfined_inv ht _ _ _) _ _ _ _
      simp only
      split
      · exact (hr _ _ _ _ _ (ho _ _ _ _ _ _)).of_mem (State.modCore_mem _ _ _)
      · exact hr _ _ _ _ _ (ho _ _ _ _ _ _)

theorem projectTokens_inv (g u : Nat) (r : ViewRead) {s : State} (h : s.MemInv) (ts : List Token) : (projectTokens g u r s ts).1.MemInv := by
  induction ts generalizing s with
  | nil => exact h
  | cons t ts ih => exact ih (projectToken_inv h _ _ _ _)

theorem viewLoad_inv {s : State} (h : s.MemInv) (g u : Nat) (r : ViewRead) : (viewLoad s g u r).1.MemInv := projectTokens_inv _ _ _ h _

@[simp] theorem modLoad_mem (s : State) (i : Nat) (f : Load → Load) : (s.modLoad i f).mem = s.mem := rfl

theorem finishView_inv {s : State} (h : s.MemInv) (i : Nat) : (finishView s i).MemInv := by
  unfold finishView
  split
  · exact h
  · split
    · exact h
    · exact (viewLoad_inv h _ _ _).of_mem (modLoad_mem _ _ _)

theorem finishViews_inv {s : State} (h : s.MemInv) (is : List Nat) : (finishViews s is).MemInv := by
  induction is generalizing s with
  | nil => exact h
  | cons i is ih => exact ih (finishView_inv h i)

theorem finishLanes_inv {s : State} (h : s.MemInv) (ls : List Nat) : (finishLanes s ls).MemInv := finishViews_inv h _

@[simp] theorem fillBlock_mem (s : State) (core ctx : Nat) (b : TSlot) (k : Nat) (e : DWord) : (fillBlock s core ctx b k e).mem = s.mem := rfl

theorem returnLoad_inv {s : State} (h : s.MemInv) (i : Nat) : (returnLoad s i).MemInv := by
  have hf := finishView_inv h i
  unfold returnLoad
  generalize finishView s i = t at hf ⊢
  simp only
  split
  · exact hf
  · split
    · exact hf
    · refine hf.of_mem ?_
      simp only [freeUnits_mem]
      split
      · rfl
      · split <;> rfl

theorem returnLoads_inv {s : State} (h : s.MemInv) (is : List Nat) : (returnLoads s is).MemInv := by
  induction is generalizing s with
  | nil => exact h
  | cons i is ih => exact ih (returnLoad_inv h i)

theorem settleThreads_inv {s : State} (h : s.MemInv) (g : Nat) (ls : List Nat) : (settleThreads s g ls).MemInv := by
  unfold settleThreads
  simp only
  split
  · exact returnLoads_inv (drainQueue_inv h g) _
  · exact returnLoads_inv h _

/-- Threads that await no data have nothing to settle. -/
theorem settleThreads_none {s : State} {g : Nat} {ls : List Nat} (h : ∀ x ∈ s.loads, x.tid ∉ ls) : settleThreads s g ls = s := by
  have e : loadsOf s ls = [] := by
    refine List.filter_eq_nil_iff.2 (fun x hx => ?_)
    simpa using h x hx
  simp [settleThreads, e, returnLoads]

/-- Threads that await no data have no load to read to its end. -/
theorem finishLanes_none {s : State} {ls : List Nat} (h : ∀ x ∈ s.loads, x.tid ∉ ls) : finishLanes s ls = s := by
  have e : s.loads.filter (fun l => ls.contains l.tid && l.parts.isSome) = [] := by
    refine List.filter_eq_nil_iff.2 (fun x hx => ?_)
    simp [h x hx]
  unfold finishLanes
  rw [e]
  rfl

theorem reportPage_inv {s : State} (h : s.MemInv) (die : Nat) (r : Nat × DWord × Nat × Nat × DWord) : (reportPage s die r).MemInv := by
  unfold reportPage
  simp only
  split
  · next e => exact (ringPush_inv h e).of_mem (State.modDie_mem _ _ _)
  · exact h.of_mem (State.modDie_mem _ _ _)

theorem reportReplay_inv {s : State} (h : s.MemInv) (die ctx : Nat) (page : DWord) (r a : Nat) (pc : DWord) : (reportReplay s die ctx page r a pc).MemInv := by
  unfold reportReplay
  split
  · exact h
  · exact reportPage_inv h _ _

theorem flushReports_inv {s : State} (h : s.MemInv) (die : Nat) : (flushReports s die).MemInv := by
  unfold flushReports
  refine foldl_keeps (p := State.MemInv) (fun t r ht => ?_) _ _ (h.of_mem (State.modDie_mem _ _ _))
  split
  · exact reportPage_inv ht _ _
  · exact ht

theorem walkRow_inv {s : State} (h : s.MemInv) (r : Request) (v : ViewReg) (b : Bool) (t : Nat) (a : DWord) : (walkRow s r v b t a).1.MemInv := by
  have hn (x : Token) (home : DWord → Bool) : (noteRow s r.places r.got home r.die x).MemInv := h.of_mem (noteRow_mem _ _ _ _ _ _)
  have hc (ws : List Nat) (x : Token) (home : DWord → Bool) : (countConfined (noteRow s r.places r.got home r.die x) r.coreId r.ctx ws).MemInv :=
    countConfined_inv (hn _ _) _ _ _
  unfold walkRow
  simp only
  split
  · split
    · exact hn _ _
    · exact raiseMatrix_inv (hc _ _ _) _ _ _ _
  · split
    · exact hn _ _
    · split
      · exact hn _ _
      · exact hc _ _ _

theorem formRow_inv {s : State} (h : s.MemInv) (r : Request) (b : Nat) : (formRow s r b).1.MemInv := by
  unfold formRow
  split
  · simp only
    split
    · exact h
    · exact (walkRow_inv h _ _ _ _ _).of_mem (modRequest_mem _ _ _)
    · exact h
  · exact h

theorem writeMask_inv {s : State} (h : s.MemInv) (r : Request) : (writeMask s r).MemInv := by
  unfold writeMask
  split
  · exact writeBytes_inv h _ _
  · exact h

theorem startRequest_inv {s : State} (h : s.MemInv) (i : Nat) : (startRequest s i).MemInv := by
  unfold startRequest
  split
  · exact h
  · split
    · exact h
    · refine writeMask_inv (State.MemInv.of_mem ?_ (modRequest_mem _ _ _)) _
      split
      · exact (leaveN_inv _ h _).of_mem (engineAcquire_mem _ _ _)
      · exact h

theorem readBeat_inv {s : State} (h : s.MemInv) (i g : Nat) : (readBeat s i g).MemInv := by
  unfold readBeat
  split
  · exact h
  · split
    · exact h
    · split
      · exact h
      · refine State.MemInv.of_mem ?_ (modRequest_mem _ _ _)
        split
        · exact h.of_mem (noteHomeReads_mem _ _ _)
        · exact h.of_mem (noteReads_mem _ _ _ _)

theorem landPiece_inv {s : State} (h : s.MemInv) (r : Request) (p : Piece) : (landPiece s r p).MemInv := by
  unfold landPiece
  split
  · exact h
  · simp only
    split
    · exact h
    · refine writeBeat_inv ?_ _ _ _
      split
      · exact h.of_mem (noteHome_mem _ _)
      · exact h.of_mem (noteWrite_mem _ _ _)

theorem landPieces_inv {s : State} (h : s.MemInv) (r : Request) (ps : List Piece) : (landPieces s r ps).MemInv := by
  induction ps generalizing s with
  | nil => exact h
  | cons p ps ih => exact ih (landPiece_inv h r p)

theorem landWhole_inv {s : State} (h : s.MemInv) (r : Request) (ps : List Piece) : (landWhole s r ps).MemInv := by
  unfold landWhole
  split
  · exact setPoison_inv (landPieces_inv h r ps) _ _
  · exact landPieces_inv h r ps

theorem dropBeat_inv {s : State} (h : s.MemInv) (r : Request) (b : Nat) (ps : List Piece) : (dropBeat s r b ps).MemInv :=
  (logStale_inv h _ _).of_mem (modRequest_mem _ _ _)

theorem logEntry_inv {s : State} (h : s.MemInv) (u : UnitId) (c : Nat) (b : Option Nat) : (logEntry s u c b).MemInv := by
  cases b with
  | none => exact h
  | some a => exact logError_inv h _ _ _ _ _

/-- An access that the device makes where a page is meets no malformed entry. -/
theorem logDevice_place {s : State} {u : UnitId} {ctx : Nat} {va : DWord} {p : Nat} (h : devicePlace s ctx va = some p) : logDevice u s ctx va = s := by
  unfold devicePlace at h
  unfold logDevice
  split at h
  · cases h
  · rename_i hb
    rw [if_neg hb]
    split at h
    · next e => rw [e]
    · cases h

theorem logDevice_inv {s : State} (h : s.MemInv) (u : UnitId) (ctx : Nat) (va : DWord) : (logDevice u s ctx va).MemInv := by
  unfold logDevice
  split
  · exact h
  · split
    · exact logEntry_inv h _ _ _
    · exact h

theorem deviceWrite_inv {s : State} (h : s.MemInv) (u : UnitId) (ctx : Nat) (va : DWord) (bs : List Byte) : (deviceWrite u s ctx va bs).MemInv := by
  unfold deviceWrite
  split
  · exact deviceOut_inv h _ _
  · exact logDevice_inv h _ _ _

theorem logWalk_inv {s : State} (h : s.MemInv) (core ctx : Nat) (a : DWord) : (logWalk s core ctx a).MemInv := logEntry_inv h _ _ _

theorem logBad_inv {s : State} (h : s.MemInv) (r : Request) (b : Option Nat) : (logBad s r b).MemInv := logEntry_inv h _ _ _

theorem landFormed_inv {s : State} (h : s.MemInv) (i b : Nat) (row : List Byte × List (Nat × Nat)) : (landFormed s i b row).MemInv := by
  unfold landFormed
  split
  · exact h
  · exact ((landWhole_inv h _ _).of_mem (modRequest_mem _ _ _)).of_mem (countLanded_mem _ _ _ _)

theorem landReached_inv {s : State} (h : s.MemInv) (i b : Nat) : (landReached s i b).MemInv := by
  unfold landReached
  split
  · exact h
  · exact landFormed_inv (eachLane_keeps (p := State.MemInv) (fun _ g ht => readBeat_inv ht i g) _ _ (formRow_inv h _ _)) _ _ _

theorem landBeat_inv {s : State} (h : s.MemInv) (i b : Nat) : (landBeat s i b).MemInv := by
  unfold landBeat
  split
  · exact h
  · simp only
    split
    · exact h
    · split
      · exact dropBeat_inv h _ _ _
      · have hs := startRequest_inv h i
        split
        · exact hs
        · split
          · exact (logBad_inv hs _ _).of_mem (failRequest_mem _ _)
          · exact (reportReplay_inv hs _ _ _ _ _ _).of_mem (modRequest_mem _ _ _)
          · exact landReached_inv (hs.of_mem (modRequest_mem _ _ _)) _ _

theorem readPart_inv {s : State} (h : s.MemInv) (i g : Nat) : (readPart s i g).MemInv := by
  unfold readPart
  split
  · exact h
  · split
    · exact h
    · have hs := startRequest_inv h i
      simp only
      split
      · exact hs
      · split
        · exact readBeat_inv (hs.of_mem (modRequest_mem _ _ _)) _ _
        · exact hs

theorem viewPart_inv {s : State} (h : s.MemInv) (i g : Nat) : (viewPart s i g).MemInv := by
  unfold viewPart
  split
  · exact h
  · split
    · exact h
    · split
      · exact (ownGranule_inv h _ _ _ _).of_mem (modLoad_mem _ _ _)
      · exact h

theorem latentPart_inv {s : State} (h : s.MemInv) (i g : Nat) : (latentPart s i g).MemInv := readPart_inv (viewPart_inv h i g) i g

theorem endRequest_inv {s : State} (h : s.MemInv) (i : Nat) : (endRequest s i).MemInv := by
  unfold endRequest
  split
  · exact h
  · split
    · exact h
    · have hs := (startRequest_inv h i).of_mem (dropRequest_mem (startRequest s i) i)
      simp only
      split <;> split
      · exact hs.of_mem (by simp)
      · exact hs.of_mem (by simp)
      · exact hs.of_mem (by simp)
      · exact hs.of_mem (by simp)

theorem runRequest_inv {s : State} (h : s.MemInv) (i : Nat) : (runRequest s i).MemInv := by
  unfold runRequest
  split
  · exact h
  · exact endRequest_inv (eachLane_keeps (p := State.MemInv) (fun _ b ht => landBeat_inv ht i b) _ _ h) _

theorem runRequests_inv {s : State} (h : s.MemInv) (is : List Nat) : (runRequests s is).MemInv := by
  induction is generalizing s with
  | nil => exact h
  | cons i is ih => exact ih (runRequest_inv h i)

theorem failMember_inv {s : State} (h : s.MemInv) (r : Request) (u k : Nat) : (failMember s r u k).MemInv := by
  unfold failMember
  split
  · exact h
  · split
    · exact writeMask_inv (h.of_mem (modRequest_mem _ _ _)) _
    · exact (writeMask_inv (h.of_mem (modRequest_mem _ _ _)) _).of_mem (withdraw_mem _ _ _)

theorem drainWindows_inv {s : State} (h : s.MemInv) (u : Nat) : (drainWindows s u).MemInv := by
  unfold drainWindows
  exact foldl_keeps (p := State.MemInv) (fun _ _ ht => leaveN_inv _ ht _) _ _ h

theorem windUp_inv {s : State} (h : s.MemInv) (u : Nat) : (windUp s u).MemInv := by
  unfold windUp
  split
  · exact runRequests_inv (drainWindows_inv h u) _
  · exact h

theorem leaveSharing_inv {s : State} (h : s.MemInv) (u : Nat) : (leaveSharing s u).MemInv := by
  unfold leaveSharing
  simp only
  split
  · exact h
  · exact (foldl_keeps (p := State.MemInv) (fun _ _ ht => failMember_inv ht _ _ _) _ _ (windUp_inv h u)).of_mem (State.modTeam_mem _ _ _)

/-! ### Kills, taking a trap, returning from one -/

theorem holdThread_inv {s : State} (h : s.MemInv) (tid : Nat) (p : DWord) (r a : Nat) (f : TrapInfo) : (holdThread s tid p r a f).MemInv :=
  (reportReplay_inv h _ _ _ _ _ _).of_mem (State.modThread_mem _ _ _)

theorem bumpSat_inv {s : State} (h : s.MemInv) (l : Loc) : (bumpSat s l).MemInv := deviceOut_inv h _ _

theorem writeFault_inv {s : State} (h : s.MemInv) (core ctx : Nat) (r : FaultRec) (w : Word) : (writeFault s core ctx r w).MemInv := by
  unfold writeFault
  simp only
  split
  · exact h
  · split
    · exact logWalk_inv h _ _ _
    · next l _ =>
      have hn : (noteHomeReads s (.phys l) 64).MemInv := h.of_mem (noteHomeReads_mem _ _ _)
      generalize noteHomeReads s (.phys l) 64 = t at hn ⊢
      split
      · exact hn
      · split
        · exact bumpSat_inv hn _
        · split
          · exact bumpSat_inv (logWalk_inv hn _ _ _) _
          · exact State.MemInv.of_mem (deviceOut_inv ((deviceOut_inv hn _ _).of_mem (farRelease_mem _)) _ _) rfl

theorem endBind_inv {s : State} (h : s.MemInv) (b : Bind) : (endBind s b).MemInv := State.MemInv.of_mem (writeBack_inv h b) rfl

theorem endBinds_inv {s : State} (h : s.MemInv) (bs : List Bind) : (endBinds s bs).MemInv := by
  induction bs generalizing s with
  | nil => exact h
  | cons b bs ih => exact ih (endBind_inv h b)

theorem endTeamBinds_inv {s : State} (h : s.MemInv) (u : Nat) : (endTeamBinds s u).MemInv := endBinds_inv h _

theorem retireSlot_inv {s : State} (h : s.MemInv) (u k : Nat) : (retireSlot s u k).MemInv := by
  unfold retireSlot
  simp only
  split
  · exact h
  · next b _ =>
    have hw (l : Loc) (n v : Nat) (f : Team → Team) : ((writeNat (noteHome s l) l n v).modTeam u f).MemInv :=
      (writeNat_inv (h.of_mem (noteHome_mem _ _)) _ _ _).of_mem (State.modTeam_mem _ _ _)
    split
    · exact State.MemInv.of_mem (hw (.phys (b.pa + 4)) 4 (readNat s (.phys (b.pa + 4)) 4 - 1) (fun t => { t with tslots := mdel t.tslots k })) rfl
    · exact hw _ _ _ _

theorem giveUp_inv {s : State} (h : s.MemInv) (u : Nat) : (giveUp s u).MemInv := by
  unfold giveUp
  refine eachLane_keeps (p := State.MemInv) (fun t k ht => ht.of_mem (unbindView_mem t u k)) _ _ ?_
  refine eachLane_keeps (p := State.MemInv) (fun t k ht => retireSlot_inv ht u k) _ _ ?_
  exact State.MemInv.of_mem (leaveSharing_inv (endTeamBinds_inv h u) u) rfl

theorem closeKill_inv {s : State} (h : s.MemInv) (u : Nat) : (closeKill s u).MemInv := by
  have hg := (giveUp_inv h u).of_mem (State.modTeam_mem (giveUp s u) u (fun t => { t with closed := true }))
  unfold closeKill
  simp only
  split
  · exact writeFault_inv hg _ _ _ _
  · exact hg

theorem tryClose_inv {s : State} (h : s.MemInv) (u : Nat) : (tryClose s u).MemInv := by
  have hw := windUp_inv (endTeamBinds_inv h u) u
  unfold tryClose
  split
  · exact h
  · simp only
    split
    · exact hw
    · exact closeKill_inv hw u

theorem kill_inv {s : State} (h : s.MemInv) (u : Nat) (r : FaultRec) : (kill s u r).MemInv := by
  unfold kill
  split
  · exact h
  · refine tryClose_inv (runRequests_inv (State.MemInv.of_mem (State.MemInv.of_mem ?_ (withdrawAll_mem _ _ _)) (State.modTeam_mem _ _ _)) _) _
    refine drainTeam_inv (s := { (s.modTeam u (fun t => { t with life := .dying, kill := some r })) with
      threads := (s.modTeam u (fun t => { t with life := .dying, kill := some r })).threads.map (fun p =>
        if teamOf p.1 = u then (p.1, p.2.dropWait) else p) }) ?_ u
    exact h

theorem writePlaces_inv {s : State} (h : s.MemInv) (ps : List (Loc × Nat)) (bs : List Byte) : (writePlaces s ps bs).MemInv := by
  induction ps generalizing s bs with
  | nil => exact h
  | cons p ps ih => exact ih (writeBytes_inv (h.of_mem (noteHomes_mem _ _ _)) _ _) _

theorem enterLane_inv {s : State} (h : s.MemInv) (tid : Nat) (m : Word) (run : Nat) (f : TrapInfo) (ps : List (Loc × Nat)) : (enterLane s tid m run f ps).MemInv := by
  unfold enterLane
  refine State.MemInv.of_mem (writePlaces_inv ?_ _ _) (State.modThread_mem _ _ _)
  split
  · exact h.of_mem (State.modGroup_mem _ _ _)
  · exact h

theorem enterLanes_inv (m : Word) (run : Nat) {s : State} (h : s.MemInv) (fs : List (Nat × TrapInfo × List (Loc × Nat))) : (enterLanes m run s fs).MemInv := by
  induction fs generalizing s with
  | nil => exact h
  | cons f fs ih => exact ih (enterLane_inv h _ _ _ _ _)

theorem logMet_inv {s : State} (h : s.MemInv) (fs : List (Nat × TrapInfo)) : (logMet s fs).MemInv := by
  have one (t : State) (ht : t.MemInv) (k : Nat) (u : UnitId) (c : Option Nat) (a : Option Nat) :
      (match a with
        | some a => logError t k u a c 0
        | none => t).MemInv := by
    cases a with
    | none => exact ht
    | some a => exact logError_inv ht _ _ _ _ _
  unfold logMet
  exact foldl_keeps (p := State.MemInv) (fun t p ht => one _ (one _ ht _ _ _ _) _ _ _ _) _ _ h

theorem State.MemInv.fresh {s : State} (h : s.MemInv) : { s with nextId := s.nextId + 1 }.MemInv := h

/-- Taking an exception keeps the canonical form of memory. -/
theorem takeTrap_inv {s : State} (h : s.MemInv) (g : Nat) (fs : List (Nat × TrapInfo)) : (takeTrap s g fs).MemInv := by
  unfold takeTrap
  simp only
  split
  · exact h
  · next t0 f0 rest =>
    split
    · exact h
    · have hl : (logMet s ((t0, f0) :: rest)).MemInv := logMet_inv h _
      generalize logMet s ((t0, f0) :: rest) = l at hl ⊢
      split
      · exact kill_inv hl _ _
      · split
        · exact kill_inv hl _ _
        · have hm : (mergeSets (settleThreads l g (((t0, f0) :: rest).map Prod.fst)) g []).MemInv :=
            (settleThreads_inv hl _ _).of_mem (mergeSets_mem _ _ _)
          generalize mergeSets (settleThreads l g (((t0, f0) :: rest).map Prod.fst)) g [] = m at hm ⊢
          split
          · exact kill_inv (logMet_inv hm _) _ _
          · exact enterLanes_inv _ _ hm.fresh _

theorem eretLane_inv {s : State} (h : s.MemInv) (tid : Nat) : (eretLane s tid).MemInv := by
  unfold eretLane
  simp only
  split
  · exact h
  · split
    · exact kill_inv (logMet_inv h _) _ _
    · next ps _ =>
      have hw (bs : List Byte) (g : Nat) (ls : List Nat) (f : Thread → Thread) : ((leaveTrap (writePlaces s ps bs) g ls).modThread tid f).MemInv :=
        ((writePlaces_inv h ps bs).of_mem (leaveTrap_mem _ g ls)).of_mem (State.modThread_mem _ _ _)
      split
      · exact (hw _ _ _ _).of_mem (by rw [exitThreads_mem, State.modThread_mem])
      · split
        · split
          · exact (hw _ _ _ _).of_mem (by rw [releaseTest_mem, arriveMask_mem, State.modThread_mem])
          · exact (hw _ _ _ _).of_mem (by rw [releaseTest_mem, strikeMask_mem, State.modThread_mem])
        · exact (hw _ _ _ _).of_mem (State.modThread_mem _ _ _)

/-- Returning from an exception keeps the canonical form of memory. -/
theorem returnTrap_inv {s : State} (h : s.MemInv) (g : Nat) (ls : List Nat) : (returnTrap s g ls).MemInv := by
  unfold returnTrap
  exact eachLane_keeps (p := State.MemInv) (fun _ l ht => eretLane_inv ht l) _ _ (settleThreads_inv (drainQueue_inv h g) g ls)

theorem deliverFault_inv {s : State} (h : s.MemInv) (tid : Nat) : (deliverFault s tid).MemInv := by
  unfold deliverFault
  simp only
  split
  · split
    · exact h
    · split
      · exact kill_inv h _ _
      · split
        · exact h
        · split
          · exact h
          · refine takeTrap_inv ?_ _ _
            exact h
  · exact h

end Sys2Proof.Machine
end

