-- ==== Sys2Proof/Laws/PerInstr.lean ====
section
/-! SUPPORT. One lemma per instruction: the pipe that its operands are read for is the pipe of its word's major opcode, and its encoding ties it to
no other word (R81, R83). -/

namespace Sys2Proof.Laws.pipes

open Sys2Proof.Machine

/-- The word of an instruction stands in the pipe that the machine gives the instruction, with chain bit 0. -/
def Statement (i : Instr) : Prop := ∀ w, encode i = some w → wordPipe w = some (pipeOf i) ∧ chainBit w = false

/-! ### The major opcode and the chain bit of each format -/

theorem extract_low {m n : Nat} (x : BitVec m) (y : BitVec n) (s k : Nat) (h : s + k ≤ n) : (x ++ y).extractLsb' s k = y.extractLsb' s k :=
  BitVec.extractLsb'_append_eq_of_add_le h
theorem extract_high {m n : Nat} (x : BitVec m) (y : BitVec n) (s k : Nat) (h : n ≤ s) : (x ++ y).extractLsb' s k = x.extractLsb' (s - n) k :=
  BitVec.extractLsb'_append_eq_of_le h

theorem triW_pipe (m : BitVec 6) (n : Bool) (d a b : Code) (f : BitVec 3) : wordPipe (triW m n d a b f) = pipeOfMajor m.toNat ∧ chainBit (triW m n d a b f) = false := by
  have h : major (triW m n d a b f) = m := by
    simp (disch := decide) only [major, triW, extract_low, extract_high, BitVec.extractLsb'_eq_self, Nat.reduceSub]
  refine ⟨by rw [wordPipe, h], ?_⟩
  simp only [chainBit, triW, BitVec.getLsbD_append]; simp

theorem immW_pipe (m : BitVec 6) (n : Bool) (d a : Code) (x : BitVec 10) : wordPipe (immW m n d a x) = pipeOfMajor m.toNat ∧ chainBit (immW m n d a x) = false := by
  have h : major (immW m n d a x) = m := by
    simp (disch := decide) only [major, immW, extract_low, extract_high, BitVec.extractLsb'_eq_self, Nat.reduceSub]
  refine ⟨by rw [wordPipe, h], ?_⟩
  simp only [chainBit, immW, BitVec.getLsbD_append]; simp

theorem uprW_pipe (m : BitVec 6) (d : Code) (x : BitVec 18) : wordPipe (uprW m d x) = pipeOfMajor m.toNat ∧ chainBit (uprW m d x) = false := by
  have h : major (uprW m d x) = m := by
    simp (disch := decide) only [major, uprW, extract_low, extract_high, BitVec.extractLsb'_eq_self, Nat.reduceSub]
  refine ⟨by rw [wordPipe, h], ?_⟩
  simp only [chainBit, uprW, BitVec.getLsbD_append]; simp

theorem braW_pipe (m : BitVec 6) (h : BitVec 2) (a : Code) (x : BitVec 5) (y : BitVec 11) : wordPipe (braW m h a x y) = pipeOfMajor m.toNat ∧ chainBit (braW m h a x y) = false := by
  have h : major (braW m h a x y) = m := by
    simp (disch := decide) only [major, braW, extract_low, extract_high, BitVec.extractLsb'_eq_self, Nat.reduceSub]
  refine ⟨by rw [wordPipe, h], ?_⟩
  simp only [chainBit, braW, BitVec.getLsbD_append]; simp

theorem jmpW_pipe (m : BitVec 6) (h : BitVec 2) (x : BitVec 5) (y : BitVec 18) : wordPipe (jmpW m h x y) = pipeOfMajor m.toNat ∧ chainBit (jmpW m h x y) = false := by
  have h : major (jmpW m h x y) = m := by
    simp (disch := decide) only [major, jmpW, extract_low, extract_high, BitVec.extractLsb'_eq_self, Nat.reduceSub]
  refine ⟨by rw [wordPipe, h], ?_⟩
  simp only [chainBit, jmpW, BitVec.getLsbD_append]; simp

theorem memW_pipe (m : BitVec 6) (n : Bool) (d a : Code) (r : BitVec 2) (z : BitVec 3) (o : BitVec 5) : wordPipe (memW m n d a r z o) = pipeOfMajor m.toNat ∧ chainBit (memW m n d a r z o) = false := by
  have h : major (memW m n d a r z o) = m := by
    simp (disch := decide) only [major, memW, extract_low, extract_high, BitVec.extractLsb'_eq_self, Nat.reduceSub]
  refine ⟨by rw [wordPipe, h], ?_⟩
  simp only [chainBit, memW, BitVec.getLsbD_append]; simp

theorem extW_pipe (m : BitVec 6) (f : BitVec 5) (d a : Code) (x : BitVec 6) : wordPipe (extW m f d a x) = pipeOfMajor m.toNat ∧ chainBit (extW m f d a x) = false := by
  have h : major (extW m f d a x) = m := by
    simp (disch := decide) only [major, extW, extract_low, extract_high, BitVec.extractLsb'_eq_self, Nat.reduceSub]
  refine ⟨by rw [wordPipe, h], ?_⟩
  simp only [chainBit, extW, BitVec.getLsbD_append]; simp

/-- What a format gives is what a lemma of an instruction asks. -/
theorem of_pipe {i : Instr} {v : Word} {p : Option Pipe} (h : wordPipe v = p ∧ chainBit v = false) (e : encode i = some v) (hp : p = some (pipeOf i)) : Statement i := by
  intro w hw
  rw [e] at hw
  obtain rfl := Option.some.inj hw
  exact ⟨h.1.trans hp, h.2⟩

theorem of_none {i : Instr} (h : encode i = none) : Statement i := by
  intro w hw
  rw [h] at hw
  cases hw

/-! ### The instructions -/

theorem add (n : Bool) (d a b : Code) : Statement (.add n d a b) := of_pipe (triW_pipe ..) rfl rfl
theorem sub (n : Bool) (d a b : Code) : Statement (.sub n d a b) := of_pipe (triW_pipe ..) rfl rfl
theorem mul (n : Bool) (d a b : Code) : Statement (.mul n d a b) := of_pipe (triW_pipe ..) rfl rfl
theorem mulhiI (n : Bool) (d a b : Code) : Statement (.mulhiI n d a b) := of_pipe (triW_pipe ..) rfl rfl
theorem mulhiN (n : Bool) (d a b : Code) : Statement (.mulhiN n d a b) := of_pipe (triW_pipe ..) rfl rfl
theorem mad (n : Bool) (d a b : Code) : Statement (.mad n d a b) := of_pipe (triW_pipe ..) rfl rfl
theorem minI (n : Bool) (d a b : Code) : Statement (.minI n d a b) := of_pipe (triW_pipe ..) rfl rfl
theorem maxI (n : Bool) (d a b : Code) : Statement (.maxI n d a b) := of_pipe (triW_pipe ..) rfl rfl
theorem minN (n : Bool) (d a b : Code) : Statement (.minN n d a b) := of_pipe (triW_pipe ..) rfl rfl
theorem maxN (n : Bool) (d a b : Code) : Statement (.maxN n d a b) := of_pipe (triW_pipe ..) rfl rfl
theorem absInt (n : Bool) (d a : Code) : Statement (.absInt n d a) := of_pipe (triW_pipe ..) rfl rfl
theorem addsatI (n : Bool) (d a b : Code) : Statement (.addsatI n d a b) := of_pipe (triW_pipe ..) rfl rfl
theorem subsatI (n : Bool) (d a b : Code) : Statement (.subsatI n d a b) := of_pipe (triW_pipe ..) rfl rfl
theorem clz (n : Bool) (d a : Code) : Statement (.clz n d a) := of_pipe (triW_pipe ..) rfl rfl
theorem popc (n : Bool) (d a : Code) : Statement (.popc n d a) := of_pipe (triW_pipe ..) rfl rfl
theorem brev (n : Bool) (d a : Code) : Statement (.brev n d a) := of_pipe (triW_pipe ..) rfl rfl
theorem andW (n : Bool) (d a b : Code) : Statement (.andW n d a b) := of_pipe (triW_pipe ..) rfl rfl
theorem orW (n : Bool) (d a b : Code) : Statement (.orW n d a b) := of_pipe (triW_pipe ..) rfl rfl
theorem xorW (n : Bool) (d a b : Code) : Statement (.xorW n d a b) := of_pipe (triW_pipe ..) rfl rfl
theorem andn (n : Bool) (d a b : Code) : Statement (.andn n d a b) := of_pipe (triW_pipe ..) rfl rfl
theorem orn (n : Bool) (d a b : Code) : Statement (.orn n d a b) := of_pipe (triW_pipe ..) rfl rfl
theorem xnor (n : Bool) (d a b : Code) : Statement (.xnor n d a b) := of_pipe (triW_pipe ..) rfl rfl
theorem sel (n : Bool) (d a b : Code) : Statement (.sel n d a b) := of_pipe (triW_pipe ..) rfl rfl
theorem mov (n : Bool) (d a : Code) : Statement (.mov n d a) := of_pipe (triW_pipe ..) rfl rfl
theorem shl (n : Bool) (d a b : Code) : Statement (.shl n d a b) := of_pipe (triW_pipe ..) rfl rfl
theorem shr (n : Bool) (d a b : Code) : Statement (.shr n d a b) := of_pipe (triW_pipe ..) rfl rfl
theorem sar (n : Bool) (d a b : Code) : Statement (.sar n d a b) := of_pipe (triW_pipe ..) rfl rfl
theorem rol (n : Bool) (d a b : Code) : Statement (.rol n d a b) := of_pipe (triW_pipe ..) rfl rfl
theorem shl64 (n : Bool) (d a b : Code) : Statement (.shl64 n d a b) := of_pipe (triW_pipe ..) rfl rfl
theorem shr64 (n : Bool) (d a b : Code) : Statement (.shr64 n d a b) := of_pipe (triW_pipe ..) rfl rfl
theorem bfx (n : Bool) (d a b : Code) : Statement (.bfx n d a b) := of_pipe (triW_pipe ..) rfl rfl
theorem bfi (n : Bool) (d a b : Code) : Statement (.bfi n d a b) := of_pipe (triW_pipe ..) rfl rfl
theorem cmpEq (n : Bool) (d a b : Code) : Statement (.cmpEq n d a b) := of_pipe (triW_pipe ..) rfl rfl
theorem cmpNe (n : Bool) (d a b : Code) : Statement (.cmpNe n d a b) := of_pipe (triW_pipe ..) rfl rfl
theorem ltI (n : Bool) (d a b : Code) : Statement (.ltI n d a b) := of_pipe (triW_pipe ..) rfl rfl
theorem leI (n : Bool) (d a b : Code) : Statement (.leI n d a b) := of_pipe (triW_pipe ..) rfl rfl
theorem ltN (n : Bool) (d a b : Code) : Statement (.ltN n d a b) := of_pipe (triW_pipe ..) rfl rfl
theorem leN (n : Bool) (d a b : Code) : Statement (.leN n d a b) := of_pipe (triW_pipe ..) rfl rfl
theorem tst (n : Bool) (d a b : Code) : Statement (.tst n d a b) := of_pipe (triW_pipe ..) rfl rfl
theorem voteAny (n : Bool) (d a : Code) : Statement (.voteAny n d a) := of_pipe (triW_pipe ..) rfl rfl
theorem voteAll (n : Bool) (d a : Code) : Statement (.voteAll n d a) := of_pipe (triW_pipe ..) rfl rfl
theorem voteBal (n : Bool) (d a : Code) : Statement (.voteBal n d a) := of_pipe (triW_pipe ..) rfl rfl
theorem matchLanes (n : Bool) (d a : Code) : Statement (.matchLanes n d a) := of_pipe (triW_pipe ..) rfl rfl
theorem actmask (n : Bool) (d : Code) : Statement (.actmask n d) := of_pipe (triW_pipe ..) rfl rfl
theorem movs (d : Code) (imm : BitVec 18) : Statement (.movs d imm) := of_pipe (uprW_pipe ..) rfl rfl
theorem add64 (n : Bool) (d a b : Code) : Statement (.add64 n d a b) := of_pipe (triW_pipe ..) rfl rfl
theorem sub64 (n : Bool) (d a b : Code) : Statement (.sub64 n d a b) := of_pipe (triW_pipe ..) rfl rfl
theorem addxI (n : Bool) (d a b : Code) : Statement (.addxI n d a b) := of_pipe (triW_pipe ..) rfl rfl
theorem addxN (n : Bool) (d a b : Code) : Statement (.addxN n d a b) := of_pipe (triW_pipe ..) rfl rfl
theorem cmplt64 (n : Bool) (d a b : Code) : Statement (.cmplt64 n d a b) := of_pipe (triW_pipe ..) rfl rfl
theorem cmpeq64 (n : Bool) (d a b : Code) : Statement (.cmpeq64 n d a b) := of_pipe (triW_pipe ..) rfl rfl
theorem mov64 (n : Bool) (d a : Code) : Statement (.mov64 n d a) := of_pipe (triW_pipe ..) rfl rfl
theorem addi (n : Bool) (d a : Code) (imm : BitVec 10) : Statement (.addi n d a imm) := of_pipe (immW_pipe ..) rfl rfl
theorem andi (n : Bool) (d a : Code) (imm : BitVec 10) : Statement (.andi n d a imm) := of_pipe (immW_pipe ..) rfl rfl
theorem ori (n : Bool) (d a : Code) (imm : BitVec 10) : Statement (.ori n d a imm) := of_pipe (immW_pipe ..) rfl rfl
theorem xori (n : Bool) (d a : Code) (imm : BitVec 10) : Statement (.xori n d a imm) := of_pipe (immW_pipe ..) rfl rfl
theorem shli (n : Bool) (d a : Code) (imm : BitVec 5) : Statement (.shli n d a imm) := of_pipe (immW_pipe ..) rfl rfl
theorem shri (n : Bool) (d a : Code) (imm : BitVec 5) : Statement (.shri n d a imm) := of_pipe (immW_pipe ..) rfl rfl
theorem sari (n : Bool) (d a : Code) (imm : BitVec 5) : Statement (.sari n d a imm) := of_pipe (immW_pipe ..) rfl rfl
theorem roli (n : Bool) (d a : Code) (imm : BitVec 5) : Statement (.roli n d a imm) := of_pipe (immW_pipe ..) rfl rfl
theorem cmpiEq (n : Bool) (d a : Code) (imm : BitVec 7) : Statement (.cmpiEq n d a imm) := of_pipe (immW_pipe ..) rfl rfl
theorem cmpiNe (n : Bool) (d a : Code) (imm : BitVec 7) : Statement (.cmpiNe n d a imm) := of_pipe (immW_pipe ..) rfl rfl
theorem cmpiLtI (n : Bool) (d a : Code) (imm : BitVec 7) : Statement (.cmpiLtI n d a imm) := of_pipe (immW_pipe ..) rfl rfl
theorem cmpiLeI (n : Bool) (d a : Code) (imm : BitVec 7) : Statement (.cmpiLeI n d a imm) := of_pipe (immW_pipe ..) rfl rfl
theorem cmpiLtN (n : Bool) (d a : Code) (imm : BitVec 7) : Statement (.cmpiLtN n d a imm) := of_pipe (immW_pipe ..) rfl rfl
theorem cmpiLeN (n : Bool) (d a : Code) (imm : BitVec 7) : Statement (.cmpiLeN n d a imm) := of_pipe (immW_pipe ..) rfl rfl
theorem cmpiGtI (n : Bool) (d a : Code) (imm : BitVec 7) : Statement (.cmpiGtI n d a imm) := of_pipe (immW_pipe ..) rfl rfl
theorem cmpiGeI (n : Bool) (d a : Code) (imm : BitVec 7) : Statement (.cmpiGeI n d a imm) := of_pipe (immW_pipe ..) rfl rfl
theorem movi (d : Code) (imm : BitVec 18) : Statement (.movi d imm) := of_pipe (uprW_pipe ..) rfl rfl
theorem movhi (d : Code) (imm : BitVec 18) : Statement (.movhi d imm) := of_pipe (uprW_pipe ..) rfl rfl
theorem bnz (h : BitVec 2) (a : Code) (slot : BitVec 5) (dline : BitVec 11) : Statement (.bnz h a slot dline) := of_pipe (braW_pipe ..) rfl rfl
theorem bz (h : BitVec 2) (a : Code) (slot : BitVec 5) (dline : BitVec 11) : Statement (.bz h a slot dline) := of_pipe (braW_pipe ..) rfl rfl
theorem jmp (h : BitVec 2) (slot : BitVec 5) (dline : BitVec 18) : Statement (.jmp h slot dline) := of_pipe (jmpW_pipe ..) rfl rfl
theorem call (h : BitVec 2) (slot : BitVec 5) (dline : BitVec 18) : Statement (.call h slot dline) := of_pipe (jmpW_pipe ..) rfl rfl
theorem jmpi (a : Code) : Statement (.jmpi a) := of_pipe (extW_pipe ..) rfl rfl
theorem calli (a : Code) : Statement (.calli a) := of_pipe (extW_pipe ..) rfl rfl
theorem rjEnrol (k : BitVec 3) : Statement (.rjEnrol k) := of_pipe (extW_pipe ..) rfl rfl
theorem rjWait (k : BitVec 3) : Statement (.rjWait k) := of_pipe (extW_pipe ..) rfl rfl
theorem rjStrike (k : BitVec 3) : Statement (.rjStrike k) := of_pipe (extW_pipe ..) rfl rfl
theorem rjQuery (d : Code) (k : BitVec 3) : Statement (.rjQuery d k) := of_pipe (extW_pipe ..) rfl rfl
theorem spadd (a : Code) (x : BitVec 6) : Statement (.spadd a x) := of_pipe (extW_pipe ..) rfl rfl
theorem spget (d : Code) : Statement (.spget d) := of_pipe (extW_pipe ..) rfl rfl
theorem spset (a : Code) : Statement (.spset a) := of_pipe (extW_pipe ..) rfl rfl
theorem brk (x : BitVec 6) : Statement (.brk x) := of_pipe (extW_pipe ..) rfl rfl
theorem fadd (n : Bool) (d a b : Code) : Statement (.fadd n d a b) := of_pipe (triW_pipe ..) rfl rfl
theorem fsub (n : Bool) (d a b : Code) : Statement (.fsub n d a b) := of_pipe (triW_pipe ..) rfl rfl
theorem fmul (n : Bool) (d a b : Code) : Statement (.fmul n d a b) := of_pipe (triW_pipe ..) rfl rfl
theorem ffma (n : Bool) (d a b : Code) : Statement (.ffma n d a b) := of_pipe (triW_pipe ..) rfl rfl
theorem ffms (n : Bool) (d a b : Code) : Statement (.ffms n d a b) := of_pipe (triW_pipe ..) rfl rfl
theorem fmin (n : Bool) (d a b : Code) : Statement (.fmin n d a b) := of_pipe (triW_pipe ..) rfl rfl
theorem fmax (n : Bool) (d a b : Code) : Statement (.fmax n d a b) := of_pipe (triW_pipe ..) rfl rfl
theorem fcpsgn (n : Bool) (d a b : Code) : Statement (.fcpsgn n d a b) := of_pipe (triW_pipe ..) rfl rfl
theorem feq (n : Bool) (d a b : Code) : Statement (.feq n d a b) := of_pipe (triW_pipe ..) rfl rfl
theorem flt (n : Bool) (d a b : Code) : Statement (.flt n d a b) := of_pipe (triW_pipe ..) rfl rfl
theorem fle (n : Bool) (d a b : Code) : Statement (.fle n d a b) := of_pipe (triW_pipe ..) rfl rfl
theorem funord (n : Bool) (d a b : Code) : Statement (.funord n d a b) := of_pipe (triW_pipe ..) rfl rfl
theorem fclass (n : Bool) (d a : Code) : Statement (.fclass n d a) := of_pipe (triW_pipe ..) rfl rfl
theorem fabs (n : Bool) (d a : Code) : Statement (.fabs n d a) := of_pipe (triW_pipe ..) rfl rfl
theorem fneg (n : Bool) (d a : Code) : Statement (.fneg n d a) := of_pipe (triW_pipe ..) rfl rfl
theorem frcp (n : Bool) (d a : Code) : Statement (.frcp n d a) := of_pipe (triW_pipe ..) rfl rfl
theorem frsq (n : Bool) (d a : Code) : Statement (.frsq n d a) := of_pipe (triW_pipe ..) rfl rfl
theorem fsqrt (n : Bool) (d a : Code) : Statement (.fsqrt n d a) := of_pipe (triW_pipe ..) rfl rfl
theorem fexp2 (n : Bool) (d a : Code) : Statement (.fexp2 n d a) := of_pipe (triW_pipe ..) rfl rfl
theorem flog2 (n : Bool) (d a : Code) : Statement (.flog2 n d a) := of_pipe (triW_pipe ..) rfl rfl
theorem ftanh (n : Bool) (d a : Code) : Statement (.ftanh n d a) := of_pipe (triW_pipe ..) rfl rfl
theorem fsin (n : Bool) (d a : Code) : Statement (.fsin n d a) := of_pipe (triW_pipe ..) rfl rfl
theorem fcos (n : Bool) (d a : Code) : Statement (.fcos n d a) := of_pipe (triW_pipe ..) rfl rfl
theorem hadd2 (n : Bool) (d a b : Code) : Statement (.hadd2 n d a b) := of_pipe (triW_pipe ..) rfl rfl
theorem hsub2 (n : Bool) (d a b : Code) : Statement (.hsub2 n d a b) := of_pipe (triW_pipe ..) rfl rfl
theorem hmul2 (n : Bool) (d a b : Code) : Statement (.hmul2 n d a b) := of_pipe (triW_pipe ..) rfl rfl
theorem hfma2 (n : Bool) (d a b : Code) : Statement (.hfma2 n d a b) := of_pipe (triW_pipe ..) rfl rfl
theorem hmin2 (n : Bool) (d a b : Code) : Statement (.hmin2 n d a b) := of_pipe (triW_pipe ..) rfl rfl
theorem hmax2 (n : Bool) (d a b : Code) : Statement (.hmax2 n d a b) := of_pipe (triW_pipe ..) rfl rfl
theorem hdot2 (n : Bool) (d a b : Code) : Statement (.hdot2 n d a b) := of_pipe (triW_pipe ..) rfl rfl
theorem cvtF2i (n : Bool) (d a : Code) (r : BitVec 2) : Statement (.cvtF2i n d a r) := of_pipe (immW_pipe ..) rfl rfl
theorem cvtF2n (n : Bool) (d a : Code) (r : BitVec 2) : Statement (.cvtF2n n d a r) := of_pipe (immW_pipe ..) rfl rfl
theorem cvtI2f (n : Bool) (d a : Code) (r : BitVec 2) : Statement (.cvtI2f n d a r) := of_pipe (immW_pipe ..) rfl rfl
theorem cvtN2f (n : Bool) (d a : Code) (r : BitVec 2) : Statement (.cvtN2f n d a r) := of_pipe (immW_pipe ..) rfl rfl
theorem cvtF2bf (n : Bool) (d a : Code) (r : BitVec 2) : Statement (.cvtF2bf n d a r) := of_pipe (immW_pipe ..) rfl rfl
theorem cvtBf2f (n : Bool) (d a : Code) : Statement (.cvtBf2f n d a) := of_pipe (immW_pipe ..) rfl rfl
theorem cvtF2h (n : Bool) (d a : Code) (r : BitVec 2) : Statement (.cvtF2h n d a r) := of_pipe (immW_pipe ..) rfl rfl
theorem cvtH2f (n : Bool) (d a : Code) : Statement (.cvtH2f n d a) := of_pipe (immW_pipe ..) rfl rfl
theorem cvtFrnd (n : Bool) (d a : Code) (r : BitVec 2) : Statement (.cvtFrnd n d a r) := of_pipe (immW_pipe ..) rfl rfl
theorem cvtEnc (n : Bool) (d a : Code) (k : BitVec 3) (r : BitVec 2) : Statement (.cvtEnc n d a k r) := of_pipe (immW_pipe ..) rfl rfl
theorem cvtDec (n : Bool) (d a : Code) (k : BitVec 3) (r : BitVec 2) : Statement (.cvtDec n d a k r) := of_pipe (immW_pipe ..) rfl rfl
theorem narrowPack (n : Bool) (d a : Code) (k : BitVec 3) (p : BitVec 2) : Statement (.narrowPack n d a k p) := of_pipe (immW_pipe ..) rfl rfl
theorem narrowUnpack (n : Bool) (d a : Code) (k : BitVec 3) (p : BitVec 2) : Statement (.narrowUnpack n d a k p) := of_pipe (immW_pipe ..) rfl rfl
theorem xbPerm (n : Bool) (d a b : Code) : Statement (.xbPerm n d a b) := of_pipe (triW_pipe ..) rfl rfl
theorem xbPerm2 (n : Bool) (d a b : Code) : Statement (.xbPerm2 n d a b) := of_pipe (triW_pipe ..) rfl rfl
theorem xbShfl (n : Bool) (d a b : Code) : Statement (.xbShfl n d a b) := of_pipe (triW_pipe ..) rfl rfl
theorem xbBcast (n : Bool) (d a b : Code) : Statement (.xbBcast n d a b) := of_pipe (triW_pipe ..) rfl rfl
theorem xbRot (n : Bool) (d a b : Code) : Statement (.xbRot n d a b) := of_pipe (triW_pipe ..) rfl rfl
theorem xbTrn (n : Bool) (d a b : Code) : Statement (.xbTrn n d a b) := of_pipe (triW_pipe ..) rfl rfl
theorem ldg (n : Bool) (d a : Code) (r : BitVec 2) (sz : BitVec 3) (off : BitVec 5) : Statement (.ldg n d a r sz off) := of_pipe (memW_pipe ..) rfl rfl
theorem stg (d a : Code) (r : BitVec 2) (sz : BitVec 3) (off : BitVec 5) : Statement (.stg d a r sz off) := of_pipe (memW_pipe ..) rfl rfl
theorem lds (n : Bool) (d a : Code) (sz : BitVec 3) (off : BitVec 5) : Statement (.lds n d a sz off) := of_pipe (memW_pipe ..) rfl rfl
theorem sts (d a : Code) (sz : BitVec 3) (off : BitVec 5) : Statement (.sts d a sz off) := of_pipe (memW_pipe ..) rfl rfl
theorem ldp (n : Bool) (d a : Code) (sz : BitVec 3) (off : BitVec 5) : Statement (.ldp n d a sz off) := of_pipe (memW_pipe ..) rfl rfl
theorem stp (d a : Code) (sz : BitVec 3) (off : BitVec 5) : Statement (.stp d a sz off) := of_pipe (memW_pipe ..) rfl rfl
theorem atomgAdd (n : Bool) (d a b : Code) : Statement (.atomgAdd n d a b) := of_pipe (triW_pipe ..) rfl rfl
theorem atomgMinI (n : Bool) (d a b : Code) : Statement (.atomgMinI n d a b) := of_pipe (triW_pipe ..) rfl rfl
theorem atomgMaxI (n : Bool) (d a b : Code) : Statement (.atomgMaxI n d a b) := of_pipe (triW_pipe ..) rfl rfl
theorem atomgAnd (n : Bool) (d a b : Code) : Statement (.atomgAnd n d a b) := of_pipe (triW_pipe ..) rfl rfl
theorem atomgOr (n : Bool) (d a b : Code) : Statement (.atomgOr n d a b) := of_pipe (triW_pipe ..) rfl rfl
theorem atomgXor (n : Bool) (d a b : Code) : Statement (.atomgXor n d a b) := of_pipe (triW_pipe ..) rfl rfl
theorem atomgXchg (n : Bool) (d a b : Code) : Statement (.atomgXchg n d a b) := of_pipe (triW_pipe ..) rfl rfl
theorem atomgCas (n : Bool) (d a b : Code) : Statement (.atomgCas n d a b) := of_pipe (triW_pipe ..) rfl rfl
theorem atomsAdd (n : Bool) (d a b : Code) : Statement (.atomsAdd n d a b) := of_pipe (triW_pipe ..) rfl rfl
theorem atomsMinI (n : Bool) (d a b : Code) : Statement (.atomsMinI n d a b) := of_pipe (triW_pipe ..) rfl rfl
theorem atomsMaxI (n : Bool) (d a b : Code) : Statement (.atomsMaxI n d a b) := of_pipe (triW_pipe ..) rfl rfl
theorem atomsAnd (n : Bool) (d a b : Code) : Statement (.atomsAnd n d a b) := of_pipe (triW_pipe ..) rfl rfl
theorem atomsOr (n : Bool) (d a b : Code) : Statement (.atomsOr n d a b) := of_pipe (triW_pipe ..) rfl rfl
theorem atomsXor (n : Bool) (d a b : Code) : Statement (.atomsXor n d a b) := of_pipe (triW_pipe ..) rfl rfl
theorem atomsXchg (n : Bool) (d a b : Code) : Statement (.atomsXchg n d a b) := of_pipe (triW_pipe ..) rfl rfl
theorem atomsCas (n : Bool) (d a b : Code) : Statement (.atomsCas n d a b) := of_pipe (triW_pipe ..) rfl rfl
theorem redfFadd (a b : Code) : Statement (.redfFadd a b) := of_pipe (triW_pipe ..) rfl rfl
theorem redfFmin (a b : Code) : Statement (.redfFmin a b) := of_pipe (triW_pipe ..) rfl rfl
theorem redfFmax (a b : Code) : Statement (.redfFmax a b) := of_pipe (triW_pipe ..) rfl rfl
theorem redfHadd2 (a b : Code) : Statement (.redfHadd2 a b) := of_pipe (triW_pipe ..) rfl rfl
theorem redfAccred (a b : Code) : Statement (.redfAccred a b) := of_pipe (triW_pipe ..) rfl rfl
theorem redfAddI (a b : Code) : Statement (.redfAddI a b) := of_pipe (triW_pipe ..) rfl rfl
theorem fence (x : BitVec 6) : Statement (.fence x) := of_pipe (extW_pipe ..) rfl rfl
theorem phInit (d a : Code) (k : BitVec 5) : Statement (.phInit d a k) := of_pipe (extW_pipe ..) rfl rfl
theorem phArrive (d : Code) (k : BitVec 5) : Statement (.phArrive d k) := of_pipe (extW_pipe ..) rfl rfl
theorem phWait (a : Code) (k : BitVec 5) : Statement (.phWait a k) := of_pipe (extW_pipe ..) rfl rfl
theorem phTest (d a : Code) (k : BitVec 5) : Statement (.phTest d a k) := of_pipe (extW_pipe ..) rfl rfl
theorem phEnd (d : Code) (k : BitVec 5) : Statement (.phEnd d k) := of_pipe (extW_pipe ..) rfl rfl
theorem phStat (d : Code) (k : BitVec 5) : Statement (.phStat d k) := of_pipe (extW_pipe ..) rfl rfl
theorem phInval (d : Code) (k : BitVec 5) : Statement (.phInval d k) := of_pipe (extW_pipe ..) rfl rfl
theorem cpIssue (d a : Code) (x : BitVec 6) : Statement (.cpIssue d a x) := of_pipe (extW_pipe ..) rfl rfl
theorem cpMcast (d a : Code) (x : BitVec 6) : Statement (.cpMcast d a x) := of_pipe (extW_pipe ..) rfl rfl
theorem cpCancel (d a : Code) : Statement (.cpCancel d a) := of_pipe (extW_pipe ..) rfl rfl
theorem pref (a : Code) (x : BitVec 1) : Statement (.pref a x) := of_pipe (extW_pipe ..) rfl rfl
theorem pin (d a : Code) (x : BitVec 6) : Statement (.pin d a x) := of_pipe (extW_pipe ..) rfl rfl
theorem unpin (a : Code) (x : BitVec 6) : Statement (.unpin a x) := of_pipe (extW_pipe ..) rfl rfl
theorem cwb (d a : Code) (x : BitVec 3) : Statement (.cwb d a x) := of_pipe (extW_pipe ..) rfl rfl
theorem cinv (d a : Code) : Statement (.cinv d a) := of_pipe (extW_pipe ..) rfl rfl
theorem iinv (d a : Code) : Statement (.iinv d a) := of_pipe (extW_pipe ..) rfl rfl
theorem xbTload (a : Code) (k : BitVec 4) : Statement (.xbTload a k) := of_pipe (extW_pipe ..) rfl rfl
theorem shWin (d a : Code) (r : BitVec 4) : Statement (.shWin d a r) := of_pipe (extW_pipe ..) rfl rfl
theorem launch (d a : Code) : Statement (.launch d a) := of_pipe (extW_pipe ..) rfl rfl
theorem dgSignal (d a : Code) : Statement (.dgSignal d a) := of_pipe (extW_pipe ..) rfl rfl
theorem spmap (d a : Code) : Statement (.spmap d a) := of_pipe (extW_pipe ..) rfl rfl
theorem spunmap (d : Code) : Statement (.spunmap d) := of_pipe (extW_pipe ..) rfl rfl
theorem spwb (d : Code) : Statement (.spwb d) := of_pipe (extW_pipe ..) rfl rfl
theorem mxLoad (a : Code) : Statement (.mxLoad a) := of_pipe (extW_pipe ..) rfl rfl
theorem mxStream (a : Code) : Statement (.mxStream a) := of_pipe (extW_pipe ..) rfl rfl
theorem mxAdapt (a : Code) : Statement (.mxAdapt a) := of_pipe (extW_pipe ..) rfl rfl
theorem accArm (d a : Code) : Statement (.accArm d a) := of_pipe (extW_pipe ..) rfl rfl
theorem accDrain (a : Code) (x : BitVec 5) : Statement (.accDrain a x) := of_pipe (extW_pipe ..) rfl rfl
theorem accClear (d a : Code) : Statement (.accClear d a) := of_pipe (extW_pipe ..) rfl rfl
theorem accStat (d a : Code) : Statement (.accStat d a) := of_pipe (extW_pipe ..) rfl rfl
theorem vwSet (d a : Code) (k : BitVec 3) : Statement (.vwSet d a k) := of_pipe (extW_pipe ..) rfl rfl
theorem vwRefresh (d : Code) (k : BitVec 3) : Statement (.vwRefresh d k) := of_pipe (extW_pipe ..) rfl rfl
theorem vwGet (d : Code) (fsel k : BitVec 3) : Statement (.vwGet d fsel k) := of_pipe (extW_pipe ..) rfl rfl
theorem vwClear (d : Code) (k : BitVec 3) : Statement (.vwClear d k) := of_pipe (extW_pipe ..) rfl rfl
theorem gaWalk (d a : Code) (x : BitVec 6) : Statement (.gaWalk d a x) := of_pipe (extW_pipe ..) rfl rfl
theorem gaStat (d a : Code) : Statement (.gaStat d a) := of_pipe (extW_pipe ..) rfl rfl
theorem btBind (d a : Code) (slot : BitVec 3) : Statement (.btBind d a slot) := of_pipe (extW_pipe ..) rfl rfl
theorem btRetire (d : Code) (slot : BitVec 3) : Statement (.btRetire d slot) := of_pipe (extW_pipe ..) rfl rfl
theorem trap (a : Code) (x : BitVec 6) : Statement (.trap a x) := of_pipe (extW_pipe ..) rfl rfl
theorem movsys (d a : Code) : Statement (.movsys d a) := of_pipe (extW_pipe ..) rfl rfl
theorem movsysW (d a : Code) : Statement (.movsysW d a) := of_pipe (extW_pipe ..) rfl rfl
theorem movtsysSlim (a : Code) : Statement (.movtsysSlim a) := of_pipe (extW_pipe ..) rfl rfl
theorem syscall (d a : Code) (x : BitVec 6) : Statement (.syscall d a x) := of_pipe (extW_pipe ..) rfl rfl
theorem waitev (d a : Code) : Statement (.waitev d a) := of_pipe (extW_pipe ..) rfl rfl
theorem tlbinv (d a : Code) : Statement (.tlbinv d a) := of_pipe (extW_pipe ..) rfl rfl
theorem halt (d a : Code) : Statement (.halt d a) := of_pipe (extW_pipe ..) rfl rfl
theorem haltRes (d a : Code) : Statement (.haltRes d a) := of_pipe (extW_pipe ..) rfl rfl
theorem proof (d a : Code) : Statement (.proof d a) := of_pipe (extW_pipe ..) rfl rfl
theorem takeLaunchSlot (die q : Nat) : Statement (.takeLaunchSlot die q) := of_none rfl
theorem ageingExpiry (grid : Nat) : Statement (.ageingExpiry grid) := of_none rfl
theorem clusterStart (die grid : Nat) : Statement (.clusterStart die grid) := of_none rfl
theorem runLimitKill (team : Nat) : Statement (.runLimitKill team) := of_none rfl
theorem completionEntryWrite (q : Nat) : Statement (.completionEntryWrite q) := of_none rfl
theorem graphSlotTake (die q : Nat) : Statement (.graphSlotTake die q) := of_none rfl
theorem nodeFinish (ctx : Nat) (node : DWord) : Statement (.nodeFinish ctx node) := of_none rfl
theorem loadDataReturn (load : Nat) : Statement (.loadDataReturn load) := of_none rfl
theorem storeQueueLeave (queue : Nat) : Statement (.storeQueueLeave queue) := of_none rfl
theorem arrivalCounted (queue : Nat) : Statement (.arrivalCounted queue) := of_none rfl
theorem streamerBeat (req beat : Nat) : Statement (.streamerBeat req beat) := of_none rfl
theorem copyComplete (req : Nat) : Statement (.copyComplete req) := of_none rfl
theorem matrixEntryStart (entry : Nat) : Statement (.matrixEntryStart entry) := of_none rfl
theorem matrixEntryComplete (entry : Nat) : Statement (.matrixEntryComplete entry) := of_none rfl
theorem mainRowIssue (entry : Nat) : Statement (.mainRowIssue entry) := of_none rfl
theorem governorWindow (die core : Nat) : Statement (.governorWindow die core) := of_none rfl
theorem accContribution (contribution : Nat) : Statement (.accContribution contribution) := of_none rfl
theorem adapterSliceArrival (team slice : Nat) : Statement (.adapterSliceArrival team slice) := of_none rfl
theorem accLineEvict (line : Nat) : Statement (.accLineEvict line) := of_none rfl
theorem numericWindowClose (team : Nat) (window : WindowKind) (cls : Fin 4) : Statement (.numericWindowClose team window cls) := of_none rfl
theorem afterIssueFaultDelivery (unit : Nat) : Statement (.afterIssueFaultDelivery unit) := of_none rfl
theorem killComplete (team : Nat) : Statement (.killComplete team) := of_none rfl
theorem teamRetire (team : Nat) : Statement (.teamRetire team) := of_none rfl
theorem eviction (team : Nat) : Statement (.eviction team) := of_none rfl
theorem teamResume (team : Nat) (places : List Place) : Statement (.teamResume team places) := of_none rfl
theorem moveRehome (die : Nat) : Statement (.moveRehome die) := of_none rfl
theorem versionFreed (ctx : Nat) (base : DWord) (version : Word) : Statement (.versionFreed ctx base version) := of_none rfl
theorem syscallAnswered (unit : Nat) : Statement (.syscallAnswered unit) := of_none rfl
theorem waitevWake (unit : Nat) : Statement (.waitevWake unit) := of_none rfl
theorem illegalInstruction (w : Word) : Statement (.illegalInstruction w) := of_none rfl
theorem qappAppend (q : Nat) (record : DWord) : Statement (.qappAppend q record) := of_none rfl
theorem queueEnable (q : Nat) (value : DWord) : Statement (.queueEnable q value) := of_none rfl
theorem queueDisable (q : Nat) (value : DWord) : Statement (.queueDisable q value) := of_none rfl
theorem systemRegisterWrite (number : Nat) (value : DWord) : Statement (.systemRegisterWrite number value) := of_none rfl
theorem dgevRequest (die : Nat) (value : DWord) : Statement (.dgevRequest die value) := of_none rfl
theorem evictreqWrite (value : DWord) : Statement (.evictreqWrite value) := of_none rfl
theorem replayAnswer (die : Nat) (value : DWord) : Statement (.replayAnswer die value) := of_none rfl
theorem repack (ctx : Nat) (page : DWord) : Statement (.repack ctx page) := of_none rfl
theorem agentDeadScrub (unit : UnitId) : Statement (.agentDeadScrub unit) := of_none rfl
theorem softError (unit : UnitId) (err : SoftErr) : Statement (.softError unit err) := of_none rfl
theorem proofRunComplete (unit : UnitId) (pass : Bool) : Statement (.proofRunComplete unit pass) := of_none rfl
theorem sendEvent (conn : Nat) (payload : List Byte) : Statement (.sendEvent conn payload) := of_none rfl
theorem rdmaWrite (conn : Nat) (addr : DWord) (data : List Byte) : Statement (.rdmaWrite conn addr data) := of_none rfl
theorem rdmaRead (conn : Nat) (addr : DWord) (size : Nat) : Statement (.rdmaRead conn addr size) := of_none rfl
theorem rdmaAtomic (conn : Nat) : Statement (.rdmaAtomic conn) := of_none rfl
theorem resetEvent (images : List Firmware) : Statement (.resetEvent images) := of_none rfl
theorem quote (nonce : List Byte) : Statement (.quote nonce) := of_none rfl
theorem thermalThreshold (die : Nat) : Statement (.thermalThreshold die) := of_none rfl
theorem systemCoreAccess (ctx : Nat) (acc : OutsideAccess) : Statement (.systemCoreAccess ctx acc) := of_none rfl
theorem hostAccess (acc : OutsideAccess) : Statement (.hostAccess acc) := of_none rfl
theorem peerAccess (peer : Nat) (acc : OutsideAccess) : Statement (.peerAccess peer acc) := of_none rfl
theorem peerLinkLoss (peer : Nat) : Statement (.peerLinkLoss peer) := of_none rfl
theorem cacheLineEviction (cache : CacheId) (line : Nat) : Statement (.cacheLineEviction cache line) := of_none rfl
theorem contextValidClear (ctx : Nat) : Statement (.contextValidClear ctx) := of_none rfl
theorem staleIncarnation (unit : UnitId) (inc : BitVec 16) (addr : DWord) : Statement (.staleIncarnation unit inc addr) := of_none rfl
theorem ret : Statement .ret := of_pipe (extW_pipe ..) rfl rfl
theorem exit : Statement .exit := of_pipe (extW_pipe ..) rfl rfl
theorem yield : Statement .yield := of_pipe (extW_pipe ..) rfl rfl
theorem nop : Statement .nop := of_pipe (extW_pipe ..) rfl rfl
theorem fetchb : Statement .fetchb := of_pipe (extW_pipe ..) rfl rfl
theorem shJoin : Statement .shJoin := of_pipe (extW_pipe ..) rfl rfl
theorem shLeave : Statement .shLeave := of_pipe (extW_pipe ..) rfl rfl
theorem mxSwap : Statement .mxSwap := of_pipe (extW_pipe ..) rfl rfl
theorem mxWait : Statement .mxWait := of_pipe (extW_pipe ..) rfl rfl
theorem eret : Statement .eret := of_pipe (extW_pipe ..) rfl rfl
theorem movtsysRunclr : Statement .movtsysRunclr := of_pipe (extW_pipe ..) rfl rfl
theorem hbmWindow : Statement .hbmWindow := of_none rfl
theorem moveToPool : Statement .moveToPool := of_none rfl
theorem moveFromPool : Statement .moveFromPool := of_none rfl
theorem criticalTemperature : Statement .criticalTemperature := of_none rfl

end Sys2Proof.Laws.pipes
end

