-- ==== Sys2Proof/Tests/Slice0.lean ====
section
/-! SUPPORT. Tests: words written out from the encodings, one step on a small state for each family, terms that are not well-formed, and a witness for
the hypotheses of each statement. Expected values are the rules' own examples or are worked out by hand from the rules. -/

namespace Sys2Proof.Tests

open Sys2Proof.Machine

set_option Elab.async false

/-! ### Small states -/

/-- Thread `l` of group 0 of team 1. -/
def lane (l : Nat) : Nat := tidOf 1 0 l

/-- The burin core of team 1. -/
def burin : Nat := burinOf 1

/-- Registers v0, v1 and so on. -/
def regsOf (rs : List Nat) : SMap Word := rs.zipIdx.foldl (fun m p => mset 0 m p.2 (BitVec.ofNat 32 p.1)) []

/-- A device in which one team runs, in service mode, with the first GiB mapped onto itself under the leaf entry `leaf`. -/
def device (leaf : Nat) : State :=
  let s := placeWord State.reset 0x38500000
  writeNat { s with agenda := [], groups := [], threads := [] } (.phys 0x12000) 8 leaf

/-- The set of some threads is issuing a word that has passed its checks, or has yet to pass them. -/
def issuing (s : State) (ts : List (Nat × Thread)) (checked : Bool) : State :=
  let tid := (ts.map Prod.fst).headD 0
  { s with
    threads := ts
    groups := mset ({} : Group) s.groups (grpOf tid) { (s.group (grpOf tid)) with active := true }
    clock := 50
    issue := { group := grpOf tid, lanes := ts.map Prod.fst, snap := ts, pc := 0x20000, word := 0x38500000, addr := 0x20000, next := 0x20004, kept := [],
               checked := checked } }

/-- One vector thread with these registers, on a page of this leaf entry. -/
def thread1 (rs : List Nat) : Thread := { regs := regsOf rs, pc := 0x20004, sp := 512, latch := [(0, 5)] }

def vec (rs : List Nat) : State := issuing (device 0x63) [(lane 0, thread1 rs)] true

/-- The same thread, before its checks. -/
def fresh (rs : List Nat) : State := issuing (device 0x63) [(lane 0, thread1 rs)] false

/-- Two vector threads, lanes 0 and 3. -/
def pair (r0 r3 : List Nat) : State := issuing (device 0x63) [(lane 0, thread1 r0), (lane 3, thread1 r3)] true

/-- The burin core with these registers. -/
def gvec (rs : List Nat) : State :=
  let s := device 0x63
  issuing { s with teams := [(1, programTeam true)] } [(burin, { gregs := rs.zipIdx.foldl (fun m p => mset 0 m p.2 (BitVec.ofNat 64 p.1)) [], pc := 0x20004, sp := 512 })] true

/-- What a test reads off an outcome. -/
def after {β : Type} (o : Host.Outcome State Fault Refusal) (f : State → β) : Option β :=
  match o with
  | .next s => some (f s)
  | _ => none

/-- Register `c` of lane `l` after a word. -/
def reg (o : Host.Outcome State Fault Refusal) (l c : Nat) : Option Nat := after o (fun s => (mget 0 (s.thread (lane l)).regs c).toNat)

/-- Latch `k` of lane 0 after a word. -/
def latch (o : Host.Outcome State Fault Refusal) (k : Nat) : Option (Option Word) := after o (fun s => mfind (s.thread (lane 0)).latch k)

/-- Register g`c` of the burin core after a word. -/
def greg (o : Host.Outcome State Fault Refusal) (c : Nat) : Option Nat := after o (fun s => (mget 0 (s.thread burin).gregs c).toNat)

/-- The trap cause of a word for lane 0 before its checks. -/
def cause (s : State) (i : Instr) : Option Nat :=
  match verdict s (lane 0) i with
  | .trap f => some f.cause
  | _ => none

/-! ### Decoding (R81, R87): words of the spec's own encoding tables and examples, chain bit 0 -/

/-- A word decodes to an instruction and encodes back to it. -/
def isWord (w : Word) (i : Instr) : Bool := decide (decodeWord w = i) && decide (encode i = some w)

theorem test_decode_integer : isWord 0x02001008 (.add false 0 4 1) && isWord 0x02040808 (.add false 2 2 1) && isWord 0x0231F0B9 (.sub false 24 124 23) &&
    isWord 0x0A304CAD (.leN false 24 19 21) && isWord 0x0B060412 (.ltI true 3 1 2) && isWord 0x200207FF (.addi false 1 1 0x3FF) &&
    isWord 0x2A1C381D (.cmpiEq false 14 14 29) && isWord 0x10183073 (.addxN false 12 12 14) && isWord 0x2C241A38 (.movi 9 0x1A38) &&
    isWord 0x2E09C000 (.movhi 2 0x1C000) && isWord 0x0E040000 (.movs 1 0) = true := by decide +kernel

theorem test_decode_control : isWord 0x33016000 (.bz 2 1 12 0) && isWord 0x3002C002 (.bnz 0 2 24 2) && isWord 0x3016D7FF (.bnz 0 22 26 0x7FF) &&
    isWord 0x3417FFFF (.jmp 0 5 0x3FFFF) && isWord 0x361C0000 (.call 0 7 0) && isWord 0x38500000 .nop && isWord 0x38300000 .exit &&
    isWord 0x38200000 .ret = true := by decide +kernel

theorem test_decode_float : isWord 0x400C0410 (.fadd false 6 1 2) && isWord 0x400C0412 (.fmul false 6 1 2) && isWord 0x4010081B (.ffma false 8 2 3) &&
    isWord 0x42081404 (.fclass false 4 5) && isWord 0x44060BE1 (.frsq false 3 2) && isWord 0x460E0416 (.hdot2 false 7 1 2) &&
    isWord 0x48040401 (.cvtF2i false 2 1 1) && isWord 0x480A052C (.cvtEnc false 5 1 3 0) && isWord 0x4A0A2600 (.narrowUnpack false 5 9 0 0) &&
    isWord 0x4A0E2630 (.narrowUnpack false 7 9 0 3) && isWord 0x50060428 (.xbPerm false 3 1 5) && isWord 0x50060412 (.xbShfl false 3 1 2) = true := by decide +kernel

theorem test_decode_memory : isWord 0x600400A0 (.ldg false 2 0 0 5 0) && isWord 0x601820A2 (.ldg false 12 8 0 5 2) && isWord 0x620A0082 (.stg 5 0 0 4 2) &&
    isWord 0x621E408C (.stg 15 16 0 4 12) && isWord 0x7260A002 (.phStat 5 2) && isWord 0x74300101 (.pref 4 1) && isWord 0x7440C10F (.pin 6 4 15) &&
    isWord 0x7450010F (.unpin 4 15) && isWord 0x7460C103 (.cwb 6 4 3) && isWord 0x7480C100 (.iinv 6 4) && isWord 0x74900000 .fetchb &&
    isWord 0x74A00205 (.xbTload 8 5) = true := by decide +kernel

theorem test_decode_share_and_matrix : isWord 0x76000000 .shJoin && isWord 0x76100000 .shLeave && isWord 0x76214103 (.shWin 10 4 3) && isWord 0x76306100 (.launch 3 4) &&
    isWord 0x76406100 (.dgSignal 3 4) && isWord 0x7650E100 (.spmap 7 4) && isWord 0x7660E000 (.spunmap 7) && isWord 0x7670E000 (.spwb 7) &&
    isWord 0x788040C0 (.accStat 2 3) = true := by decide +kernel

theorem test_decode_system : isWord 0x7C0002FF (.trap 11 63) && isWord 0x7C100000 .eret && isWord 0x7C214081 (.movsysW 10 2) && isWord 0x7C218080 (.movsys 12 2) &&
    isWord 0x7C300180 (.movtsysSlim 6) && isWord 0x7C300001 .movtsysRunclr && isWord 0x7C414107 (.syscall 10 4 7) && isWord 0x7C506100 (.waitev 3 4) &&
    isWord 0x7C606100 (.tlbinv 3 4) && isWord 0x7C706080 (.halt 3 2) && isWord 0x7C806100 (.proof 3 4) = true := by decide +kernel

/-- Words that are no instruction: the undefined word of the trap-handler example, FN 7 of major 0x05, a reserved major, and major 0 (R86, R90). -/
theorem test_decode_rejects : [0x120E1430, 0x0A000007, 0x7E000000, 0x00000000].all (fun w => decide (decodeWord w = .illegalInstruction w)) = true := by decide +kernel

/-! ### Terms that are not well-formed -/

theorem test_wf_words : [Instr.movs 0 0x12, .xbPerm false 0 0 16, .xbTrn false 0 0 16, .ldg false 0 0 0 7 0, .stg 0 0 0 1 0, .lds false 0 0 7 0, .sts 0 0 3 0,
    .ldp false 0 0 7 0, .stp 0 0 7 0, .fence 5, .fence 32, .cpIssue 0 0 1, .cpMcast 0 0 31, .cwb 0 0 5, .accDrain 0 5, .accDrain 0 1, .vwGet 0 5 0,
    .gaWalk 0 0 1].all (fun i => !i.wellFormed) = true := by decide +kernel

theorem test_wf_events : [Instr.qappAppend 1024 0, .queueEnable 1024 0x2000, .queueEnable 0 0, .queueDisable 1024 0, .queueDisable 0 0x2000, .takeLaunchSlot 2 0, .takeLaunchSlot 0 1024,
    .clusterStart 2 0, .completionEntryWrite 1024, .graphSlotTake 2 0, .graphSlotTake 0 1024, .nodeFinish 64 0, .nodeFinish 0 32, .dgevRequest 2 0, .governorWindow 2 0,
    .governorWindow 0 144].all (fun i => !i.wellFormed) = true ∧
  [Instr.replayAnswer 2 0, .moveRehome 2, .repack 64 0, .versionFreed 64 0 0, .versionFreed 0 32 0, .sendEvent 4096 [], .rdmaWrite 4096 0 [], .rdmaRead 4096 0 0, .rdmaAtomic 4096,
    .thermalThreshold 2, .systemCoreAccess 64 (.load 0 1), .peerAccess 256 (.load 0 1), .peerLinkLoss 256, .contextValidClear 64, .quote [], .systemRegisterWrite 0x10000 0].all
    (fun i => !i.wellFormed) = true := by decide +kernel

/-! ### Integer words (R127 to R140) -/

/-- Each result of register v3 from v1 = 0x80000003, v2 = 0x25 and v3 = 0x12345678. -/
def gives (q : Instr × Nat) : Bool := decide (reg (exec q.1 (vec [0, 0x80000003, 0x25, 0x12345678])) 0 3 = some q.2)

theorem test_iarith : [(Instr.add false 3 1 2, 0x80000028), (.sub false 3 1 2, 0x7FFFFFDE), (.mul false 3 1 2, 0x8000006F), (.mulhiI false 3 1 2, 0xFFFFFFED),
    (.mulhiN false 3 1 2, 0x12), (.mad false 3 1 2, 0x923456E7), (.minI false 3 1 2, 0x80000003), (.maxI false 3 1 2, 0x25)].all gives = true := by decide +kernel

theorem test_imisc : [(Instr.minN false 3 1 2, 0x25), (.maxN false 3 1 2, 0x80000003), (.absInt false 3 1, 0x7FFFFFFD), (.addsatI false 3 1 2, 0x80000028),
    (.subsatI false 3 1 2, 0x80000000), (.clz false 3 2, 26), (.popc false 3 1, 3), (.brev false 3 1, 0xC0000001)].all gives = true := by decide +kernel

theorem test_logic : [(Instr.andW false 3 1 2, 1), (.orW false 3 1 2, 0x80000027), (.xorW false 3 1 2, 0x80000026), (.andn false 3 1 2, 0x80000002),
    (.orn false 3 1 2, 0xFFFFFFDB), (.xnor false 3 1 2, 0x7FFFFFD9), (.sel false 3 1 2, 0x80000003), (.mov false 3 2, 0x25)].all gives = true := by decide +kernel

/-- Amounts above the width: SHL and SHR give 0, SAR fills, ROL takes the amount modulo 32 (37 is 5). -/
theorem test_shift : [(Instr.shl false 3 1 2, 0), (.shr false 3 1 2, 0), (.sar false 3 1 2, 0xFFFFFFFF), (.rol false 3 1 2, 0x70), (.shli false 3 1 4, 0x30),
    (.shri false 3 1 4, 0x08000000), (.sari false 3 1 4, 0xF8000000), (.roli false 3 1 4, 0x38)].all gives = true := by decide +kernel

theorem test_compare : [(Instr.cmpEq false 3 1 2, 0), (.cmpNe false 3 1 2, 1), (.ltI false 3 1 2, 1), (.leI false 3 1 2, 1), (.ltN false 3 1 2, 0), (.leN false 3 1 2, 0),
    (.tst false 3 1 2, 1), (.cmpiLtN false 3 2 0x7F, 1), (.cmpiGtI false 3 1 0x40, 0), (.cmpiEq false 3 2 0x25, 1)].all gives = true := by decide +kernel

theorem test_immediate : [(Instr.addi false 3 1 0x3FF, 0x80000002), (.andi false 3 1 0x3FF, 3), (.ori false 3 1 0x3FC, 0x800003FF), (.xori false 3 1 1, 0x80000002), (.movi 3 0x3FFFF, 0xFFFFFFFF),
    (.movhi 3 0x1C000, 0x70001678), (.movs 3 0, 0), (.movs 3 0x11, 0x414E5A38)].all gives = true := by decide +kernel

/-- R131: a field of width 8 at bit 4, extracted with and without its sign, and inserted. -/
theorem test_bitfield : reg (exec (.bfx false 3 1 2) (vec [0, 0xFF0, 0x8804, 0])) 0 3 = some 0xFFFFFFFF ∧
    reg (exec (.bfx false 3 1 2) (vec [0, 0xFF0, 0x0804, 0])) 0 3 = some 0xFF ∧ reg (exec (.bfi false 3 1 2) (vec [0, 0xAB, 0x0804, 0xFFFFFFFF])) 0 3 = some 0xFFFFFABF := by
  decide +kernel

/-- Pairs v4:v5 = 0xFFFFFFFF_00000001 and v6:v7 = 0x00000000_FFFFFFFF; v8 = 0xFFFFFFFF. -/
theorem test_pairs : ([(Instr.add64 false 2 4 6, 0, 0), (.sub64 false 2 4 6, 2, 0xFFFFFFFE), (.addxI false 2 4 8, 0, 0xFFFFFFFF), (.addxN false 2 4 8, 0, 0),
    (.mov64 false 2 4, 1, 0xFFFFFFFF), (.shl64 false 2 4 9, 0x80000000, 0x80000000), (.shr64 false 2 4 9, 0xFFFFFFFE, 1)].all (fun q =>
      decide (reg (exec q.1 (vec [0, 0, 0, 0, 1, 0xFFFFFFFF, 0xFFFFFFFF, 0, 0xFFFFFFFF, 31])) 0 2 = some q.2.1 ∧
        reg (exec q.1 (vec [0, 0, 0, 0, 1, 0xFFFFFFFF, 0xFFFFFFFF, 0, 0xFFFFFFFF, 31])) 0 3 = some q.2.2))) = true ∧
    reg (exec (.cmplt64 false 2 6 4) (vec [0, 0, 0, 0, 1, 0xFFFFFFFF, 0xFFFFFFFF, 0])) 0 2 = some 1 := by decide +kernel

/-- R98: the latch takes the result that N keeps from the register; vz discards it. -/
theorem test_dst : reg (exec (.add true 3 1 2) (vec [0, 1, 2, 9])) 0 3 = some 9 ∧ latch (exec (.add true 3 1 2) (vec [0, 1, 2, 9])) 0 = some (some 3) ∧
    reg (exec (.add false 124 1 2) (vec [0, 1, 2, 9])) 0 3 = some 9 := by decide +kernel

/-- R336: 64 bits on the burin core. -/
theorem test_burin : greg (exec (.add false 3 1 2) (gvec [0, 0xFFFFFFFF, 1])) 3 = some 0x100000000 ∧ greg (exec (.movi 3 0x3FFFF) (gvec [])) 3 = some 0xFFFFFFFFFFFFFFFF ∧
    greg (exec (.mulhiN false 3 1 2) (gvec [0, 0xFFFFFFFFFFFFFFFF, 16])) 3 = some 15 ∧ greg (exec (.clz false 3 1) (gvec [0, 1])) 3 = some 63 := by decide +kernel

/-! ### Votes, the crossbar and control words, on lanes 0 and 3 -/

theorem test_votes : reg (exec (.voteAny false 3 1) (pair [0, 0] [0, 7])) 0 3 = some 1 ∧ reg (exec (.voteAll false 3 1) (pair [0, 0] [0, 7])) 3 3 = some 0 ∧
    reg (exec (.voteBal false 3 1) (pair [0, 0] [0, 7])) 0 3 = some 8 ∧ reg (exec (.matchLanes false 3 1) (pair [0, 7] [0, 7])) 0 3 = some 9 ∧
    reg (exec (.actmask false 3) (pair [] [])) 3 3 = some 9 := by decide +kernel

/-- R192 to R195: lane 0 takes v1 of lane 3; a lane that is not there gives 0. -/
theorem test_crossbar : reg (exec (.xbShfl false 3 1 2) (pair [0, 5, 3] [0, 7, 3])) 0 3 = some 7 ∧ reg (exec (.xbShfl false 3 1 2) (pair [0, 5, 1] [0, 7, 3])) 0 3 = some 0 ∧
    reg (exec (.xbBcast false 3 1 2) (pair [0, 5, 3] [0, 7, 0])) 3 3 = some 7 ∧ reg (exec (.xbRot false 3 1 2) (pair [0, 5, 3] [0, 7, 0])) 3 3 = some 5 ∧
    reg (exec (.xbPerm2 false 3 1 2) (pair [0, 5, 35] [0, 7, 0, 9])) 0 3 = some 9 ∧ reg (exec (.xbPerm false 3 1 0) (pair [0, 5] [0, 7])) 0 3 = some 0 ∧
    reg (exec (.xbTrn false 3 1 0) (pair [0, 5] [0, 7])) 0 3 = some 0 := by decide +kernel

/-- R141: the taken lane goes to slot 4 of this line, the other on; the rank of the side that waits is 1. -/
theorem test_branch : after (exec (.bnz 1 1 4 0) (pair [0, 0] [0, 7])) (fun s => ((s.thread (lane 0)).pc, (s.thread (lane 3)).pc, (s.thread (lane 0)).rank, (s.thread (lane 3)).rank)) =
    some (0x20004, 0x20010, 1, 0) ∧
    after (exec (.bz 2 1 4 1) (pair [0, 0] [0, 7])) (fun s => ((s.thread (lane 0)).pc, (s.thread (lane 3)).pc, (s.thread (lane 0)).rank)) = some (0x20090, 0x20004, 1) := by decide +kernel

/-- R142, R143, R145, R146: CALL stores the return address below sp, RET goes back. -/
theorem test_call_and_ret : after (exec (.call 0 5 0x3FFFF) (vec [])) (fun s => ((s.thread (lane 0)).pc, (s.thread (lane 0)).sp, (s.thread (lane 0)).privBytes 504 8)) =
    some (0x1FF94, 504, [4, 0, 2, 0, 0, 0, 0, 0]) ∧
    after (exec (.calli 4) (vec [0, 0, 0, 0, 0x20040, 0])) (fun s => (s.thread (lane 0)).pc) = some 0x20040 ∧ after (exec .ret (vec [])) (fun s => ((s.thread (lane 0)).pc, (s.thread (lane 0)).sp)) = some (0, 520) ∧
    after (exec (.jmp 0 2 1) (vec [])) (fun s => (s.thread (lane 0)).pc) = some 0x20088 ∧ after (exec (.jmpi 4) (vec [0, 0, 0, 0, 0x20044, 0])) (fun s => (s.thread (lane 0)).pc) = some 0x20044 := by
  decide +kernel

/-- R115, R116, R147 to R150: EXIT, YIELD, and the rejoin words. -/
theorem test_threads : after (exec .exit (vec [])) (fun s => (s.thread (lane 0)).cond) = some .exited ∧ after (exec .yield (vec [])) (fun s => ((s.thread (lane 0)).stamp, (s.thread (lane 0)).latch)) = some (50, []) ∧
    after (exec (.rjEnrol 2) (pair [] [])) (fun s => (s.group 64).mask 2) = some (9, 0) ∧ after (exec (.rjWait 2) (vec [])) (fun s => (s.thread (lane 0)).cond) = some (.parked 2) ∧
    after (exec (.rjStrike 2) (vec [])) (fun s => (s.group 64).mask 2) = some (0, 0) ∧ reg (exec (.rjQuery 3 2) (vec [])) 0 3 = some 0 := by decide +kernel

theorem test_stack_pointer : reg (exec (.spget 3) (vec [])) 0 3 = some 512 ∧ after (exec (.spadd 1 0x3F) (vec [0, 8])) (fun s => (s.thread (lane 0)).sp) = some 504 ∧
    after (exec (.spset 1) (vec [0, 8])) (fun s => (s.thread (lane 0)).sp) = some 8 := by decide +kernel

/-! ### Checks -/

/-- R86, R88, R113: an undefined word, an operand code that is not declared, a latch that is not valid, a word for the burin core alone. -/
theorem test_causes : cause (fresh []) (.illegalInstruction 0) = some 0x01 ∧ cause (fresh []) (.add false 121 1 2) = some 0x02 ∧ cause (fresh []) (.add false 3 122 2) = some 0x04 ∧
    cause (fresh []) (.add false 3 120 2) = none ∧ cause (fresh []) .mxSwap = some 0x01 ∧ cause (fresh []) .eret = some 0x01 ∧ cause (fresh []) (.brk 3) = some 0x21 ∧ cause (fresh []) (.trap 1 63) = some 0x21 := by
  decide +kernel

/-- R202, R203: the page decides: no page, no write permission, an ACC page, a page on demand. -/
theorem test_access_causes : [(0x63, Instr.ldg false 2 4 0 4 0, none), (0x63, .ldg false 2 4 0 5 1, none), (0, .ldg false 2 4 0 4 0, some 0x10), (0x23, .stg 2 4 0 4 0, some 0x11), (0x6B, .ldg false 2 4 0 4 0, some 0x15),
    (0x63, .ldg false 2 6 0 4 0, some 0x16)].all (fun q =>
      decide (cause (issuing (device q.1) [(lane 0, thread1 [0, 0, 0, 0, 0x30000, 0, 0x30002, 0])] false) q.2.1 = q.2.2)) = true := by decide +kernel

/-! ### Float, conversion and packing words (R184 to R191) -/

/-- v1 = 1.5, v2 = -2, v3 = 1, v4 = bf16 pair (1.0, 2.0), v5 = bf16 pair (3.0, 0.5). -/
def floats (q : Instr × Nat) : Bool := decide (reg (exec q.1 (vec [0, 0x3FC00000, 0xC0000000, 0x3F800000, 0x3F804000, 0x40403F00])) 0 3 = some q.2)

theorem test_float_arithmetic : [(Instr.fadd false 3 1 2, 0xBF000000), (.fsub false 3 1 2, 0x40600000), (.fmul false 3 1 2, 0xC0400000), (.ffma false 3 1 2, 0xC0000000), (.ffms false 3 1 2, 0x40800000),
    (.fmin false 3 1 2, 0xC0000000), (.fmax false 3 1 2, 0x3FC00000), (.fcpsgn false 3 1 2, 0xBFC00000)].all floats = true := by decide +kernel

theorem test_float_order : [(Instr.feq false 3 1 1, 1), (.flt false 3 2 1, 1), (.fle false 3 1 2, 0), (.funord false 3 1 2, 0), (.fclass false 3 2, 2), (.fabs false 3 2, 0x40000000), (.fneg false 3 1, 0xBFC00000)].all
    floats = true := by decide +kernel

/-- R187 on exact operands: 1/2, 1/sqrt 4, sqrt 4, 2^1.5 of 2, log2 of 1; sine and cosine of zero. -/
theorem test_float_special : reg (exec (.frcp false 3 1) (vec [0, 0x40000000])) 0 3 = some 0x3F000000 ∧ reg (exec (.frsq false 3 1) (vec [0, 0x40800000])) 0 3 = some 0x3F000000 ∧
    reg (exec (.fsqrt false 3 1) (vec [0, 0x40800000])) 0 3 = some 0x40000000 ∧ reg (exec (.fexp2 false 3 1) (vec [0, 0x40400000])) 0 3 = some 0x41000000 ∧
    reg (exec (.flog2 false 3 1) (vec [0, 0x41000000])) 0 3 = some 0x40400000 ∧ reg (exec (.ftanh false 3 1) (vec [0, 0])) 0 3 = some 0 ∧ reg (exec (.fsin false 3 1) (vec [0, 0])) 0 3 = some 0 ∧
    reg (exec (.fcos false 3 1) (vec [0, 0])) 0 3 = some 0x3F800000 := by decide +kernel

/-- R188: high halves 1.0 and 3.0, low halves 2.0 and 0.5. -/
theorem test_half_pairs : [(Instr.hadd2 false 3 4 5, 0x40804020), (.hsub2 false 3 4 5, 0xC0003FC0), (.hmul2 false 3 4 5, 0x40403F80), (.hmin2 false 3 4 5, 0x3F803F00), (.hmax2 false 3 4 5, 0x40404000),
    (.hdot2 false 3 4 5, 0x40A00000)].all floats = true ∧ reg (exec (.hfma2 false 3 4 5) (vec [0, 0, 0, 0x3F803F80, 0x3F804000, 0x40403F00])) 0 3 = some 0x40804000 := by decide +kernel

theorem test_conversions : [(Instr.cvtF2i false 3 2 1, 0xFFFFFFFE), (.cvtF2n false 3 2 1, 0), (.cvtI2f false 3 0 0, 0), (.cvtN2f false 3 3 0, 0x4E7E0000), (.cvtF2bf false 3 1 0, 0x3FC0), (.cvtBf2f false 3 4, 0x40000000),
    (.cvtF2h false 3 1 0, 0x3E00), (.cvtFrnd false 3 1 0, 0x40000000), (.cvtEnc false 3 1 0 0, 0x3FC00000), (.cvtDec false 3 1 0 0, 0x3FC00000)].all floats = true ∧
    reg (exec (.cvtH2f false 3 1) (vec [0, 0x3E00])) 0 3 = some 0x3FC00000 := by decide +kernel

/-- The rule's own example of unpacking t8 with es 1 fields (R191): 0x59 in field 0 of the slot 0x0000_0013 gives 3.125. -/
theorem test_packing : reg (exec (.narrowUnpack false 3 1 0 0) { (vec [0, 0x7F65AE59]) with teams := [(1, { programTeam false with slots := 0x13 :: List.replicate 7 0 })] }) 0 3 = some 0x40480000 ∧
    reg (exec (.narrowUnpack false 3 1 0 1) { (vec [0, 0x7F65AE59]) with teams := [(1, { programTeam false with slots := 0x13 :: List.replicate 7 0 })] }) 0 3 = some 0xC0100000 ∧
    reg (exec (.narrowPack false 3 1 0 1) { (vec [0, 0x40480000, 0, 0x11223344]) with teams := [(1, { programTeam false with slots := 0x13 :: List.replicate 7 0 })] }) 0 3 = some 0x11225944 := by decide +kernel

/-! ### Witnesses: states and operands that meet the hypotheses of the statements -/

/-- The set of one lane that passes the checks of a word and has its sources taken. -/
def aloneB (s : State) (l : Nat) (i : Instr) : Bool :=
  decide (s.issue.lanes = [l]) && decide (grpOf l = s.issue.group) && decide (verdict s l i = .pass) && (mfind s.issue.snap l).isSome

theorem alone_of {s : State} {l : Nat} {i : Instr} (h : aloneB s l i = true) : Alone i s l := by
  simp only [aloneB, Bool.and_eq_true, decide_eq_true_eq] at h
  obtain ⟨⟨⟨hl, hg⟩, hv⟩, hs⟩ := h
  exact ⟨⟨by simp [hl], by simp [hl], by simp [hl, hg]⟩, hl, hv, hs⟩

/-- A set of threads of one group that has passed its checks runs every word. -/
theorem runs_of {s : State} (i : Instr) (h : s.SetOk) (c : s.issue.checked = true) : Runs i s := ⟨h, .inl c⟩

/-- The sets of the tests: one thread, two threads, the burin core, and a set that has still to pass its checks. -/
theorem witness_runs (i : Instr) : Runs i (vec [0, 5]) ∧ Runs i (pair [0, 5] [0, 7]) ∧ Runs i (gvec [0, 5]) ∧ Runs (.add false 3 1 2) (fresh [0, 5]) := by
  refine ⟨runs_of i ⟨by decide +kernel, by decide +kernel, by decide +kernel⟩ (by decide +kernel), runs_of i ⟨by decide +kernel, by decide +kernel, by decide +kernel⟩ (by decide +kernel),
    runs_of i ⟨by decide +kernel, by decide +kernel, by decide +kernel⟩ (by decide +kernel), ⟨⟨by decide +kernel, by decide +kernel, by decide +kernel⟩, .inr (by decide +kernel)⟩⟩

/-- Every integer, float and crossbar word of the test state passes its checks. -/
def passes (i : Instr) : Bool := decide (verdict (fresh [0, 1, 2, 3, 0x30000, 0, 0x100, 0, 0x20040, 0]) (lane 0) i = .pass)

theorem witness_checks_pass : [Instr.add false 3 1 2, .sar false 3 1 2, .bfi false 3 1 2, .tst false 3 1 2, .voteBal false 3 1, .matchLanes false 3 1, .actmask false 3, .movs 3 8, .add64 false 2 4 6,
    .cmpeq64 false 3 4 6, .addi false 3 1 5, .cmpiGeI false 3 1 5, .movi 3 5, .movhi 3 5, .bnz 0 1 4 0, .jmp 0 4 0, .call 0 4 0, .jmpi 8, .calli 8, .exit].all passes = true ∧
  [Instr.yield, .nop, .rjEnrol 0, .rjQuery 3 0, .spadd 1 0, .spget 3, .spset 6, .fadd false 3 1 2, .ffma false 3 1 2, .fclass false 3 1, .frcp false 3 1, .hadd2 false 3 1 2, .cvtF2i false 3 1 0, .cvtEnc false 3 1 0 0,
    .xbPerm false 3 1 0, .xbShfl false 3 1 2, .fence 9, .shJoin, .shLeave, .movtsysRunclr].all passes = true := by decide +kernel

/-- ResultReachesRegisterAndLatch: registers, the zero code, an even pair code, each pipe with and without a latch. -/
theorem witness_results : (3 : Code).toNat < 120 ∧ (119 : Code).toNat < 120 ∧ (118 : Code).toNat % 2 = 0 ∧ (118 : Code).toNat < 120 ∧ 120 ≤ (124 : Code).toNat ∧ (124 : Code).toNat % 2 = 0 ∧
    Pipe.i.latch = some 0 ∧ Pipe.m.latch = some 3 ∧ Pipe.k.latch ≠ some 0 ∧ Pipe.f.latch ≠ some 0 ∧ (31 : Code).toNat < 32 := by decide

/-- SpecialRegisters: every number of the table but CYCLES, and CYCLES. -/
theorem witness_special_registers : (List.range 0x12).all (fun k => decide (k = 8 ∨ (BitVec.ofNat 18 k).toNat ≠ 8)) = true ∧ [0, 1, 7, 9, 10, 0x11].all (fun k => decide ((BitVec.ofNat 18 k).toNat = k)) = true := by
  decide

/-- StackPointer: sp that is not a multiple of 8, at and beyond each limit of the window, and targets of each kind (SLIM 0, stack 1024). -/
theorem witness_stack_checks :
    let at_ (sp : Nat) (l : Nat) : Nat := ((issuing (device 0x63) [(lane l, { thread1 [] with sp := BitVec.ofNat 32 sp })] false).pre (lane l)).sp.toNat
    at_ 12 0 % 8 ≠ 0 ∧ at_ 0 0 % 8 = 0 ∧ at_ 0 0 < 8 ∧ at_ 1024 0 = 1024 ∧ at_ 1032 0 > 1024 ∧
    cause (issuing (device 0x63) [(lane 0, { thread1 [] with sp := 12 })] false) .ret = some 0x16 ∧
    cause (issuing (device 0x63) [(lane 0, { thread1 [] with sp := 0 })] false) (.call 0 0 0) = some 0x17 ∧
    cause (issuing (device 0x63) [(lane 0, { thread1 [] with sp := 8 })] false) (.call 0 0 0) = none ∧
    cause (issuing (device 0x63) [(lane 0, { thread1 [] with sp := 1024 })] false) .ret = some 0x17 ∧
    cause (issuing (device 0x63) [(lane 0, { thread1 [] with sp := 1016 })] false) .ret = none ∧
    cause (fresh [0, 1025]) (.spset 1) = some 0x17 ∧ cause (fresh [0, 1024]) (.spset 1) = none ∧ cause (fresh [0, 0xFFFFFFFF]) (.spset 1) = some 0x17 ∧
    cause (fresh [0, 0, 0, 0, 0x20042, 0]) (.jmpi 4) = some 0x16 ∧ cause (fresh [0, 0, 0, 0, 0x20078, 0]) (.jmpi 4) = some 0x06 ∧ cause (fresh [0, 0, 0, 0, 0x20074, 0]) (.jmpi 4) = none := by
  decide +kernel

/-- A team without service mode, and a thread in its handler. -/
def plain (s : State) : State := { s with teams := [(1, { programTeam false with service := false })] }
def handled (s : State) : State := { s with teams := [(1, { programTeam false with kern := { programKernel false with handler := 0x20040 } })] }

/-- ForbiddenWordsTrap and OperandChecksTrap: their premises, and the word of each verdict. -/
theorem witness_forbidden : isBurin (lane 0) = false ∧ ((plain (fresh [])).team (teamOf (lane 0))).service = false ∧ ((fresh []).pre (lane 0)).trapping = none ∧
    cause (plain (fresh [])) (.halt 3 2) = some 0x01 ∧ cause (fresh []) (.halt 3 2) = none ∧
    verdict (fresh []) (lane 0) (.xbShfl false 119 123 2) = .trap { cause := 0x04, addr := 0, word := 0x38500000, flags := 0 } ∧
    verdict (fresh []) (lane 0) (.xbShfl false 120 1 2) = .trap { cause := 0x02, addr := 0, word := 0x38500000, flags := 0 } ∧ verdict (fresh []) (lane 0) (.xbShfl false 124 124 120) = .pass := by
  decide +kernel

/-- A frame whose places a test finds. -/
def framed (s : State) (l : Nat) (write : Bool) : Bool :=
  match framePlaces s l write with
  | .ok _ => true
  | .error _ => false

theorem framed_places {s : State} {l : Nat} {write : Bool} (h : framed s l write = true) : ∃ ps, framePlaces s l write = .ok ps := by
  unfold framed at h
  split at h
  · exact ⟨_, ‹_›⟩
  · cases h

/-- FailingLanesTrapTogether, BreakAndTrap: a set with a handler whose every lane fails. -/
theorem witness_trap_set : CanEnterHandler (handled (fresh [])) ∧ (handled (fresh [])).issue.checked = false ∧
    (∀ i ∈ [Instr.brk 3, .trap 1 63, .illegalInstruction 0, .add false 121 1 2, .fadd false 3 123 2, .jmpi 6, .spset 8],
      ∀ l ∈ (handled (fresh [0, 0, 0, 0, 0, 0, 3, 0, 9999])).issue.lanes, ∃ f, verdict (handled (fresh [0, 0, 0, 0, 0, 0, 3, 0, 9999])) l i = .trap f ∧ f.bad = none ∧ f.entry = none ∧ f.cause ≠ 0x22 ∧ f.cause ≠ 0x30) := by
  refine ⟨⟨⟨by decide +kernel, by decide +kernel, by decide +kernel⟩, by decide +kernel, by decide +kernel, by decide +kernel, fun l hl => ?_⟩, by decide +kernel, ?_⟩
  · have h : ∀ l ∈ (handled (fresh [])).issue.lanes, ((handled (fresh [])).thread l).trapping = none ∧ ((handled (fresh [])).thread l).cond = .ready ∧
        (∀ x ∈ (handled (fresh [])).loads, x.tid ≠ l) ∧ framed (handled (fresh [])) l true = true := by decide +kernel
    exact ⟨(h l hl).1, (h l hl).2.1, (h l hl).2.2.1, framed_places (h l hl).2.2.2⟩
  intro i hi l hl
  have h : ∀ l ∈ (handled (fresh [0, 0, 0, 0, 0, 0, 3, 0, 9999])).issue.lanes, ∀ i ∈ [Instr.brk 3, .trap 1 63, .illegalInstruction 0, .add false 121 1 2, .fadd false 3 123 2, .jmpi 6, .spset 8],
      (match verdict (handled (fresh [0, 0, 0, 0, 0, 0, 3, 0, 9999])) l i with
       | .trap f => decide (f.bad = none ∧ f.entry = none ∧ f.cause ≠ 0x22 ∧ f.cause ≠ 0x30)
       | _ => false) = true := by decide +kernel
  have h1 := h l hl i hi
  split at h1
  · next f hf => exact ⟨f, hf, by simpa using h1⟩
  · cases h1

/-- The step that takes a thread to its handler, and its frame (R399, R402). -/
theorem test_trap_entry : after (exec (.brk 3) (handled (fresh [0, 77]))) (fun s => ((s.thread (lane 0)).pc, (s.thread (lane 0)).trapping, (s.thread (lane 0)).latch)) = some (0x20040, some 1, []) ∧
    after (exec (.brk 3) (handled (fresh [0, 77]))) (fun s => (readNat s (.phys (0x100000 + 4)) 4, readNat s (.phys (0x100000 + 480)) 4, readNat s (.phys (0x100000 + 504)) 4, readNat s (.phys (0x100000 + 520)) 4)) =
    some (77, 5, 0x21, 0x61) := by decide +kernel

/-- A thread parked at rejoin register 2. -/
def parkedAt (k : Nat) : State := issuing (handled (device 0x63)) [(lane 0, { thread1 [0, 77] with cond := .parked k })] false

/-- R402, R407: the parked bit, the register and the latches that are valid; bytes 524 to 575 are zero. -/
theorem witness_parked_frame : (∀ k, ((parkedAt 2).thread (lane 0)).cond = .parked k → k < 8) ∧ (∀ k, ((fresh []).thread (lane 0)).cond = .parked k → k < 8) ∧
    (parkedAt 2).binds = [] ∧ (parkedAt 2).lost = [] := by
  refine ⟨fun k h => ?_, fun k h => ?_, by decide +kernel, by decide +kernel⟩
  · have e : ((parkedAt 2).thread (lane 0)).cond = .parked 2 := by decide +kernel
    cases e.symm.trans h
    decide
  · have e : ((fresh []).thread (lane 0)).cond = .ready := by decide +kernel
    cases e.symm.trans h

theorem test_parked_frame : let s := enterLane (writeNat (parkedAt 2) (.phys 0x40020C) 4 0xFFFFFFFF) (lane 0) 1 1 { cause := 0x23, addr := 0, word := 0, flags := 0 } [(.phys 0x400000, 576)]
    (readNat s (.phys 0x400208) 4, readNat s (.phys 0x40020C) 4) = (1 + 2 + 8 + 32 + 64, 0) := by decide +kernel

/-- TrapFrameHoldsState and EretRestoresThread. -/
def inHandler : State :=
  let s := handled (device 0x63)
  let s1 := writeNat (writeNat (writeNat s (.phys (0x100000 + 4)) 4 77) (.phys (0x100000 + 496)) 8 0x20008) (.phys (0x100000 + 520)) 4 0x61
  issuing s1 [(lane 0, { thread1 [0, 1] with trapping := some 1, trapNo := 3 })] true

theorem witness_frames : (fresh []).binds = [] ∧ (fresh []).lost = [] ∧ ((fresh []).thread (lane 0)).cond = .ready ∧ Runs .eret inHandler ∧ inHandler.issue.lanes = [lane 0] ∧
    inHandler.binds = [] ∧ inHandler.lost = [] ∧ (inHandler.group inHandler.issue.group).queue = [] ∧ (∀ x ∈ inHandler.loads, x.tid ≠ lane 0) ∧ (inHandler.team 1).life = .running ∧
    framePlaces inHandler (lane 0) false = .ok [(.phys 0x100000, 576)] ∧ (readNat inHandler (.phys (0x100000 + 520)) 4).testBit 0 = true ∧ (readNat inHandler (.phys (0x100000 + 520)) 4).testBit 1 = false :=
  ⟨by decide +kernel, by decide +kernel, by decide +kernel, runs_of _ ⟨by decide +kernel, by decide +kernel, by decide +kernel⟩ (by decide +kernel), by decide +kernel, by decide +kernel, by decide +kernel, by decide +kernel,
    by decide +kernel, by decide +kernel, by decide +kernel, by decide +kernel, by decide +kernel⟩

theorem test_eret : after (exec .eret inHandler) (fun s => ((s.thread (lane 0)).pc, (s.thread (lane 0)).trapping, mget 0 (s.thread (lane 0)).regs 1, readNat s (.phys (0x100000 + 520)) 4)) =
    some (0x20008, none, 77, 0x41) := by decide +kernel

/-! ### Numbers and events -/

/-- NumberPatterns, FloatArithmeticIsExact, ConversionResults: a nonzero significand, patterns at each end, finite and infinite operands and NaN. -/
theorem witness_numbers : (1 : Nat) ≠ 0 ∧ floatValue .f16 0x7C00 ≠ .nan ∧ floatValue .f32 0 ≠ .nan ∧ 0x3F < 2 ^ 6 ∧ 0xFF < 2 ^ 8 ∧
    (inF32 0x7F7FFFFF).isNan = false ∧ (inF32 0x7F7FFFFF).isInf = false ∧ (inF32 1).isInf = false ∧ (inBf (lowHalf 0x3F80)).isNan = false ∧ (inBf (highHalf 0x3F80)).isNan = false ∧ (inBf (lowHalf 0x3F80)).isInf = false ∧
    (inBf (highHalf 0x3F80)).isInf = false ∧ inF32 0x7FC00000 = .nan ∧ inF32 0x7F800000 = .inf false ∧ inF32 0xFF800000 = .inf true ∧ (inF32 0x80000000).isZero = true ∧ (inF32 0x7F800001).isNan = true ∧
    (0x7F800000 < (0x7F800001 : Word).toNat % 2 ^ 31) ∧ 0x80000000 < (0x80000001 : Word).toNat ∧ (0xFF800000 : Word).toNat ≤ 0xFF800000 ∧ slotFmt 5 = .i8 ∧ narrowLegal (slotFmt 5) 3 = true := by
  decide +kernel

/-- A team of context 0 with a numeric control register: the threshold in [31:0] and the action in [57:56]. -/
def counting (threshold action : Nat) : State := (vec [0]).setSys 0x4000 (BitVec.ofNat 64 (threshold + action * 2 ^ 56))

/-- EventsAreCounted: below the threshold, above it with the trap and with the interrupt. -/
theorem witness_events : (mfind (counting 3 1).teams 1).isSome = true ∧ (counting 3 1).binds = [] ∧
    ¬((counting 3 1).sysReg 0x4000).toNat % 2 ^ 32 < min (2 ^ 32 - 1) ((mget (0, 0) ((counting 3 1).team 1).windows 0).1 + 3) ∧ ((counting 2 1).sysReg 0x4000).toNat % 2 ^ 32 < 3 ∧ ((counting 2 1).sysReg 0x4000).toNat / 2 ^ 56 % 4 = 1 ∧
    ((counting 2 2).sysReg 0x4000).toNat / 2 ^ 56 % 4 = 2 ∧ (([(lane 0, 0)] : List (Nat × Nat)).map Prod.fst).Nodup ∧ (mfind (counting 3 1).threads (lane 0)).isSome = true := by decide +kernel

/-- R180: the third event of a class with threshold 2 fires its trap. -/
theorem test_events : ((countEvents (counting 2 1) 1 false 0 3 [(lane 0, 0)] 7).thread (lane 0)).faults.map TrapInfo.cause = [0x20] ∧
    ((countEvents (counting 3 1) 1 false 0 3 [(lane 0, 0)] 7).thread (lane 0)).faults = [] := by decide +kernel

/-! ### Memory -/

/-- v4:v5 an address, v6 an offset, v8 data; the page has the leaf entry `leaf`. -/
def memRegs : List Nat := [0, 1, 2, 3, 0x30000, 0, 0x100, 0, 0x11223344]
def memory (leaf : Nat) : State := issuing (device leaf) [(lane 0, thread1 memRegs)] false

/-- What an access check answers, as a number, a physical address with its place. -/
def placed (s : State) (va : DWord) (size : Nat) (u : Use) : Option Nat :=
  match checkAccess s (s.team 1).coreId (s.team 1).ctx 1 va size u with
  | .at (.phys p) _ _ => some p
  | _ => none

/-- StoresAreQueued, LoadsTakeTheirBytes, AtomicsAreQueued: every form and size on a normal page, at the ends of the offset range. -/
theorem witness_memory : [(0 : BitVec 3), 2, 4, 5, 6].all (fun sz => aloneB (memory 0x63) (lane 0) (.stg 8 4 0 sz 15) && aloneB (memory 0x63) (lane 0) (.sts 8 6 sz 0x10) && aloneB (memory 0x63) (lane 0) (.stp 8 6 sz 0x10)) = true ∧
    [(0 : BitVec 3), 1, 2, 3, 4, 5, 6].all (fun sz => aloneB (memory 0x63) (lane 0) (.ldg false 8 4 0 sz 15) && aloneB (memory 0x63) (lane 0) (.lds false 8 6 sz 0x10) && aloneB (memory 0x63) (lane 0) (.ldp false 8 6 sz 0x10)) = true ∧
    placed (memory 0x63) 0x30000 4 .load = some 0x30000 ∧ placed (memory 0x63) 0x30000 4 .store = some 0x30000 ∧ placed (memory 0x63) 0x30000 4 .atomic = some 0x30000 ∧ ((memory 0x63).group (grpOf (lane 0))).queue = [] ∧
    ((memory 0x63).thread (lane 0)).cond ≠ .exited ∧ (∀ x ∈ (memory 0x63).loads, x.id ≠ (memory 0x63).nextId) ∧ ((memory 0x63).team 1).oldUnits = [] ∧ poisoned (memory 0x63) (.scratch 1 0x100) 4 = false := by decide +kernel

theorem witness_atomics : ((atomicWords false 3 4 8).take 8).all (fun q => aloneB (memory 0x63) (lane 0) q.1) = true ∧ ((atomicWords false 3 6 8).drop 8).all (fun q => aloneB (memory 0x63) (lane 0) q.1) = true ∧
    isBurin (lane 0) = false ∧ [Instr.redfFadd 4 8, .redfFmin 4 8, .redfFmax 4 8, .redfHadd2 4 8, .redfAddI 4 8].all (aloneB (memory 0x63) (lane 0)) = true ∧
    aloneB (memory 0x6B) (lane 0) (.redfAccred 4 8) = true := by decide +kernel

/-- Two threads whose v4:v5 name words of one page, v6 a word of the scratchpad and v8 data. -/
def two (a b : Nat) : State :=
  issuing (device 0x63) [(lane 0, thread1 [0, 1, 2, 0, a, 0, 0x100, 0, 5]), (lane 3, thread1 [0, 1, 2, 0, b, 0, 0x100, 0, 6])] false

theorem placed_at {s : State} {va : DWord} {size p : Nat} {u : Use} (h : placed s va size u = some p) :
    ∃ leaf n, checkAccess s (s.team 1).coreId (s.team 1).ctx 1 va size u = .at (.phys p) leaf n := by
  unfold placed at h
  split at h
  · next q leaf n e => cases h; exact ⟨leaf, n, e⟩
  · cases h

/-- A set whose lanes name one word, and one whose lanes name two words. -/
theorem witness_gathered (b : Nat) (hb : b = 0x30000 ∨ b = 0x30004) :
    (∀ q ∈ (atomicWords false 3 4 8).take 8, Runs q.1 (two 0x30000 b)) ∧ (∀ q ∈ (atomicWords false 3 6 8).drop 8, Runs q.1 (two 0x30000 b)) ∧
    (∀ i ∈ [Instr.redfFadd 4 8, .redfFmin 4 8, .redfFmax 4 8, .redfHadd2 4 8, .redfAddI 4 8], Runs i (two 0x30000 b)) ∧
    (∀ l ∈ (two 0x30000 b).issue.lanes, (mfind (two 0x30000 b).issue.snap l).isSome = true ∧ isBurin l = false ∧ teamOf l = 1) ∧
    (∀ u ∈ [Use.atomic, .redf], ∀ l ∈ (two 0x30000 b).issue.lanes, ∃ leaf size, checkAccess (two 0x30000 b) ((two 0x30000 b).team 1).coreId ((two 0x30000 b).team 1).ctx 1
      ((two 0x30000 b).src64 l 4) 4 u = .at (if l = lane 0 then .phys 0x30000 else .phys b) leaf size) := by
  have ok (b : Nat) (hb : b = 0x30000 ∨ b = 0x30004) : (two 0x30000 b).SetOk := by
    rcases hb with rfl | rfl <;> exact ⟨by decide +kernel, by decide +kernel, by decide +kernel⟩
  refine ⟨fun q hq => ⟨ok b hb, .inr ?_⟩, fun q hq => ⟨ok b hb, .inr ?_⟩, fun i hi => ⟨ok b hb, .inr ?_⟩, ?_, fun u hu l hl => ?_⟩
  · have h : ∀ b ∈ [0x30000, 0x30004], ∀ q ∈ (atomicWords false 3 4 8).take 8, ∀ l ∈ (two 0x30000 b).issue.lanes, verdict (two 0x30000 b) l q.1 = .pass := by decide +kernel
    exact h b (by simpa using hb) q hq
  · have h : ∀ b ∈ [0x30000, 0x30004], ∀ q ∈ (atomicWords false 3 6 8).drop 8, ∀ l ∈ (two 0x30000 b).issue.lanes, verdict (two 0x30000 b) l q.1 = .pass := by decide +kernel
    exact h b (by simpa using hb) q hq
  · have h : ∀ b ∈ [0x30000, 0x30004], ∀ i ∈ [Instr.redfFadd 4 8, .redfFmin 4 8, .redfFmax 4 8, .redfHadd2 4 8, .redfAddI 4 8], ∀ l ∈ (two 0x30000 b).issue.lanes,
        verdict (two 0x30000 b) l i = .pass := by decide +kernel
    exact h b (by simpa using hb) i hi
  · rcases hb with rfl | rfl <;> decide +kernel
  · have h : ∀ b ∈ [0x30000, 0x30004], ∀ u ∈ [Use.atomic, .redf], ∀ l ∈ (two 0x30000 b).issue.lanes,
        placed (two 0x30000 b) ((two 0x30000 b).src64 l 4) 4 u = some (if l = lane 0 then 0x30000 else b) := by decide +kernel
    obtain ⟨leaf, n, e⟩ := placed_at (h b (by simpa using hb) u hu l hl)
    refine ⟨leaf, n, e.trans ?_⟩
    split <;> rfl

/-- R280: lanes of one word make one request in ascending order, lanes of two words two. -/
theorem test_gathered : after (exec (.atomgAdd false 3 4 8) (two 0x30000 0x30000)) (fun s => (s.group 64).queue.map QEntry.op) = some [.atomic 0 [((two 0 0).nextId, 5, 0), ((two 0 0).nextId + 1, 6, 0)]] ∧
    after (exec (.redfAddI 4 8) (two 0x30000 0x30004)) (fun s => (s.group 64).queue.map QEntry.op) = some [.redf 5 [(lane 0, 5)] false, .redf 5 [(lane 3, 6)] true] := by decide +kernel

/-- One store in the queue of the group, and what leaves it. -/
def queuedAt (loc : Loc) (op : QOp) : State :=
  (vec [0]).modGroup 64 (fun g => { g with queue := [{ tid := lane 0, word := 7, loc := loc, addr := 0x30000, rt := 0, flags := 0, op := op }] })
def queued (op : QOp) : State := queuedAt (.phys 0x30000) op

/-- StoreQueueLeaves: a store, an atomic of two lanes and reductions of one and two lanes at the head of a queue, for a word of memory and one of a scratchpad; the
store's line is neither dirty nor privatised; the loads of the atomic are two. -/
theorem witness_queue : ∀ loc ∈ [Loc.phys 0x30000, .scratch 1 0x100], ∀ op ∈ [QOp.store [0x44, 0x33], .atomic 7 [(1, 6, 0), (2, 7, 6)], .redf 3 [(lane 0, 5)] false, .redf 5 [(lane 0, 5), (lane 3, 6)] true],
    ((queuedAt loc op).group 64).queue = [{ tid := lane 0, word := 7, loc := loc, addr := 0x30000, rt := 0, flags := 0, op := op }] ∧ (queuedAt loc op).binds = [] ∧ (queuedAt loc op).lost = [] ∧
    incarnation (queuedAt loc op) ⟨1, ((queuedAt loc op).team 1).coreId⟩ = 0 ∧ (mfind (queuedAt loc op).teams 1).isSome = true ∧ ringBase (queuedAt loc op) 0x6012 = none ∧
    ((queuedAt loc op).dirOf 0x600).dirty = false ∧ ((queuedAt loc op).dirOf 0x600).privatised = [] ∧ ([(1, 6, 0), (2, 7, 6)].map Prod.fst).Nodup ∧ 0x30000 % 128 + 2 ≤ 128 := by
  decide +kernel

theorem test_queue_leaves : after (exec (.storeQueueLeave 64) (queued (.store [0x44, 0x33, 0x22, 0x11]))) (fun s => (readNat s (.phys 0x30000) 4, (s.group 64).queue)) = some (0x11223344, []) ∧
    after (exec (.storeQueueLeave 64) (queued (.atomic 0 [(0, 5, 0), (1, 6, 0)]))) (fun s => readNat s (.phys 0x30000) 4) = some 11 := by decide +kernel

/-- LoadDataReturns: a load whose data has come back. -/
def waitingLoad (id : Nat) (value : Option Nat) : Load :=
  { id := id, tid := lane 0, d := 3, n := false, sz := 5, value := value, poison := false, addr := 0x30000, word := 7, flags := 0, view := none, table := none, slow := false, trapNo := 0 }
def returning : State :=
  { (vec [0]) with loads := [waitingLoad 9 (some 0x1122334455667788)],
                   threads := [(lane 0, { thread1 [] with q3 := some 9 })] }

/-- R228, R277, R279: an entry of a scratchpad, and the two values that two lanes of one word get. -/
theorem test_scratch_queue : after (exec (.storeQueueLeave 64) (queuedAt (.scratch 1 0x100) (.store [0x44, 0x33]))) (fun s => (readNat s (.scratch 1 0x100) 4, readNat s (.phys 0x30000) 4)) = some (0x3344, 0) ∧
    after (exec (.storeQueueLeave 64) { queuedAt (.scratch 1 0x100) (.atomic 0 [(9, 5, 0), (10, 6, 0)]) with loads := [waitingLoad 9 none, waitingLoad 10 none] })
      (fun s => (readNat s (.scratch 1 0x100) 4, s.loads.map Load.value)) = some (11, [some 0, some 5]) := by decide +kernel

/-- R248, R313: what the home holds of a line that a store has made dirty in the core's L1 is what it was, so a fetch past the caches reads that. -/
theorem test_home_words : let d : Dir := { dirty := true, owner := some 0 }
    let w := writeNat (vec [0]) (.phys 0x30000) 4 0x11223344
    homeAfter (writeNat (vec [0]) (.phys 0x30000) 4 9) d false 0x30000 [0x44, 0x33, 0x22, 0x11] = [(0, 9)] ∧
    homeWord { w with dir := [(0x600, d)], homeWords := [(0x600, [(0, 9)])] } 0x600 0 = 9 ∧ homeWord { w with homeWords := [(0x600, [(0, 9)])] } 0x600 0 = 0x11223344 := by decide +kernel

theorem test_store_and_load : after (exec (.stg 8 4 0 4 1) (memory 0x63)) (fun s => (s.group 64).queue.map (fun e => (e.addr, e.op))) = some [(0x30004, .store [0x44, 0x33, 0x22, 0x11])] ∧
    after (exec (.ldg false 9 4 0 4 0) (writeNat (memory 0x63) (.phys 0x30000) 4 99)) (fun s => s.loads.map (fun l => (l.d, l.value))) = some [(9, some 99)] ∧
    after (exec (.stp 8 6 2 0) (memory 0x63)) (fun s => (s.thread (lane 0)).privBytes 0x100 4) = some [0x44, 0x33, 0, 0] ∧
    reg (exec (.lds false 3 6 1 0) (writeNat (memory 0x63) (.scratch 1 0x100) 1 0x80)) 0 3 = some 0xFFFFFF80 := by decide +kernel

theorem witness_load_return : ∃ ld v, returning.loads.find? (fun x => x.id = 9) = some ld ∧ ld.parts = none ∧ ld.value = some v ∧ ld.poison = false ∧ (returning.thread ld.tid).cond ≠ .exited ∧ isBurin ld.tid = false ∧
    (returning.team (teamOf ld.tid)).oldUnits = [] := ⟨_, _, rfl, rfl, rfl, rfl, by decide +kernel, by decide +kernel, by decide +kernel⟩

theorem test_load_return : after (exec (.loadDataReturn 9) returning) (fun s => (mget 0 (s.thread (lane 0)).regs 3, mget 0 (s.thread (lane 0)).regs 4, mfind (s.thread (lane 0)).latch 3, s.loads)) =
    some (0x55667788, 0x11223344, some 0x55667788, []) := by decide +kernel

/-- A line that a core keeps privatised, and one that self-invalidates. -/
def privatised : State := { queued (.store [1]) with dir := [(0x600, { privatised := [(((vec [0]).team 1).coreId, 1)] })] }

/-- R234, R283: a fence of release kind at device scope ends the privatised copies of its core, one of kind 0 none. -/
theorem witness_privatised : Runs (.fence 0x0B) privatised ∧ Runs (.fence 3) privatised ∧ (0x0B : BitVec 6).toNat / 8 = 1 ∧ (0x0B : BitVec 6).toNat % 8 = 3 ∧ (3 : BitVec 6).toNat / 8 = 0 ∧
    (∀ e ∈ (privatised.group 64).queue, e.inc = incarnation privatised ⟨1, (privatised.team 1).coreId⟩ ∧ e.op = .store [1]) ∧ privatised.contributions = [] ∧
    (∃ p ∈ privatised.dir, p.2.privatised ≠ []) :=
  ⟨runs_of _ ⟨by decide +kernel, by decide +kernel, by decide +kernel⟩ (by decide +kernel), runs_of _ ⟨by decide +kernel, by decide +kernel, by decide +kernel⟩ (by decide +kernel),
    by decide, by decide, by decide, by decide +kernel, by decide +kernel, by decide +kernel⟩

theorem test_privatised : [(0x0B : BitVec 6), 3, 0].map (fun x => after (exec (.fence x) privatised) (fun s => (s.dirOf 0x600).privatised.length)) = [some 0, some 1, some 1] := by decide +kernel


/-- FencesOrder: a queue that holds one store, and no contribution on its way. -/
theorem witness_fence : (∀ e ∈ ((queued (.store [1])).group 64).queue, ∃ bs, e.op = .store bs) ∧ (∀ c ∈ (queued (.store [1])).contributions, grpOf c.tid ≠ 64) ∧ Runs (.fence 9) (queued (.store [1])) ∧
    ((vec [0]).group 64).queue = [] ∧ (9 : BitVec 6).toNat / 8 = 1 ∧ (0x1B : BitVec 6).toNat / 8 = 3 ∧ (1 : BitVec 6).toNat / 8 = 0 := by
  refine ⟨?_, by decide +kernel, runs_of _ ⟨by decide +kernel, by decide +kernel, by decide +kernel⟩ (by decide +kernel), by decide +kernel, by decide, by decide, by decide⟩
  intro e he
  exact ⟨[1], by have h : ∀ e ∈ ((queued (.store [1])).group 64).queue, e.op = .store [1] := by decide +kernel
                 exact h e he⟩

theorem test_fence : after (exec (.fence 9) (queued (.store [0x55]))) (fun s => (readByte s (.phys 0x30000), (s.group 64).queue)) = some (0x55, []) ∧
    after (exec (.fence 1) (queued (.store [0x55]))) (fun s => (readByte s (.phys 0x30000), (s.group 64).queue.length)) = some (0, 1) := by decide +kernel

/-! ### Phase barriers and copies -/

/-- A lane on a team whose barrier 2 stands in this state. -/
def barrier (b : Barrier) (rs : List Nat) : State := (fresh rs).modTeam 1 (fun t => { t with bars := [(2, b)] })

/-- PhaseBarrierWords: barriers before and after PH.INIT, quotas at the ends of their range, phases done and not. -/
theorem witness_barriers : [Instr.phInit 3 1 2, .phArrive 3 2, .phEnd 3 2, .phWait 1 2, .phTest 3 1 2, .phStat 3 2, .phInval 3 2].all (aloneB (barrier { init := true, phase := 4, quota := 255 } [0, 4]) (lane 0)) = true ∧
    aloneB (barrier {} [0, 255]) (lane 0) (.phInit 3 1 2) = true ∧ aloneB (barrier {} [0, 0]) (lane 0) (.phInit 3 1 2) = true ∧ (mfind (barrier {} []).teams (teamOf (lane 0))).isSome = true ∧
    ((barrier { init := true, phase := 5 } [0, 4]).bar 1 2).phase.toNat + 2 ^ 32 - 4 - 1 - 2 ^ 32 < 2 ^ 31 ∧ aloneB (barrier {} []) (lane 0) (.phInval 3 2) = true := by decide +kernel

theorem test_barriers : reg (exec (.phInit 3 1 2) (barrier {} [0, 256])) 0 3 = some 2 ∧ after (exec (.phInit 3 1 2) (barrier {} [0, 2])) (fun s => (s.bar 1 2).quota) = some 2 ∧
    after (exec (.phWait 1 2) (barrier { init := true, phase := 4, quota := 1 } [0, 4])) (fun s => (s.thread (lane 0)).cond) = some (.blocked (.phase 2 4)) ∧
    after (exec (.phWait 1 2) (barrier { init := true, phase := 5, quota := 1 } [0, 4])) (fun s => (s.thread (lane 0)).cond) = some .ready ∧
    reg (exec (.phStat 3 2) (barrier { init := true, phase := 4, quota := 3, arrived := 1 } [])) 0 3 = some 0x40020004 := by decide +kernel

/-- ArrivalsComplete: an arrival of the burin core at the head of its queue, the last of its phase or not. -/
def arriving (q : Nat) : State :=
  let s := (gvec []).modTeam 1 (fun t => { t with bars := [(2, { init := true, quota := q })] })
  s.modGroup (grpOf burin) (fun g => { g with queue := [{ tid := burin, word := 7, loc := .phys 0, addr := 0, rt := 0, flags := 0, op := .arrive 2 0 false }] })

theorem witness_arrivals : isBurin burin = true ∧ teamOf burin = grpOf burin / 64 ∧ (mfind (arriving 1).teams 1).isSome = true ∧ ((arriving 1).bar 1 2).init = true ∧
    (∀ c ∈ (arriving 1).contributions, grpOf c.tid ≠ grpOf burin) ∧
    ∀ q ∈ [1, 2], ((arriving q).group (grpOf burin)).queue = [{ tid := burin, word := 7, loc := .phys 0, addr := 0, rt := 0, flags := 0, op := .arrive 2 0 false }] := by decide +kernel

theorem test_arrivals : after (exec (.arrivalCounted (grpOf burin)) (arriving 1)) (fun s => ((s.bar 1 2).phase, (s.bar 1 2).arrived)) = some (1, 0) ∧
    after (exec (.arrivalCounted (grpOf burin)) (arriving 2)) (fun s => ((s.bar 1 2).phase, (s.bar 1 2).arrived)) = some (0, 1) := by decide +kernel

/-- A scratchpad with these little-endian numbers in it: offset, bytes, value. -/
def scratchOf (s : State) (fs : List (Nat × Nat × Nat)) : State := fs.foldl (fun s f => writeNat s (.scratch 1 f.1) f.2.1 f.2.2) s

/-- The rule's own control word for a linear copy into the team's scratchpad (R292): 64 bytes from 0x30000 to offset 0x200. -/
def copying (ctl : Nat) : State := scratchOf (fresh [0, 0, 0x40, 0x80]) [(0x40, 4, ctl), (0x44, 4, 64), (0x48, 8, 0x30000), (0x50, 8, 0x200), (0x80, 4, 0x28)]

/-- StreamerCommands: a linear copy, a multicast of one member, a walk, and an identifier that no request has. -/
theorem witness_streamer : aloneB (copying 0x2711) (lane 0) (.cpIssue 3 2 0) = true ∧ aloneB (copying 0x2711) (lane 0) (.cpCancel 3 2) = true ∧ aloneB (copying 0x2711) (lane 0) (.gaStat 3 2) = true ∧
    isBurin (lane 0) = false ∧ (copying 0x2711).requests.find? (fun r => r.node.isNone && decide (r.team = teamOf (lane 0)) && decide (r.rid = (copying 0x2711).src (lane 0) 2)) = none := by decide +kernel

theorem test_copy : after (exec (.cpIssue 3 2 0) (copying 0x2711)) (fun s => (s.requests.map (fun r => (r.rid, r.op)), mget 0 (s.thread (lane 0)).regs 3)) = some ([(1, .linear 64 (.global 0x30000) (.own 0x200))], 1) ∧
    reg (exec (.cpCancel 3 2) (copying 0x2711)) 0 3 = some 2 := by decide +kernel

/-! ### Pins, maintenance, sharing, scratchpad bindings, launches -/

/-- The page of an address: type, domain and physical address. -/
def pageOf (s : State) (va : Nat) : Option (Nat × Nat × Nat) :=
  match translate s (s.team 1).coreId (s.team 1).ctx va with
  | .leaf e size => some (leafType e, leafDomain e, leafPhys e size va)
  | _ => none

/-- PrefetchAndPins: a normal page of domain device, an ACC page, no page; no budget, a budget of one line, the line already pinned. -/
def pinning (budget : Nat) : State := (memory 0x63).setSys 5 (BitVec.ofNat 64 budget)

theorem witness_pins : aloneB (pinning 1) (lane 0) (.pin 3 4 0) = true ∧ aloneB (pinning 1) (lane 0) (.unpin 4 63) = true ∧ Runs (.pref 4 1) (memory 0x63) ∧ pageOf (pinning 1) 0x30000 = some (0, 0, 0x30000) ∧
    ((pinning 1).src64 (lane 0) 4).toNat < 2 ^ 57 ∧ pageOf (memory 0x6B) 0x30000 = some (2, 0, 0x30000) ∧ aloneB (memory 0x6B) (lane 0) (.pin 3 4 0) = true ∧ pageOf (memory 0) 0x30000 = none ∧ aloneB (memory 0) (lane 0) (.pin 3 4 0) = true :=
  ⟨by decide +kernel, by decide +kernel, ⟨⟨by decide +kernel, by decide +kernel, by decide +kernel⟩, .inr (by decide +kernel)⟩, by decide +kernel, by decide +kernel, by decide +kernel, by decide +kernel, by decide +kernel,
    by decide +kernel⟩

theorem test_pins : after (exec (.pin 3 4 0) (pinning 1)) (fun s => (mget 0 (s.thread (lane 0)).regs 3, s.pins)) = some (1, [(0, 0x600)]) ∧ reg (exec (.pin 3 4 0) (pinning 0)) 0 3 = some 0x20000 ∧
    reg (exec (.pin 3 4 0) (memory 0x6B)) 0 3 = some 0x30000 ∧ after (exec (.unpin 4 0) { (memory 0x63) with pins := [(0, 0x600), (1, 0x601)] }) (fun s => s.pins) = some [(1, 0x601)] := by decide +kernel

/-- Every line is at home on one of two dies. -/
theorem home_bound (l : Nat) : homeOf (memory 0x63) l < 2 := by
  unfold homeOf
  split
  · next c h =>
    unfold channelOf at h
    obtain ⟨x, hx, rfl⟩ := Option.map_eq_some_iff.1 h
    have := spotOf_bound hx
    unfold channelDie
    omega
  · have e : (memory 0x63).homes = [] := by decide +kernel
    rw [e]
    exact Nat.zero_lt_two

/-- Fourteen lines of the first GiB that fall in one set. -/
theorem full_set : ∃ ls : List Nat, ls.Nodup ∧ ls.length = 14 ∧ ∀ l ∈ ls, l < 2 ^ 23 ∧ ∀ m ∈ ls,
    homeOf (memory 0x63) m = homeOf (memory 0x63) l ∧ sliceOf (memory 0x63) (homeOf (memory 0x63) l) m = sliceOf (memory 0x63) (homeOf (memory 0x63) l) l ∧ setOf m = setOf l := by
  have hn : ∀ h < 2, (enabledSlices (memory 0x63) h).length = 80 := by
    have a : ∀ h ∈ List.range 2, (enabledSlices (memory 0x63) h).length = 80 := by decide +kernel
    exact fun h hh => a h (List.mem_range.2 hh)
  let key (l : Nat) : Nat × Nat × Nat := (homeOf (memory 0x63) l, Config.lineSpread l % 80, setOf l)
  obtain ⟨y, -, hy⟩ := Finset.exists_lt_card_fiber_of_mul_lt_card_of_maps_to (s := Finset.range (2 ^ 23)) (t := Finset.range 2 ×ˢ Finset.range 80 ×ˢ Finset.range 1024) (f := key) (n := 13)
    (fun l _ => by
      simp only [key, Finset.mem_product, Finset.mem_range]
      exact ⟨home_bound l, Nat.mod_lt _ (by decide), Nat.mod_lt _ (by decide)⟩)
    (by simp only [Finset.card_product, Finset.card_range]; decide)
  obtain ⟨u, hu, hc⟩ := Finset.exists_subset_card_eq (Nat.succ_le_of_lt hy)
  refine ⟨u.toList, u.nodup_toList, by rw [Finset.length_toList, hc], fun l hl => ?_⟩
  have at_ (l : Nat) (hl : l ∈ u.toList) := Finset.mem_filter.1 (hu (Finset.mem_toList.1 hl))
  refine ⟨Finset.mem_range.1 (at_ l hl).1, fun m hm => ?_⟩
  have e := (at_ m hm).2.trans (at_ l hl).2.symm
  simp only [key, Prod.mk.injEq] at e
  refine ⟨e.1, ?_, e.2.2⟩
  unfold sliceOf
  simp only [hn _ (home_bound l), e.2.1]

/-- Lines of one set that are all pinned are pinned ways of it. -/
theorem pinned_set {s : State} {ls : List Nat} {line : Nat} (hd : ls.Nodup) (h : ∀ m ∈ ls,
    homeOf s m = homeOf s line ∧ sliceOf s (homeOf s line) m = sliceOf s (homeOf s line) line ∧ setOf m = setOf line) :
    ls.length ≤ pinnedWays { s with pins := ls.map (fun l => (0, l)) } line := by
  refine (List.subperm_of_subset hd (fun m hm => ?_)).length_le
  rw [List.mem_filter, List.mem_eraseDups, List.map_map]
  exact ⟨List.mem_map.2 ⟨m, hm, rfl⟩, decide_eq_true (h m hm)⟩

/-- PrefetchAndPins: a set of fourteen pinned ways, one of them the context's own. -/
theorem witness_full_set : ∃ (ls : List Nat) (line : Nat), line ∈ ls ∧ line < 2 ^ 23 ∧
    14 ≤ pinnedWays { (memory 0x63) with pins := ls.map (fun l => (0, l)) } line ∧ (0, line) ∈ ls.map (fun l => (0, l)) := by
  obtain ⟨ls, hd, hl, h⟩ := full_set
  obtain ⟨line, hm⟩ := List.exists_mem_of_length_pos (l := ls) (by omega)
  refine ⟨ls, line, hm, (h line hm).1, ?_, List.mem_map.2 ⟨line, hm, rfl⟩⟩
  exact hl ▸ pinned_set hd (h line hm).2
/-- MaintenanceWords: a range of three bytes in one line, one of zero bytes, an invalidation at the head of a queue, a table whose offset is aligned. -/
theorem witness_maintenance : aloneB (memory 0x63) (lane 0) (.cwb 3 4 4) = true ∧ aloneB (memory 0x63) (lane 0) (.cinv 3 4) = true ∧ aloneB (memory 0x63) (lane 0) (.iinv 0 4) = true ∧ aloneB (memory 0x63) (lane 0) .fetchb = true ∧
    aloneB (memory 0x63) (lane 0) (.xbTload 6 15) = true ∧ (memory 0x63).narrow (lane 0) 0 = 0 ∧ 0 < ((memory 0x63).narrow (lane 0) 3).toNat ∧ pageOf (memory 0x63) 0x30000 = some (0, 0, 0x30000) ∧
    ((queued (.iinv [0x600])).group 64).queue = [{ tid := lane 0, word := 7, loc := .phys 0x30000, addr := 0x30000, rt := 0, flags := 0, op := .iinv [0x600] }] ∧ ((memory 0x63).group 64).queue = [] ∧
    poisoned (memory 0x63) (.scratch 1 0x100) 128 = false := by decide +kernel

theorem test_maintenance : after (exec (.cwb 3 4 4) (memory 0x63)) (fun s => (s.group 64).queue.map QEntry.op) = some [.cwb 4 [0x600]] ∧
    after (exec (.xbTload 6 15) (scratchOf (memory 0x63) [(0x100, 1, 0x1F)])) (fun s => (mget 0x80 (s.team 1).pt (128 * 15), mget 0x80 (s.team 1).pt (128 * 15 + 1))) = some (0x1F, 0) := by decide +kernel

/-- SharingWords: a lane, and a team that has joined. -/
theorem witness_sharing : Runs .shJoin (vec []) ∧ Runs .shLeave (vec []) ∧ Runs (.shWin 2 4 15) (vec []) ∧ (mfind (vec []).teams (vec []).issueTeam).isSome = true ∧ ((vec []).team (vec []).issueTeam).joined = false ∧
    (vec []).requests = [] ∧ (∀ p ∈ (vec []).groups, p.2.queue = []) :=
  ⟨runs_of _ ⟨by decide +kernel, by decide +kernel, by decide +kernel⟩ (by decide +kernel), runs_of _ ⟨by decide +kernel, by decide +kernel, by decide +kernel⟩ (by decide +kernel),
    runs_of _ ⟨by decide +kernel, by decide +kernel, by decide +kernel⟩ (by decide +kernel), by decide +kernel, by decide +kernel, by decide +kernel, by decide +kernel⟩

theorem test_sharing : after (exec .shJoin (vec [])) (fun s => (s.team 1).joined) = some true ∧
    after (exec (.shWin 2 4 3) (vec [0, 0, 0, 0, 0x2000000, 0x7F00])) (fun s => (mget 0 (s.thread (lane 0)).regs 2, mget 0 (s.thread (lane 0)).regs 3)) = some (0x2600000, 0x7F00) := by decide +kernel

/-- ScratchpadBindings: one unit at unit 3, a count past the declared scratchpad, an address without a page, a control word with a reserved bit, a binding there. -/
def binding (ctl : Nat) : State := fresh [0, 1, 2, ctl, 0x30000, 0, 0, 0, 0x7FFFF000, 0xFF]
def bound : State := { (binding 0) with binds := [{ core := 0, entry := 0, team := 1, off := 0x3000, units := [0x30] }] }

theorem witness_bindings : [3, 0x7F0F, 0x83, 0x8003, 0x10003].all (fun c => aloneB (binding c) (lane 0) (.spmap 3 4)) = true ∧ aloneB (binding 3) (lane 0) (.spmap 3 8) = true ∧
    bindUnits (binding 3) 0 0 0x30000 1 = some [0x30] ∧ bindUnits (binding 3) 0 0 0xFF7FFFF000 1 = none ∧ aloneB bound (lane 0) (.spunmap 3) = true ∧ aloneB bound (lane 0) (.spwb 3) = true ∧
    (bound.binds.find? (fun b => decide (b.core = (bound.team 1).coreId ∧ b.entry = (bound.src (lane 0) 3).toNat ∧ b.team = 1))).isSome = true ∧ [0x30].Nodup ∧ (mfind (binding 3).teams 1).isSome = true := by decide +kernel

theorem test_bindings : after (exec (.spmap 3 4) (binding 3)) (fun s => (mget 0 (s.thread (lane 0)).regs 3, s.binds.map (fun b => (b.off, b.units)))) = some (0, [(0x3000, [0x30])]) ∧
    reg (exec (.spmap 3 4) (binding 0x7F10)) 0 3 = some 2 ∧ after (exec (.spunmap 3) bound) (fun s => s.binds) = some [] := by decide +kernel

/-- A walk of the device that meets no malformed entry. -/
def clearB (s : State) (ctx : Nat) (va : DWord) : Bool :=
  decide (bits va.toNat 63 57 ≠ 0) || (match unitWalk s ctx va.toNat with
    | .none (some _) => false
    | _ => true)

theorem clear_of {s : State} {ctx : Nat} {va : DWord} (h : clearB s ctx va = true) : Clear s ctx va := by
  intro u
  unfold logDevice
  by_cases hb : bits va.toNat 63 57 ≠ 0
  · rw [if_pos hb]
  · rw [if_neg hb]
    simp only [clearB, hb, decide_false, Bool.false_or] at h
    split at h
    · cases h
    · next hw =>
      split
      · next bad e => cases bad with
        | none => rfl
        | some b => exact absurd e (hw b)
      · rfl

/-- LaunchAndSignal: a queue of the lane's context that takes launches, one that is disabled, a number past the last queue; nodes of kind 4 and of another kind. -/
def launching (q qd1 : Nat) : State := (fresh [0, 0, 0, q, 0x30000, 0]).setSys (0x1001 + 8 * q) (BitVec.ofNat 64 qd1)

/-- A running event node at 0x30000, the root of queue 3, slot 9. -/
def signalled (kind : Nat) (done : Option Nat) : State :=
  { (writeNat (writeNat (fresh [0, 0, 0, 0, 0x30000, 0]) (.phys 0x30000) 1 kind) (.phys 0x3001A) 2 1) with nodes := [{ ctx := 0, die := 0, addr := 0x30000, q := 3, seq := 9, root := true, slot := none, done := done, list := 0, succs := 0 }] }

/-- A second GiB mapped onto the first, and a thread that names the node through it. -/
def aliased (nodes : Bool) : State :=
  let s := writeNat (signalled 4 none) (.phys 0x12008) 8 0x63
  let t := issuing s [(lane 0, thread1 [0, 0, 0, 0, 0x40030000, 0])] false
  if nodes then t else { t with nodes := [] }

/-- R307: an event node with status 1 that another address names, and one that no walker runs; the slot of an append stands on a good page. -/
theorem witness_signal_alias : clearB (launching 3 0x2804) 0 (slotAddr (launching 3 0x2804) 3 0) = true ∧ (∀ b ∈ [true, false], aloneB (aliased b) (lane 0) (.dgSignal 3 4) = true ∧ (aliased b).binds = [] ∧ (aliased b).lost = [] ∧
    (match checkPage (aliased b) 0 0 1 0x40030000 64 .atomic true true with | .at (.phys p) _ _ => p | _ => 0) = 0x30000 ∧ readNat (aliased b) (.phys 0x30000) 1 = 4 ∧ readNat (aliased b) (.phys 0x3001A) 2 = 1 ∧
    (aliased b).nodes.find? (fun n => decide (n.ctx = 0 ∧ n.addr = 0x40030000)) = none ∧ ((aliased b).nodes.find? (fun n => decide (devicePlace (aliased b) n.ctx n.addr = some 0x30000))).isSome = b ∧
    devicePlace (aliased b) 0 (0x40030000 + 26) = some (0x30000 + 26) ∧ devicePlace (aliased b) 0 0x40030000 = some 0x30000 ∧ (strayNode (aliased b) 0 0x40030000 0x30000).done = none ∧
    (strayNode (aliased b) 0 0x40030000 0x30000).succs = 0) := by decide +kernel

theorem test_signal_alias : (∀ b ∈ [true, false], after (exec (.dgSignal 3 4) (aliased b)) (fun s => (mget 0 (s.thread (lane 0)).regs 3, readNat s (.phys 0x3001A) 2, s.nodes.length, s.completions.map Completion.q)) =
      some (0, 2, 0, if b then [3] else [])) ∧
    ∀ b ∈ [true, false], after (exec (.dgevRequest 0 0x40030000) (aliased b)) (fun s => ((s.die 0).dgevResult, readNat s (.phys 0x3001A) 2, s.nodes.length)) = some (0, 2, 0) := by decide +kernel

theorem witness_launch : [(3, 0x2804), (3, 0x804), (3, 0x2004), (1024, 0)].all (fun q => aloneB (launching q.1 q.2) (lane 0) (.launch 3 4)) = true ∧ ((launching 3 0x2804).group 64).queue = [] ∧ (launching 3 0x2804).contributions = [] ∧
    (readVirt (launching 3 0x2804) (threadPlaces (launching 3 0x2804) 0 0 1) [] (pieces 0x30000 128)).2 = false ∧
    devicePlace (signalled 4 none) 0 (0x30000 + 26) = some (0x30000 + 26) ∧ readNat (signalled 4 none) (.phys (0x30000 + 26)) 2 = 1 ∧ aloneB (signalled 4 none) (lane 0) (.dgSignal 3 4) = true ∧ (signalled 4 none).binds = [] ∧ (signalled 4 none).lost = [] ∧
    (match checkPage (signalled 4 none) 0 0 1 0x30000 64 .atomic true true with | .at (.phys p) _ _ => p | _ => 0) = 0x30000 ∧ readNat (signalled 4 none) (.phys 0x30000) 1 = 4 ∧ readNat (signalled 3 none) (.phys 0x30000) 1 = 3 ∧
    ((signalled 4 (some 0)).nodes.find? (fun n => decide (n.ctx = 0 ∧ n.addr = 0x30000))).map Node.done = some (some 0) := by decide +kernel

theorem test_launch : reg (exec (.launch 3 4) (launching 3 0x2804)) 0 3 = some 0 ∧ after (exec (.launch 3 4) (launching 3 0x2804)) (fun s => qHead s 3) = some 1 ∧ reg (exec (.launch 3 4) (launching 3 0x804)) 0 3 = some 3 ∧
    reg (exec (.launch 3 4) (launching 3 0x2004)) 0 3 = some 2 ∧ after (exec (.dgSignal 3 4) (signalled 4 none)) (fun s => (mget 0 (s.thread (lane 0)).regs 3, s.nodes.length, s.completions.map (fun c => (c.q, c.status)))) = some (0, 0, [(3, 0)]) ∧
    reg (exec (.dgSignal 3 4) (signalled 3 none)) 0 3 = some 1 := by decide +kernel

/-! ### Matrix words and the matrix engine -/

/-- The burin core before its checks, on ACC pages, slot 1 t8 with es 1, slot 2 bf16, the records of lines on a normal page at 2^30. -/
def matrix (rs : List Nat) : State :=
  let s := (writeNat (device 0x6B) (.phys 0x12008) 8 0x40000063).setSys 0x4008 0x40000000
  let team := { (programTeam true) with slots := [0, 0x13, 1, 0, 0, 0, 0, 0], markActive := some (1, 4, 0) }
  issuing { s with teams := [(1, team)] } [(burin, { gregs := rs.zipIdx.foldl (fun m p => mset 0 m p.2 (BitVec.ofNat 64 p.1)) [], pc := 0x20004, sp := 512 })] false

/-- g1 a plate descriptor, g2 a stream descriptor, g3 a line, g4 two exact lines with q = -4 (R351's own example), g5 one line, g6 a drain descriptor. -/
def descriptors : State :=
  scratchOf (matrix [0, 0x40, 0x80, 0x30000, 0xFC0002, 1, 0xC0]) [(0x40, 4, 0x400), (0x44, 4, 4), (0x48, 1, 1), (0x4C, 4, 7), (0x80, 4, 0x800), (0x84, 4, 16), (0x88, 4, 3), (0x8C, 4, 0xFFFFFFFF), (0x90, 8, 0x30000),
    (0x98, 4, 256), (0x9E, 2, 0xFF01), (0xC0, 8, 0x30000), (0xC8, 4, 1), (0xCD, 1, 1), (0xD0, 8, 0xA00), (0xD8, 8, 0xB00)]

theorem witness_matrix_words : [Instr.mxLoad 1, .mxSwap, .mxStream 2, .mxAdapt 3, .accArm 4 3, .accDrain 6 0, .accClear 5 3, .accStat 7 3].all (aloneB descriptors burin) = true ∧ (mfind descriptors.teams (teamOf burin)).isSome = true ∧
    (descriptors.group (grpOf burin)).queue = [] ∧
    mfind ({ descriptors with acc := [(0x600, { armed := true, q := 0xFC, count := 65535, clamps := 65535 })] }).acc ((linePlace descriptors (teamOf burin) (descriptors.gsrc burin 3)).1 / 128) =
      some { armed := true, q := 0xFC, count := 65535, clamps := 65535 } := by decide +kernel

theorem witness_mx_wait : Runs .mxWait (gvec []) := runs_of _ ⟨by decide +kernel, by decide +kernel, by decide +kernel⟩ (by decide +kernel)

theorem test_matrix_words : after (exec (.mxLoad 1) descriptors) (fun s => ((s.team 1).markShadow, (s.team 1).queue.map MEntry.op)) = some (some (1, 4, 7), [.load 0x400 1 4 7]) ∧
    after (exec .mxSwap descriptors) (fun s => ((s.team 1).markActive, (s.team 1).markShadow)) = some (none, some (1, 4, 0)) ∧
    after (exec (.accArm 4 3) descriptors) (fun s => (s.team 1).queue.map MEntry.op) = some [.arm [(0x30000, 0x30000, 0x40000000 + 0x600 * 32), (0x30080, 0x30080, 0x40000000 + 0x601 * 32)] 0xFC0002] ∧
    after (exec (.mxAdapt 3) descriptors) (fun s => (s.team 1).queue.map MEntry.op) = some [.adapt 0x30000] := by decide +kernel

theorem test_matrix_checks : [(Instr.mxLoad 5, 0x16), (.mxLoad 3, 0x12), (.mxStream 1, 0x02), (.accArm 5 1, 0x16), (.accArm 0 3, 0x02)].all (fun q =>
    match verdict descriptors burin q.1 with
    | .trap f => decide (f.cause = q.2)
    | _ => false) = true := by decide +kernel

/-- A team with these entries in its matrix queue, an active plate of slot 1 (t8, es 1), K = 1. -/
def engine (es : List MEntry) : State :=
  (gvec []).modTeam 1 (fun t => { t with slots := [0, 0x13, 1, 0, 0, 0, 0, 0], queue := es, active := some { slot := 1, k := 1, tag := 0, tile := List.replicate 32 0x40 }, shadow := none })

def mentry (op : MOp) (started : Bool) : MEntry := { id := 8, team := 1, word := 7, op := op, started := started, row := 0, before := 0, held := none }

def oneRow : StreamDesc := { act := 0x100, stride := 16, rows := 2, ids := none, acc := 0x30000, accStride := 256, kpass := 0, aslot := 1, phase := none, flags := 0 }

/-- MatrixEngineSteps: an entry that has not started, one that is done, a stream whose row may issue, a governor window that is due, and the two states of a replay. -/
theorem witness_engine : (∀ op ∈ [MOp.load 0x400 1 4 7, .swap, .arm [(0x30000, 0x30000, 0x90000)] 0xFC0001, .adapt 0x40000, .stream oneRow []],
      (engine [mentry op false]).entry 8 = some ([], mentry op false) ∧ mentry op false ∈ ((engine [mentry op false]).team 1).queue ∧ (mfind (engine [mentry op false]).teams 1).isSome = true) ∧
    entryDone (engine [mentry .swap true]) (mentry .swap true) = true ∧ (∀ d lines, (mentry .swap true).op ≠ .stream d lines) ∧
    (engine [mentry (.stream oneRow []) true]).entry 8 = some ([], mentry (.stream oneRow []) true) ∧ ((engine [mentry (.stream oneRow []) true]).team 1).active.isSome = true ∧ 0 < oneRow.rows ∧
    ((engine [mentry (.stream oneRow []) true]).team 1).replays.length < 64 ∧ allowance (engine [mentry (.stream oneRow []) true]) 0 ≠ 0 ∧
    (({ (engine []) with cores := [(0, { rows := 5, govDue := true })] }).core 0).govDue = true ∧ ((engine []).team 1).replays.length ≤ 0 := by
  and_intros
  all_goals first | decide +kernel | (intro d lines h; cases h)

theorem test_engine : after (exec (.matrixEntryStart 8) (engine [mentry .swap false])) (fun s => ((s.team 1).active, (s.team 1).shadow.isSome)) = some (none, true) ∧
    after (exec (.matrixEntryStart 8) (engine [mentry (.adapt 0x40000) false])) (fun s => (s.team 1).adapter) = some 0x40000 ∧
    after (exec (.mainRowIssue 8) (writeNat (engine [mentry (.stream oneRow []) true]) (.scratch 1 0x100) 1 0x40)) (fun s => s.contributions.map (fun c => (c.addr, c.data.headD 0, c.data.length))) = some [(0x30000, 0x3F800000, 32)] ∧
    after (exec (.governorWindow 0 0) { (engine []) with cores := [(0, { rows := 5, govDue := true })] }) (fun s => ((s.core 0).rows, (s.core 0).lastRows)) = some (0, 5) := by decide +kernel

/-- A replay whose table entry is still to be read, with no table, and one whose entry is read: rank 1, slot 1, 32 columns of B. -/
def replay (desc : Option (List Byte)) : Replay :=
  { entry := 8, word := 7, id := 1, acc := 0x30000, pa := 0x30000, record := 0x90000, next := 0x30080, nextRecord := 0x90020, x := [0x40], slot := 1, kpass := 0, k := 1, tag := 0, desc := desc }

def rawAdapter : List Byte := leBytes 8 0x30000 ++ leBytes 8 0x31000 ++ [1, 1, 0, 0, 0, 0, 0, 0] ++ leBytes 4 32 ++ leBytes 4 0

def replaying (desc : Option (List Byte)) (table : DWord) : State :=
  let s := engine [mentry (.stream oneRow []) true]
  (s.modTeam 1 (fun t => { t with replays := [replay desc], adapter := table }))

theorem witness_replay : (replaying none 0).team 1 = { ((replaying none 0).team 1) with replays := [replay none], adapter := 0 } ∧ (∀ e ∈ ((replaying none 0).team 1).queue, e.held = none) ∧ (mfind (replaying none 0).threads (burinOf 1)).isSome = true ∧
    (let s := replaying (some rawAdapter) 0x40000
     let x := readAdapter rawAdapter
     (s.team 1).replays[0]? = some (replay (some rawAdapter)) ∧ ((haveSlices (s.team 1) (replay (some rawAdapter)) (x.sliceCount 1)).zipIdx.find? (fun p => p.1.isNone)).map Prod.snd = some 0 ∧
     replay (some rawAdapter) ∈ fitting s 1 64 (s.team 1).replays ∧ (s.team 1).slices = [] ∧ adapterEs (slotFmt (slotWord s 1 x.slot)) = 1 ∧
     (match (burinRead s 1 8 (x.ranges 1 (replay (some rawAdapter)) 0).1).2, (burinRead (burinRead s 1 8 (x.ranges 1 (replay (some rawAdapter)) 0).1).1 1 8 (x.ranges 1 (replay (some rawAdapter)) 0).2).2 with
      | .bytes _ _, .bytes _ _ => true
      | _, _ => false) = true) := by decide +kernel

/-- AccumulatorLines: one element on its way to a line, exact or float, armed or not, full or not, and a resident line with its record elsewhere. -/
def onItsWay (ln : AccLine) (w : Word) : State :=
  { (vec []) with acc := [(0x600, ln)], contributions := [{ id := 5, team := 1, tid := lane 0, trapNo := 0, entry := none, word := 7, addr := 0x30000, pa := 0x30000, record := 0x90000, next := none, data := [w], offset := 8 }] }

theorem witness_lines : (∀ ln ∈ [({ armed := true, q := 0xF0, record := 0x90000 } : AccLine), { armed := true, float := true, record := 0x90000 }, { record := 0x90000 }, { armed := true, count := 65535, record := 0x90000 }],
      (onItsWay ln 0x3FC00000).contributions.map (fun c => (c.id, c.next.isNone, c.data)) = [(5, true, [0x3FC00000])] ∧ mfind (onItsWay ln 0x3FC00000).acc (0x30000 / 128) = some ln ∧ ln.poisoned = false ∧
      (mfind (onItsWay ln 0x3FC00000).threads (lane 0)).isSome = true ∧ 0x600 * 128 + 128 ≤ ln.record ∧ ln.record < 2 ^ 57) ∧ (inF32 0x7FC00000).isNan = true ∧ (inF32 0x3FC00000).isNan = false ∧ (inF32 0x3FC00000).isInf = false ∧
    (onItsWay {} 0).binds = [] ∧ (onItsWay {} 0).lost = [] := by decide +kernel

/-- The rule's own numbers (R172): with q = -16, 1.5 adds 98304. -/
theorem test_lines : after (exec (.accContribution 5) (onItsWay { armed := true, q := 0xF0, record := 0x90000 } 0x3FC00000)) (fun s => (s.acc.map (fun p => (p.2.count, p.2.body)), s.contributions)) = some ([(1, [(1, 98304)])], []) ∧
    after (exec (.accContribution 5) (onItsWay { record := 0x90000 } 0x3FC00000)) (fun s => (s.thread (lane 0)).faults.map TrapInfo.cause) = some [0x14] ∧
    after (exec (.accLineEvict 0x600) (onItsWay { armed := true, body := [(1, 98304)], record := 0x90000 } 0)) (fun s => (readNat s (.phys 0x30008) 8, s.acc)) = some (98304, []) := by decide +kernel

/-! ### Views -/

/-- A VIEW page at 2^40 beside the normal pages, a view descriptor at offset 0x40: one row of two bf16 elements at 0x30000, linear latents at 0x30100. -/
def viewing : State :=
  let s := scratchOf (fresh [0, 1, 2, 3, 0x40, 0, 0x30200, 0, 0, 0x100]) [(0x40, 8, 0x30000), (0x48, 2, 1), (0x4A, 2, 2), (0x4C, 1, 2), (0x4D, 1, 2), (0x50, 8, 2 ^ 40), (0x58, 8, 0x30100), (0x60, 4, 4), (0x64, 1, 0xFF)]
  let s1 := writeNat (writeNat s (.phys 0x11010) 8 0x13001) (.phys 0x13000) 8 0x6F
  let s2 := writeNat (writeNat s1 (.phys 0x30000) 4 0x3F803F00) (.phys 0x30100) 4 0xC0003F80
  s2.modTeam 1 (fun t => { t with slots := [0, 0x13, 1, 0, 0, 0, 0, 0] })

/-- The view of the descriptor bound to vw0. -/
def theView : ViewReg :=
  { matrix := 0x30000, rows := 1, cols := 2, mslot := 2, lslot := 2, bf16 := false, flags := 0, aperture := 0x10000000000, latentBase := 0x30100, latentStride := 4, tslot := none, data := [0, 0x3F, 0x80, 0x3F], binding := 4 }

def viewed : State :=
  let s := viewing.modTeam 1 (fun t => { t with views := [(0, theView)] })
  fillTrans s 0 0 0x10000000000

/-- ViewWords: nothing bound, a view bound, another view with the same aperture, a table header at 0x30200 of version 3, a slot bound. -/
theorem witness_views : aloneB viewing (lane 0) (.vwSet 3 4 0) = true ∧ aloneB viewed (lane 0) (.vwSet 3 4 1) = true ∧ aloneB viewing (lane 0) (.vwRefresh 3 0) = true ∧ aloneB viewed (lane 0) (.vwRefresh 3 0) = true ∧
    aloneB viewed (lane 0) (.vwGet 3 4 0) = true ∧ aloneB viewed (lane 0) (.vwClear 3 7) = true ∧ aloneB viewing (lane 0) (.btBind 3 6 7) = true ∧ aloneB viewing (lane 0) (.btRetire 3 7) = true ∧
    (mfind viewing.teams (teamOf (lane 0))).isSome = true ∧ (viewing.group (grpOf (lane 0))).queue = [] ∧ viewing.binds = [] ∧ viewing.lost = [] ∧
    placeOf viewing (viewing.team 1).coreId (viewing.team 1).ctx (viewing.src64 (lane 0) 6) = some (.phys 0x30200) ∧ aloneB viewed (lane 0) (.ldg false 3 8 0 4 0) = true ∧
    checkAccess viewed 0 0 1 0x10000000000 4 .load = .view 0x6F ∧ viewAt viewed 1 0x10000000000 = some (0, theView) ∧ theView.tslot = none ∧ 0 < theView.rowBytes ∧ (0 + 4 - 1) / theView.rowBytes = 0 / theView.rowBytes ∧
    (viewed.core 0).press = [] ∧ (findTrans (viewed.core 0).tlb (ctxTag viewed 0) 0x10000000000).isSome = true ∧ (findTrans (viewed.die 0).tlb (ctxTag viewed 0) 0x10000000000).isSome = true ∧ (readVirt viewed (threadPlaces viewed 0 0 1) [] (pieces 0x30100 4)).2 = false := by
  decide +kernel

/-- The latent (1, -2) through the row (0.5, 1) is -1.5; the words of the view registers. -/
theorem test_views : after (exec (.vwSet 3 4 0) viewing) (fun s => (mget 0 (s.thread (lane 0)).regs 3, (mfind (s.team 1).views 0).map (fun v => (v.rows, v.cols, v.data)))) = some (0, some (1, 2, [0, 0x3F, 0x80, 0x3F])) ∧
    reg (exec (.vwSet 3 4 1) viewed) 0 3 = some 2 ∧ reg (exec (.vwGet 3 2 0) viewed) 0 3 = some 0x100 ∧ reg (exec (.vwGet 3 0 0) viewed) 0 3 = some 0xA0000100 ∧
    after (exec (.ldg false 3 8 0 4 0) viewed) (fun s => (s.loads.map Load.value, reg (exec (.loadDataReturn viewed.nextId) s) 0 3)) = some ([none], some 0xBFC00000) ∧ after (exec (.vwClear 3 0) viewed) (fun s => mfind (s.team 1).views 0) = some none := by decide +kernel

theorem test_tables : reg (exec (.btBind 3 6 7) viewing) 0 3 = some 3 ∧ reg (exec (.btBind 3 6 7) (writeNat (writeNat viewing (.phys 0x30208) 4 1) (.phys 0x30200) 4 3)) 0 3 = some 0 ∧
    after (exec (.btBind 3 6 7) (writeNat (writeNat viewing (.phys 0x30208) 4 1) (.phys 0x30200) 4 3)) (fun s => readNat s (.phys 0x30204) 4) = some 1 ∧ reg (exec (.btRetire 3 7) viewing) 0 3 = some 1 := by decide +kernel

/-! ### System words -/

/-- A service thread with v2 a register number, v4:v5 = 0x30000, v3 a control word; context 0's syscall queue at 0x40000 of order 4. -/
def serving (v2 v3 : Nat) : State :=
  (writeNat (fresh [0, 1, v2, v3, 0x30000, 0, 7, 0, 3, 0x01000000]) (.phys 0x40000) 4 4).setSys 4 0x40000

theorem witness_system_words : aloneB (serving 0x4051 0) (lane 0) (.movsys 10 2) = true ∧ aloneB (serving 0x4051 0) (lane 0) (.movsysW 8 2) = true ∧ aloneB (serving 0 0) (lane 0) (.movtsysSlim 6) = true ∧
    aloneB (serving 0 0) (lane 0) .movtsysRunclr = true ∧ aloneB (serving 0 0) (lane 0) (.syscall 10 4 63) = true ∧ aloneB (serving 0 0) (lane 0) (.waitev 3 4) = true ∧ aloneB (serving 0 0) (lane 0) (.tlbinv 3 4) = true ∧
    aloneB (serving 0 0x1000) (lane 0) (.tlbinv 3 124) = true ∧ aloneB (serving 3 0) (lane 0) (.halt 3 2) = true ∧ aloneB (serving 999 0) (lane 0) (.haltRes 3 2) = true ∧ aloneB (serving 0 0) (lane 0) (.proof 3 8) = true ∧
    (serving 0x4051 0).src (lane 0) 2 = BitVec.ofNat 32 (0x4000 + 16 * 5 + 1) ∧ ((serving 0 0).group (grpOf (lane 0))).queue = [] ∧ (serving 0 0).contributions = [] ∧ (mfind (serving 0 0).teams 1).isSome = true ∧ isBurin (lane 0) = false ∧
    (serving 0 0).binds = [] ∧ (serving 0 0).lost = [] := by decide +kernel

theorem witness_system_waits : (∀ p ∈ (serving 0 0).threads, p.1 ≠ lane 0 → grpOf p.1 = grpOf (lane 0) → p.2.cond.inSyscall = false) ∧ (∀ p ∈ (serving 0 0).threads, p.1 ≠ lane 0 → grpOf p.1 = grpOf (lane 0) → p.2.cond.inWaitev = false) ∧
    syscallHeader (serving 0 0) ((serving 0 0).team 1) = some (0x40000, 4, 0, 0) ∧ poisoned (serving 0 0) (.phys 0x40000) 64 = false ∧
    checkNormal (serving 0 0) 0 0 ((serving 0 0).cx 0 4 + BitVec.ofNat 64 64) true true = some 0x40040 ∧
    syscallHeader (writeNat (serving 0 0) (.phys 0x40004) 4 16) ((serving 0 0).team 1) = some (0x40000, 4, 16, 0) ∧ placeOf (serving 0 0) 0 0 0x30000 = some (.phys 0x30000) ∧
    enabledUnit (serving 0 0) ⟨1, 3⟩ = true ∧ enabledUnit (serving 0 0) ⟨1, 999⟩ = false ∧ enabledUnit (serving 0 0) ⟨5, 512⟩ = true ∧ enabledUnit (serving 0 0) ⟨2, 79⟩ = true ∧ ((serving 0 0).core 3).halted = false := by decide +kernel

/-- The worked service kernel (R435): NEVCTL1 of context 5, and the reads and waits of the other words. -/
theorem test_system_words : after (exec (.movsysW 8 2) (serving 0x4051 0)) (fun s => s.sysReg 0x4051) = some 0x0100000000000003 ∧ reg (exec (.movsys 10 2) (serving 0x504A 0)) 0 10 = some 0xF ∧
    after (exec (.movtsysSlim 6) (serving 0 0)) (fun s => (s.team 1).slim) = some 7 ∧ reg (exec (.halt 3 2) (serving 0 0)) 0 3 = some 1 ∧ reg (exec (.halt 3 2) (serving 999 0)) 0 3 = some 0xFFFFFFFF ∧
    reg (exec (.proof 3 8) (serving 0 0)) 0 3 = some 3 := by decide +kernel

theorem test_waits : after (exec (.syscall 10 4 63) (serving 0 0)) (fun s => ((s.thread (lane 0)).cond, readNat s (.phys 0x40040) 4, readNat s (.phys 0x40050) 8, readNat s (.phys 0x40004) 4)) = some (.blocked (.reply 10 0x40040), 0x3F, 0x30000, 1) ∧
    after (exec (.waitev 3 4) (serving 0 0)) (fun s => (s.thread (lane 0)).cond) = some (.blocked (.event 3 0x30000)) ∧ reg (exec (.waitev 3 4) (writeNat (serving 0 0) (.phys 0x30004) 4 2)) 0 3 = some 2 := by decide +kernel

/-! ### Registers, queues and placement -/

/-- Queue 3 of context 0 enabled for system-core appends, order 4, ring at 0x50000, completion ring at 0x60000 of order 4, head 1 and tail 0. -/
def queueing (head : Nat) : State :=
  ((((device 0x63).setSys 0x1018 0x50000).setSys 0x1019 (BitVec.ofNat 64 (4 + 2 ^ 9 + 2 ^ 13))).setSys 0x101A (BitVec.ofNat 64 head)).setSys 0x101B 0x60000

theorem witness_registers : (0x2004 : DWord).getLsbD 13 = true ∧ (0x4 : DWord).getLsbD 13 = false ∧ qEnabled (queueing 1) 3 = true ∧ qEnabled (device 0x63) 3 = false ∧ contextValid (queueing 1) 0 = true ∧ qCount (queueing 16) 3 = 16 ∧
    devicePlace (queueing 1) 0 (slotAddr (queueing 1) 3 1) = some 0x50080 ∧ (0x30000 : DWord).toNat % 64 = 0 ∧ (0x30000 : DWord).toNat < 2 ^ 57 ∧ ((device 0x63).die 0).dgev = none ∧ devicePlace (device 0x63) 0 0x30000 = some 0x30000 ∧
    devicePlace (device 0x63) 0 0x7000000000 = none ∧ (signalled 4 none).node 0 0x30000 ≠ none ∧ (0x30000 : DWord).toNat % 65536 = 0 ∧ teamIn (vec []) 0 0 0 = some 1 ∧ teamIn (vec []) 1 0 0 = none ∧ (0x1000 : DWord).getLsbD 12 = true ∧
    (∀ c w, 8 * c + w = 0x1019 → c < 64 → w < 8 → False) := by
  and_intros
  all_goals first | decide +kernel | (intro c w h hc hw; omega)

/-- The walks of an append, of a DGEV address without a page, of accesses from outside without one. -/
theorem witness_clear : (∀ x ∈ pieces (0x30000 : DWord).toNat 128, Clear (queueing 1) (qOwner (queueing 1) 3) (BitVec.ofNat 64 x.1)) ∧ Clear (device 0x63) 0 0x7000000000 ∧
    (∀ x ∈ pieces (0x30000 : DWord).toNat 4, Clear (device 0x6B) (connCtx (device 0x6B) 9) (BitVec.ofNat 64 x.1)) := by
  have h : ∀ x ∈ pieces (0x30000 : DWord).toNat 128, clearB (queueing 1) (qOwner (queueing 1) 3) (BitVec.ofNat 64 x.1) = true := by decide +kernel
  have g : ∀ x ∈ pieces (0x30000 : DWord).toNat 4, clearB (device 0x6B) (connCtx (device 0x6B) 9) (BitVec.ofNat 64 x.1) = true := by decide +kernel
  exact ⟨fun x hx => clear_of (h x hx), clear_of (by decide +kernel), fun x hx => clear_of (g x hx)⟩

/-- R201: a launch slot, a queue's record and an access from outside that meet a malformed entry leave a record behind. -/
theorem test_met_by_device : [after (exec (.qappAppend 3 0x40000000) (writeNat (queueing 1) (.phys 0x12008) 8 0x8000000000000063)) (fun s => (s.sysReg 0x6014).toNat),
    after (exec (.systemCoreAccess 0 (.load 0x30000 4)) (device 0x8000000000000063)) (fun s => (s.sysReg 0x6014).toNat), after (exec (.rdmaWrite 9 0x30000 [1]) (device 0x8000000000000063)) (fun s => (s.sysReg 0x6014).toNat),
    after (exec (.systemCoreAccess 0 (.load 0x7000000000 4)) (device 0x63)) (fun s => (s.sysReg 0x6014).toNat)] = [some 1, some 1, some 1, some 0] := by decide +kernel

theorem test_registers : after (exec (.qappAppend 3 0x30000) (queueing 1)) (fun s => (s.replies, qHead s 3)) = some ([.append 3 0], 2) ∧ after (exec (.qappAppend 3 0x30000) (queueing 16)) (fun s => (s.replies, qHead s 3)) = some ([.append 3 1], 16) ∧
    after (exec (.systemRegisterWrite 1 0xFFFF) (device 0x63)) (fun s => s.sysReg 1) = some 0x3FFF ∧ after (exec (.evictreqWrite 0x1000) (vec [])) (fun s => (s.team 1).evictAsked) = some true ∧
    after (exec (.contextValidClear 0) { (vec []) with pins := [(0, 7), (1, 8)] }) (fun s => (s.sysReg 1, s.pins)) = some (0x2000, [(1, 8)]) := by decide +kernel

/-- A thread that is held at a page in die 0, context 0. -/
def heldAt : State := { (vec []) with threads := [(lane 0, { thread1 [] with cond := .blocked (.replay 0x30008 { cause := 0x10, addr := 0x30008, word := 7, flags := 0 }) })] }

theorem witness_replay_answer : (mfind heldAt.threads (lane 0)).map Thread.cond = some (.blocked (.replay 0x30008 { cause := 0x10, addr := 0x30008, word := 7, flags := 0 })) ∧ pageBase 0x30008 = 0x30000 ∧ (heldAt.team (teamOf (lane 0))).die = 0 ∧
    after (exec (.replayAnswer 0 0x30000) heldAt) (fun s => (s.thread (lane 0)).cond) = some .ready := by decide +kernel

/-- A launch record in slot 0 of queue 3 whose header address is 0x30000; a grid of two one-core teams that waits, its area ring at 0x70000. -/
def kern1 : Kernel := { programKernel false with scratch := 4096, stack := 64 }
def grid1 : Grid :=
  { q := 3, seq := 0, ctx := 0, prio := 0, affinity := 0, kern := kern1, teams := 2, w := 1, h := 1, argBase := 0x30000, argStride := 16, adapter := 0, runLimit := 0, slots := List.replicate 8 0, service := false }
def placing : State :=
  let s := { (queueing 1) with teams := [], grids := [(40, grid1)] }
  (writeNat (writeNat (writeNat s (.phys 0x70000) 8 0x1000000004) (.phys 0x70040) 8 0x100000) (.phys 0x50000) 8 0x30000).setSys 6 0x70000

theorem witness_placement : startRects placing 0 40 grid1 ≠ [] ∧ mfind placing.grids 40 = some grid1 ∧ grid1.kern.groups ≤ 32 ∧ nextQueue { placing with grids := [] } 0 = some 3 ∧ nextQueue placing 0 ≠ some 3 ∧
    refusal placing 3 (slotKey placing 3 0) (deviceRead placing 0 0x50000 128) = some 2 ∧
    mfind ({ placing with grids := [(40, { grid1 with target := some { die := 0, x0 := 0, y0 := 0, age := 65536, fixed := false, reserved := [] } })] }).grids 40 =
      some { grid1 with target := some { die := 0, x0 := 0, y0 := 0, age := 65536, fixed := false, reserved := [] } } := by decide +kernel

/-- A run limit met, a completion that waits, a graph queue with a legal event node, a node that is done with and without successors. -/
def limited (count : Nat) : State := (vec []).modTeam 1 (fun t => { t with runLimit := 10, runCount := count })
def completing (w : Nat) : State := { ((queueing 1).setSys 0x101C (BitVec.ofNat 64 (w * 2 ^ 32))) with completions := [{ q := 3, seq := 9, status := 0x10, killed := 2, final := true }] }
def graphing : State :=
  let s := (queueing 1).setSys 0x1019 (BitVec.ofNat 64 (4 + 2 ^ 7 + 2 ^ 9 + 2 ^ 13))
  writeNat (writeNat s (.phys 0x50000) 8 0x30000) (.phys 0x30000) 1 4

theorem witness_graph : (mfind (limited 10).teams 1).map (fun t => (t.life, decide (t.runLimit ≠ 0 ∧ t.runLimit ≤ t.runCount))) = some (.running, true) ∧ (limited 9).team 1 ≠ (limited 10).team 1 ∧
    (completing 0).completions.find? (fun c => decide (c.q = 3)) = some { q := 3, seq := 9, status := 0x10, killed := 2, final := true } ∧ devicePlace (completing 15) 0 ((completing 15).qd 3 3 + BitVec.ofNat 64 (16 * 15)) = some 0x600F0 ∧
    graphReady graphing 0 3 = true ∧ graphing.binds = [] ∧ graphing.lost = [] ∧ nodeLegal (readBytes graphing (.phys 0x30000) 64) = true ∧ (signalled 4 (some 0)).node 0 0x30000 ≠ none ∧ (signalled 4 none).node 0 0x40 = none ∧
    readNat (writeNat (signalled 4 (some 0)) (.phys 0x30018) 2 1) (.phys 0x30018) 2 = 1 := by decide +kernel

theorem test_placement : after (exec (.runLimitKill 1) (limited 10)) (fun s => ((s.team 1).life, (s.team 1).kill.map FaultRec.cause)) = some (.dying, some 0x22) ∧ after (exec (.runLimitKill 1) (limited 9)) (fun s => (s.team 1).life) = some .running ∧
    after (exec (.completionEntryWrite 3) (completing 15)) (fun s => (readNat s (.phys 0x600F0) 8, readNat s (.phys 0x600F8) 8, s.completions)) = some (9, 0x200000010, []) ∧ after (exec (.completionEntryWrite 3) (completing 16)) (fun s => s.completions.length) = some 1 ∧
    after (exec (.graphSlotTake 0 3) graphing) (fun s => (readNat s (.phys 0x3001A) 2, s.nodes.map Node.addr, qTail s 3)) = some (1, [0x30000], 1) ∧
    after (exec (.nodeFinish 0 0x30000) (signalled 4 (some 0))) (fun s => (readNat s (.phys 0x3001A) 2, s.nodes.length, s.completions.map Completion.status)) = some (2, 0, [0]) := by decide +kernel

/-! ### Teams, copies, the world outside, reliability, and a whole step -/

/-- A team all of whose threads have exited; a team that is dying; one blocked in a phase wait whose eviction is asked for; the same one evicted. -/
def ended : State := { (vec []) with threads := [(lane 0, { thread1 [] with cond := .exited })], grids := [(0, { grid1 with next := 2, ended := 1 })] }
def dying : State := { (vec []).modTeam 1 (fun t => { t with life := .dying }) with grids := [(0, grid1)] }
def waiting (life : Life) : State :=
  { (vec []).modTeam 1 (fun t => { t with life := life, evictAsked := true, kern := { programKernel false with scratch := 4096, stack := 64 } }) with
    threads := [(lane 0, { thread1 [] with cond := .blocked (.phase 0 0) })] }

theorem witness_teams_end : mayRetire ended 1 = true ∧ (mfind dying.teams 1).map (fun t => (t.life, t.queue, t.replays)) = some (.dying, [], []) ∧ mayEvict (waiting .running) 1 = true ∧ mayEvict (vec []) 1 = false ∧
    (∀ p ∈ ended.groups, p.1 / 64 = 1 → p.2.queue = []) ∧ ended.contributions = [] ∧ ended.requests = [] ∧ ended.loads = [] ∧ (ended.team 1).joined = false ∧ mfind ended.grids (ended.team 1).grid = some { grid1 with next := 2, ended := 1 } ∧
    mfind dying.grids 0 = some grid1 ∧ (∃ p ∈ (vec []).threads, teamOf p.1 = 1 ∧ (p.2.cond ≠ .exited ∨ p.2.faults ≠ [])) := by decide +kernel

/-- An evicted team whose thread is ready has a place on core 5. -/
def evicted : State := { waiting .evicted with threads := [(lane 0, thread1 [])], grids := [(0, { grid1 with next := 2 })] }

theorem witness_resume : (mfind evicted.teams 1).map (fun t => (t.life, t.joined)) = some (.evicted, false) ∧ resumable evicted 1 = true ∧ placesFit evicted [1] [⟨0, 5, 0⟩] = true := by decide +kernel

theorem test_teams_end : after (exec (.teamRetire 1) ended) (fun s => ((mfind s.teams 1).isNone, s.threads.length, s.completions.map (fun c => (c.q, c.status, c.killed)))) = some (true, 0, [(3, 0, 0)]) ∧
    after (exec (.killComplete 1) dying) (fun s => ((mfind s.teams 1).isNone, s.grids.map (fun g => (g.2.ended, g.2.killed)))) = some (true, [(1, 1)]) ∧ after (exec (.eviction 1) (waiting .running)) (fun s => (s.team 1).life) = some .evicted ∧
    after (exec (.teamResume 1 [⟨0, 5, 0⟩]) evicted) (fun s => ((s.team 1).life, (s.team 1).core)) = some (.running, 5) := by decide +kernel

/-- A thread with one fault after issue, in each condition that its delivery tells apart. -/
def faulty (cond : Cond) (handler : DWord) (cause : Nat) : State :=
  { (vec []).modTeam 1 (fun t => { t with kern := { programKernel false with handler := handler } }) with
    threads := [(lane 0, { thread1 [] with cond := cond, faults := [{ cause := cause, addr := 0, word := 7, flags := 0 }] })] }

theorem witness_faults : ∀ q ∈ [(Cond.ready, (0x20040 : DWord), 0x19), (.ready, 0, 0x19), (.ready, 0x20040, 0x22), (.exited, 0x20040, 0x19), (.blocked (.phase 0 0), 0x20040, 0x19)],
    (mfind (faulty q.1 q.2.1 q.2.2).threads (lane 0)).map Thread.faults = some [{ cause := q.2.2, addr := 0, word := 7, flags := 0 }] ∧ ((faulty q.1 q.2.1 q.2.2).threads.map Prod.fst).Nodup ∧ ((faulty q.1 q.2.1 q.2.2).team 1).life = .running ∧
    (mfind (faulty q.1 q.2.1 q.2.2).teams 1).isSome = true ∧ (faulty q.1 q.2.1 q.2.2).loads = [] ∧ framed (faulty q.1 q.2.1 q.2.2) (lane 0) true = true := by decide +kernel

theorem test_faults : after (exec (.afterIssueFaultDelivery (lane 0)) (faulty .ready 0x20040 0x19)) (fun s => ((s.thread (lane 0)).pc, (s.thread (lane 0)).trapping, (s.team 1).life)) = some (0x20040, some 1, .running) ∧
    after (exec (.afterIssueFaultDelivery (lane 0)) (faulty .ready 0 0x19)) (fun s => ((s.team 1).life, (s.team 1).kill.map FaultRec.cause)) = some (.dying, some 0x19) := by decide +kernel

/-- The end of a syscall and of a wait: with and without the answer. -/
def replying (status : Nat) : State := { (writeNat (writeNat (vec []) (.phys 0x40068) 4 status) (.phys 0x40060) 8 9) with threads := [(lane 0, { thread1 [] with cond := .blocked (.reply 10 0x40040) })] }
def eventing (w : Nat) : State := { (writeNat (vec []) (.phys 0x30004) 4 w) with threads := [(lane 0, { thread1 [] with cond := .blocked (.event 3 0x30000) })] }

theorem witness_waits_end : ((replying 1).thread (lane 0)).cond = .blocked (.reply 10 0x40040) ∧ readNat (replying 1) (.phys (0x40040 + 40)) 4 = 1 ∧ readNat (replying 0) (.phys (0x40040 + 40)) 4 ≠ 1 ∧
    ((eventing 2).thread (lane 0)).cond = .blocked (.event 3 0x30000) ∧ readNat (eventing 2) (.phys 0x30004) 4 ≠ readNat (eventing 2) (.phys 0x30008) 4 ∧ readNat (eventing 0) (.phys 0x30004) 4 = readNat (eventing 0) (.phys 0x30008) 4 ∧
    (∀ p ∈ (eventing 2).threads, p.1 ≠ lane 0 → grpOf p.1 = grpOf (lane 0) → p.2.cond.inWaitev = false) := by decide +kernel

theorem test_waits_end : reg (exec (.syscallAnswered (lane 0)) (replying 1)) 0 10 = some 9 ∧ after (exec (.syscallAnswered (lane 0)) (replying 0)) (fun s => (s.thread (lane 0)).cond) = some (.blocked (.reply 10 0x40040)) ∧
    reg (exec (.waitevWake (lane 0)) (eventing 2)) 0 3 = some 2 := by decide +kernel

/-- A version with a user, without one, and one that nobody lists. -/
def version (users : Nat) : State := { (writeNat (device 0x63) (.phys 0x30204) 4 users) with versions := [(0, 0x30200, 0x30200, 3)] }

theorem witness_versions : (version 0).versions = [(0, 0x30200, 0x30200, 3)] ∧ readNat (version 1) (.phys (0x30200 + 4)) 4 ≠ 0 ∧ readNat (version 0) (.phys (0x30200 + 4)) 4 = 0 ∧ (version 0).requests = [] ∧ (version 0).loads = [] ∧
    (device 0x63).versions = [] ∧ after (exec (.versionFreed 0 0x30200 3) (version 0)) (fun s => (readNat s (.phys 0x3020C) 4, s.versions)) = some (1, []) := by decide +kernel

/-- A linear copy of 64 bytes to offset 0x200, from memory or from the scratchpad, two beats to go, and one that is done or held. -/
def copyOf (src : Space) (done : List Nat) (held : Option DWord) : Request :=
  { id := 6, team := 1, ctx := 0, tid := lane 0, rid := 1, die := 0, core := 0, cls := 1, op := .linear 64 src (.own 0x200), acquire := false, release := false, scope := 0, record := 0x40, multicast := false, mask := 0, failed := 0,
    regs := [], before := 0, ready := true, done := done, total := 2, rows := [], pages := [(3, (0x63, 2 ^ 30))], held := held, node := none, table := none, order := 0 }

def streaming (r : Request) : State := { (device 0x63) with requests := [r] }

theorem witness_streamer_steps : (∀ src ∈ [Space.global 0x30000, .own 0x100], (streaming (copyOf src [] none)).request 6 = some (copyOf src [] none)) ∧ (streaming (copyOf (.own 0) [0, 1] none)).request 6 = some (copyOf (.own 0) [0, 1] none) ∧
    (streaming (copyOf (.own 0) [0] (some 0x30000))).request 6 = some (copyOf (.own 0) [0] (some 0x30000)) ∧ (mfind (device 0x63).teams 1).isSome = true ∧ (device 0x63).binds = [] ∧ 1 < granules 0x200 64 ∧
    mfind (copyOf (.global 0x30000) [] none).pages (0x30000 / 65536) = some (0x63, 2 ^ 30) ∧ (∀ b, b < 2 → b ∈ (copyOf (.own 0) [0, 1] none).done) ∧
    (match checkPage (streaming { (copyOf (.global 0x30000) [] none) with pages := [] }) 0 0 1 0x30000 1 .engineRead true false with | .at _ _ _ => true | _ => false) = true ∧
    (match checkPage { (writeNat (device 0x63) (.phys 0x12000) 8 0x800) with requests := [{ (copyOf (.global 0x30000) [] none) with pages := [] }] } 0 0 1 0x30000 1 .engineRead true false with | .hold _ => true | _ => false) = true := by
  decide +kernel

theorem test_streamer_steps : after (exec (.streamerBeat 6 1) (writeNat (streaming (copyOf (.global 0x30000) [] none)) (.phys 0x30020) 4 77)) (fun s => (readNat s (.scratch 1 0x220) 4, s.requests.map Request.done)) = some (77, [[1]]) ∧
    after (exec (.copyComplete 6) (streaming (copyOf (.own 0) [0, 1] none))) (fun s => s.requests) = some [] := by decide +kernel

/-- Accesses from outside, a page that RDMA may write, a port that is known to be lost. -/
theorem witness_outside : (device 0x63).binds = [] ∧ (device 0x63).lost = [] ∧ devicePlace (device 0x63) 0 (accessAddr (.store 0x30000 [1])) = some 0x30000 ∧ devicePlace (device 0x63) 0 (accessAddr (.load 0x7000000000 4)) = none ∧
    netPieces (device 0x63) (connCtx (device 0x63) 9) true (pieces (0x30000 : DWord).toNat 4) = some [(0x30000, 4)] ∧ netPieces (device 0x6B) (connCtx (device 0x6B) 9) true (pieces (0x30000 : DWord).toNat 4) = none ∧
    ringBase (device 0x63) 0x6012 = none ∧ ((device 0x63).conn 9 0).getLsbD 30 = false ∧ ([] : List Firmware).length < 3 := by decide +kernel

theorem test_outside : after (exec (.hostAccess (.store 0x30000 [5, 6])) (device 0x63)) (fun s => readNat s (.phys 0x30000) 2) = some 0x605 ∧
    after (exec (.peerAccess 2 (.atomic 0x30000 0 5 0)) (writeNat (device 0x63) (.phys 0x30000) 4 7)) (fun s => (readNat s (.phys 0x30000) 4, s.replies)) = some (12, [.data 0x102 (some [7, 0, 0, 0]) false]) ∧
    after (exec (.systemCoreAccess 0 (.load 0x7000000000 4)) (device 0x63)) (fun s => s.replies) = some [.data 0 none false] ∧ after (exec (.rdmaWrite 9 0x30000 [1]) (device 0x6B)) (fun s => s.replies) = some [.nak 9] ∧
    after (exec (.sendEvent 9 [1]) (device 0x63)) (fun s => s.conn 9 6) = some 1 ∧ after (exec (.peerLinkLoss 7) (device 0x63)) (fun s => (s.lost, s.sysReg 0x6014)) = some ([7], 1) := by decide +kernel

/-- A move ring with one record, and a ring without one; a unit with a stale incarnation; an error ring with room, and a full one. -/
def moving : State :=
  let s := ((device 0x63).setSys 0x5005 0x50004).setSys 0x5006 1
  writeNat s (.phys 0x50000) 1 1

theorem witness_reliability : ringBase (device 0x63) 0x5005 = none ∧ (nextMove moving 0x5005 0x5006).map (fun m => (m.1, m.2.kind)) = some (0x50000, 1) ∧ moving.acc = [] ∧ moving.contributions = [] ∧ (∀ p ∈ moving.groups, p.2.queue = []) ∧
    mwf unwritten moving.mem = true ∧ incarnation (device 0x63) ⟨1, 3⟩ = 0 ∧ ringBase ((device 0x63).setSys 0x6012 0x50004) 0x6012 = some (0x50000, 4) ∧ (2 ^ 4 ≤ (16 + 2 ^ 32 - 0) % 2 ^ 32) ∧
    (⟨1, 3⟩ : UnitId) ∈ ({ (device 0x63) with proofs := [⟨1, 3⟩] }).proofs ∧ (∀ p ∈ (vec []).teams, p.2.coreId = 3 → p.2.life = .evicted) ∧ (mfind (vec []).teams 1).isSome = true := by decide +kernel

theorem test_reliability : after (exec (.moveRehome 0) moving) (fun s => (readNat s (.phys 0x50002) 2, s.sysReg 0x5006)) = some (4, 0x100000001) ∧ after (exec (.staleIncarnation ⟨1, 3⟩ 5 0x30000) (device 0x63)) (fun s => s.sysReg 0x6014) = some 1 ∧
    after (exec (.agentDeadScrub ⟨1, 3⟩) (device 0x63)) (fun s => incarnation s ⟨1, 3⟩) = some 1 ∧ after (exec (.proofRunComplete ⟨1, 3⟩ false) { (device 0x63) with proofs := [⟨1, 3⟩] }) (fun s => (enabledUnit s ⟨1, 3⟩, s.proofs)) = some (false, []) ∧
    after (exec (.softError ⟨1, 3⟩ { place := .data 0x30000 true, corrected := false }) (device 0x63)) (fun s => s.poison) = some [0x1800] ∧ after (exec (.repack 0 0x30000) { (device 0x63) with repacks := [(0, 0x30000)] }) (fun s => s.repacks) = some [] := by
  decide +kernel

/-- DecodeAndEncodeAgree: a well-formed instruction with a word, and a word that decodes. -/
theorem witness_encoding : (Instr.add false 0 4 1).wellFormed = true ∧ encode (.add false 0 4 1) = some 0x02001008 ∧ decode 0x82001008 = .ok (.add false 0 4 1) := by decide +kernel

/-- StepRunsDecoded: the set that the placed word's step selects, its chain, and its checks. -/
def stepping : State := State.reset.withFetchWord 32 0x02040808

theorem witness_step : stepping.boot = .running ∧ stepping.agenda = [.issue 0 0 0] ∧ urgent stepping = none ∧ movedSet { stepping with agenda := [] } (.issue 0 0 0) = some [lane 0] ∧ (stepping.thread (lane 0)).dueFault = none ∧
    (match chainAt { stepping with agenda := [] } (lane 0) with
     | .ok c => decide (c.words = [(0x20000, 0x02040808)]) && decide (fetchVerdict (fillTrans { stepping with agenda := [] } 0 0 0x20000) (lane 0) c = .pass)
     | _ => false) = true ∧ decodeWord 0x02040808 = .add false 2 2 1 ∧ State.reset.boot = .rom ∧ (Instr.hbmWindow).wellFormed = true := by decide +kernel

theorem test_step : (match step (stepping.modThread (lane 0) (fun t => { t with regs := [(1, 5), (2, 6)] })) with
    | .next s => decide (mget 0 (s.thread (lane 0)).regs 2 = 11 ∧ (s.thread (lane 0)).pc = 0x20004)
    | _ => false) = true := by decide +kernel

/-- A word that stands dirty in another core's L1, the word that its home holds recorded. -/
def homeStep : State := { (writeNat stepping (.phys 0x20000) 4 0x38500000) with dir := [(0x400, { dirty := true, owner := some 5 })], homeWords := [(0x400, [(0, 0x02040808)])] }

theorem witness_home_step : fetchPage homeStep (lane 0) = .ok 0x20000 ∧ heldWord homeStep (lane 0) 0x400 0 = none ∧ (homeStep.dirOf 0x400).dirty = true ∧
    mfind homeStep.homeWords 0x400 = some [(0, 0x02040808)] ∧ fetchPage stepping (lane 0) = .ok 0x20000 ∧ heldWord stepping (lane 0) 0x400 0 = none ∧ (stepping.dirOf 0x400).dirty = false ∧
    (stepping.dirOf 0x400).privatised = [] := by decide +kernel

/-- R248, R313: without a CWB.d the home's word is fetched. -/
theorem test_home_step : (match chainAt homeStep (lane 0) with
    | .ok c => c.words.head?
    | _ => none) = some (0x20000, 0x02040808) := by decide +kernel

/-- ResetState: a device that has not booted, with a temperature event at the head of its agenda. -/
def cold (i : Instr) : State := { State.reset with boot := .stopped, agenda := [.event i] }

theorem witness_cold : (cold .criticalTemperature).boot = .stopped ∧ (cold .criticalTemperature).agenda = [.event .criticalTemperature] ∧ (cold (.thermalThreshold 1)).agenda = [.event (.thermalThreshold 1)] ∧
    State.reset.agenda.head? ≠ some (.event .criticalTemperature) := by decide +kernel

/-- R444, R447: the management controller still answers: the module powers off, and a threshold raises its interrupt. -/
theorem test_cold : (match step (cold .criticalTemperature) with
    | .next s => decide (s.boot = .off)
    | _ => false) = true ∧ (match step (cold (.thermalThreshold 1)) with
    | .next s => decide (s.irqs = [.thermal 1] ∧ s.boot = .stopped)
    | _ => false) = true := by decide +kernel

/-! ### Witnesses of the clauses that several units share: pins, stale messages, held moves -/

/-- A line at 0x30000 that ACC.ARM has pinned. -/
def pinnedLine (s : State) : State := { s with accPins := [{ team := 1, line := 0x600, pa := 0x30000, record := 0x90000 }] }

/-- The device after core 0 of die 0 has been declared dead once. -/
def reborn (s : State) : State := { s with incarnations := [(65536, 1)] }

/-- AtomicsAreQueued, StoreQueueLeaves: a line without a pin and with one; an entry of the present incarnation and of an earlier one. -/
theorem witness_pins_and_stale : pinOf (memory 0x6B) 1 0x30000 = none ∧ pinOf (pinnedLine (memory 0x6B)) 1 0x30000 = some { team := 1, line := 0x600, pa := 0x30000, record := 0x90000 } ∧
    aloneB (pinnedLine (memory 0x6B)) (lane 0) (.redfAccred 4 8) = true ∧ incarnation (queued .leave) ⟨1, ((queued .leave).team (64 / 64)).coreId⟩ = 0 ∧
    incarnation (reborn (queued .leave)) ⟨1, ((reborn (queued .leave)).team (64 / 64)).coreId⟩ = 1 ∧ ringBase (reborn (queued .leave)) 0x6012 = none ∧
    (∀ e ∈ ((queued (.store [1])).group 64).queue, e.inc = incarnation (queued (.store [1])) ⟨1, ((queued (.store [1])).team (queued (.store [1])).issueTeam).coreId⟩) ∧
    (∀ e ∈ ((queued (.store [1])).group 64).queue, decide (e.op = .store [1]) = true) := by decide +kernel

/-- A stale store changes no memory, and the lost error record is counted (R271). -/
theorem test_stale_store : after (exec (.storeQueueLeave 64) (reborn (queued (.store [0x44])))) (fun s => (readByte s (.phys 0x30000), s.sysReg 0x6014, (s.group 64).queue)) = some (0, 1, []) := by decide +kernel

/-- StreamerCommands: a request that has written a byte and one that has not. -/
def commanding (r : Request) : State := { (copying 0x2711) with requests := [{ r with rid := 0x40 }] }

theorem witness_cancel : [{ (copyOf (.own 0) [] none) with wrote := false }, { (copyOf (.own 0) [0] none) with wrote := true }].all (fun r =>
      aloneB (commanding r) (lane 0) (.cpCancel 3 2) && aloneB (commanding r) (lane 0) (.gaStat 3 2) &&
      decide ((commanding r).requests.find? (fun r => r.node.isNone && decide (r.team = teamOf (lane 0)) && decide (r.rid = (commanding r).src (lane 0) 2)) = some { r with rid := 0x40 }) && decide (r.regs = [])) = true := by
  decide +kernel

theorem test_cancel : after (exec (.cpCancel 3 2) (commanding (copyOf (.own 0) [] none))) (fun s => (mget 0 (s.thread (lane 0)).regs 3, s.requests.length)) = some (0, 0) ∧
    after (exec (.cpCancel 3 2) (commanding { (copyOf (.own 0) [0] none) with wrote := true })) (fun s => (mget 0 (s.thread (lane 0)).regs 3, s.requests.length)) = some (1, 1) := by decide +kernel

/-- MatrixEngineSteps: a drain of one line whose four beats stand in the scratchpad, an arm and a clear with a line to go, a load that has read nothing. -/
def drained : MEntry :=
  { (mentry (.drain [(0x30000, 0x30000, 0x90000)] { slot := 1, space := 1, dest := 0xA00, counter := 0xB00, flags := 0, pages := [] }) true) with
    out := { lines := 1, segs := [(0, List.replicate 32 0, false)], pos := 32, sats := 3, landed := [80] } }

theorem witness_engine_ends : (engine [drained]).entry 8 = some ([], drained) ∧ entryDone (engine [drained]) drained = true ∧ drained.out.lines = 1 ∧ drained.out.events = [] ∧ drained.out.bad = none ∧
    (∀ g ∈ drainGranules { slot := 1, space := 1, dest := 0xA00, counter := 0xB00, flags := 0, pages := [] } drained.out (slotFmt (slotWord (engine [drained]) 1 1)).width, g ∈ drained.out.landed) ∧
    (∀ op ∈ [MOp.load 0x400 1 4 7, .swap, .adapt 0x40000, .arm [(0x30000, 0x30000, 0x90000)] 0xFC0001, .clear [(0x30000, 0x30000, 0x90000)]], entryDone (engine [mentry op true]) (mentry op true) = true) := by
  decide +kernel

theorem test_engine_ends : after (exec (.matrixEntryComplete 8) (engine [drained])) (fun s => (readNat s (.scratch 1 0xB00) 4, (s.team 1).queue)) = some (3, []) ∧
    after (exec (.matrixEntryComplete 8) (engine [mentry (.arm [(0x30000, 0x30000, 0x90000)] 0xFC0001) true])) (fun s => (s.acc.map (fun p => (p.1, p.2.armed, p.2.q)), s.accPins.map AccPin.line)) = some ([(0x600, true, 0xFC)], [0x600]) := by
  decide +kernel

/-- AccumulatorLines: a row for an exact line with its second line, and a contribution of an earlier incarnation. -/
def wholeRow : State :=
  let s := onItsWay { armed := true, q := 0xF0, record := 0x90000 } 0
  { s with contributions := s.contributions.map (fun c => { c with data := List.replicate 32 0x3FC00000, offset := 0, next := some (0x30080, 0x90020) }) }

theorem witness_rows : (∀ c ∈ wholeRow.contributions, c.inc = incarnation wholeRow ⟨1, (wholeRow.team c.team).coreId⟩ ∧ c.next = some (0x30080, 0x90020) ∧ c.second = false ∧ c.pa / 128 = 0x600) ∧
    (mfind wholeRow.acc 0x600).map (fun l => (l.armed, l.float)) = some (true, false) ∧ wholeRow.contributions.length = 1 ∧
    (∀ c ∈ (onItsWay {} 0).contributions, c.inc = incarnation (onItsWay {} 0) ⟨1, ((onItsWay {} 0).team c.team).coreId⟩ ∧ c.second = false) ∧
    (∀ c ∈ (reborn (onItsWay {} 0)).contributions, c.inc ≠ incarnation (reborn (onItsWay {} 0)) ⟨1, ((reborn (onItsWay {} 0)).team c.team).coreId⟩) := by decide +kernel

theorem test_rows : after (exec (.accContribution 5) wholeRow) (fun s => (s.acc.map (fun p => (p.1, p.2.body.length)), s.contributions.map (fun c => (c.pa, c.data.length, c.second)))) = some ([(0x600, 16)], [(0x30080, 16, true)]) := by
  decide +kernel

/-- ViewWords: a load through the view that has its row to read. -/
def viewLoading : State :=
  match exec (.ldg false 3 8 0 4 0) viewed with
  | .next s => s
  | _ => viewed

theorem witness_view_load : viewLoading.loads.length = 1 ∧ viewLoading.loads.all (fun l => decide (l.id = viewed.nextId ∧ l.tid = lane 0) && (match l.parts with
    | some r => decide (r.tokens.map Token.row = [0x30100]) && r.tokens.all (fun x => x.block.isNone) && r.got.isEmpty
    | none => false)) = true ∧
    (viewLoading.thread (lane 0)).cond ≠ .exited ∧ (viewLoading.team 1).oldUnits = [] ∧ (viewLoading.core 0).press = [] ∧ isBurin (lane 0) = false ∧
    (readVirt viewLoading (threadPlaces viewLoading 0 0 1) [] (pieces 0x30100 4)).2 = false := by decide +kernel

/-- The same load while a store of its group to the row still waits in the queue (R229). -/
def viewStored : State := viewLoading.modGroup 64 (fun g => { g with queue := [{ tid := lane 3, word := 7, loc := .phys 0x30100, addr := 0x30100, rt := 0, flags := 0, op := .store [0, 0, 0xC0, 0x3F] }] })

theorem witness_view_store : viewStored.binds = [] ∧ viewStored.lost = [] ∧ incarnation viewStored ⟨1, (viewStored.team 1).coreId⟩ = 0 ∧
    (viewStored.group 64).queue.map QEntry.op = [.store [0, 0, 0xC0, 0x3F]] ∧ (viewStored.group 64).queue.map QEntry.loc = [.phys 0x30100] ∧ (viewStored.group 64).queue.map QEntry.inc = [0] ∧
    (viewStored.core 0).press = [] ∧ (readVirt viewStored (threadPlaces viewStored 0 0 1) [] (pieces 0x30100 4)).2 = false := by decide +kernel

theorem test_view_store : (after (exec (.loadDataReturn viewed.nextId) viewStored) (fun s => (mget 0 (s.thread (lane 0)).regs 3, (s.group 64).queue.length))) =
    (after (exec (.loadDataReturn viewed.nextId) (writeNat viewLoading (.phys 0x30100) 4 0x3FC00000)) (fun s => (mget 0 (s.thread (lane 0)).regs 3, 1))) ∧
    (after (exec (.loadDataReturn viewed.nextId) viewStored) (fun s => (mget 0 (s.thread (lane 0)).regs 3))) ≠ (after (exec (.loadDataReturn viewed.nextId) viewLoading) (fun s => (mget 0 (s.thread (lane 0)).regs 3))) := by
  decide +kernel

/-- SystemWords: no store waits anywhere, a thread that waits for nothing else, and a halted core without teams for a proof run. -/
def testing : State := { (serving 0 0) with cores := [(3, { halted := true })], threads := (serving 0 0).threads.map (fun p => (p.1, { p.2 with regs := mset 0 (mset 0 p.2.regs 8 3) 9 1 })) }

theorem witness_system_more : (∀ p ∈ (serving 0 0).groups, p.2.queue = []) ∧ ((serving 0 0).thread (lane 0)).beneath = none ∧ ((serving 0 0).thread (lane 0)).cond = .ready ∧ (testing.core 3).halted = true ∧
    (∀ p ∈ testing.teams, p.2.coreId = 3 → p.2.life = .evicted) ∧ enabledUnit testing ⟨1, 3⟩ = true ∧ (serving 0 0).issue.kept = [] ∧ 0x40040 + 64 ≤ 0x40040 + 64 := by decide +kernel

/-- RegisterEvents: an event node that runs, one that has not started, one that has ended; a held thread with a phase wait beneath. -/
def beneathHeld : State := { heldAt with threads := heldAt.threads.map (fun p => (p.1, { p.2 with beneath := some (2, 4) })) }

theorem witness_dgev : (signalled 4 none).node 0 0x30000 = some { ctx := 0, die := 0, addr := 0x30000, q := 3, seq := 9, root := true, slot := none, done := none, list := 0, succs := 0 } ∧ ((signalled 4 none).die 0).dgev = none ∧
    readNat (signalled 4 none) (.phys 0x3001A) 2 = 1 ∧ devicePlace (signalled 4 none) 0 0x3001A = some 0x3001A ∧ readNat (writeNat (signalled 4 none) (.phys 0x3001A) 2 0) (.phys 0x3001A) 2 = 0 ∧
    readNat (writeNat (signalled 4 none) (.phys 0x3001A) 2 2) (.phys 0x3001A) 2 = 2 ∧ (signalled 4 (some 0)).node 0 0x30000 ≠ none ∧
    (mfind beneathHeld.threads (lane 0)).map (fun t => (decide (t.cond = .ready), t.beneath)) = some (false, some (2, 4)) := by decide +kernel

theorem test_dgev : after (exec (.dgevRequest 0 0x30000) (signalled 4 none)) (fun s => ((s.die 0).dgevResult, readNat s (.phys 0x3001A) 2, s.nodes.length)) = some (0, 2, 0) ∧
    after (exec (.dgevRequest 0 0x30000) (writeNat (signalled 4 none) (.phys 0x3001A) 2 0)) (fun s => (s.die 0).dgevResult) = some 2 ∧
    after (exec (.replayAnswer 0 0x30000) beneathHeld) (fun s => ((s.thread (lane 0)).cond, (s.thread (lane 0)).beneath)) = some (.blocked (.phase 2 4), none) := by decide +kernel

/-- PlacementSteps: a root slot that names an address without a page, a node with one successor whose count is 3 or 0. -/
def lostRoot : State := writeNat graphing (.phys 0x50000) 8 0x7000000000
def chained (count : Nat) : State :=
  let s := signalled 4 (some 0)
  let s1 := writeNat (writeNat s (.phys 0x31000) 8 0x32000) (.phys 0x32004) 4 count
  { s1 with nodes := s1.nodes.map (fun n => { n with list := 0x31000, succs := 1 }) }

theorem witness_successors : graphReady lostRoot 0 3 = true ∧ devicePlace lostRoot 0 0x7000000000 = none ∧ fld (deviceRead lostRoot (qOwner lostRoot 3) (slotAddr lostRoot 3 0) 64) 0 8 = 0x7000000000 ∧
    devicePlace graphing 0 (0x30000 + 26) = some 0x3001A ∧ ([3, 0].all (fun k =>
      let s1 := setStatus 0 (walkerRelease (chained k)) 0 0x30000 2
      decide (deviceNat (chained k) 0 0x31000 8 = 0x32000) && decide (devicePlace s1 0 0x32000 = some 0x32000) && decide (devicePlace s1 0 (0x32000 + 4) = some 0x32004) &&
        decide (readNat s1 (.phys 0x32004) 4 = k) && decide (devicePlace s1 0 (0x32000 + 26) = some 0x3201A) && decide ((chained k).binds = [] ∧ (chained k).lost = []))) = true := by decide +kernel

/-- The walks that a graph slot and the list of a node's successors take meet good entries. -/
theorem witness_successors_clear : Clear lostRoot 0 (slotAddr lostRoot 3 0) ∧ Clear graphing 0 (slotAddr graphing 3 0) ∧ ∀ k ∈ [3, 1, 0],
    ∀ p ∈ pieces (0x31000 : DWord).toNat 8, Clear (setStatus 0 (walkerRelease (chained k)) 0 0x30000 2) 0 (BitVec.ofNat 64 p.1) := by
  have h : ∀ k ∈ [3, 1, 0], ∀ p ∈ pieces (0x31000 : DWord).toNat 8, clearB (setStatus 0 (walkerRelease (chained k)) 0 0x30000 2) 0 (BitVec.ofNat 64 p.1) = true := by decide +kernel
  exact ⟨clear_of (by decide +kernel), clear_of (by decide +kernel), fun k hk p hp => clear_of (h k hk p hp)⟩

theorem test_successors : after (exec (.graphSlotTake 0 3) lostRoot) (fun s => (s.nodes.length, s.completions.map Completion.status)) = some (0, [0x10]) ∧
    after (exec (.nodeFinish 0 0x30000) (chained 3)) (fun s => (readNat s (.phys 0x32004) 4, s.nodes.length)) = some (2, 0) ∧
    after (exec (.nodeFinish 0 0x30000) (chained 0)) (fun s => (readNat s (.phys 0x3201A) 2, s.completions.map Completion.status)) = some (0x1FE, [0, 0x10]) := by decide +kernel

/-- TeamsEndAndWait: a thread whose chain waits for the streamer, a parked one with a phase wait beneath, a version in use by a kept walk, waits with a phase wait beneath and without a page; EventsAreCounted: a window
of three units. -/
def holding : State := { (faulty .ready 0x20040 0x19) with threads := (faulty .ready 0x20040 0x19).threads.map (fun p => (p.1, { p.2 with roomHeld := true })) }
def parkedOver : State := { (faulty (.parked 2) 0x20040 0x19) with threads := (faulty (.parked 2) 0x20040 0x19).threads.map (fun p => (p.1, { p.2 with beneath := some (2, 4) })) }
def keptWalk : State := (version 0).modTeam 1 (fun t => { t with savedReqs := [{ (copyOf (.own 0) [] none) with table := some (0x30200, 3) }] })
def beneathOf (s : State) : State := { s with threads := s.threads.map (fun p => (p.1, { p.2 with beneath := some (2, 4) })) }
def windowed (units : Nat) : State := ((vec []).setSys 0x4000 0x3FFFFFFFF).modTeam 1 (fun t => { t with windows := [(0, (2, units))] })

theorem witness_waits_more : (holding.thread (lane 0)).roomHeld = true ∧ (parkedOver.thread (lane 0)).beneath = some (2, 4) ∧ (∃ p ∈ keptWalk.teams, ∃ r ∈ p.2.savedReqs, r.table = some (0x30200, 3)) ∧
    placeOf (replying 1) ((replying 1).coreOf (lane 0)) ((replying 1).ctxOf (lane 0)) 0x40040 = some (.phys 0x40040) ∧ placeOf (eventing 2) ((eventing 2).coreOf (lane 0)) ((eventing 2).ctxOf (lane 0)) 0x30000 = some (.phys 0x30000) ∧
    placeOf (replying 1) 0 0 0x7000000000 = none ∧ ((beneathOf (replying 1)).thread (lane 0)).beneath = some (2, 4) ∧ ((beneathOf (eventing 2)).thread (lane 0)).beneath = some (2, 4) ∧ (windowed 2).binds = [] ∧ (mfind (windowed 2).teams 1).isSome = true ∧
    0 ∈ ((countUnits (windowed 2) 1 false 1).team 1).winFull ∧ 0 ∉ ((countUnits (windowed 1) 1 false 1).team 1).winFull := by decide +kernel

theorem test_waits_more : after (exec (.afterIssueFaultDelivery (lane 0)) holding) (fun s => (s.thread (lane 0)).faults.length) = some 1 ∧ after (exec (.afterIssueFaultDelivery (lane 0)) parkedOver) (fun s => (s.thread (lane 0)).faults.length) = some 1 ∧
    after (exec (.versionFreed 0 0x30200 3) keptWalk) (fun s => s.versions.length) = some 1 ∧ after (exec (.syscallAnswered (lane 0)) (beneathOf (replying 1))) (fun s => ((s.thread (lane 0)).cond, mget 0 (s.thread (lane 0)).regs 10)) = some (.blocked (.phase 2 4), 9) ∧
    after (exec (.numericWindowClose 1 .vector 0) (countUnits (windowed 2) 1 false 1)) (fun s => (mget (0, 0) (s.team 1).windows 0, (s.team 1).winFull)) = some ((0, 0), []) := by decide +kernel

/-- StreamerSteps: the sender's incarnation, a readable leaf, a request sent under an earlier one. -/
theorem witness_streamer_more : (copyOf (.own 0) [] none).inc = incarnation (streaming (copyOf (.own 0) [] none)) (copyOf (.own 0) [] none).unit ∧ leafRead 0x63 = true ∧
    (copyOf (.own 0) [] none).inc ≠ incarnation (reborn (streaming (copyOf (.own 0) [] none))) (copyOf (.own 0) [] none).unit ∧ ringBase (reborn (streaming (copyOf (.own 0) [] none))) 0x6012 = none := by decide +kernel

theorem test_stale_beat : after (exec (.streamerBeat 6 0) (reborn (streaming (copyOf (.own 0x100) [] none)))) (fun s => (s.requests.map (fun r => (r.done, r.wrote)), s.sysReg 0x6014)) = some ([([0], false)], 1) := by decide +kernel

/-- ReliabilityEvents: a record that moves a 2 MiB page to the pool; with a pin, an armed line and a pending re-pack; units that are enabled and not. -/
def poolMove : State :=
  let s := ((device 0x63).setSys 0x6010 0x50004).setSys 0x6011 1
  let s1 := writeNat (writeNat s (.phys 0x12008) 8 0x13001) (.phys 0x13000) 8 0x200063
  writeNat (writeNat (writeNat s1 (.phys 0x50000) 1 2) (.phys 0x50008) 8 0x40000000) (.phys 0x50010) 8 0x13000
def poolRecord (base : Nat) : MoveRec := { kind := 2, ctx := 0, va := 0x40000000, leafAt := 0x13000, base := base, zeros := true }
def poolMoveTo (base : Nat) : State := writeBytes poolMove (.phys 0x50018) (leBytes 8 base)

theorem pool_only (base : Nat) : OnlyBytes poolMove (poolMoveTo base) := writeBytes_only _ _ _
theorem pool_plain : poolMove.Plain := ⟨by decide +kernel, by decide +kernel⟩

/-- Page-table entries below the record are as they were. -/
theorem pool_entry (base a : Nat) (h : a + 8 ≤ 0x50018) : entryAt (poolMoveTo base) a = dw (readNat poolMove (.phys a) 8) := by
  have hp : (poolMoveTo base).probe = .off := (pool_only base).probe.trans (by decide +kernel)
  unfold entryAt
  rw [hp]
  exact congrArg dw (readNat_writeBytes_other pool_plain _ _ _ _ (Or.inl h))
theorem pool_walk (base : Nat) : walkFrom (poolMoveTo base) 0x40000000 0x10000 4 = .leaf 0x200063 (2 ^ 21) ∧ lastEntry (poolMoveTo base) 0x40000000 0x10000 4 = 0x13000 := by
  have w (t : Nat) (n m : Nat) (e : DWord) (h : entryAt (poolMoveTo base) (t + 8 * levelIndex (n + 1) 0x40000000) = e) (hv : e.getLsbD 0 = true) (hl : e.getLsbD 1 = false)
      (hb : badNode e (n + 1) = false) (hm : bits e.toNat 56 8 * 256 = m) :
      walkFrom (poolMoveTo base) 0x40000000 t (n + 1) = walkFrom (poolMoveTo base) 0x40000000 m n ∧ lastEntry (poolMoveTo base) 0x40000000 t (n + 1) = lastEntry (poolMoveTo base) 0x40000000 m n := by
    subst hm
    constructor
    · rw [walkFrom]
      simp only [h, hv, hl, hb, Bool.not_true, Bool.false_eq_true, if_false]
    · rw [lastEntry, nextTable]
      simp only [h, hv, hl, hb, Bool.not_false, Bool.and_true, if_true]
  obtain ⟨a4, b4⟩ := w 0x10000 3 0x11000 0x11001 ((pool_entry base _ (by decide +kernel)).trans (by decide +kernel)) (by decide +kernel) (by decide +kernel) (by decide +kernel) (by decide +kernel)
  obtain ⟨a3, b3⟩ := w 0x11000 2 0x12000 0x12001 ((pool_entry base _ (by decide +kernel)).trans (by decide +kernel)) (by decide +kernel) (by decide +kernel) (by decide +kernel) (by decide +kernel)
  obtain ⟨a2, b2⟩ := w 0x12000 1 0x13000 0x13001 ((pool_entry base _ (by decide +kernel)).trans (by decide +kernel)) (by decide +kernel) (by decide +kernel) (by decide +kernel) (by decide +kernel)
  have q1 : entryAt (poolMoveTo base) (0x13000 + 8 * levelIndex 1 0x40000000) = 0x200063 := (pool_entry base _ (by decide +kernel)).trans (by decide +kernel)
  have g0 : (0x200063 : DWord).getLsbD 0 = true := by decide
  have g1 : (0x200063 : DWord).getLsbD 1 = true := by decide
  have gb : badLeaf 0x200063 1 = false := by decide +kernel
  rw [a4, a3, a2, b4, b3, b2]
  refine ⟨?_, ?_⟩
  · rw [walkFrom]
    simp only [Nat.zero_add, q1, g0, g1, gb, Bool.not_true, Bool.false_eq_true, if_false, if_true]
    rfl
  · rw [lastEntry, nextTable]
    simp only [Nat.zero_add, q1, g0, g1, Bool.not_true, Bool.false_and, Bool.and_false, Bool.false_eq_true, if_false]
    decide +kernel

/-- The 8 bytes a write puts after 24 others follow them. -/
theorem bytes_tail {p : State} (hp : p.Plain) (a b base : Nat) (hb : b = a + 24) : readBytes (writeBytes p (.phys b) (leBytes 8 base)) (.phys a) 32 =
    readBytes p (.phys a) 24 ++ leBytes 8 base := by
  subst hb
  generalize hx : leBytes 8 base = x
  have hl : x.length = 8 := by rw [← hx, leBytes_length]
  refine readBytes_eq_of _ _ _ (by rw [List.length_append, readBytes_length, hl]) (fun j hj => ?_)
  rw [readByte_writeBytes hp, hl]
  by_cases h : j < 24
  · rw [if_neg (by omega), List.getD_append _ _ _ _ (by rw [readBytes_length]; exact h), readBytes_getD _ _ _ _ h, Loc.plus]
  · rw [if_pos (by omega), List.getD_append_right _ _ _ _ (by rw [readBytes_length]; omega), readBytes_length]
    congr 1
    omega

/-- A write of bytes leaves what the tests of a move ask for. -/
theorem only_parts {s t : State} (hs : OnlyBytes s t) : t.acc = s.acc ∧ t.contributions = s.contributions ∧ t.groups = s.groups ∧
    t.binds = s.binds ∧ t.lost = s.lost := by
  rw [hs]
  exact ⟨rfl, rfl, rfl, rfl, rfl⟩

theorem pool_bytes (base : Nat) : readBytes (poolMoveTo base) (.phys 0x50000) 32 =
    [2, 0, 0, 0, 0, 0, 0, 0, 0, 0, 0, 0x40, 0, 0, 0, 0, 0, 0x30, 1, 0, 0, 0, 0, 0] ++ leBytes 8 base := by
  have h24 : readBytes poolMove (.phys 0x50000) 24 = [2, 0, 0, 0, 0, 0, 0, 0, 0, 0, 0, 0x40, 0, 0, 0, 0, 0, 0x30, 1, 0, 0, 0, 0, 0] := by decide +kernel
  rw [poolMoveTo, bytes_tail pool_plain 0x50000 0x50018 base (by decide), h24]

/-- A field within the first part of two joined lists is the first part's. -/
theorem fld_append (l x : List Byte) (o n : Nat) (h : o + n ≤ l.length) : fld (l ++ x) o n = fld l o n := by
  unfold fld
  rw [List.drop_append_of_le_length (by omega), List.take_append_of_le_length (by rw [List.length_drop]; omega)]

/-- A field that is the second part of two joined lists. -/
theorem fld_tail (l x : List Byte) : fld (l ++ x) l.length x.length = leNat x := by
  unfold fld
  rw [List.drop_left, List.take_length]

theorem move_read (l : List Byte) (base : Nat) (hb : base < 2 ^ 56) (hl : l.length = 24) (h : readMove (l ++ [0, 0, 0, 0, 0, 0, 0, 0]) = poolRecord 0) :
    readMove (l ++ leBytes 8 base) = poolRecord base := by
  have hq : leNat (leBytes 8 base) = base := by
    rw [leNat_leBytes]
    omega
  have ht := fld_tail l (leBytes 8 base)
  rw [hl, leBytes_length, hq] at ht
  have f (o n : Nat) (h : o + n ≤ 24) : fld (l ++ leBytes 8 base) o n = fld (l ++ [0, 0, 0, 0, 0, 0, 0, 0]) o n := by
    rw [fld_append _ _ _ _ (by omega), fld_append _ _ _ _ (by omega)]
  have z : zeroAt (l ++ leBytes 8 base) 4 4 = zeroAt (l ++ [0, 0, 0, 0, 0, 0, 0, 0]) 4 4 := by
    unfold zeroAt
    rw [List.drop_append_of_le_length (by omega), List.drop_append_of_le_length (by omega), List.take_append_of_le_length (by rw [List.length_drop]; omega),
      List.take_append_of_le_length (by rw [List.length_drop]; omega)]
  unfold readMove poolRecord at *
  simp only [MoveRec.mk.injEq] at h
  rw [f 0 1 (by omega), f 1 1 (by omega), f 8 8 (by omega), f 16 8 (by omega), ht, z, h.1, h.2.1, h.2.2.1, h.2.2.2.1, h.2.2.2.2.2]

theorem pool_ring (base : Nat) : ringBase (poolMoveTo base) 0x6010 = some (0x50000, 4) := by
  unfold ringBase
  rw [(pool_only base).sysReg]
  decide +kernel

theorem pool_next (base : Nat) (hb : base < 2 ^ 56) : nextMove (poolMoveTo base) 0x6010 0x6011 = some (0x50000, poolRecord base) := by
  have e2 : (poolMove.sysReg 0x6011).toNat = 1 := by decide +kernel
  have hm := (congrArg readMove (pool_bytes base)).trans (move_read _ base hb rfl (by decide +kernel))
  unfold nextMove
  rw [pool_ring]
  simp only [(pool_only base).sysReg, e2]
  rw [if_neg (by decide)]
  exact congrArg (fun r => some (0x50000, r)) hm

/-- No walk is pending, so a unit's starts at the root. -/
theorem pool_unit (base : Nat) : unitWalk (poolMoveTo base) 0 0x40000000 = .leaf 0x200063 (2 ^ 21) ∧ unitLast (poolMoveTo base) 0 0x40000000 = 0x13000 := by
  have hr : rootTable (poolMoveTo base) 0 = 0x10000 := by
    unfold rootTable State.cx
    rw [(pool_only base).sysReg]
    decide +kernel
  have he : eitherWalk (poolMoveTo base) 0 0x40000000 = none := ((pool_only base).eitherWalk _ _).trans (by decide +kernel)
  have hp : (poolMoveTo base).probe = .off := (pool_only base).probe.trans (by decide +kernel)
  unfold unitWalk unitLast rootWalk
  rw [he, hp, hr]
  exact pool_walk base

theorem pool_leaf (base : Nat) (hb : base < 2 ^ 56) (hs : base % 2 ^ 21 = 0) (hf : (List.range 16384).all (fun j => farLine (base / 128 + j) == true) = true) :
    moveLeaf (poolMoveTo base) (poolRecord base) [2] = some (0x200063, 2 ^ 21) := by
  have hw := pool_unit base
  unfold moveLeaf
  rw [if_neg (by simp only [poolRecord]; decide)]
  simp only [poolRecord, hw.1, hw.2]
  rw [if_pos ⟨by decide, by decide, hs, hb, trivial, hf⟩]

/-- A place in the pool, whichever it is: R262's record is valid there. -/
theorem witness_moves : ∃ base, nextMove (poolMoveTo base) 0x6010 0x6011 = some (0x50000, poolRecord base) ∧ moveLeaf (poolMoveTo base) (poolRecord base) [2] = some (0x200063, 2 ^ 21) ∧ (poolMoveTo base).Plain ∧
    (poolMoveTo base).binds = [] ∧ (poolMoveTo base).lost = [] ∧ (poolMoveTo base).acc = [] ∧ (poolMoveTo base).contributions = [] ∧ (∀ p ∈ (poolMoveTo base).groups, p.2.queue = []) ∧ (poolMoveTo base).MemInv := by
  obtain ⟨i, hi⟩ : ∃ i : Fin (2 ^ 35), i.val = 294912 := ⟨⟨294912, by decide⟩, rfl⟩
  generalize hk : (Config.pageSpot.symm i).val = k
  have hk2 : k < 2 ^ 35 := hk ▸ (Config.pageSpot.symm i).isLt
  have hs := pool_only (k * 2 ^ 21)
  refine ⟨k * 2 ^ 21, pool_next _ (by omega), pool_leaf _ (by omega) (by omega) ?_, pool_plain.only hs, ?_, ?_, ?_, ?_, ?_, writeBytes_inv (by unfold State.MemInv; decide +kernel) _ _⟩
  · rw [List.all_eq_true]
    intro j hj
    have hj := List.mem_range.1 hj
    rw [farLine_run (i := i) (by omega), hi]
    decide
  · exact (only_parts hs).2.2.2.1.trans (by decide +kernel)
  · exact (only_parts hs).2.2.2.2.trans (by decide +kernel)
  · exact (only_parts hs).1.trans (by decide +kernel)
  · exact (only_parts hs).2.1.trans (by decide +kernel)
  · rw [(only_parts hs).2.2.1]
    decide +kernel

theorem test_moves : (moveFound { poolMove with pins := [(0, 0x4000)] } (poolRecord 0x200000) 0x200063 (2 ^ 21)).2 = 2 ∧
    (moveFound { poolMove with accPins := [{ team := 1, line := 0x800000, pa := 0x200000, record := 0x90000 }] } (poolRecord 0x200000) 0x200063 (2 ^ 21)).2 = 3 ∧
    (moveFound { poolMove with repacks := [(0, 0x40000000)] } (poolRecord 0x200000) 0x200063 (2 ^ 21)).2 = 5 ∧ after (exec .moveToPool (writeNat poolMove (.phys 0x50010) 8 0x13008)) (fun s => readNat s (.phys 0x50002) 2) = some 4 ∧
    after (exec (.softError ⟨1, 200⟩ { place := .data 0x30000 true, corrected := false }) (device 0x63)) (fun s => s.poison) = some [] := by
  decide +kernel

/-- StepRunsDecoded: an issue of a core under test, an event, and a team at its run limit. -/
def underTest : State := { stepping with proofs := [⟨1, 0⟩] }
def atLimit : State := stepping.modTeam 1 (fun t => { t with runLimit := 10, runCount := 10 })

theorem witness_moves_held : moveWaits { stepping with agenda := [] } (.issue 0 0 0) = false ∧ ((stepping.thread (lane 0)).faultComes) = false ∧ moveWaits { underTest with agenda := [] } (.issue 0 0 0) = true ∧ underTest.boot = .running ∧ underTest.agenda = [.issue 0 0 0] ∧ urgent underTest = none ∧
    moveWaits { stepping with agenda := [] } (.event .hbmWindow) = false ∧ urgent atLimit = some (.runLimitKill 1) ∧ atLimit.boot = .running := by decide +kernel

theorem test_moves_held : (match step underTest with
    | .next s => decide ((s.thread (lane 0)).pc = (underTest.thread (lane 0)).pc ∧ s.agenda = [])
    | _ => false) = true ∧ (match step atLimit with
    | .next s => decide ((s.team 1).life = .dying)
    | _ => false) = true := by decide +kernel

/-- StepKeepsMemoryForm and EveryStepGoesOn: states that meet the premises, and the one that does not go on. -/
theorem witness_invariants : stepping.MemInv ∧ stepping.boot ≠ .off ∧ (match step { State.reset with boot := .off } with | .fault .unpowered => true | _ => false) = true := by
  refine ⟨?_, by decide +kernel, by decide +kernel⟩
  have h : Memory.wf stepping.mem = true := by decide +kernel
  exact h

/-! ### Witnesses of clauses that the reviews have added: exact arithmetic with infinities, arrivals of groups, reductions, destinations, nodes, chains -/

/-- FloatArithmeticIsExact, ConversionResults: infinite and finite operands without NaN, the other halves zero, products of each kind in a pass sum. -/
theorem witness_infinities : [(0x7F800000 : Word), 0xFF800000].all (fun x => (inF32 x).isInf && decide (inF32 x ≠ .nan)) = true ∧ inF32 0 ≠ .nan ∧ inBf (lowHalf 0xFF80) = .inf true ∧ highHalf 0xFF80 = 0 ∧ inBf (highHalf 0x7F800000) = .inf false ∧
    lowHalf 0x7F800000 = 0 ∧ inBf (lowHalf 0x7FC0) = .nan ∧ slotFmt 0x13 = .t8 1 ∧ slotFmt 0x14 = .t6 1 ∧ slotFmt 6 = .n8 ∧ slotFmt 0x40002 = .f16 ∧ slotSat 0x40002 = true ∧ slotSat 2 = false ∧
    (Val.isInf (.inf true) = true ∧ (.fin false 3 0 : Val) ≠ .nan ∧ Val.isInf (.fin false 3 0) = false) := by decide +kernel

/-- R167, R168: infinity and a number, opposed infinities, 0 × infinity; a sum of products whose small one lies below the cut (2^61 and 1.5 give 2^61), an infinite product, an invalid one. -/
theorem test_infinities : faddOp 0x7F800000 0x3F800000 = (0x7F800000, []) ∧ fsubOp 0x3F800000 0x7F800000 = (0xFF800000, []) ∧ faddOp 0xFF800000 0x7F800000 = (0x7FC00000, [1]) ∧ fmulOp 0 0xFF800000 = (0x7FC00000, [1]) ∧
    ffmaOp 0xFF800000 0x7F800000 0x3F800000 = (0x7FC00000, [1]) ∧ ffmsOp 0xFF800000 0x7F800000 0x3F800000 = (0xFF800000, []) ∧ hdot2Op 0x7F800000 0xFF800000 0x3F800000 = (0x7FC00000, [1]) ∧ hmul2Op 0x7F80 0 = (0x7FC0, [1]) ∧
    passSum .f32 [(.fin false 1 61, .fin false 1 0), (.fin false 3 (-1), .fin true 1 0)] = (0x5E000000, []) ∧ passSum .f32 [(.inf true, .fin true 1 0), (.fin false 1 0, .fin false 1 0)] = (0x7F800000, []) ∧
    passSum .f32 [(.inf true, .fin false 0 0)] = (0x7FC00000, [1]) ∧ passSum .f32 [(.fin true 0 0, .fin false 5 0)] = (0, []) := by decide +kernel

theorem test_infinite_conversions : cvtF2iOp .rne 0xFF800000 = (0x80000000, [0]) ∧ cvtF2nOp .rne 0x7F800000 = (0xFFFFFFFF, [0]) ∧ cvtFrndOp .rne 0xFF800000 = (0xFF800000, []) ∧ cvtF2hOp .rne 0xFF800000 = (0xFC00, []) ∧
    cvtEncOp 0x13 .rne 0xFF800000 = (0x81, [0]) ∧ cvtEncOp 0x14 .rne 0x7F800000 = (0x1F, [0]) ∧ cvtEncOp 6 .rne 0xFF800000 = (0, [0]) ∧ cvtEncOp 0x40002 .rne 0xFF800000 = (0xFBFF, [0]) ∧ cvtEncOp 2 .rne 0x7F800000 = (0x7C00, []) := by
  decide +kernel

/-- ArrivalsComplete: an arrival of lane 0 at the head of the group's queue: the only thread, one of two, one already counted, one of an older phase. -/
def landing (s : State) (b : Barrier) : State :=
  (s.modTeam 1 (fun t => { t with bars := [(2, b)] })).modGroup 64 (fun g => { g with queue := [{ tid := lane 0, word := 7, loc := .phys 0, addr := 0, rt := 0, flags := 0, op := .arrive 2 0 false }] })
def gathered (phase : Word) (quota : Nat) (counted : List Nat) : Barrier := { init := true, phase := phase, quota := quota, lanes := [(0, 1)], counted := counted }

theorem witness_group_arrivals : isBurin (lane 0) = false ∧ grpOf (lane 0) = 64 ∧ groupIx 64 = 0 ∧ [gathered 0 1 [], gathered 0 2 [], gathered 0 2 [0], gathered 1 2 []].all (fun b =>
      decide (((landing (vec []) b).bar 1 2) = b) && b.init && decide ((landing (vec []) b).contributions = []) && (mfind (landing (vec []) b).teams 1).isSome) = true ∧
    (∀ p ∈ (landing (vec []) (gathered 0 1 [])).threads, (1 : Word).getLsbD (laneOf p.1) = true) ∧ (∃ p ∈ (landing (pair [] []) (gathered 0 1 [])).threads, (1 : Word).getLsbD (laneOf p.1) = false) := by decide +kernel

theorem test_group_arrivals : after (exec (.arrivalCounted 64) (landing (vec []) (gathered 0 1 []))) (fun s => ((s.bar 1 2).phase, (s.bar 1 2).arrived, (s.bar 1 2).landed)) = some (1, 0, []) ∧
    after (exec (.arrivalCounted 64) (landing (vec []) (gathered 0 2 []))) (fun s => ((s.bar 1 2).phase, (s.bar 1 2).arrived, (s.bar 1 2).counted)) = some (0, 1, [0]) ∧
    after (exec (.arrivalCounted 64) (landing (pair [] []) (gathered 0 1 []))) (fun s => ((s.bar 1 2).phase, (s.bar 1 2).arrived, (s.bar 1 2).landed)) = some (0, 0, [(0, 1)]) := by decide +kernel

/-- StoreQueueLeaves: the last reduction of a word, whose sum of opposed infinities raises a NaN event; threshold 0 with the trap, and a threshold that holds. -/
def reducing (threshold : Nat) : State :=
  (writeNat (queued (.redf 0 [(lane 0, 0x7F800000)] true)) (.phys 0x30000) 4 0xFF800000).setSys 0x4001 (BitVec.ofNat 64 (threshold + 2 ^ 56))

theorem witness_reductions : ((reducing 0).group 64).queue.map QEntry.op = [.redf 0 [(lane 0, 0x7F800000)] true] ∧ ((reducing 0).group 64).events = [] ∧ ringBase (reducing 0) 0x6012 = none ∧ (mfind (reducing 0).teams 1).isSome = true ∧
    (mfind (reducing 0).threads (lane 0)).isSome = true ∧ (reducing 0).binds = [] ∧ (reducing 0).lost = [] ∧ incarnation (reducing 0) ⟨1, ((reducing 0).team 1).coreId⟩ = 0 := by decide +kernel

theorem test_reductions : after (exec (.storeQueueLeave 64) (reducing 0)) (fun s => (readNat s (.phys 0x30000) 4, mget (0, 0) (s.team 1).windows 1, (s.thread (lane 0)).faults.map TrapInfo.cause)) = some (0x7FC00000, (0, 0), [0x20]) ∧
    after (exec (.storeQueueLeave 64) (reducing 1)) (fun s => (mget (0, 0) (s.team 1).windows 1, (s.thread (lane 0)).faults.length)) = some ((1, 0), 0) := by decide +kernel

/-- StreamerSteps: beats from the scratchpad to a member's window and to a page, of a box of 32 bytes to the scratchpad, and of its row to memory. -/
def sharing (r : Request) : State := (scratchOf (streaming r) [(0x100, 4, 77)]).modTeam 1 (fun t => { t with joined := true, slots := 6 :: List.replicate 7 0 })
def boxed : Layout := { base := 0x30000, rank := 1, slot := 0, swizzle := 0, fill := false, dims := [64], strides := [], box := [32], coords := [40] }
def request (op : ReqOp) (total : Nat) : Request := { (copyOf (.own 0) [] none) with op := op, total := total, pages := [(3, (0x67, 2 ^ 30))] }

theorem witness_destinations :
    [ReqOp.linear 64 (.own 0x100) (.window [0] 0x200), .linear 64 (.own 0x100) (.global 0x30100), .tensor false boxed (.own 0x200) 0, .tensor true boxed (.own 0x100) 0x100].all (fun op =>
      let s := sharing (request op 2)
      decide (s.request 6 = some (request op 2)) && decide ((request op 2).inc = incarnation s (request op 2).unit) && decide ((request op 2).got = []) && (mfind s.teams 1).isSome && decide (s.binds = [] ∧ s.lost = [])) = true ∧
    windowPlace (sharing (request (.linear 64 (.own 0x100) (.window [0] 0x200)) 2)) 1 0 0x200 = some (.scratch 1 0x200) ∧ leafRead 0x67 = true ∧ leafWrite 0x67 = true ∧ granules 0x200 64 = 2 ∧
    (request (.tensor false boxed (.own 0x200) 0) 2).fmt (sharing (request (.tensor false boxed (.own 0x200) 0) 2)) = .n8 ∧ boxed.bytes .n8 = 32 ∧ boxed.boxOf 0 * elemSize .n8 % 16 = 0 ∧ granules 0x200 32 = 1 ∧
    boxByte boxed 1 0 = some 0x30028 ∧ boxByte boxed 1 24 = none ∧ rowStart boxed 1 0 = some 0x30028 ∧ boxed.span = (0, 24) ∧ rowBeats 32 = 2 ∧ granule 0x30028 24 0 = (0x30028, 24) ∧
    (∀ k, k < 64 → leafPhys 0x67 (2 ^ 30) ((0x30100 + k) % 2 ^ 64) = leafPhys 0x67 (2 ^ 30) 0x30100 + k) := by decide +kernel

theorem test_destinations : after (exec (.streamerBeat 6 0) (sharing (request (.linear 64 (.own 0x100) (.window [0] 0x200)) 2))) (fun s => (readNat s (.scratch 1 0x200) 4, s.requests.map Request.done)) = some (77, [[0]]) ∧
    after (exec (.streamerBeat 6 0) (sharing (request (.linear 64 (.own 0x100) (.global 0x30100)) 2))) (fun s => readNat s (.phys 0x30100) 4) = some 77 ∧
    after (exec (.streamerBeat 6 0) (writeNat (sharing (request (.tensor false boxed (.own 0x200) 0) 2)) (.phys 0x30028) 4 77)) (fun s => readNat s (.scratch 1 0x200) 4) = some 77 ∧
    after (exec (.streamerBeat 6 0) (sharing (request (.tensor true boxed (.own 0x100) 0x100) 2))) (fun s => (readNat s (.phys 0x30028) 4, readNat s (.phys 0x30040) 4)) = some (77, 0) := by decide +kernel

/-- PlacementSteps: a root copy, launch and signal node, a launch into a queue that is full, a record without copies, and a successor whose count is 1. -/
def rooted (node : List (Nat × Nat × Nat)) : State := node.foldl (fun s f => writeNat s (.phys (0x30000 + f.1)) f.2.1 f.2.2) (writeNat graphing (.phys 0x30000) 1 0)
def copyNode : State := writeNat (writeNat (writeNat (writeNat (rooted [(0, 1, 1), (8, 8, 0x31000)]) (.phys 0x31000) 4 1) (.phys 0x31004) 4 64) (.phys 0x31008) 8 0x32000) (.phys 0x31010) 8 0x33000
/-- Queue 4 of context 0 takes launches from the device, at 0x51000. -/
def launchNode (head : Nat) : State :=
  ((((rooted [(0, 1, 2), (1, 1, 4), (8, 8, 0x31000)]).setSys 0x1020 0x51000).setSys 0x1021 (BitVec.ofNat 64 (4 + 2 ^ 11 + 2 ^ 13))).setSys 0x1022 (BitVec.ofNat 64 head))
def signalStart : State := rooted [(0, 1, 3), (8, 8, 0x31000), (32, 8, 77)]

theorem witness_nodes : [copyNode, launchNode 1, launchNode 16, signalStart, rooted [(0, 1, 1)], rooted [(0, 1, 9)]].all (fun s => graphReady s 0 3 && decide (s.binds = [] ∧ s.lost = []) && decide (qOwner s 3 = 0) &&
      decide (deviceRead s 0 (slotAddr s 3 (qTail s 3)) 64 = leBytes 8 0x30000 ++ List.replicate 56 0) && decide (devicePlace s 0 0x30000 = some 0x30000) && decide (devicePlace s 0 (0x30000 + 26) = some (0x30000 + 26))) = true ∧
    ([copyNode, launchNode 1, signalStart].all (fun s => nodeLegal (readBytes s (.phys 0x30000) 64))) = true ∧ copyLegal (readBytes copyNode (.phys 0x31000) 64) (readCopy (readBytes copyNode (.phys 0x31000) 64)) [1] 1 = true ∧
    (let s2 := deviceWrite (walkerUnit 0) (setStatus 0 (walkerRelease (chained 1)) 0 0x30000 2) 0 (0x32000 + 4) (leBytes 4 0)
     devicePlace s2 0 0x32000 = some 0x32000 ∧ devicePlace s2 0 (0x32000 + 26) = some (0x32000 + 26)) ∧ deviceNat (setStatus 0 (walkerRelease (chained 1)) 0 0x30000 2) 0 (0x32000 + 4) 4 = 1 := by decide +kernel

theorem test_nodes : after (exec (.graphSlotTake 0 3) copyNode) (fun s => s.requests.map (fun r => (r.op, r.node))) = some [(.linear 64 (.global 0x32000) (.global 0x33000), some 0x30000)] ∧
    after (exec (.graphSlotTake 0 3) copyNode) (fun s => (s.nodes.map Node.done, readNat s (.phys 0x3001A) 2)) = some ([none], 1) ∧
    after (exec (.graphSlotTake 0 3) (launchNode 1)) (fun s => (s.nodes.map Node.done, s.nodes.map Node.slot, qHead s 4)) = some ([none], [some (4, 1)], 2) ∧
    after (exec (.graphSlotTake 0 3) (launchNode 1)) (fun s => mfind s.feeds (slotKey s 4 1)) = some (some (0, 0x30000)) := by decide +kernel

/-- Nodes and a launch slot whose accesses meet no malformed entry add no error record. -/
theorem witness_no_record : (∀ s ∈ [copyNode, launchNode 1, signalStart], after (exec (.graphSlotTake 0 3) s) State.errSeq = some s.errSeq) ∧
    after (exec (.takeLaunchSlot 0 3) { placing with grids := [] }) State.errSeq = some placing.errSeq := by decide +kernel

theorem test_more_nodes : after (exec (.graphSlotTake 0 3) (launchNode 16)) (fun s => (s.nodes.map Node.done, qHead s 4)) = some ([some 0x101], 16) ∧
    after (exec (.graphSlotTake 0 3) signalStart) (fun s => (s.nodes.map Node.done, readNat s (.phys 0x31000) 8)) = some ([some 0], 77) ∧
    after (exec (.nodeFinish 0 0x30000) (writeNat (chained 1) (.phys 0x32000) 1 4)) (fun s => (s.nodes.map Node.addr, s.nodes.map Node.root, s.nodes.map Node.done)) = some ([0x32000], [false], [none]) ∧
    after (exec (.nodeFinish 0 0x30000) (writeNat (chained 1) (.phys 0x32000) 1 4)) (fun s => (readNat s (.phys 0x32004) 4, readNat s (.phys 0x3201A) 2)) = some (0, 1) := by decide +kernel

/-- StepRunsDecoded: a chain of two words, ADD v2 := v2 + v1 and FADD v1 := v1 + v2, which issues whole. -/
def chainStep : State := (writeNat stepping (.phys 0x20000) 8 0x4002041082040808).modThread (lane 0) (fun t => { t with regs := [(1, 0x3F800000), (2, 0x40000000)] })

theorem witness_chain : decodeWord 0x82040808 = .add false 2 2 1 ∧ decodeWord 0x40020410 = .fadd false 1 1 2 ∧ moveWaits { chainStep with agenda := [] } (.issue 0 0 0) = false ∧ urgent chainStep = none ∧ movedSet { chainStep with agenda := [] } (.issue 0 0 0) = some [lane 0] ∧
    (match chainAt { chainStep with agenda := [] } (lane 0) with
     | .ok c => decide (c.words = [(0x20000, 0x82040808), (0x20004, 0x40020410)]) && decide (fetchVerdict (fillTrans { chainStep with agenda := [] } 0 0 0x20000) (lane 0) c = .pass)
     | _ => false) = true := by decide +kernel

/-- R82: both words read v1 = 1.0 and v2 = 2.0 as they stood. -/
theorem test_chain : (match step chainStep with
    | .next s => decide ((s.thread (lane 0)).regs = [(1, 0x40400000), (2, 0x7F800000)] ∧ (s.thread (lane 0)).pc = 0x20008)
    | _ => false) = true := by decide +kernel

/-- MatrixEngineSteps: an arm and a clear whose core has been declared dead since, and a clear beside another team's pin. -/
theorem witness_stale_engine : (∀ op ∈ [MOp.arm [(0x30000, 0x30000, 0x90000)] 0xFC0001, .clear [(0x30000, 0x30000, 0x90000)]],
      (mentry op true).inc ≠ incarnation (reborn (engine [mentry op true])) ⟨1, ((reborn (engine [mentry op true])).team 1).coreId⟩ ∧ (mentry op true).inc = incarnation (engine [mentry op true]) ⟨1, ((engine [mentry op true]).team 1).coreId⟩ ∧
      ringBase (reborn (engine [mentry op true])) 0x6012 = none) := by decide +kernel

theorem test_stale_engine : after (exec (.matrixEntryComplete 8) (reborn (engine [mentry (.arm [(0x30000, 0x30000, 0x90000)] 0xFC0001) true]))) (fun s => (s.acc.length, s.accPins.length)) = some (0, 0) ∧
    after (exec (.matrixEntryComplete 8) { (engine [mentry (.clear [(0x30000, 0x30000, 0x90000)]) true]) with accPins := [{ team := 2, line := 0x600, pa := 0x30000, record := 0x90000 }] }) (fun s => s.accPins.map AccPin.team) = some [2] := by decide +kernel

/-- PrefetchAndPins, ScratchpadBindings: a malformed leaf entry on the way; ViewWords: a core whose view cache is full; SystemWords: a load through a view under way. -/
def crowded : State := viewing.modTeam 1 (fun t => { t with oldUnits := [(9, 256)] })
def translating : State := { (serving 0 0) with loads := viewLoading.loads }

theorem witness_met : metBad (memory 0x63) 0 0 0x30000 = none ∧ (metBad (memory 0x8000000000000063) 0 0 0x30000).isSome = true ∧ aloneB (memory 0x8000000000000063) (lane 0) (.pin 3 4 0) = true ∧
    ¬(freeViewUnits viewing 0 + 0 < ((readView (scratchRecord viewing 1 0x40 64)).matrixBytes viewing 1 + 1023) / 1024) ∧ freeViewUnits crowded 0 < ((readView (scratchRecord crowded 1 0x40 64)).matrixBytes crowded 1 + 1023) / 1024 ∧
    aloneB crowded (lane 0) (.vwSet 3 4 0) = true ∧ (readView (scratchRecord viewing 1 0x40 64)).flags.testBit 0 = false ∧ translating.loads.length = 1 ∧ (∀ ld ∈ (serving 0 0).loads, ld.parts = none) ∧ aloneB translating (lane 0) (.tlbinv 3 4) = true := by
  decide +kernel

theorem test_met : reg (exec (.vwSet 3 4 0) crowded) 0 3 = some 1 ∧ reg (exec (.pin 3 4 0) (memory 0x8000000000000063)) 0 3 = some 0x30000 ∧ after (exec (.pin 3 4 0) (memory 0x8000000000000063)) (fun s => s.sysReg 0x6014) = some 1 := by decide +kernel

/-! ### A capsule that passes -/

theorem keccakRound_length (a : List DWord) (rc : DWord) : (keccakRound a rc).length = 25 := by
  have h : (chi (rhoPi (theta a))).length = 25 := by simp [chi, lanes]
  unfold keccakRound
  split
  · simp_all
  · simp_all

theorem keccakF_length (a : List DWord) (h : a.length = 25) : (keccakF a).length = 25 := by
  unfold keccakF
  generalize roundConstants = rs
  induction rs generalizing a with
  | nil => exact h
  | cons r rs ih => exact ih _ (keccakRound_length a r)

theorem absorb_length (n : Nat) (a : List DWord) (bs : List Byte) (h : a.length = 25) : (absorb n a bs).length = 25 := by
  induction n generalizing a bs with
  | zero => exact h
  | succ n ih => exact ih _ _ (keccakF_length _ (by simp [blockLanes, h]))

theorem leBytes_8_length (v : Nat) : (leBytes 8 v).length = 8 := rfl

/-- KMAC256 gives as many bytes as are asked for. -/
theorem kmac_length (key m custom : List Byte) : (kmac256 key m custom 16).length = 16 := by
  have h (a : List DWord) (ha : a.length = 25) : ((a.flatMap (fun l => leBytes 8 l.toNat)).take 16).length = 16 := by
    rw [List.length_take, List.length_flatMap]
    simp only [leBytes_8_length, List.map_const', List.sum_replicate, ha]
    rfl
  exact h _ (absorb_length _ _ _ rfl)

/-- OutsideEvents: a capsule of connection 9 for queue 3, under a key of zeros, with its own tag. -/
def capsuleHead : List Byte := leBytes 4 0x4E5A4350 ++ leBytes 2 1 ++ leBytes 2 3 ++ leBytes 8 1
def capsule : List Byte :=
  capsuleHead ++ (kmac256 (List.replicate 32 0) (capsuleHead ++ List.replicate 160 0) capsuleName 16 ++ List.replicate 160 0)
def networked : State := ((queueing 1).setSys 0x1019 (BitVec.ofNat 64 (4 + 2 ^ 10 + 2 ^ 13))).setConn 9 0 (BitVec.ofNat 64 (2 ^ 30))

theorem capsuleHead_length : capsuleHead.length = 16 := by decide +kernel

theorem witness_capsule : capsule.length = 192 ∧ capsuleGood networked 9 capsule = true := by
  have hl := kmac_length (List.replicate 32 0) (capsuleHead ++ List.replicate 160 0) capsuleName
  have hk : [2, 3, 4, 5].flatMap (fun w => leBytes 8 (networked.conn 9 w).toNat) = List.replicate 32 0 := by decide +kernel
  have h0 : (networked.conn 9 0).getLsbD 30 = true := by decide +kernel
  have h1 : (networked.conn 9 1).toNat = 0 := by decide +kernel
  have hz : (((List.replicate 160 (0 : Byte)).take 32).all (fun b => decide (b = 0))) = true := by decide +kernel
  have hf : fld capsuleHead 0 4 = 0x4E5A4350 ∧ fld capsuleHead 4 2 = 1 ∧ fld capsuleHead 8 8 = 1 := by decide +kernel
  have hr : (List.replicate 160 (0 : Byte)).length = 160 := List.length_replicate ..
  unfold capsule
  revert hl hz hr
  generalize hm : kmac256 (List.replicate 32 0) (capsuleHead ++ List.replicate 160 0) capsuleName 16 = mac
  revert hm
  generalize List.replicate 160 (0 : Byte) = rest
  intro hm hl hz hr
  have hg (o n : Nat) (h : o + n ≤ 16) : fld (capsuleHead ++ (mac ++ rest)) o n = fld capsuleHead o n := by
    unfold fld
    rw [List.drop_append_of_le_length (by rw [capsuleHead_length]; omega), List.take_append_of_le_length (by rw [List.length_drop, capsuleHead_length]; omega)]
  have ht : (capsuleHead ++ (mac ++ rest)).take 16 = capsuleHead := List.take_left' capsuleHead_length
  have h16 : (capsuleHead ++ (mac ++ rest)).drop 16 = mac ++ rest := List.drop_left' capsuleHead_length
  have hd : (capsuleHead ++ (mac ++ rest)).drop 32 = rest := by
    rw [show 32 = 16 + 16 from rfl, ← List.drop_drop, h16, List.drop_left' hl]
  refine ⟨by simp only [List.length_append, capsuleHead_length, hl, hr], ?_⟩
  simp only [capsuleGood, zeroAt, hk, ht, hd, h16, List.take_left' hl, hm, h0, h1, hg 0 4 (by omega), hg 4 2 (by omega), hg 8 8 (by omega), hz, hf]
  rfl

/-- OutsideEvents: an image passes when the root key has signed it and it is new enough; which images these are, the free values of Config say. -/
theorem witness_image (f : Firmware) (hk : sha3 f.key = Config.rootKeyDigest) (hs : Config.mldsaVerify f.key f.signature (bodyDigest f) = true) (hv : Config.leastVersion ≤ f.version) : stageGood [] f = true := by
  simp [stageGood, hk, hs, hv]

/-! ### Witnesses of clauses added since: special functions, event windows, replays that fail, walk rows, registers, moves that wait -/

/-- FloatOrderClassSpecial: ordinary operands 1.5 (neither an integer nor a power of two), 2, 160 and -160, and operands near zero. -/
theorem witness_specials : inF32 0x3FC00000 = .fin false 12582912 (-23) ∧ ratOf (inF32 0x3FC00000) = 3 / 2 ∧ (¬∃ k : ℤ, ratOf (inF32 0x3FC00000) = k) ∧ (¬∃ k : ℤ, ratOf (inF32 0x3FC00000) = (2 : ℚ) ^ k) ∧
    ratOf (inF32 0x40000000) = ((2 : ℤ) : ℚ) ∧ ratOf (inF32 0x40000000) = (2 : ℚ) ^ (1 : ℤ) ∧ ratOf (inF32 0xC3200000) < -151 ∧ 129 < ratOf (inF32 0x43200000) ∧
    0x38800000 ≤ (0x3FC00000 : Word).toNat % 2 ^ 31 ∧ (0x3FC00000 : Word).toNat % 2 ^ 31 ≤ 0x41800000 ∧ 0x41800000 < (0x43200000 : Word).toNat % 2 ^ 31 ∧ (0x80000001 : Word).toNat % 2 ^ 31 < 0x30800000 := by
  have h1 : inF32 0x3FC00000 = .fin false 12582912 (-23) := by decide +kernel
  have h2 : inF32 0x40000000 = .fin false 8388608 (-22) := by decide +kernel
  have h3 : inF32 0xC3200000 = .fin true 10485760 (-16) := by decide +kernel
  have h4 : inF32 0x43200000 = .fin false 10485760 (-16) := by decide +kernel
  have r1 : ratOf (inF32 0x3FC00000) = 3 / 2 := by rw [h1]; norm_num [ratOf]
  refine ⟨h1, r1, ?_, ?_, by rw [h2]; norm_num [ratOf], by rw [h2]; norm_num [ratOf], by rw [h3]; norm_num [ratOf], by rw [h4]; norm_num [ratOf], by decide, by decide, by decide, by decide⟩
  · rintro ⟨k, hk⟩
    rw [r1] at hk
    have : (2 * k : ℚ) = 3 := by rw [← hk]; norm_num
    have h : 2 * k = 3 := by exact_mod_cast this
    omega
  · rintro ⟨k, hk⟩
    rw [r1] at hk
    rcases le_or_gt k 0 with h | h
    · have := zpow_le_one_of_nonpos₀ (by norm_num : (1 : ℚ) ≤ 2) h
      rw [← hk] at this
      norm_num at this
    · have := zpow_le_zpow_right₀ (by norm_num : (1 : ℚ) ≤ 2) (show (1 : ℤ) ≤ k from h)
      rw [← hk] at this
      norm_num at this

/-- R187: 1/3, 1/√2, √2, log2 3, tanh 1, sin 1 and cos 1, correctly rounded, and 2^(1/2) by its series. -/
theorem test_special_values : fspecOp 0 0x40400000 = (0x3EAAAAAB, []) ∧ fspecOp 1 0x40000000 = (0x3F3504F3, []) ∧ fspecOp 2 0x40000000 = (0x3FB504F3, []) ∧ fspecOp 3 0x3F000000 = (0x3FB504F3, []) ∧
    fspecOp 4 0x40400000 = (0x3FCAE00D, []) ∧ fspecOp 5 0x3F800000 = (0x3F42F7D6, []) ∧ fspecOp 6 0x3F800000 = (0x3F576AA4, []) ∧ fspecOp 7 0x3F800000 = (0x3F0A5140, []) := by decide +kernel

/-- Operands at which the exact value is the operand, one or its opposite, and FEXP2 beyond its range (R187). -/
theorem test_special_ends : fspecOp 5 0x80000001 = (0x80000001, []) ∧ fspecOp 6 0x307FFFFF = (0x307FFFFF, []) ∧ fspecOp 5 0xC1800001 = (0xBF800000, []) ∧ fspecOp 7 0x387FFFFF = (0x3F800000, []) ∧
    fspecOp 3 0xC3200001 = (0, [2]) ∧ fspecOp 3 0x43200001 = (0x7F800000, [0]) := by decide +kernel

/-- FloatWordsComplete: 3e38 + 3e38 saturates; threshold 0 with action 1, threshold 5, and a slot that routes class 0. -/
def saturating (threshold action : Nat) : State := (vec [0, 0x7F61B1E6]).setSys 0x4000 (BitVec.ofNat 64 (threshold + action * 2 ^ 56))

theorem witness_event_windows : Runs (.fadd false 3 1 1) (saturating 0 1) ∧ (mfind (saturating 0 1).teams (saturating 0 1).issueTeam).isSome = true ∧ ((saturating 0 1).team (saturating 0 1).issueTeam).ctx < 512 ∧
    raisedBy (fun s l => faddOp (s.src l 1) (s.src l 1)) (saturating 0 1) 0 = 1 ∧ crosses (fun s l => faddOp (s.src l 1) (s.src l 1)) (saturating 0 1) 0 = true ∧
    crosses (fun s l => faddOp (s.src l 1) (s.src l 1)) (saturating 5 1) 0 = false ∧ controlOf (saturating 0 1) 0 / 2 ^ 56 % 4 = 1 ∧ routesClass (fun _ => some 0x100003) (saturating 0 1) 0 = true := by
  refine ⟨runs_of _ ⟨by decide +kernel, by decide +kernel, by decide +kernel⟩ (by decide +kernel), ?_⟩
  decide +kernel

theorem test_event_windows : after (exec (.fadd false 3 1 1) (saturating 0 1)) (fun s => ((s.thread (lane 0)).faults.map TrapInfo.cause, mget (0, 0) (s.team 1).windows 0)) = some ([0x20], (0, 0)) ∧
    after (exec (.fadd false 3 1 1) (saturating 5 1)) (fun s => ((s.thread (lane 0)).faults.map TrapInfo.cause, mget (0, 0) (s.team 1).windows 0)) = some ([], (1, 0)) ∧
    after (exec (.cvtEnc false 3 1 0 0) ((saturating 0 1).modTeam 1 (fun t => { t with slots := 0x100003 :: List.replicate 7 0 })))
      (fun s => (s.sysReg 0x4004, (s.thread (lane 0)).faults.length)) = some (1, 0) := by decide +kernel

/-- RegisterEvents: a thread, a request and a matrix queue entry held on the page 0x30000, each alone. -/
def heldHandled (handler : DWord) : State := heldAt.modTeam 1 (fun t => { t with kern := { programKernel false with handler := handler } })
def heldRequest : State :=
  (streaming { (copyOf (.global 0x30000) [] (some 0x30010)) with regs := [⟨1, 2, 64⟩] }).modTeam 1 (fun t => { t with bars := [(2, { init := true, quota := 1, pending := 64 })] })
def heldMatrix : State := engine [{ (mentry (.stream oneRow []) true) with held := some 0x30020 }]

theorem witness_replay_fails : ((heldHandled 0x20040).thread (lane 0)).beneath = none ∧ ((heldHandled 0x20040).thread (lane 0)).trapping = none ∧ ((heldHandled 0x20040).threads.map Prod.fst).Nodup ∧ (heldHandled 0x20040).requests = [] ∧
    ((heldHandled 0x20040).team 1).queue = [] ∧ ((heldHandled 0x20040).team 1).life = .running ∧ framed (heldHandled 0x20040) (lane 0) true = true ∧ (heldHandled 0x20040).loads = [] ∧
    heldRequest.requests.map (fun r => (r.id, r.held.map pageBase, r.regs)) = [(6, some 0x30000, [⟨1, 2, 64⟩])] ∧ heldRequest.threads = [] ∧ (heldRequest.bar 1 2).arrived ≠ (heldRequest.bar 1 2).quota ∧
    (heldMatrix.team 1).queue.map (fun e => e.held.map pageBase) = [some 0x30000] ∧ (heldMatrix.team 1).life = .running ∧ heldMatrix.requests = [] ∧ (heldMatrix.team 1).die = 0 ∧ (heldMatrix.team 1).ctx = 0 := by decide +kernel

theorem test_replay_fails : after (exec (.replayAnswer 0 0x30100) (heldHandled 0x20040)) (fun s => ((s.thread (lane 0)).pc, (s.thread (lane 0)).trapping)) = some (0x20040, some 1) ∧
    after (exec (.replayAnswer 0 0x30100) (heldHandled 0)) (fun s => ((s.team 1).life, (s.team 1).kill.map FaultRec.cause)) = some (.dying, some 0x10) ∧
    after (exec (.replayAnswer 0 0x30100) heldRequest) (fun s => (s.requests.length, (s.bar 1 2).pending, (s.bar 1 2).error)) = some (0, 0, true) ∧
    after (exec (.replayAnswer 0 0x30100) heldMatrix) (fun s => ((s.team 1).life, (s.team 1).kill.map FaultRec.cause)) = some (.dying, some 0x10) := by decide +kernel

/-- StreamerSteps: a walk of token 17, row 1 of a block at 0x30800 of two bf16 columns and two valid rows, not through its view; one of the view's rows, and one formed already. -/
def walking (through : Bool) (valid : Nat) (rows : SMap (List Byte × List (Nat × Nat))) : State :=
  let v : ViewReg := { theView with rows := 1 }
  let r : Request := { (request (.walk 0x200 32 [(17, 0x30800)] 16 v 0 through) 2) with pages := [(3, (0x63, 2 ^ 30))], rows := rows }
  let s := writeNat (writeNat (writeNat (writeNat (streaming r) (.phys 0x30800) 8 (2 + 0x10000 + valid * 2 ^ 32)) (.phys 0x30844) 4 0x40000000) (.phys 0x30890) 4 0xC0003F80) (.phys 0x308A0) 4 0
  s.modTeam 1 (fun t => { t with slots := [0, 0x13, 1, 0, 0, 0, 0, 0] })

theorem witness_walk_row : [(false, 2), (false, 1), (true, 2)].all (fun q => (walking q.1 q.2 []).requests.all (fun r => r.held.isNone && r.ready && r.done.isEmpty && decide (r.inc = incarnation (walking q.1 q.2 []) r.unit) && r.got.isEmpty &&
      decide (r.fmt (walking q.1 q.2 []) = .bf16) && decide (mfind r.pages (0x30800 / 65536) = some (0x63, 2 ^ 30)))) = true ∧ (2 ^ 30) % 32 = 0 ∧ leafRead 0x63 = true ∧ rowPitch 2 2 = 16 ∧
    rowBeats (walkLen .bf16 theView false) = 2 ∧ (granule (0x200 + (17 - 16) * 32) 32 0).2 = 32 ∧ (0x30800 : DWord).toNat % 2048 = 0 ∧
    (List.range 384).all (fun o => !poisonAt (walking false 2 []) (.phys (0x30800 + o))) = true ∧ fmtCode .bf16 = 1 ∧ fmtEs .bf16 = 0 ∧ (readByte (walking false 1 []) (.phys 0x30804)).toNat ≤ 17 % 16 ∧
    ¬(readByte (walking false 2 []) (.phys 0x30804)).toNat ≤ 17 % 16 ∧ (walking false 2 []).binds = [] ∧ (walking false 2 []).lost = [] := by decide +kernel

/-- R378: the scale 2.0, twelve zero bytes and the payload (1, -2); past the valid rows scale 1 and zeros; through the view 2 × (0.5 × 1 + 1 × -2) = -3. -/
theorem test_walk_row : after (exec (.streamerBeat 6 0) (walking false 2 [])) (fun s => (readNat s (.scratch 1 0x220) 4, readNat s (.scratch 1 0x224) 4, readNat s (.scratch 1 0x230) 4)) = some (0x40000000, 0, 0xC0003F80) ∧
    after (exec (.streamerBeat 6 0) (walking false 1 [])) (fun s => (readNat s (.scratch 1 0x220) 4, readNat s (.scratch 1 0x230) 4)) = some (0x3F800000, 0) ∧
    after (exec (.streamerBeat 6 0) (walking true 2 [])) (fun s => readNat s (.scratch 1 0x220) 4) = some 0xC0400000 ∧
    after (exec (.streamerBeat 6 0) (walking false 2 [(0, (List.replicate 32 7, []))])) (fun s => readNat s (.scratch 1 0x220) 4) = some 0x07070707 := by decide +kernel
/-- SystemWords: MOVSYS.W of all ones, a core that is halted and holds a team. -/
def writing (n : Nat) : State := issuing (serving 0 0) [(lane 0, thread1 [0, 1, n, 0, 0, 0, 0, 0, 0xFFFFFFFF, 0xFFFFFFFF])] false
def resident : State := { (issuing (serving 0 0) [(lane 0, thread1 [0, 1, 0, 0, 0, 0, 0, 0, 0, 1])] false) with cores := [(0, { halted := true })] }

theorem witness_register_writes : [0x1F, 0x21, 0x4054, 0x4058, 0x5000, 0x5003, 0x5007, 0x6010, 0x6014, 0x6018, 0x2000, 0x2001, 0x2005, 0x700].all (fun n => aloneB (writing n) (lane 0) (.movsysW 8 2)) = true ∧
    ((writing 0x5003).die 0).unreported = [] ∧ qEnabled (writing 0x2001) 512 = false ∧ (writing 0x2001).src64 (lane 0) 8 = 0xFFFFFFFFFFFFFFFF ∧ aloneB resident (lane 0) (.proof 3 8) = true ∧
    enabledUnit resident ⟨1, 0⟩ = true ∧ (∃ p ∈ resident.teams, p.2.coreId = 0 ∧ p.2.life ≠ .evicted) ∧ (resident.core 0).halted = true := by decide +kernel

/-- R426: the bits that the map calls RW, as [first, last]: context words 1, 5 and 7, ACCMETA, KVPOL, GOVCTL, the rings, ERRLOST, EVICTREQ's refusal, a number without a register. -/
theorem test_register_writes : [(0x21, 0x3FFF), (0x25, 0xFFFFFFFF), (0x27, 0xFFFF), (0x20, 0xFFFFFFFFFFFFFFFF), (0x4054, 0xFFFFFFFFFFFFFFFF), (0x4058, 0x01FFFFFFFFFFF000), (0x4059, 0xF), (0x405A, 0xFFFFFFFFFFFFFFFF), (0x405B, 0),
    (0x5040, 0xFFFFFFFF), (0x5041, 0x01FF01FF), (0x5003, 0x01FFFFFFFFFFF01F), (0x5004, 0xFFFFFFFF00000000), (0x5045, 0x01FFFFFFFFFFF01F), (0x5046, 0xFFFFFFFF), (0x6010, 0x01FFFFFFFFFFF01F), (0x6011, 0xFFFFFFFF), (0x6013, 0xFFFFFFFF00000000),
    (0x6014, 0xFFFFFFFF), (0x6018, 0x20FFF), (0x2000, 0xFFFFFFFFFFFFFFFF), (0x2003, 0xFFFFFFFFFFFFFFFF), (0x2004, 0xFFFFFFFF), (0x2005, 0xF), (0x2006, 0), (0x700, 0)].all
      (fun q => decide (after (exec (.movsysW 8 2) (writing q.1)) (fun s => s.sysReg q.1 ||| (writing q.1).sysReg q.1) = some ((q.2 : DWord) ||| (writing q.1).sysReg q.1))) = true ∧
    reg (exec (.proof 3 8) resident) 0 3 = some 2 := by decide +kernel

/-- R384: a matrix changed in memory is the view's after VW.REFRESH; R374: a NaN scale, and an infinite one with a zero latent. -/
theorem test_refresh : after (exec (.vwRefresh 3 0) (writeNat viewed (.phys 0x30000) 4 0x40003F00)) (fun s => (mfind (s.team 1).views 0).map ViewReg.data) = some (some [0, 0x3F, 0, 0x40]) ∧
    pressRow viewed 1 theView 0x7FC00000 [0x80, 0x3F, 0, 0xC0] = ([0, 0, 0xC0, 0x7F], []) ∧ pressRow viewed 1 theView 0x7F800000 [0, 0, 0, 0xC0] = ([0, 0, 0xC0, 0x7F], [1]) := by decide +kernel

/-- StepRunsDecoded: an event that has waited and need not any more comes before the agenda. -/
def waited : State := { stepping with waiting := [.event (.systemRegisterWrite 0x6014 7)] }

theorem witness_waited : waited.boot = .running ∧ urgent waited = none ∧ moveWaits waited (.event (.systemRegisterWrite 0x6014 7)) = false ∧ (Instr.systemRegisterWrite 0x6014 7).wellFormed = true ∧
    released stepping = none ∧ released chainStep = none ∧ released underTest = none ∧ moveWaits { underTest with agenda := [] } (.issue 0 0 0) = true := by decide +kernel

theorem test_waited : (match step waited with
    | .next s => decide (s.sysReg 0x6014 = 7 ∧ s.waiting = [] ∧ s.agenda = waited.agenda)
    | _ => false) = true ∧ (match step underTest with
    | .next s => decide (s.waiting = [.issue 0 0 0])
    | _ => false) = true := by decide +kernel

/-- MatrixEngineSteps: a tile on which a store of the burin core stands in its queue, issued before the entry or after it. -/
def banked (before : Nat) : State :=
  (engine [{ (mentry (.load 0x400 1 1 7) true) with before := before }]).modGroup 96 (fun g => { g with queue := [{ tid := burin, word := 7, loc := .scratch 1 0x400, addr := 0x400, rt := 0, flags := 0, op := .store [0x55] }] })

theorem witness_banked : ∀ before ∈ [0, 1], entryDone (banked before) { (mentry (.load 0x400 1 1 7) true) with before := before } = true ∧ settleBank (banked before) { (mentry (.load 0x400 1 1 7) true) with before := before } 0x400 32 = banked before := by decide +kernel

/-- R319, R229: the earlier store is seen. -/
theorem test_banked : [0, 1].map (fun k => after (exec (.matrixEntryComplete 8) (banked k)) (fun s => ((s.team 1).shadow.map (fun p => p.tile.headD 9)))) = [some (some 0), some (some 0x55)] := by decide +kernel

/-- ReliabilityEvents: a page that holds a confined error is copied, and the error met. -/
theorem test_confined_move : (moveFound { poolMove with confined := [(0x40000, 0)], poison := [0x10000] } (poolRecord 0x40000000) 0x200063 (2 ^ 21)).2 = 6 := by decide +kernel

end Sys2Proof.Tests
end

section
/-! PROOF. O49 fails: taking a launch slot settles the targets of the teams that wait for a place. -/

namespace Sys2Proof.Machine

/-- A kernel of one group without burin core, at address 0x20000. -/
def SlotTake.kernel : Kernel :=
  { entry := 0x20000, burin := 0, handler := 0, regs := 16, bregs := 0, groups := 1, producer := some 0, phases := 0, views := 0, hintchk := false,
    scratch := 4096, stack := 64 }

/-- The grid of priority 0 to which the evicted team belongs: all its teams have started. -/
def SlotTake.begun : Grid :=
  { q := 0, seq := 0, ctx := 0, prio := 0, affinity := 0, kern := kernel, teams := 1, w := 1, h := 1, argBase := 0, argStride := 0, adapter := 0,
    runLimit := 0, slots := List.replicate 8 0, service := false, next := 1 }

/-- An evicted team whose target is core 0 of die 0, where nothing is reserved yet. -/
def SlotTake.evicted : Team :=
  { noTeam with
    ctx := 0, grid := 1, w := 1, h := 1, kern := kernel, slots := List.replicate 8 0, area := 0x100000, life := .evicted
    target := some { die := 0, x0 := 0, y0 := 0, age := 0, fixed := false, reserved := [] } }

/-- Queue 3, of priority 1 and context 0, holds one legal launch record at 0x50000, whose kernel header stands at 0x30000; the context's team area ring at
0x70000 has no area left. The evicted team yields to the queue, whose grid is still to be taken (R52). -/
def SlotTake.launching : State :=
  let registers := [(0, 0x10000), (1, 2 ^ 12), (6, 0x70000), (7, 64), (0x1018, 0x50000), (0x1019, 4 + 2 ^ 4 + 2 ^ 9 + 2 ^ 13), (0x101A, 1), (0x101B, 0x60000)]
  let tables := [(0x10000, 0x11001), (0x11000, 0x12001), (0x12000, 0x67)]
  let record := [(0x50000, 0x30000), (0x50008, 0x10100000001)]
  let header := [(0x30000, 0x20000), (0x30018, 0x10010), (0x30020, 0x4000001000), (0x30028, 0x41)]
  let areas := [(0x70000, 0x100000004), (0x70008, 1)]
  let s := registers.foldl (fun s p => s.setSys p.1 (BitVec.ofNat 64 p.2)) { State.reset with boot := .running }
  { ((tables ++ record ++ header ++ areas).foldl (fun s p => writeNat s (.phys p.1) 8 p.2) s) with
    teams := [(1, evicted)], threads := [(tidOf 1 0 0, { pc := 0x20000 })], grids := [(1, begun)], nextId := 2 }

open SlotTake

/-- Nothing is left to settle before the slot is taken: the bookkeeping of a step moves the clock alone. -/
theorem settle_launching : settle launching = { launching with clock := launching.clock + 1 } := by decide +kernel

theorem nextQueue_launching : nextQueue launching 0 = some 3 := by decide +kernel

/-- The team does not yield any more once the slot is taken, and its new grid, for which no team area is left, keeps no core from it: the team's target
reserves core 0 (R52, R63, R417). -/
theorem takeLaunch_launching_reserved : ((takeLaunch launching 0 3).team 1).target.map Target.reserved = some [0] := by decide +kernel

theorem target_launching_reserved : (launching.team 1).target.map Target.reserved = some [] := rfl

/-- Refutes O49: its clause on TAKE_LAUNCH_SLOT says that no team changes, but a legal record's slot, once taken, lets an evicted team that has yielded to the
queue reserve a core of its target. -/
theorem not_placementSteps : ¬ Obligations.PlacementSteps := by
  unfold Obligations.PlacementSteps
  intro h
  obtain ⟨hslot, -⟩ := h
  obtain ⟨t, ht, -, htaken⟩ := hslot 0 3 launching trivial
  obtain ⟨-, -, -, -, -, hteams, -⟩ := htaken nextQueue_launching
  have he : t = takeLaunch launching 0 3 := by
    rw [exec_takeLaunchSlot, execTakeLaunchSlot, if_pos nextQueue_launching] at ht
    exact (Host.Outcome.next.inj ht).symm
  have hsame : (takeLaunch launching 0 3).team 1 = launching.team 1 := by
    rw [← he, State.team, State.team, hteams]
  have hres := takeLaunch_launching_reserved
  rw [hsame, target_launching_reserved] at hres
  cases hres

end Sys2Proof.Machine
end

section
/-! PROOF. O57: from an agenda's move to the words of a chain, and what the words of a chain of two read and write. -/

namespace Sys2Proof.Machine

/-! ### What a step does first -/

theorem step_of_urgent {s : State} {i : Instr} (hb : s.boot = .running) (hu : urgent s = some i) : step s = settled (exec i s) := by
  simp only [step, act, hb, hu]

theorem step_of_released {s : State} {m : Move} (hb : s.boot = .running) (hu : urgent s = none) (hr : released s = some m) :
    step s = settled (moveOf { s with waiting := s.waiting.erase m } m) := by
  simp only [step, act, hb, hu, hr]

theorem step_of_agenda {s : State} {m : Move} {r : List Move} (hb : s.boot = .running) (ha : s.agenda = m :: r) (hu : urgent s = none)
    (hr : released s = none) : step s = settled (attempt { s with agenda := r } m) := by
  simp only [step, act, hb, ha, hu, hr]

theorem attempt_of_waits {s : State} {m : Move} (h : moveWaits s m = true) : attempt s m = .next (s.await m) := by simp [attempt, h]

theorem attempt_of_not_waits {s : State} {m : Move} (h : moveWaits s m = false) : attempt s m = moveOf s m := by simp [attempt, h]

/-- A move of the agenda that need not wait is carried out. -/
theorem step_of_move {s : State} {m : Move} {r : List Move} (hb : s.boot = .running) (ha : s.agenda = m :: r) (hu : urgent s = none)
    (hr : released s = none) (hm : moveWaits { s with agenda := r } m = false) : step s = settled (moveOf { s with agenda := r } m) := by
  rw [step_of_agenda hb ha hu hr, attempt_of_not_waits hm]

theorem moveOf_event {i : Instr} (h : i.wellFormed = true) (s : State) : moveOf s (.event i) = exec i s := by simp [moveOf, h]

/-- The first waiting move that need not wait any more is the one released. -/
theorem released_append {s : State} {m : Move} {before after : List Move} (hw : s.waiting = before ++ m :: after) (hb : ∀ x ∈ before, moveWaits s x = true)
    (hm : moveWaits s m = false) : released s = some m := by
  rw [released, hw, List.find?_append, List.find?_eq_none.2 (fun x hx => by simp [hb x hx])]
  simp [hm]

/-- A move that issues is the issue of the set that it selects. -/
theorem moveOf_movedSet {s : State} {m : Move} {l : Nat} {ls : List Nat} (h : movedSet s m = some (l :: ls)) :
    moveOf s m = issueSet s (grpOf l) (l :: ls) := by
  cases m with
  | issue die core quad =>
    rw [movedSet] at h
    simp only [moveOf, issueQuad, h, issueOf]
  | burin die core =>
    rw [movedSet] at h
    simp only [moveOf, issueBurin, h, issueOf]
  | _ => cases h

/-! ### Fetch and checks that every lane passes (R86) -/

theorem Verdict.andThen_eq_pass {a b : Verdict} : a.andThen b = .pass ↔ a = .pass ∧ b = .pass := by
  cases a <;> simp [Verdict.andThen]

theorem lineVerdict_of_fetchVerdict {s : State} {l : Nat} {c : Chain} (h : fetchVerdict s l c = .pass) : lineVerdict s l c = .pass :=
  (Verdict.andThen_eq_pass.1 (Verdict.andThen_eq_pass.1 h).1).1

/-- Lanes that all pass a check are those that passed it, in their order. -/
theorem lanes_passed {f : Nat → Verdict} {ls : List Nat} (h : ∀ l ∈ ls, f l = .pass) :
    ((ls.map (fun l => (l, f l))).filter (fun p => decide (p.2 = .pass))).map Prod.fst = ls := by
  have hall : (ls.map (fun l => (l, f l))).filter (fun p => decide (p.2 = .pass)) = ls.map (fun l => (l, f l)) := by
    refine List.filter_eq_self.2 (fun p hp => ?_)
    obtain ⟨l, hl, rfl⟩ := List.mem_map.1 hp
    simp [h l hl]
  rw [hall, List.map_map]
  exact List.map_id _

theorem lanes_failed_nil {f : Nat → Verdict} {ls : List Nat} (h : ∀ l ∈ ls, f l = .pass) :
    (ls.map (fun l => (l, f l))).filter (fun p => decide (p.2 ≠ .pass)) = [] := by
  refine List.filter_eq_nil_iff.2 (fun p hp => ?_)
  obtain ⟨l, hl, rfl⟩ := List.mem_map.1 hp
  simp [h l hl]

/-- A check that every lane passes leaves the set as it is. -/
theorem runChecks_cons_of_pass {s : State} {k : Nat} {a : DWord} {w : Word} (r : List (Nat × DWord × Word))
    (h : ∀ x ∈ s.issue.lanes, checkStep k (s.atWord a w) x (decodeWord w) = .pass) : runChecks s ((k, a, w) :: r) = runChecks (s.atWord a w) r := by
  have h' : ∀ x ∈ (s.atWord a w).issue.lanes, checkStep k (s.atWord a w) x (decodeWord w) = .pass := h
  simp only [runChecks, lanes_passed h', lanes_failed_nil h']
  rfl

/-- Checks that every lane passes leave the set as it is, with one of the words checked as the word that issues. -/
theorem runChecks_of_pass {cs : List (Nat × DWord × Word)} (hne : cs ≠ []) {s : State}
    (h : ∀ q ∈ cs, ∀ x ∈ s.issue.lanes, checkStep q.1 (s.atWord q.2.1 q.2.2) x (decodeWord q.2.2) = .pass) :
    ∃ q ∈ cs, runChecks s cs = (s.atWord q.2.1 q.2.2, []) := by
  induction cs generalizing s with
  | nil => exact absurd rfl hne
  | cons q r ih =>
    rw [runChecks_cons_of_pass r (h q (List.mem_cons_self ..))]
    by_cases hr : r = []
    · exact ⟨q, List.mem_cons_self .., by rw [hr]; rfl⟩
    · obtain ⟨p, hp, he⟩ := ih hr (s := s.atWord q.2.1 q.2.2) (fun p hp => h p (List.mem_cons_of_mem _ hp))
      exact ⟨p, List.mem_cons_of_mem _ hp, he⟩

theorem mem_checkOrder {ws : List (DWord × Word)} {q : Nat × DWord × Word} : q ∈ checkOrder ws ↔ q.1 ∈ [3, 4, 5, 6, 7] ∧ q.2 ∈ ws := by
  rw [checkOrder, List.mem_flatMap]
  constructor
  · rintro ⟨k, hk, hq⟩
    obtain ⟨p, hp, rfl⟩ := List.mem_map.1 hq
    exact ⟨hk, hp⟩
  · rintro ⟨hk, hq⟩
    exact ⟨q.1, hk, List.mem_map.2 ⟨q.2, hq, rfl⟩⟩

theorem checkOrder_ne_nil {ws : List (DWord × Word)} (h : ws ≠ []) : checkOrder ws ≠ [] := by
  obtain ⟨p, hp⟩ := List.exists_mem_of_ne_nil ws h
  exact List.ne_nil_of_mem (mem_checkOrder.2 ⟨List.mem_cons_self .., hp⟩ : (3, p) ∈ checkOrder ws)

/-! ### A chain that every lane of its set issues (R82, R86, R103) -/

/-- The set's lines entered and its issue begun, its chain about to be checked. -/
def chainBegun (s : State) (gid : Nat) (lanes : List Nat) (c : Chain) (pc : DWord) : State :=
  beginIssue (eachLane (fun s x => s.modThread x (fun t => { t with line := some (lineBase pc) })) (finishLanes s lanes) lanes) gid lanes pc c.next

/-- The checks made for the whole chain, and the PC of its lanes moved behind it. -/
def chainChecked (s : State) (lanes : List Nat) (next : DWord) : State :=
  eachLane (fun s x => s.modThread x (fun t => t.advance next s.clock)) { s with issue := { s.issue with checked := true } } lanes

/-- The bookkeeping when a chain has run: no set issues, and a group that may have blocked gives its place to another. -/
def chainEnded (gid : Nat) (ws : List (DWord × Word)) (s : State) : State :=
  let x := { s with issue := ({} : Issue) }
  if groupIx gid ≠ 32 ∧ (∃ p ∈ ws, mayBlock (decodeWord p.2) = true) then exchange x gid (decide (∃ p ∈ ws, decodeWord p.2 = .yield)) else x

theorem stopChain_nil (s : State) (gid : Nat) (lanes : List Nat) : stopChain s gid lanes [] [] = s := by
  have hs : lanes.foldl (fun (s : State) (_ : Nat) => s) s = s := by
    induction lanes with
    | nil => rfl
    | cons l ls ih => exact ih
  have hf : lanes.filterMap (fun (_ : Nat) => (none : Option (Nat × TrapInfo))) = [] := by simp
  unfold stopChain
  simp only [List.find?_nil, Option.map_none, Option.or_none]
  rw [hs, hf, takeTrap_nil]

theorem chainChecked_atWord (s : State) (lanes : List Nat) (next : DWord) (a : DWord) (w : Word) :
    chainChecked (s.atWord a w) lanes next = (chainChecked s lanes next).atWord a w := by
  have hl : ∀ s : State, eachLane (fun s x => s.modThread x (fun t => t.advance next s.clock)) (s.atWord a w) lanes =
      (eachLane (fun s x => s.modThread x (fun t => t.advance next s.clock)) s lanes).atWord a w := by
    induction lanes with
    | nil => exact fun _ => rfl
    | cons l ls ih => exact fun s => ih (s.modThread l (fun t => t.advance next s.clock))
  exact hl { s with issue := { s.issue with checked := true } }

/-- Which word stood before does not matter to a chain that runs. -/
theorem runWords_atWord {ws : List (DWord × Word)} (h : ws ≠ []) (s : State) (a : DWord) (w : Word) : runWords (s.atWord a w) ws = runWords s ws := by
  cases ws with
  | nil => exact absurd rfl h
  | cons p ws => rfl

/-- A chain whose lanes all pass runs its words in the state in which the set issues. -/
theorem issueChain_of_pass {s : State} {gid : Nat} {lanes : List Nat} {c : Chain} {pc : DWord} (hl : lanes ≠ []) (hw : c.words ≠ [])
    (hf : ∀ x ∈ lanes, fetchVerdict (finishLanes s lanes) x c = .pass)
    (hc : ∀ x ∈ lanes, ∀ p ∈ c.words, ∀ k ∈ [3, 4, 5, 6, 7], checkStep k ((chainBegun s gid lanes c pc).atWord p.1 p.2) x (decodeWord p.2) = .pass) :
    issueChain s gid lanes c pc = match runWords (chainChecked (chainBegun s gid lanes c pc) lanes c.next) c.words with
      | .next v => .next (chainEnded gid c.words v)
      | o => o := by
  have hseen : lanes.filter (fun l => decide (lineVerdict (finishLanes s lanes) l c = .pass)) = lanes :=
    List.filter_eq_self.2 (fun l hm => by simp [lineVerdict_of_fetchVerdict (hf l hm)])
  obtain ⟨q, -, hq⟩ := runChecks_of_pass (checkOrder_ne_nil hw) (s := chainBegun s gid lanes c pc) (fun q hm x hx =>
    hc x hx q.2 (mem_checkOrder.1 hm).2 q.1 (mem_checkOrder.1 hm).1)
  have hlanes : ((chainBegun s gid lanes c pc).atWord q.2.1 q.2.2).issue.lanes = lanes := rfl
  have hempty : lanes.isEmpty = false := by simpa using hl
  have hrun : runWords (chainChecked ((chainBegun s gid lanes c pc).atWord q.2.1 q.2.2) lanes c.next) c.words =
      runWords (chainChecked (chainBegun s gid lanes c pc) lanes c.next) c.words := by
    rw [chainChecked_atWord, runWords_atWord hw]
  rw [← hrun]
  unfold issueChain
  simp only [hseen, lanes_passed hf, lanes_failed_nil hf]
  rw [show beginIssue _ gid lanes pc c.next = chainBegun s gid lanes c pc from rfl, hq]
  simp only [hlanes, hempty, stopChain_nil]
  split
  · next v hv =>
    have hv' : runWords (chainChecked ((chainBegun s gid lanes c pc).atWord q.2.1 q.2.2) lanes c.next) c.words = .next v := hv
    simp [hv', chainEnded]
  · next o ho =>
    cases hr : runWords (chainChecked ((chainBegun s gid lanes c pc).atWord q.2.1 q.2.2) lanes c.next) c.words with
    | next v => exact absurd hr (ho v)
    | fault r => exact hr
    | refused r => exact hr

/-- A set without a fault to deliver issues the chain that its lowest lane has fetched. -/
theorem issueSet_of_chain {s : State} {l : Nat} {ls : List Nat} {c : Chain} (gid : Nat) (hf : ∀ x ∈ l :: ls, (s.thread x).faultComes = false)
    (hc : chainAt s l = .ok c) :
    issueSet s gid (l :: ls) = issueChain (fillTrans s (s.coreOf l) (s.ctxOf l) (s.thread l).pc.toNat) gid (l :: ls) c (s.thread l).pc := by
  have hnone : (l :: ls).find? (fun x => (s.thread x).faultComes) = none := List.find?_eq_none.2 (fun x hx => by simp [hf x hx])
  simp only [issueSet, hnone, hc]

theorem runWords_single (s : State) (a : DWord) (w : Word) :
    runWords s [(a, w)] = match exec (decodeWord w) (s.atWord a w) with
      | .next v => .next (wordDone v (decodeWord w))
      | o => o := rfl

theorem chainEnded_single (gid : Nat) (a : DWord) (w : Word) (s : State) :
    chainEnded gid [(a, w)] s = if groupIx gid ≠ 32 ∧ mayBlock (decodeWord w) = true then exchange { s with issue := ({} : Issue) } gid (decide (decodeWord w = .yield))
      else { s with issue := ({} : Issue) } := by
  simp [chainEnded]

/-! ### The words that a thread's chain holds (R78 to R81, R248, R249) -/

theorem fetchPage_aligned {s : State} {l p : Nat} (h : fetchPage s l = .ok p) : (s.thread l).pc.toNat % 4 = 0 := by
  by_contra hn
  simp [fetchPage, hn] at h

/-- The word at a PC that is a multiple of 4 stands in the PC's slot of its line. -/
theorem lineBase_add_slot (pc : DWord) (h : pc.toNat % 4 = 0) : lineBase pc + dw (4 * bits pc.toNat 6 2) = pc := by
  have hs : dw (4 * bits pc.toNat 6 2) = pc &&& 0x7F#64 := by
    refine BitVec.eq_of_toNat_eq ?_
    have hand : (pc &&& 0x7F#64).toNat = pc.toNat % 128 := Nat.and_two_pow_sub_one_eq_mod pc.toNat 7
    rw [hand]
    simp only [dw, BitVec.toNat_ofNat, bits]
    omega
  have hlow : (pc &&& ~~~0x7F#64) &&& (pc &&& 0x7F#64) = 0#64 := by
    rw [BitVec.and_assoc, BitVec.and_comm pc (0x7F#64), ← BitVec.and_assoc (~~~0x7F#64), show ~~~0x7F#64 &&& 0x7F#64 = 0#64 from rfl, BitVec.zero_and, BitVec.and_zero]
  rw [hs, lineBase, BitVec.add_eq_or_of_and_eq_zero _ _ hlow, ← BitVec.and_or_distrib_left, show ~~~0x7F#64 ||| 0x7F#64 = BitVec.allOnes 64 from rfl, BitVec.and_allOnes]

theorem homeWord_of_clean {s : State} {line slot : Nat} (hd : (s.dirOf line).dirty = false) (hp : (s.dirOf line).privatised = []) :
    homeWord s line slot = memWord s line slot := by
  unfold homeWord
  split <;> simp [Dir.ahead, hd, hp]

theorem homeWord_of_ahead {s : State} {line slot : Nat} {ws : SMap Word} {w : Word} (h : (s.dirOf line).dirty = true ∨ (s.dirOf line).privatised ≠ [])
    (hl : mfind s.homeWords line = some ws) (hs : mfind ws slot = some w) : homeWord s line slot = w := by
  have ha : (s.dirOf line).ahead = true := by simpa [Dir.ahead] using h
  simp [homeWord, hl, hs, ha]

/-- A chain begins with the word that the thread fetches at its PC. -/
theorem chainAt_head {s : State} {l : Nat} {c : Chain} (h : chainAt s l = .ok c) :
    ∃ p, fetchPage s l = .ok p ∧ c.words.head? = some ((s.thread l).pc, fetchedWord s l (p / 128) ((s.thread l).pc.toNat % 128 / 4)) := by
  unfold chainAt at h
  cases hp : fetchPage s l with
  | error v => rw [hp] at h; cases h
  | ok p =>
    rw [hp] at h
    refine ⟨p, rfl, ?_⟩
    cases h
    have hslot : bits (s.thread l).pc.toNat 6 2 = (s.thread l).pc.toNat % 128 / 4 := by simp only [bits]; omega
    have hpc := lineBase_add_slot _ (fetchPage_aligned hp)
    obtain ⟨n, hn⟩ : ∃ n, (if isBurin l then 1 else 3) = n + 1 := by split <;> exact ⟨_, rfl⟩
    simp only [hn, chainFrom, List.head?_cons, hslot] at hpc ⊢
    rw [hpc]
/-! ### Results of a word in its own chain (R82, R98) -/

theorem Thread.src_setReg (t : Thread) (d c : Code) (v : Word) (hc : c.toNat < 120) : (t.setReg d.toNat v).src c = if c = d then v else t.src c := by
  by_cases hd : d.toNat < 120
  · by_cases he : c = d
    · subst he
      simp [Thread.setReg, Thread.src, hd]
    · have hn : c.toNat ≠ d.toNat := fun h => he (BitVec.eq_of_toNat_eq h)
      simp [Thread.setReg, Thread.src, hd, hc, he, mget_mset_other _ _ _ _ _ hn]
  · have he : c ≠ d := fun h => hd (h ▸ hc)
    simp [Thread.setReg, hd, he]

theorem Thread.src_toLatch (t : Thread) (p : Pipe) (c : Code) (v : Word) (hc : c.toNat < 120) : (t.toLatch p v).src c = t.src c := by
  cases p <;> simp [Thread.toLatch, Pipe.latch, Thread.setLatch, Thread.src, hc]

/-- A result of a vector thread reaches its register unless N suppresses it, and no other. -/
theorem Thread.src_dst (t : Thread) (p : Pipe) (n : Bool) (d c : Code) (v : Word) (hc : c.toNat < 120) :
    (t.dst p n d v).src c = if c = d ∧ n = false then v else t.src c := by
  cases n
  · simp [Thread.dst, Thread.src_setReg _ _ _ _ hc, Thread.src_toLatch _ _ _ _ hc]
  · simp [Thread.dst, Thread.src_toLatch _ _ _ _ hc]

/-- The issuing set and the vector registers of every thread are as they were. -/
def KeepsSet (s t : State) : Prop := t.issue = s.issue ∧ ∀ l c, (t.thread l).src c = (s.thread l).src c

theorem KeepsSet.refl (s : State) : KeepsSet s s := ⟨rfl, fun _ _ => rfl⟩

theorem KeepsSet.trans {s t u : State} (h : KeepsSet s t) (k : KeepsSet t u) : KeepsSet s u := ⟨k.1.trans h.1, fun l c => (k.2 l c).trans (h.2 l c)⟩

theorem KeepsSet.of_threads {s t : State} (hi : t.issue = s.issue) (ht : t.threads = s.threads) : KeepsSet s t :=
  ⟨hi, fun l c => by rw [State.thread, State.thread, ht]⟩

theorem modTeam_keepsSet (s : State) (u : Nat) (f : Team → Team) : KeepsSet s (s.modTeam u f) := .of_threads rfl rfl
theorem setSys_keepsSet (s : State) (n : Nat) (v : DWord) : KeepsSet s (s.setSys n v) := .of_threads rfl rfl
theorem modDir_keepsSet (s : State) (l : Nat) (f : Dir → Dir) : KeepsSet s (s.modDir l f) := .of_threads rfl rfl
theorem fitL2_keepsSet (s : State) (d l : Nat) : KeepsSet s (fitL2 s d l) := .of_threads rfl rfl

theorem noteHome_keepsSet (s : State) (l : Loc) : KeepsSet s (noteHome s l) := by
  unfold noteHome
  split
  · exact .refl s
  · exact ((modDir_keepsSet s _ _).trans (fitL2_keepsSet _ _ _)).trans (modDir_keepsSet _ _ _)

theorem OnlyBytes.keepsSet {s t : State} (h : OnlyBytes s t) : KeepsSet s t := .of_threads (by rw [h]) h.threads

theorem deviceOut_keepsSet (s : State) (l : Loc) (bs : List Byte) : KeepsSet s (deviceOut s l bs) := by
  have hn : KeepsSet s (noteHomes s l bs.length) := foldl_keeps (fun t x ht => ht.trans (noteHome_keepsSet t x)) _ s (.refl s)
  exact hn.trans (writeOut_only _ l bs).keepsSet

theorem ringPush_keepsSet {s t : State} {b i n : Nat} {r : List Byte} (e : ringPush s b i n r = some t) : KeepsSet s t := by
  unfold ringPush at e
  split at e
  · cases e
  · simp only at e
    split at e
    · cases e
    · cases e
      exact (deviceOut_keepsSet s _ _).trans (setSys_keepsSet _ _ _)

theorem logError_keepsSet (s : State) (k : Nat) (u : UnitId) (a : Nat) (c : Option Nat) (w : Word) : KeepsSet s (logError s k u a c w) := by
  unfold logError
  simp only
  split
  · next e => exact (ringPush_keepsSet e).trans (.of_threads rfl rfl)
  · exact setSys_keepsSet s _ _

theorem numericIrq_keepsSet (s : State) (u : Nat) (m : Bool) (c : Nat) : KeepsSet s (numericIrq s u m c) :=
  (logError_keepsSet s _ _ _ _ _).trans (.of_threads rfl rfl)

theorem pendFault_keepsSet (s : State) (x : Nat) (f : TrapInfo) : KeepsSet s (pendFault s x f) := by
  refine ⟨rfl, fun l c => ?_⟩
  simp only [State.thread, pendFault, mget, mfind_mmod]
  split
  · cases mfind s.threads l <;> rfl
  · rfl

theorem pendFaults_keepsSet (f : TrapInfo) (ps : List (Nat × Nat)) (s : State) : KeepsSet s (pendFaults s f ps) := by
  induction ps generalizing s with
  | nil => exact .refl s
  | cons p ps ih => exact (pendFault_keepsSet s _ _).trans (ih _)

theorem fireAction_keepsSet (s : State) (u : Nat) (m : Bool) (c : Nat) (ts : List (Nat × Nat)) (w : Word) : KeepsSet s (fireAction s u m c ts w) := by
  unfold fireAction
  simp only
  split
  · split
    · exact pendFaults_keepsSet _ _ _
    · split
      · exact pendFault_keepsSet _ _ _
      · exact numericIrq_keepsSet _ _ _ _
  · exact numericIrq_keepsSet _ _ _ _
  · exact .refl s

theorem countEvents_keepsSet (s : State) (u : Nat) (m : Bool) (c n : Nat) (ts : List (Nat × Nat)) (w : Word) : KeepsSet s (countEvents s u m c n ts w) := by
  unfold countEvents
  split
  · exact .refl s
  · simp only
    split
    · exact (modTeam_keepsSet s _ _).trans (fireAction_keepsSet _ _ _ _ _ _)
    · exact modTeam_keepsSet s _ _

theorem sumEvents_keepsSet (s : State) (u c n : Nat) : KeepsSet s (sumEvents s u c n) := by
  unfold sumEvents
  simp only
  split
  · exact .refl s
  · exact setSys_keepsSet s _ _

/-- The events of a word change no register and not the set. -/
theorem raiseEvents_keepsSet (s : State) (u : Nat) (sl : Option Word) (evs : List ((Nat × Nat) × List Nat)) (w : Word) :
    KeepsSet s (raiseEvents s u sl evs w) := by
  refine eachLane_keeps (p := KeepsSet s) (fun t c ht => ?_) s _ (.refl s)
  simp only
  split
  · exact ht.trans (sumEvents_keepsSet _ _ _ _)
  · exact ht.trans (countEvents_keepsSet _ _ _ _ _ _ _)

/-! ### Chains of two words (R82) -/

/-- A checked set of vector threads with a snapshot of each. -/
def SetReady (s : State) : Prop := s.SetOk ∧ s.issue.checked = true ∧ ∀ l ∈ s.issue.lanes, isBurin l = false ∧ (mfind s.issue.snap l).isSome = true

/-- A word that completes with one result per lane, a function of the lane's sources, and changes no other register and not the set. -/
def RegGives (i : Instr) (n : Bool) (d : Code) (f : (Code → Word) → Word) : Prop :=
  ∀ s, SetReady s → ∃ t, exec i s = .next t ∧ t.issue = s.issue ∧
    ∀ l ∈ s.issue.lanes, ∀ c : Code, c.toNat < 120 → (t.thread l).src c = if c = d ∧ n = false then f (s.src l) else (s.thread l).src c

theorem SetReady.runs {s : State} (h : SetReady s) (i : Instr) : Runs i s := ⟨h.1, .inl h.2.1⟩

/-- The words of `aluWord`. -/
theorem aluWord_regGives {i : Instr} {n : Bool} {d : Code} {f : (w : Nat) → (Code → BitVec w) → BitVec w} (he : ∀ s, exec i s = aluWord i n d f s) :
    RegGives i n d (f 32) := by
  intro s h
  have hg := aluWord_gives i n d f he (fun w r v => v = f w r) (fun _ => rfl) (fun _ => rfl)
  obtain ⟨t, ht, honly, hlane⟩ := hg s (h.runs i)
  refine ⟨t, ht, by rw [honly.1], fun l hl c hc => ?_⟩
  have hth := hlane l hl
  obtain ⟨hb, -⟩ := h.2.2 l hl
  simp only [hb, Bool.false_eq_true, ↓reduceIte, exists_eq_left] at hth
  rw [hth, Thread.src_dst _ _ _ _ _ _ hc]

theorem putAll_map (p : Pipe) (n : Bool) (d : Code) (f : Nat → FRes) (s : State) (ls : List Nat) :
    putAll p n d s (ls.map (fun l => (l, f l))) = eachLane (fun s l => s.put p l n d (f l).1) s ls := by
  induction ls generalizing s with
  | nil => rfl
  | cons l ls ih => exact ih _

/-- The words of `floatWord`. -/
theorem floatWord_regGives {i : Instr} {p : Pipe} {n : Bool} {d : Code} {slot : Option (BitVec 3)} {f : (Code → Word) → FRes}
    (he : ∀ s, exec i s = floatWord i p n d slot (fun s l => f (s.src l)) s) : RegGives i n d (fun r => (f r).1) := by
  intro s h
  rw [he, floatWord, issued_eq (h.runs i)]
  refine ⟨_, rfl, ?_⟩
  simp only [putAll_map]
  have hk := raiseEvents_keepsSet (eachLane (fun t l => t.put p l n d (f (s.src l)).1) s s.issue.lanes) s.issueTeam
    (slot.map (fun k => slotWord s s.issueTeam k.toNat)) ((s.issue.lanes.map (fun l => (l, f (s.src l)))).map (fun r => ((r.1, s.runOf r.1), r.2.2))) s.issue.word
  have hput := eachLane_threads (fun t l => if isBurin l then (t.thread l).gdst n d (((f (s.src l)).1).setWidth 64) else (t.thread l).dst p n d (f (s.src l)).1)
    (fun t l => t.put p l n d (f (s.src l)).1) s.issue.lanes (nodup_of_sorted h.1.2.1) (fun t l => rfl)
    (fun t l m hm x => by simp only [State.thread_setThread_other t m l x hm]) s
  obtain ⟨honly, -, hlane⟩ := hput
  refine ⟨hk.1.trans (by rw [honly]), fun l hl c hc => ?_⟩
  obtain ⟨hb, -⟩ := h.2.2 l hl
  rw [hk.2, hlane l hl]
  simp only [hb, Bool.false_eq_true, ↓reduceIte]
  rw [Thread.src_dst _ _ _ _ _ _ hc]

theorem noteStack_frame (s : State) (i : Instr) : (noteStack s i).threads = s.threads ∧ (noteStack s i).issue = s.issue := by
  unfold noteStack
  simp only
  split <;> exact ⟨rfl, rfl⟩

theorem countUnits_frame (s : State) (u : Nat) (m : Bool) (n : Nat) : (countUnits s u m n).threads = s.threads ∧ (countUnits s u m n).issue = s.issue := by
  unfold countUnits
  split <;> exact ⟨rfl, rfl⟩

/-- A word that has executed changes no thread, and of the set the latches kept alone. -/
theorem wordDone_frame (s : State) (i : Instr) : (wordDone s i).threads = s.threads ∧ (wordDone s i).issue = { s.issue with kept := s.issue.kept ++ keptLatch i } := by
  obtain ⟨ht, hi⟩ := noteStack_frame s i
  unfold wordDone
  simp only
  split
  · exact ⟨ht, by rw [hi]⟩
  · obtain ⟨ct, ci⟩ := countUnits_frame { (noteStack s i) with issue := { (noteStack s i).issue with kept := (noteStack s i).issue.kept ++ keptLatch i } }
      (noteStack s i).issueTeam false (noteStack s i).issue.lanes.length
    exact ⟨ct.trans ht, ci.trans (by rw [hi])⟩

theorem wordDone_src (s : State) (i : Instr) (l : Nat) (c : Code) : ((wordDone s i).thread l).src c = (s.thread l).src c := by
  rw [State.thread, (wordDone_frame s i).1, State.thread]

/-- The sources of a lane with a snapshot are those of the snapshot. -/
theorem State.src_of_snap {s t : State} {l : Nat} (hs : t.issue.snap = s.issue.snap) (h : (mfind s.issue.snap l).isSome = true) : t.src l = s.src l := by
  obtain ⟨th, hth⟩ := Option.isSome_iff_exists.1 h
  funext c
  simp only [State.src, State.pre, hs, hth, Option.getD_some]

/-- Two words of one chain: the second reads what stood before the first. -/
theorem runWords_pair {i j : Instr} {n m : Bool} {d e : Code} {f g : (Code → Word) → Word} (hi : RegGives i n d f) (hj : RegGives j m e g) {s : State}
    (h : SetReady s) {a1 a2 : DWord} {w1 w2 : Word} (h1 : decodeWord w1 = i) (h2 : decodeWord w2 = j) :
    ∃ t, runWords s [(a1, w1), (a2, w2)] = .next t ∧ ∀ l ∈ s.issue.lanes, ∀ c : Code, c.toNat < 120 → (t.thread l).src c =
      if c = e ∧ m = false then g (s.src l) else if c = d ∧ n = false then f (s.src l) else (s.thread l).src c := by
  obtain ⟨t, ht, hti, htl⟩ := hi (s.atWord a1 w1) h
  have hissue : ((wordDone t i).atWord a2 w2).issue = { s.issue with kept := s.issue.kept ++ keptLatch i, word := w2, addr := a2 } := by
    rw [State.atWord_issue, (wordDone_frame t i).2, hti]
    rfl
  have hready : SetReady ((wordDone t i).atWord a2 w2) := by
    unfold SetReady State.SetOk
    rw [hissue]
    exact h
  obtain ⟨u, hu, -, hul⟩ := hj ((wordDone t i).atWord a2 w2) hready
  refine ⟨wordDone u j, by simp only [runWords, h1, h2, ht, hu], fun l hl c hc => ?_⟩
  obtain ⟨-, hsnap⟩ := h.2.2 l hl
  have hsrc : ((wordDone t i).atWord a2 w2).src l = s.src l := State.src_of_snap (by rw [hissue]) hsnap
  have hfirst : (((wordDone t i).atWord a2 w2).thread l).src c = if c = d ∧ n = false then f (s.src l) else (s.thread l).src c :=
    (wordDone_src t i l c).trans (htl l hl c hc)
  rw [wordDone_src, hul l (by rw [hissue]; exact hl) c hc, hsrc, hfirst]

/-- The integer words of the statement. -/
theorem alu_regGives (n : Bool) (d a b : Code) :
    ∀ p ∈ [(Instr.add n d a b, fun r : Code → Word => r a + r b), (.sub n d a b, fun r => r a - r b), (.mad n d a b, fun r => r d + r a * r b)],
      RegGives p.1 n d p.2 := by
  simp only [List.forall_mem_cons, List.not_mem_nil, false_implies, implies_true, and_true]
  exact ⟨aluWord_regGives (f := fun _ r => r a + r b) (fun _ => rfl), aluWord_regGives (f := fun _ r => r a - r b) (fun _ => rfl),
    aluWord_regGives (f := fun _ r => r d + r a * r b) (fun _ => rfl)⟩

/-- The float words of the statement. -/
theorem float_regGives (m : Bool) (e x y : Code) :
    ∀ p ∈ [(Instr.fadd m e x y, fun r : Code → Word => (faddOp (r x) (r y)).1), (.fmul m e x y, fun r => (fmulOp (r x) (r y)).1),
      (.ffma m e x y, fun r => (ffmaOp (r e) (r x) (r y)).1)], RegGives p.1 m e p.2 := by
  simp only [List.forall_mem_cons, List.not_mem_nil, false_implies, implies_true, and_true]
  exact ⟨floatWord_regGives (f := fun r => faddOp (r x) (r y)) (fun _ => rfl), floatWord_regGives (f := fun r => fmulOp (r x) (r y)) (fun _ => rfl),
    floatWord_regGives (f := fun r => ffmaOp (r e) (r x) (r y)) (fun _ => rfl)⟩

/-! ### The statement -/

/-- The state in which a set fetches: the translation of its PC is cached. -/
def stateFetching (s : State) (l : Nat) : State := fillTrans s (s.coreOf l) (s.ctxOf l) (s.thread l).pc.toNat

/-- A move that selects a set whose chain passes its checks runs the words of the chain. -/
theorem moveOf_chain {s : State} {m : Move} {l : Nat} {ls : List Nat} {c : Chain} (hsel : movedSet s m = some (l :: ls))
    (hfault : ∀ x ∈ l :: ls, (s.thread x).faultComes = false) (hc : chainAt s l = .ok c) (hw : c.words ≠ [])
    (hf : ∀ x ∈ l :: ls, fetchVerdict (finishLanes (stateFetching s l) (l :: ls)) x c = .pass)
    (hk : ∀ x ∈ l :: ls, ∀ p ∈ c.words, ∀ k ∈ [3, 4, 5, 6, 7],
      checkStep k ((chainBegun (stateFetching s l) (grpOf l) (l :: ls) c (s.thread l).pc).atWord p.1 p.2) x (decodeWord p.2) = .pass) :
    moveOf s m = match runWords (chainChecked (chainBegun (stateFetching s l) (grpOf l) (l :: ls) c (s.thread l).pc) (l :: ls) c.next) c.words with
      | .next v => .next (chainEnded (grpOf l) c.words v)
      | o => o := by
  rw [moveOf_movedSet hsel, issueSet_of_chain _ hfault hc]
  exact issueChain_of_pass (List.cons_ne_nil _ _) hw hf hk

/-- Settles O57: a step is the move, or the event, that `act` chooses; a set's move runs the words of the chain that its lanes all pass, and of two words of a chain
the second reads the snapshot that was taken before the first. -/
theorem stepRunsDecoded : Obligations.StepRunsDecoded := by
  unfold Obligations.StepRunsDecoded
  refine ⟨?single, ?chain, ?pair, ?fetched, ?event, ?waits, ?released, fun s i hb hu => step_of_urgent hb hu⟩
  case single =>
    intro s m r l ls c a w hb ha hu hr hm s1 pc s2 s3 s4 s5 hsel hfault hc hw hf hk
    have hk' : ∀ x ∈ l :: ls, ∀ p ∈ c.words, ∀ k ∈ [3, 4, 5, 6, 7],
        checkStep k ((chainBegun (stateFetching s1 l) (grpOf l) (l :: ls) c pc).atWord p.1 p.2) x (decodeWord p.2) = .pass := by
      rw [hw]
      intro x hx p hp
      rw [List.mem_singleton.1 hp]
      exact hk x hx
    rw [step_of_move hb ha hu hr hm, moveOf_chain hsel hfault hc (by rw [hw]; exact List.cons_ne_nil _ _) hf hk', hw, runWords_single, ← chainChecked_atWord]
    have hs5 : chainChecked ((chainBegun (stateFetching s1 l) (grpOf l) (l :: ls) c pc).atWord a w) (l :: ls) c.next = s5 := rfl
    rw [show (s1.thread l).pc = pc from rfl, hs5]
    cases exec (decodeWord w) s5 with
    | next v => simp only [chainEnded_single]
    | fault f => rfl
    | refused f => rfl
  case chain =>
    intro s m r l ls c hb ha hu hr hm s1 pc s2 s3 s4 s5 hsel hfault hc hw hf hk
    rw [step_of_move hb ha hu hr hm, moveOf_chain hsel hfault hc hw hf hk]
    have hs5 : chainChecked (chainBegun (stateFetching s1 l) (grpOf l) (l :: ls) c pc) (l :: ls) c.next = s5 := rfl
    rw [show (s1.thread l).pc = pc from rfl, hs5]
    cases runWords s5 c.words <;> rfl
  case pair =>
    intro n m d e a b x y alu float p hp q hq k hk s a1 a2 w1 w2 hset hchecked hlanes h1 h2
    have hi := alu_regGives n d a b p hp
    have hj := float_regGives m e x y q hq
    have hready : SetReady s := ⟨hset, hchecked, hlanes⟩
    simp only [List.mem_cons, List.not_mem_nil, or_false] at hk
    obtain rfl | rfl := hk
    · exact runWords_pair hi hj hready h1 h2
    · exact runWords_pair hj hi hready h1 h2
  case fetched =>
    intro s l c h
    obtain ⟨p, hp, hhead⟩ := chainAt_head h
    refine ⟨p, hp, fun hheld => ?_⟩
    rw [fetchedWord, hheld, Option.getD_none] at hhead
    have hplace : p / 128 * 128 + 4 * ((s.thread l).pc.toNat % 128 / 4) = p / 128 * 128 + (s.thread l).pc.toNat % 128 := by
      have := fetchPage_aligned hp
      omega
    refine ⟨fun hd hpriv => ?_, fun ws w hahead hl hs => ?_⟩
    · rw [hhead, homeWord_of_clean hd hpriv, memWord, hplace]
      rfl
    · rw [hhead, homeWord_of_ahead hahead hl hs]
  case event =>
    intro s i r hb ha hu hr hm hwf
    rw [step_of_move hb ha hu hr hm, moveOf_event hwf]
  case waits =>
    intro s m r hb ha hu hr hm
    rw [step_of_agenda hb ha hu hr, attempt_of_waits hm]
    rfl
  case released =>
    intro s i before after hb hu hw hbefore hm hfirst hwf
    rw [step_of_released hb hu (released_append hw hbefore hm), hw, List.erase_append_right _ hfirst, List.erase_cons_head, moveOf_event hwf]

end Sys2Proof.Machine
end

section
/-! PROOF. O42 fails: a root whose queue is none of the part's gets no completion entry. -/

namespace Sys2Proof.Machine

/-- The thread that signals: the pair v4, v5 holds 0x30000. -/
def StrayRoot.thread : Thread := { regs := [(4, 0x30000)], pc := 0x20004, sp := 1024 }

/-- A root node that runs, whose graph a queue 1024 would have started: the part's last queue is 1023. -/
def StrayRoot.root : Node :=
  { ctx := 0, die := 0, addr := 0x30000, q := 1024, seq := 0, root := true, slot := none, done := none }

/-- Lane 0 of team 1 issues DG.SIGNAL v3, v4 for the node, whose record at 0x30000 is of kind 4 with status 1. -/
def StrayRoot.state : State :=
  let s := placeWord State.reset 0x76406100
  { writeNat (writeNat s (.phys 0x30000) 1 4) (.phys 0x3001A) 2 1 with
    threads := [(tidOf 1 0 0, thread)]
    nodes := [root]
    issue := { group := gidOf 1 0, lanes := [tidOf 1 0 0], snap := [(tidOf 1 0 0, thread)], pc := 0x20000, word := 0x76406100, addr := 0x20000, next := 0x20004 } }

open StrayRoot

theorem verdict_strayRoot : verdict state (tidOf 1 0 0) (.dgSignal 3 4) = .pass := by decide +kernel

theorem alone_strayRoot : Alone (.dgSignal 3 4) state (tidOf 1 0 0) :=
  ⟨⟨by decide, by decide, by decide⟩, rfl, verdict_strayRoot, rfl⟩

theorem Alone.runs {i : Instr} {s : State} {l : Nat} (h : Alone i s l) : Runs i s := by
  obtain ⟨hset, hlanes, hpass, -⟩ := h
  refine ⟨hset, .inr (fun x hx => ?_)⟩
  rw [hlanes, List.mem_singleton] at hx
  rw [hx, hpass]

theorem ctx_strayRoot : (state.team (teamOf (tidOf 1 0 0))).ctx = 0 := by decide +kernel
theorem address_strayRoot : state.src64 (tidOf 1 0 0) 4 = 0x30000 := by decide +kernel

/-- The record's page may be read and written. -/
theorem checkPage_strayRoot : checkPage state (state.team (teamOf (tidOf 1 0 0))).coreId (state.team (teamOf (tidOf 1 0 0))).ctx (teamOf (tidOf 1 0 0))
    (state.src64 (tidOf 1 0 0) 4) 64 .atomic true true = .at (.phys 0x30000) 0x67 (2 ^ 30) := by decide +kernel

theorem kind_strayRoot : readNat state (.phys 0x30000) 1 = 4 := by decide +kernel
theorem status_strayRoot : readNat state (.phys (0x30000 + 26)) 2 = 1 := by decide +kernel
theorem devicePlace_strayRoot : devicePlace state root.ctx (root.addr + 26) = some (0x30000 + 26) := by decide +kernel

/-- The address of the lane names the node. -/
theorem node_strayRoot : state.node 0 0x30000 = some root := by decide +kernel

/-- The node has finished, and there is no completion entry. -/
theorem signalLane_strayRoot_completions : (signalLane 3 4 state (tidOf 1 0 0)).completions = [] := by decide +kernel

/-- Refutes O42: its clause on DG.SIGNAL promises a completion entry for every root node that finishes, and it speaks of every state; where the queue that a
root names is none of the part's 1,024, the finish adds no entry (R54, log 75). -/
theorem not_launchAndSignal : ¬ Obligations.LaunchAndSignal := by
  unfold Obligations.LaunchAndSignal
  intro h
  obtain ⟨-, hsignal⟩ := h 3 4
  obtain ⟨t, v, ht, -, -, -, -, -, -, hfinish⟩ := hsignal state (tidOf 1 0 0) 0x30000 0x67 (2 ^ 30) alone_strayRoot rfl rfl checkPage_strayRoot
  rw [ctx_strayRoot, address_strayRoot, ← State.node, node_strayRoot, Option.some_or, Option.getD_some] at hfinish
  obtain ⟨-, hleft⟩ := hfinish kind_strayRoot status_strayRoot rfl
  obtain ⟨-, -, hcompletions⟩ := hleft rfl devicePlace_strayRoot
  have he : t = signalLane 3 4 state (tidOf 1 0 0) := by
    rw [exec_dgSignal, execDgSignal, issued_eq alone_strayRoot.runs] at ht
    exact (Host.Outcome.next.inj ht).symm
  rw [he, signalLane_strayRoot_completions] at hcompletions
  cases hcompletions

end Sys2Proof.Machine
end

section
/-! PROOF. O48 fails: an append that is refused may record a malformed page-table entry. -/

namespace Sys2Proof.Machine

/-- The error ring is on at 0x20000, queue 0 is disabled, and the root table of its owner, context 0, begins at 0x10000 with a valid entry whose zero field
[7:2] is 1. -/
def RefusedAppend.state : State :=
  { State.reset with boot := .running, sys := [(0, 0x10000), (0x6012, 0x20004)], mem := [(0x10000, 5)] }

open RefusedAppend

theorem qEnabled_refusedAppend : qEnabled state 0 = false := by decide +kernel

theorem mem_refusedAppend : mget unwritten state.mem 0x20000 = 0 := by decide +kernel

/-- Reading the record from address 0 has met the malformed entry: the first byte of the error ring is the kind of its record, 4 (R201, R418). -/
theorem appendRegister_refusedAppend_mem : mget unwritten (appendRegister state 0 0).mem 0x20000 = 4 := by decide +kernel

/-- Refutes O48: its first clause says that an append with another outcome than 0 leaves memory as it was, but the record is read whatever the outcome, and
a malformed entry that this read meets is written to the error ring. -/
theorem not_registerEvents : ¬ Obligations.RegisterEvents := by
  unfold Obligations.RegisterEvents
  intro h
  obtain ⟨happend, -⟩ := h
  obtain ⟨t, ht, o, -, -, -, -, ho, hrefused, -⟩ := happend 0 0 (by decide) state trivial
  rw [if_pos (.inl qEnabled_refusedAppend)] at ho
  obtain ⟨hmem, -, -⟩ := hrefused (by omega)
  have he : t = appendRegister state 0 0 := by
    rw [exec_qappAppend, execQappAppend] at ht
    exact (Host.Outcome.next.inj ht).symm
  have hring := appendRegister_refusedAppend_mem
  rw [← he, hmem, mem_refusedAppend] at hring
  cases hring

end Sys2Proof.Machine
end

section
/-! PROOF. O56 fails: a threshold of a die that the part does not have is passed over. -/

namespace Sys2Proof.Machine

/-- A device before its boot, with one event in its agenda. -/
def unbooted (i : Instr) : State := { State.reset with agenda := [.event i] }

/-- A threshold of a third die is no event of the part: the step passes over it. -/
theorem step_unbooted_thirdDie : step (unbooted (.thermalThreshold 2)) = .next (settle State.reset) := rfl

theorem settle_reset_irqs : (settle State.reset).irqs = [] := by decide +kernel

theorem settle_heat_reset_irqs : (settle (heat State.reset 2)).irqs = [.thermal 2] := by decide +kernel

/-- Refutes O56: its third clause says that the management controller answers a threshold of any die, but a step carries out only that of a die which the
part has: at a threshold of die 2 no interrupt is raised (R447). -/
theorem not_resetState : ¬ Obligations.ResetState := by
  unfold Obligations.ResetState
  intro h
  obtain ⟨-, -, hwatch, -, -⟩ := h
  have hstep := hwatch (unbooted (.thermalThreshold 2)) (.thermalThreshold 2) [] (.inl rfl) rfl (.inr ⟨2, rfl⟩)
  have hreset : { (unbooted (.thermalThreshold 2)) with agenda := [] } = State.reset := rfl
  rw [step_unbooted_thirdDie, hreset, exec_thermalThreshold, execThermalThreshold, settled] at hstep
  have hirqs := congrArg State.irqs (Host.Outcome.next.inj hstep)
  rw [settle_reset_irqs, settle_heat_reset_irqs] at hirqs
  cases hirqs

end Sys2Proof.Machine
end

section
/-! PROOF. O55 and O54: a word is the fields of its format, each decoder answers the instruction of the fields it reads, and each instruction's word has its operands as fields. -/

namespace Sys2Proof.Machine

set_option Elab.async false

open Sys2Proof.Laws.pipes (extract_low extract_high)

/-! ### A word is the fields of its format (R87) -/

theorem ofBool_getLsbD (w : Word) (k : Nat) : BitVec.ofBool (w.getLsbD k) = w.extractLsb' k 1 := by
  ext i hi
  obtain rfl : i = 0 := by omega
  simp

theorem getLsbD_eq_iff {w : Word} {k : Nat} {b : Bool} : w.getLsbD k = b ↔ w.extractLsb' k 1 = BitVec.ofBool b := by
  rw [← ofBool_getLsbD]; cases b <;> cases w.getLsbD k <;> decide

/-- Fields that stand side by side are one. -/
theorem extract_join {p q s e : Nat} (w : Word) (h : e = s + q) : w.extractLsb' e p ++ w.extractLsb' s q = w.extractLsb' s (p + q) :=
  BitVec.extractLsb'_append_extractLsb'_eq_extractLsb' h

/-- A field is two fields where it is one value above another. -/
theorem append_field_iff (s q p e : Nat) (h : e = s + q) {w : Word} {x : BitVec p} {y : BitVec q} :
    w.extractLsb' s (p + q) = x ++ y ↔ w.extractLsb' e p = x ∧ w.extractLsb' s q = y := by
  rw [← extract_join w h]
  constructor
  · intro k
    have hx := congrArg (BitVec.extractLsb' q p) k
    have hy := congrArg (BitVec.extractLsb' 0 q) k
    rw [BitVec.extractLsb'_append_eq_left, BitVec.extractLsb'_append_eq_left] at hx
    rw [BitVec.extractLsb'_append_eq_right, BitVec.extractLsb'_append_eq_right] at hy
    exact ⟨hx, hy⟩
  · rintro ⟨rfl, rfl⟩
    rfl

/-- A field is two fields where it is a number. -/
theorem literal_field_iff (s q p e r : Nat) (h : e = s + q) (k : r = p + q) {w : Word} {v : Nat} :
    w.extractLsb' s r = BitVec.ofNat r v ↔ w.extractLsb' e p = BitVec.ofNat p (v / 2 ^ q) ∧ w.extractLsb' s q = BitVec.ofNat q v := by
  subst k
  rw [← append_field_iff s q p e h]
  suffices hv : BitVec.ofNat (p + q) v = BitVec.ofNat p (v / 2 ^ q) ++ BitVec.ofNat q v by rw [hv]
  apply BitVec.eq_of_toNat_eq
  rw [BitVec.toNat_append, BitVec.toNat_ofNat, BitVec.toNat_ofNat, BitVec.toNat_ofNat, ← Nat.shiftLeft_add_eq_or_of_lt (Nat.mod_lt _ (Nat.two_pow_pos q)),
    Nat.shiftLeft_eq, Nat.pow_add', Nat.mod_mul, Nat.mul_comm, Nat.add_comm]

/-- The chain bit is clear and the major opcode is `m`. -/
def HasMajor (w : Word) (m : BitVec 6) : Prop := w.extractLsb' 31 1 = 0#1 ∧ (major w).toNat = m.toNat

variable {w : Word} {m : BitVec 6} {n : Bool} {d a b : Code}

@[simp] theorem triW_eq_iff {f : BitVec 3} : triW m n d a b f = w ↔ HasMajor w m ∧ fN w = n ∧ fD w = d ∧ fA w = a ∧ fB w = b ∧ (w.extractLsb' 0 3).toNat = f.toNat := by
  unfold HasMajor major fN fD fA fB
  rw [BitVec.toNat_inj, BitVec.toNat_inj, getLsbD_eq_iff]
  constructor
  · rintro rfl
    simp (disch := decide) only [triW, extract_low, extract_high, BitVec.extractLsb'_eq_self, Nat.reduceSub, and_self]
  · rintro ⟨⟨hc, rfl⟩, hn, rfl, rfl, rfl, rfl, rfl⟩
    rw [triW, ← hc, ← hn]
    simp (disch := decide) only [extract_join]
    exact BitVec.extractLsb'_eq_self

@[simp] theorem immW_eq_iff {x : BitVec 10} : immW m n d a x = w ↔ HasMajor w m ∧ fN w = n ∧ fD w = d ∧ fA w = a ∧ w.extractLsb' 0 10 = x := by
  unfold HasMajor major fN fD fA
  rw [BitVec.toNat_inj, getLsbD_eq_iff]
  constructor
  · rintro rfl
    simp (disch := decide) only [immW, extract_low, extract_high, BitVec.extractLsb'_eq_self, Nat.reduceSub, and_self]
  · rintro ⟨⟨hc, rfl⟩, hn, rfl, rfl, rfl⟩
    rw [immW, ← hc, ← hn]
    simp (disch := decide) only [extract_join]
    exact BitVec.extractLsb'_eq_self

@[simp] theorem uprW_eq_iff {x : BitVec 18} : uprW m d x = w ↔ HasMajor w m ∧ w.extractLsb' 18 7 = d ∧ w.extractLsb' 0 18 = x := by
  unfold HasMajor major 
  rw [BitVec.toNat_inj]
  constructor
  · rintro rfl
    simp (disch := decide) only [uprW, extract_low, extract_high, BitVec.extractLsb'_eq_self, Nat.reduceSub, and_self]
  · rintro ⟨⟨hc, rfl⟩, rfl, rfl⟩
    rw [uprW, ← hc]
    simp (disch := decide) only [extract_join]
    exact BitVec.extractLsb'_eq_self

@[simp] theorem braW_eq_iff {h : BitVec 2} {x : BitVec 5} {y : BitVec 11} : braW m h a x y = w ↔ HasMajor w m ∧ w.extractLsb' 23 2 = h ∧ w.extractLsb' 16 7 = a ∧ w.extractLsb' 11 5 = x ∧ w.extractLsb' 0 11 = y := by
  unfold HasMajor major 
  rw [BitVec.toNat_inj]
  constructor
  · rintro rfl
    simp (disch := decide) only [braW, extract_low, extract_high, BitVec.extractLsb'_eq_self, Nat.reduceSub, and_self]
  · rintro ⟨⟨hc, rfl⟩, rfl, rfl, rfl, rfl⟩
    rw [braW, ← hc]
    simp (disch := decide) only [extract_join]
    exact BitVec.extractLsb'_eq_self

@[simp] theorem jmpW_eq_iff {h : BitVec 2} {x : BitVec 5} {y : BitVec 18} : jmpW m h x y = w ↔ HasMajor w m ∧ w.extractLsb' 23 2 = h ∧ w.extractLsb' 18 5 = x ∧ w.extractLsb' 0 18 = y := by
  unfold HasMajor major 
  rw [BitVec.toNat_inj]
  constructor
  · rintro rfl
    simp (disch := decide) only [jmpW, extract_low, extract_high, BitVec.extractLsb'_eq_self, Nat.reduceSub, and_self]
  · rintro ⟨⟨hc, rfl⟩, rfl, rfl, rfl⟩
    rw [jmpW, ← hc]
    simp (disch := decide) only [extract_join]
    exact BitVec.extractLsb'_eq_self

@[simp] theorem memW_eq_iff {r : BitVec 2} {z : BitVec 3} {o : BitVec 5} : memW m n d a r z o = w ↔ HasMajor w m ∧ fN w = n ∧ fD w = d ∧ fA w = a ∧ w.extractLsb' 8 2 = r ∧ w.extractLsb' 5 3 = z ∧ w.extractLsb' 0 5 = o := by
  unfold HasMajor major fN fD fA
  rw [BitVec.toNat_inj, getLsbD_eq_iff]
  constructor
  · rintro rfl
    simp (disch := decide) only [memW, extract_low, extract_high, BitVec.extractLsb'_eq_self, Nat.reduceSub, and_self]
  · rintro ⟨⟨hc, rfl⟩, hn, rfl, rfl, rfl, rfl, rfl⟩
    rw [memW, ← hc, ← hn]
    simp (disch := decide) only [extract_join]
    exact BitVec.extractLsb'_eq_self

@[simp] theorem extW_eq_iff {f : BitVec 5} {x : BitVec 6} : extW m f d a x = w ↔ HasMajor w m ∧ (w.extractLsb' 20 5).toNat = f.toNat ∧ xD w = d ∧ xA w = a ∧ w.extractLsb' 0 6 = x := by
  unfold HasMajor major xD xA
  rw [BitVec.toNat_inj, BitVec.toNat_inj]
  constructor
  · rintro rfl
    simp (disch := decide) only [extW, extract_low, extract_high, BitVec.extractLsb'_eq_self, Nat.reduceSub, and_self]
  · rintro ⟨⟨hc, rfl⟩, rfl, rfl, rfl, rfl⟩
    rw [extW, ← hc]
    simp (disch := decide) only [extract_join]
    exact BitVec.extractLsb'_eq_self

/-! ### The chain bit (R81) -/

/-- The word with its chain bit cleared. -/
def unchained (w : Word) : Word := w &&& 0x7FFFFFFF

theorem getLsbD_unchained (w : Word) (k : Nat) : (unchained w).getLsbD k = (w.getLsbD k && decide (k < 31)) := by
  have h : (0x7FFFFFFF : Word) = (BitVec.allOnes 31).setWidth 32 := by decide
  rw [unchained, h, BitVec.getLsbD_and, BitVec.getLsbD_setWidth, BitVec.getLsbD_allOnes]
  by_cases hk : k < 31
  · simp [hk, show k < 32 by omega]
  · simp [hk]

@[simp] theorem extract_unchained {s r : Nat} (h : s + r ≤ 31) : (unchained w).extractLsb' s r = w.extractLsb' s r := by
  apply BitVec.eq_of_getLsbD_eq
  intro k hk
  rw [BitVec.getLsbD_extractLsb', BitVec.getLsbD_extractLsb', getLsbD_unchained, decide_eq_true (show s + k < 31 by omega), Bool.and_true]

theorem chainBit_unchained (w : Word) : (unchained w).getLsbD 31 = false := by
  rw [getLsbD_unchained]; exact Bool.and_false _

@[simp] theorem hasMajor_unchained : HasMajor (unchained w) m ↔ (major w).toNat = m.toNat := by
  have h : (unchained w).extractLsb' 31 1 = 0#1 := getLsbD_eq_iff.1 (chainBit_unchained w)
  rw [HasMajor, and_iff_right h, major, extract_unchained (by decide), major]

@[simp] theorem fN_unchained : fN (unchained w) = fN w := by
  rw [fN, getLsbD_unchained]; exact Bool.and_true _
@[simp] theorem fD_unchained : fD (unchained w) = fD w := extract_unchained (by decide)
@[simp] theorem fA_unchained : fA (unchained w) = fA w := extract_unchained (by decide)
@[simp] theorem fB_unchained : fB (unchained w) = fB w := extract_unchained (by decide)
@[simp] theorem xD_unchained : xD (unchained w) = xD w := extract_unchained (by decide)
@[simp] theorem xA_unchained : xA (unchained w) = xA w := extract_unchained (by decide)

/-! ### What a decoder answers -/

/-- What a decoder answers for a word is an instruction of good form whose word it is, but for the chain bit. -/
def Sound (w : Word) (r : Except Reject Instr) : Prop := ∀ i, r = .ok i → i.wellFormed = true ∧ encode i = some (unchained w)

@[simp] theorem sound_ok {i : Instr} : Sound w (.ok i) ↔ i.wellFormed = true ∧ encode i = some (unchained w) := by
  simp [Sound]
@[simp] theorem sound_error {r : Reject} : Sound w (.error r) := by simp [Sound]
@[simp] theorem sound_ite {c : Prop} [Decidable c] {x y : Except Reject Instr} : Sound w (if c then x else y) ↔ (c → Sound w x) ∧ (¬c → Sound w y) := by
  split <;> simp [*]

theorem fN_false_iff : fN w = false ↔ w.extractLsb' 24 1 = 0#1 := getLsbD_eq_iff

/-- A field read as a number. -/
theorem number_eq_iff (s r : Nat) {v : BitVec r} : w.extractLsb' s r = v ↔ (w.extractLsb' s r).toNat = v.toNat := BitVec.toNat_inj.symm


theorem decodeIArith_sound (h : (major w).toNat = 0x01) : Sound w (decodeIArith w) := by
  unfold decodeIArith
  split <;> simp_all [Instr.wellFormed, encode]

theorem decodeIMisc_sound (h : (major w).toNat = 0x02) : Sound w (decodeIMisc w) := by
  unfold decodeIMisc
  split <;> simp_all [Instr.wellFormed, encode]

theorem decodeLogic_sound (h : (major w).toNat = 0x03) : Sound w (decodeLogic w) := by
  unfold decodeLogic
  split <;> simp_all [Instr.wellFormed, encode]

theorem decodeShift_sound (h : (major w).toNat = 0x04) : Sound w (decodeShift w) := by
  unfold decodeShift
  split <;> simp_all [Instr.wellFormed, encode]

theorem decodeICmp_sound (h : (major w).toNat = 0x05) : Sound w (decodeICmp w) := by
  unfold decodeICmp
  split <;> simp_all [Instr.wellFormed, encode]

theorem decodeGroup_sound (h : (major w).toNat = 0x06) : Sound w (decodeGroup w) := by
  unfold decodeGroup
  split <;> simp_all [Instr.wellFormed, encode]

theorem decodeAddr64_sound (h : (major w).toNat = 0x08) : Sound w (decodeAddr64 w) := by
  unfold decodeAddr64
  split <;> simp_all [Instr.wellFormed, encode]

theorem decodeShiftI_sound (h : (major w).toNat = 0x14) : Sound w (decodeShiftI w) := by
  unfold decodeShiftI
  split <;> simp_all [Instr.wellFormed, encode, append_field_iff 0 5 5 5 rfl, literal_field_iff 5 3 2 8 5 rfl rfl, number_eq_iff 8 2]

theorem decodeCmpI_sound (h : (major w).toNat = 0x15) : Sound w (decodeCmpI w) := by
  unfold decodeCmpI
  split <;> simp_all [Instr.wellFormed, encode, append_field_iff 0 7 3 7 rfl, number_eq_iff 7 3]

theorem decodeCtrl_sound (h : (major w).toNat = 0x1c) : Sound w (decodeCtrl w) := by
  unfold decodeCtrl
  split <;> simp_all [Instr.wellFormed, encode, append_field_iff 0 3 3 3 rfl, literal_field_iff 0 3 3 3 6 rfl rfl]

theorem decodeFArith_sound (h : (major w).toNat = 0x20) : Sound w (decodeFArith w) := by
  unfold decodeFArith
  split <;> simp_all [Instr.wellFormed, encode]

theorem decodeFCmp_sound (h : (major w).toNat = 0x21) : Sound w (decodeFCmp w) := by
  unfold decodeFCmp
  split <;> simp_all [Instr.wellFormed, encode]

theorem decodeFSpec_sound (h : (major w).toNat = 0x22) : Sound w (decodeFSpec w) := by
  unfold decodeFSpec
  split <;> simp_all [Instr.wellFormed, encode]

theorem decodeHPair_sound (h : (major w).toNat = 0x23) : Sound w (decodeHPair w) := by
  unfold decodeHPair
  split <;> simp_all [Instr.wellFormed, encode]

theorem decodeCvt_sound (h : (major w).toNat = 0x24) : Sound w (decodeCvt w) := by
  unfold decodeCvt
  split <;> simp_all [Instr.wellFormed, encode, append_field_iff 0 2 8 2 rfl, append_field_iff 2 3 5 5 rfl, literal_field_iff 0 5 5 5 10 rfl rfl, literal_field_iff 2 3 5 5 8 rfl rfl, number_eq_iff 5 5]

theorem decodeNarrow_sound (h : (major w).toNat = 0x25) : Sound w (decodeNarrow w) := by
  unfold decodeNarrow
  split <;> simp_all [Instr.wellFormed, encode, append_field_iff 0 4 6 4 rfl, append_field_iff 4 2 4 6 rfl, append_field_iff 6 3 1 9 rfl, number_eq_iff 9 1]

theorem decodeXBar_sound (h : (major w).toNat = 0x28) : Sound w (decodeXBar w) := by
  unfold decodeXBar
  split <;> simp_all [Instr.wellFormed, encode]

theorem decodeAtomG_sound (h : (major w).toNat = 0x36) : Sound w (decodeAtomG w) := by
  unfold decodeAtomG
  split <;> simp_all [Instr.wellFormed, encode]

theorem decodeAtomS_sound (h : (major w).toNat = 0x37) : Sound w (decodeAtomS w) := by
  unfold decodeAtomS
  split <;> simp_all [Instr.wellFormed, encode]

theorem decodeRedF_sound (h : (major w).toNat = 0x38) : Sound w (decodeRedF w) := by
  unfold decodeRedF
  split <;> simp_all [Instr.wellFormed, encode, fN_false_iff]

theorem decodeSync_sound (h : (major w).toNat = 0x39) : Sound w (decodeSync w) := by
  unfold decodeSync
  split <;> simp_all [Instr.wellFormed, encode, append_field_iff 0 5 1 5 rfl]

theorem decodeStream_sound (h : (major w).toNat = 0x3a) : Sound w (decodeStream w) := by
  unfold decodeStream
  split <;> simp_all [Instr.wellFormed, encode, literal_field_iff 0 3 3 3 6 rfl rfl, append_field_iff 0 3 3 3 rfl, append_field_iff 0 1 5 1 rfl, literal_field_iff 1 2 3 3 5 rfl rfl, append_field_iff 0 4 2 4 rfl]

theorem decodeShare_sound (h : (major w).toNat = 0x3b) : Sound w (decodeShare w) := by
  unfold decodeShare
  split <;> simp_all [Instr.wellFormed, encode, literal_field_iff 0 3 3 3 6 rfl rfl, append_field_iff 0 4 2 4 rfl]

theorem decodeMatrix_sound (h : (major w).toNat = 0x3c) : Sound w (decodeMatrix w) := by
  unfold decodeMatrix
  split <;> simp_all [Instr.wellFormed, encode, literal_field_iff 0 3 3 3 6 rfl rfl, append_field_iff 0 5 1 5 rfl]

theorem decodeView_sound (h : (major w).toNat = 0x3d) : Sound w (decodeView w) := by
  unfold decodeView
  split <;> simp_all [Instr.wellFormed, encode, literal_field_iff 0 3 3 3 6 rfl rfl, append_field_iff 0 3 3 3 rfl]

theorem decodeSystem_sound (h : (major w).toNat = 0x3e) : Sound w (decodeSystem w) := by
  unfold decodeSystem
  split <;> simp_all [Instr.wellFormed, encode, literal_field_iff 0 3 3 3 6 rfl rfl]

/-! ### An instruction's word decodes to it, one lemma per decoder -/

theorem iArith_reads {i : Instr} (n : Bool) (d a b : Code)
    (hi : i ∈ [Instr.add n d a b, .sub n d a b, .mul n d a b, .mulhiI n d a b, .mulhiN n d a b, .mad n d a b, .minI n d a b, .maxI n d a b])
    (he : encode i = some w) : decode w = .ok i := by
  fin_cases hi
  all_goals simp [encode, HasMajor] at he
  all_goals simp [decode, decodeIArith, he]

theorem iMisc_reads {i : Instr} (n : Bool) (d a b : Code)
    (hi : i ∈ [Instr.minN n d a b, .maxN n d a b, .absInt n d a, .addsatI n d a b, .subsatI n d a b, .clz n d a, .popc n d a, .brev n d a])
    (he : encode i = some w) : decode w = .ok i := by
  fin_cases hi
  all_goals simp [encode, HasMajor] at he
  all_goals simp [decode, decodeIMisc, he]

theorem logic_reads {i : Instr} (n : Bool) (d a b : Code)
    (hi : i ∈ [Instr.andW n d a b, .orW n d a b, .xorW n d a b, .andn n d a b, .orn n d a b, .xnor n d a b, .sel n d a b, .mov n d a])
    (he : encode i = some w) : decode w = .ok i := by
  fin_cases hi
  all_goals simp [encode, HasMajor] at he
  all_goals simp [decode, decodeLogic, he]

theorem shift_reads {i : Instr} (n : Bool) (d a b : Code)
    (hi : i ∈ [Instr.shl n d a b, .shr n d a b, .sar n d a b, .rol n d a b, .shl64 n d a b, .shr64 n d a b, .bfx n d a b, .bfi n d a b])
    (he : encode i = some w) : decode w = .ok i := by
  fin_cases hi
  all_goals simp [encode, HasMajor] at he
  all_goals simp [decode, decodeShift, he]

theorem iCmp_reads {i : Instr} (n : Bool) (d a b : Code)
    (hi : i ∈ [Instr.cmpEq n d a b, .cmpNe n d a b, .ltI n d a b, .leI n d a b, .ltN n d a b, .leN n d a b, .tst n d a b])
    (he : encode i = some w) : decode w = .ok i := by
  fin_cases hi
  all_goals simp [encode, HasMajor] at he
  all_goals simp [decode, decodeICmp, he]

theorem group_reads {i : Instr} (n : Bool) (d a : Code)
    (hi : i ∈ [Instr.voteAny n d a, .voteAll n d a, .voteBal n d a, .matchLanes n d a, .actmask n d])
    (he : encode i = some w) : decode w = .ok i := by
  fin_cases hi
  all_goals simp [encode, HasMajor] at he
  all_goals simp [decode, decodeGroup, he]

theorem addr64_reads {i : Instr} (n : Bool) (d a b : Code)
    (hi : i ∈ [Instr.add64 n d a b, .sub64 n d a b, .addxI n d a b, .addxN n d a b, .cmplt64 n d a b, .cmpeq64 n d a b, .mov64 n d a])
    (he : encode i = some w) : decode w = .ok i := by
  fin_cases hi
  all_goals simp [encode, HasMajor] at he
  all_goals simp [decode, decodeAddr64, he]

theorem shiftI_reads {i : Instr} (n : Bool) (d a : Code) (imm : BitVec 5)
    (hi : i ∈ [Instr.shli n d a imm, .shri n d a imm, .sari n d a imm, .roli n d a imm])
    (he : encode i = some w) : decode w = .ok i := by
  fin_cases hi
  all_goals simp [encode, HasMajor, append_field_iff 0 5 5 5 rfl, literal_field_iff 5 3 2 8 5 rfl rfl] at he
  all_goals simp [decode, decodeShiftI, he]

theorem cmpI_reads {i : Instr} (n : Bool) (d a : Code) (imm : BitVec 7)
    (hi : i ∈ [Instr.cmpiEq n d a imm, .cmpiNe n d a imm, .cmpiLtI n d a imm, .cmpiLeI n d a imm, .cmpiLtN n d a imm, .cmpiLeN n d a imm, .cmpiGtI n d a imm, .cmpiGeI n d a imm])
    (he : encode i = some w) : decode w = .ok i := by
  fin_cases hi
  all_goals simp [encode, HasMajor, append_field_iff 0 7 3 7 rfl] at he
  all_goals simp [decode, decodeCmpI, he]

theorem ctrl_reads {i : Instr} (a : Code) (k : BitVec 3) (d : Code) (x : BitVec 6)
    (hi : i ∈ [Instr.jmpi a, .calli a, .ret, .exit, .yield, .nop, .rjEnrol k, .rjWait k, .rjStrike k, .rjQuery d k, .spadd a x, .spget d, .spset a, .brk x])
    (he : encode i = some w) : decode w = .ok i := by
  fin_cases hi
  all_goals simp [encode, HasMajor, append_field_iff 0 3 3 3 rfl, literal_field_iff 0 3 3 3 6 rfl rfl] at he
  all_goals simp [decode, decodeCtrl, he]

theorem fArith_reads {i : Instr} (n : Bool) (d a b : Code)
    (hi : i ∈ [Instr.fadd n d a b, .fsub n d a b, .fmul n d a b, .ffma n d a b, .ffms n d a b, .fmin n d a b, .fmax n d a b, .fcpsgn n d a b])
    (he : encode i = some w) : decode w = .ok i := by
  fin_cases hi
  all_goals simp [encode, HasMajor] at he
  all_goals simp [decode, decodeFArith, he]

theorem fCmp_reads {i : Instr} (n : Bool) (d a b : Code)
    (hi : i ∈ [Instr.feq n d a b, .flt n d a b, .fle n d a b, .funord n d a b, .fclass n d a, .fabs n d a, .fneg n d a])
    (he : encode i = some w) : decode w = .ok i := by
  fin_cases hi
  all_goals simp [encode, HasMajor] at he
  all_goals simp [decode, decodeFCmp, he]

theorem fSpec_reads {i : Instr} (n : Bool) (d a : Code)
    (hi : i ∈ [Instr.frcp n d a, .frsq n d a, .fsqrt n d a, .fexp2 n d a, .flog2 n d a, .ftanh n d a, .fsin n d a, .fcos n d a])
    (he : encode i = some w) : decode w = .ok i := by
  fin_cases hi
  all_goals simp [encode, HasMajor] at he
  all_goals simp [decode, decodeFSpec, he]

theorem hPair_reads {i : Instr} (n : Bool) (d a b : Code)
    (hi : i ∈ [Instr.hadd2 n d a b, .hsub2 n d a b, .hmul2 n d a b, .hfma2 n d a b, .hmin2 n d a b, .hmax2 n d a b, .hdot2 n d a b])
    (he : encode i = some w) : decode w = .ok i := by
  fin_cases hi
  all_goals simp [encode, HasMajor] at he
  all_goals simp [decode, decodeHPair, he]

theorem cvt_reads {i : Instr} (n : Bool) (d a : Code) (r : BitVec 2) (k : BitVec 3)
    (hi : i ∈ [Instr.cvtF2i n d a r, .cvtF2n n d a r, .cvtI2f n d a r, .cvtN2f n d a r, .cvtF2bf n d a r, .cvtBf2f n d a, .cvtF2h n d a r, .cvtH2f n d a, .cvtFrnd n d a r, .cvtEnc n d a k r, .cvtDec n d a k r])
    (he : encode i = some w) : decode w = .ok i := by
  fin_cases hi
  all_goals simp [encode, HasMajor, append_field_iff 0 2 8 2 rfl, append_field_iff 2 3 5 5 rfl, literal_field_iff 0 5 5 5 10 rfl rfl, literal_field_iff 2 3 5 5 8 rfl rfl] at he
  all_goals simp [decode, decodeCvt, he]

theorem narrow_reads {i : Instr} (n : Bool) (d a : Code) (k : BitVec 3) (p : BitVec 2)
    (hi : i ∈ [Instr.narrowPack n d a k p, .narrowUnpack n d a k p])
    (he : encode i = some w) : decode w = .ok i := by
  fin_cases hi
  all_goals simp [encode, HasMajor, append_field_iff 0 4 6 4 rfl, append_field_iff 4 2 4 6 rfl, append_field_iff 6 3 1 9 rfl] at he
  all_goals simp [decode, decodeNarrow, he]

theorem xBar_reads {i : Instr} (n : Bool) (d a b : Code)
    (hi : i ∈ [Instr.xbPerm n d a b, .xbPerm2 n d a b, .xbShfl n d a b, .xbBcast n d a b, .xbRot n d a b, .xbTrn n d a b])
    (hf : i.wellFormed = true) (he : encode i = some w) : decode w = .ok i := by
  fin_cases hi
  all_goals simp [encode, HasMajor] at he
  all_goals simp [Instr.wellFormed] at hf
  all_goals simp [decode, decodeXBar, he, hf]

theorem atomG_reads {i : Instr} (n : Bool) (d a b : Code)
    (hi : i ∈ [Instr.atomgAdd n d a b, .atomgMinI n d a b, .atomgMaxI n d a b, .atomgAnd n d a b, .atomgOr n d a b, .atomgXor n d a b, .atomgXchg n d a b, .atomgCas n d a b])
    (he : encode i = some w) : decode w = .ok i := by
  fin_cases hi
  all_goals simp [encode, HasMajor] at he
  all_goals simp [decode, decodeAtomG, he]

theorem atomS_reads {i : Instr} (n : Bool) (d a b : Code)
    (hi : i ∈ [Instr.atomsAdd n d a b, .atomsMinI n d a b, .atomsMaxI n d a b, .atomsAnd n d a b, .atomsOr n d a b, .atomsXor n d a b, .atomsXchg n d a b, .atomsCas n d a b])
    (he : encode i = some w) : decode w = .ok i := by
  fin_cases hi
  all_goals simp [encode, HasMajor] at he
  all_goals simp [decode, decodeAtomS, he]

theorem redF_reads {i : Instr} (a b : Code)
    (hi : i ∈ [Instr.redfFadd a b, .redfFmin a b, .redfFmax a b, .redfHadd2 a b, .redfAccred a b, .redfAddI a b])
    (he : encode i = some w) : decode w = .ok i := by
  fin_cases hi
  all_goals simp [encode, HasMajor, fN_false_iff] at he
  all_goals simp [decode, decodeRedF, he]

theorem sync_reads {i : Instr} (x : BitVec 6) (d a : Code) (k : BitVec 5)
    (hi : i ∈ [Instr.fence x, .phInit d a k, .phArrive d k, .phWait a k, .phTest d a k, .phEnd d k, .phStat d k, .phInval d k])
    (hf : i.wellFormed = true) (he : encode i = some w) : decode w = .ok i := by
  fin_cases hi
  all_goals simp [encode, HasMajor, append_field_iff 0 5 1 5 rfl] at he
  all_goals simp [Instr.wellFormed] at hf
  all_goals simp [decode, decodeSync, he, hf]

theorem stream_reads {i : Instr} (d a : Code) (x : BitVec 6) (y : BitVec 1) (z : BitVec 3) (k : BitVec 4)
    (hi : i ∈ [Instr.cpIssue d a x, .cpMcast d a x, .cpCancel d a, .pref a y, .pin d a x, .unpin a x, .cwb d a z, .cinv d a, .iinv d a, .fetchb, .xbTload a k])
    (hf : i.wellFormed = true) (he : encode i = some w) : decode w = .ok i := by
  fin_cases hi
  all_goals simp [encode, HasMajor, literal_field_iff 0 3 3 3 6 rfl rfl, append_field_iff 0 3 3 3 rfl, append_field_iff 0 1 5 1 rfl, literal_field_iff 1 2 3 3 5 rfl rfl, append_field_iff 0 4 2 4 rfl] at he
  all_goals simp [Instr.wellFormed] at hf
  all_goals simp [decode, decodeStream, he, hf]

theorem share_reads {i : Instr} (d a : Code) (r : BitVec 4)
    (hi : i ∈ [Instr.shJoin, .shLeave, .shWin d a r, .launch d a, .dgSignal d a, .spmap d a, .spunmap d, .spwb d])
    (he : encode i = some w) : decode w = .ok i := by
  fin_cases hi
  all_goals simp [encode, HasMajor, literal_field_iff 0 3 3 3 6 rfl rfl, append_field_iff 0 4 2 4 rfl] at he
  all_goals simp [decode, decodeShare, he]

theorem matrix_reads {i : Instr} (a d : Code) (x : BitVec 5)
    (hi : i ∈ [Instr.mxLoad a, .mxSwap, .mxStream a, .mxAdapt a, .mxWait, .accArm d a, .accDrain a x, .accClear d a, .accStat d a])
    (hf : i.wellFormed = true) (he : encode i = some w) : decode w = .ok i := by
  fin_cases hi
  all_goals simp [encode, HasMajor, literal_field_iff 0 3 3 3 6 rfl rfl, append_field_iff 0 5 1 5 rfl] at he
  all_goals simp [Instr.wellFormed] at hf
  all_goals simp [decode, decodeMatrix, he, hf, imp_iff_not_or]

theorem view_reads {i : Instr} (d a : Code) (k fsel : BitVec 3) (x : BitVec 6) (slot : BitVec 3)
    (hi : i ∈ [Instr.vwSet d a k, .vwRefresh d k, .vwGet d fsel k, .vwClear d k, .gaWalk d a x, .gaStat d a, .btBind d a slot, .btRetire d slot])
    (hf : i.wellFormed = true) (he : encode i = some w) : decode w = .ok i := by
  fin_cases hi
  all_goals simp [encode, HasMajor, literal_field_iff 0 3 3 3 6 rfl rfl, append_field_iff 0 3 3 3 rfl] at he
  all_goals simp [Instr.wellFormed] at hf
  all_goals simp [decode, decodeView, he, hf]

theorem system_reads {i : Instr} (a : Code) (x : BitVec 6) (d : Code)
    (hi : i ∈ [Instr.trap a x, .eret, .movsys d a, .movsysW d a, .movtsysSlim a, .movtsysRunclr, .syscall d a x, .waitev d a, .tlbinv d a, .halt d a, .haltRes d a, .proof d a])
    (he : encode i = some w) : decode w = .ok i := by
  fin_cases hi
  all_goals simp [encode, HasMajor, literal_field_iff 0 3 3 3 6 rfl rfl] at he
  all_goals simp [decode, decodeSystem, he, literal_field_iff 0 3 3 3 6 rfl rfl]

theorem movs_reads {d : Code} {x : BitVec 18} (hf : (Instr.movs d x).wellFormed = true) (he : encode (.movs d x) = some w) : decode w = .ok (.movs d x) := by
  simp [encode, HasMajor] at he
  simp [Instr.wellFormed] at hf
  simp [decode, he, hf]

theorem immediate_reads {i : Instr} (n : Bool) (d a : Code) (x : BitVec 10) (y : BitVec 18)
    (hi : i ∈ [Instr.addi n d a x, .andi n d a x, .ori n d a x, .xori n d a x, .movi d y, .movhi d y]) (he : encode i = some w) : decode w = .ok i := by
  fin_cases hi
  all_goals simp [encode, HasMajor] at he
  all_goals simp [decode, he]

theorem transfer_reads {i : Instr} (h : BitVec 2) (a : Code) (x : BitVec 5) (y : BitVec 11) (z : BitVec 18)
    (hi : i ∈ [Instr.bnz h a x y, .bz h a x y, .jmp h x z, .call h x z]) (he : encode i = some w) : decode w = .ok i := by
  fin_cases hi
  all_goals simp [encode, HasMajor] at he
  all_goals simp [decode, he]

theorem access_reads {i : Instr} (n : Bool) (d a : Code) (r : BitVec 2) (z : BitVec 3) (o : BitVec 5)
    (hi : i ∈ [Instr.ldg n d a r z o, .stg d a r z o, .lds n d a z o, .sts d a z o, .ldp n d a z o, .stp d a z o])
    (hf : i.wellFormed = true) (he : encode i = some w) : decode w = .ok i := by
  fin_cases hi
  all_goals simp [encode, HasMajor, fN_false_iff] at he
  all_goals simp [Instr.wellFormed] at hf
  all_goals simp [decode, he, hf]

/-- R81, R87, R90 to R92: an instruction's word decodes to it. -/
theorem decode_encode {i : Instr} (hf : i.wellFormed = true) (he : encode i = some w) : decode w = .ok i := by
  cases i
  case add n d a b | sub n d a b | mul n d a b | mulhiI n d a b | mulhiN n d a b | mad n d a b | minI n d a b | maxI n d a b =>
    exact iArith_reads n d a b (by simp) he
  case minN n d a b | maxN n d a b | addsatI n d a b | subsatI n d a b =>
    exact iMisc_reads n d a b (by simp) he
  case absInt n d a | clz n d a | popc n d a | brev n d a =>
    exact iMisc_reads n d a 0 (by simp) he
  case andW n d a b | orW n d a b | xorW n d a b | andn n d a b | orn n d a b | xnor n d a b | sel n d a b =>
    exact logic_reads n d a b (by simp) he
  case mov n d a =>
    exact logic_reads n d a 0 (by simp) he
  case shl n d a b | shr n d a b | sar n d a b | rol n d a b | shl64 n d a b | shr64 n d a b | bfx n d a b | bfi n d a b =>
    exact shift_reads n d a b (by simp) he
  case cmpEq n d a b | cmpNe n d a b | ltI n d a b | leI n d a b | ltN n d a b | leN n d a b | tst n d a b =>
    exact iCmp_reads n d a b (by simp) he
  case voteAny n d a | voteAll n d a | voteBal n d a | matchLanes n d a =>
    exact group_reads n d a (by simp) he
  case actmask n d =>
    exact group_reads n d 0 (by simp) he
  case add64 n d a b | sub64 n d a b | addxI n d a b | addxN n d a b | cmplt64 n d a b | cmpeq64 n d a b =>
    exact addr64_reads n d a b (by simp) he
  case mov64 n d a =>
    exact addr64_reads n d a 0 (by simp) he
  case shli n d a imm | shri n d a imm | sari n d a imm | roli n d a imm =>
    exact shiftI_reads n d a imm (by simp) he
  case cmpiEq n d a imm | cmpiNe n d a imm | cmpiLtI n d a imm | cmpiLeI n d a imm | cmpiLtN n d a imm | cmpiLeN n d a imm | cmpiGtI n d a imm | cmpiGeI n d a imm =>
    exact cmpI_reads n d a imm (by simp) he
  case jmpi a | calli a | spset a =>
    exact ctrl_reads a 0 0 0 (by simp) he
  case ret | exit | yield | nop =>
    exact ctrl_reads 0 0 0 0 (by simp) he
  case rjEnrol k | rjWait k | rjStrike k =>
    exact ctrl_reads 0 k 0 0 (by simp) he
  case rjQuery d k =>
    exact ctrl_reads 0 k d 0 (by simp) he
  case spadd a x =>
    exact ctrl_reads a 0 0 x (by simp) he
  case spget d =>
    exact ctrl_reads 0 0 d 0 (by simp) he
  case brk x =>
    exact ctrl_reads 0 0 0 x (by simp) he
  case fadd n d a b | fsub n d a b | fmul n d a b | ffma n d a b | ffms n d a b | fmin n d a b | fmax n d a b | fcpsgn n d a b =>
    exact fArith_reads n d a b (by simp) he
  case feq n d a b | flt n d a b | fle n d a b | funord n d a b =>
    exact fCmp_reads n d a b (by simp) he
  case fclass n d a | fabs n d a | fneg n d a =>
    exact fCmp_reads n d a 0 (by simp) he
  case frcp n d a | frsq n d a | fsqrt n d a | fexp2 n d a | flog2 n d a | ftanh n d a | fsin n d a | fcos n d a =>
    exact fSpec_reads n d a (by simp) he
  case hadd2 n d a b | hsub2 n d a b | hmul2 n d a b | hfma2 n d a b | hmin2 n d a b | hmax2 n d a b | hdot2 n d a b =>
    exact hPair_reads n d a b (by simp) he
  case cvtF2i n d a r | cvtF2n n d a r | cvtI2f n d a r | cvtN2f n d a r | cvtF2bf n d a r | cvtF2h n d a r | cvtFrnd n d a r =>
    exact cvt_reads n d a r 0 (by simp) he
  case cvtBf2f n d a | cvtH2f n d a =>
    exact cvt_reads n d a 0 0 (by simp) he
  case cvtEnc n d a k r | cvtDec n d a k r =>
    exact cvt_reads n d a r k (by simp) he
  case narrowPack n d a k p | narrowUnpack n d a k p =>
    exact narrow_reads n d a k p (by simp) he
  case xbPerm n d a b | xbPerm2 n d a b | xbShfl n d a b | xbBcast n d a b | xbRot n d a b | xbTrn n d a b =>
    exact xBar_reads n d a b (by simp) hf he
  case atomgAdd n d a b | atomgMinI n d a b | atomgMaxI n d a b | atomgAnd n d a b | atomgOr n d a b | atomgXor n d a b | atomgXchg n d a b | atomgCas n d a b =>
    exact atomG_reads n d a b (by simp) he
  case atomsAdd n d a b | atomsMinI n d a b | atomsMaxI n d a b | atomsAnd n d a b | atomsOr n d a b | atomsXor n d a b | atomsXchg n d a b | atomsCas n d a b =>
    exact atomS_reads n d a b (by simp) he
  case redfFadd a b | redfFmin a b | redfFmax a b | redfHadd2 a b | redfAccred a b | redfAddI a b =>
    exact redF_reads a b (by simp) he
  case fence x =>
    exact sync_reads x 0 0 0 (by simp) hf he
  case phInit d a k | phTest d a k =>
    exact sync_reads 0 d a k (by simp) hf he
  case phArrive d k | phEnd d k | phStat d k | phInval d k =>
    exact sync_reads 0 d 0 k (by simp) hf he
  case phWait a k =>
    exact sync_reads 0 0 a k (by simp) hf he
  case cpIssue d a x | cpMcast d a x | pin d a x =>
    exact stream_reads d a x 0 0 0 (by simp) hf he
  case cpCancel d a | cinv d a | iinv d a =>
    exact stream_reads d a 0 0 0 0 (by simp) hf he
  case pref a y =>
    exact stream_reads 0 a 0 y 0 0 (by simp) hf he
  case unpin a x =>
    exact stream_reads 0 a x 0 0 0 (by simp) hf he
  case cwb d a z =>
    exact stream_reads d a 0 0 z 0 (by simp) hf he
  case fetchb =>
    exact stream_reads 0 0 0 0 0 0 (by simp) hf he
  case xbTload a k =>
    exact stream_reads 0 a 0 0 0 k (by simp) hf he
  case shJoin | shLeave =>
    exact share_reads 0 0 0 (by simp) he
  case shWin d a r =>
    exact share_reads d a r (by simp) he
  case launch d a | dgSignal d a | spmap d a =>
    exact share_reads d a 0 (by simp) he
  case spunmap d | spwb d =>
    exact share_reads d 0 0 (by simp) he
  case mxLoad a | mxStream a | mxAdapt a =>
    exact matrix_reads a 0 0 (by simp) hf he
  case mxSwap | mxWait =>
    exact matrix_reads 0 0 0 (by simp) hf he
  case accArm d a | accClear d a | accStat d a =>
    exact matrix_reads a d 0 (by simp) hf he
  case accDrain a x =>
    exact matrix_reads a 0 x (by simp) hf he
  case vwSet d a k =>
    exact view_reads d a k 0 0 0 (by simp) hf he
  case vwRefresh d k | vwClear d k =>
    exact view_reads d 0 k 0 0 0 (by simp) hf he
  case vwGet d fsel k =>
    exact view_reads d 0 k fsel 0 0 (by simp) hf he
  case gaWalk d a x =>
    exact view_reads d a 0 0 x 0 (by simp) hf he
  case gaStat d a =>
    exact view_reads d a 0 0 0 0 (by simp) hf he
  case btBind d a slot =>
    exact view_reads d a 0 0 0 slot (by simp) hf he
  case btRetire d slot =>
    exact view_reads d 0 0 0 0 slot (by simp) hf he
  case trap a x =>
    exact system_reads a x 0 (by simp) he
  case eret | movtsysRunclr =>
    exact system_reads 0 0 0 (by simp) he
  case movsys d a | movsysW d a | waitev d a | tlbinv d a | halt d a | haltRes d a | proof d a =>
    exact system_reads a 0 d (by simp) he
  case movtsysSlim a =>
    exact system_reads a 0 0 (by simp) he
  case syscall d a x =>
    exact system_reads a x d (by simp) he
  case addi n d a x | andi n d a x | ori n d a x | xori n d a x =>
    exact immediate_reads n d a x 0 (by simp) he
  case movi d y | movhi d y =>
    exact immediate_reads false d 0 0 y (by simp) he
  case bnz h a x y | bz h a x y =>
    exact transfer_reads h a x y 0 (by simp) he
  case jmp h x z | call h x z =>
    exact transfer_reads h 0 x 0 z (by simp) he
  case ldg n d a r z o =>
    exact access_reads n d a r z o (by simp) hf he
  case stg d a r z o =>
    exact access_reads false d a r z o (by simp) hf he
  case lds n d a z o | ldp n d a z o =>
    exact access_reads n d a 0 z o (by simp) hf he
  case sts d a z o | stp d a z o =>
    exact access_reads false d a 0 z o (by simp) hf he
  case movs d x => exact movs_reads hf he
  all_goals cases he

/-- R90, R91: what a word decodes to is an instruction of good form whose word it is, but for the chain bit. -/
theorem decode_sound (w : Word) : Sound w (decode w) := by
  unfold decode
  split
  case h_1 => exact decodeIArith_sound ‹_›
  case h_2 => exact decodeIMisc_sound ‹_›
  case h_3 => exact decodeLogic_sound ‹_›
  case h_4 => exact decodeShift_sound ‹_›
  case h_5 => exact decodeICmp_sound ‹_›
  case h_6 => exact decodeGroup_sound ‹_›
  case h_8 => exact decodeAddr64_sound ‹_›
  case h_13 => exact decodeShiftI_sound ‹_›
  case h_14 => exact decodeCmpI_sound ‹_›
  case h_21 => exact decodeCtrl_sound ‹_›
  case h_22 => exact decodeFArith_sound ‹_›
  case h_23 => exact decodeFCmp_sound ‹_›
  case h_24 => exact decodeFSpec_sound ‹_›
  case h_25 => exact decodeHPair_sound ‹_›
  case h_26 => exact decodeCvt_sound ‹_›
  case h_27 => exact decodeNarrow_sound ‹_›
  case h_28 => exact decodeXBar_sound ‹_›
  case h_35 => exact decodeAtomG_sound ‹_›
  case h_36 => exact decodeAtomS_sound ‹_›
  case h_37 => exact decodeRedF_sound ‹_›
  case h_38 => exact decodeSync_sound ‹_›
  case h_39 => exact decodeStream_sound ‹_›
  case h_40 => exact decodeShare_sound ‹_›
  case h_41 => exact decodeMatrix_sound ‹_›
  case h_42 => exact decodeView_sound ‹_›
  case h_43 => exact decodeSystem_sound ‹_›
  case h_7 | h_9 | h_10 | h_11 | h_12 | h_15 | h_16 | h_17 | h_18 | h_19 | h_20 | h_29 | h_30 | h_31 | h_32 | h_33 | h_34 =>
    simp_all [Instr.wellFormed, encode, fN_false_iff]
  case h_44 => exact sound_error

/-- Settles O55, by the fields of each format: a word is an instruction's word just where its fields are the operands that the decoder reads there. -/
theorem decodeAndEncodeAgree : Obligations.DecodeAndEncodeAgree := by
  refine ⟨fun i w hf he => ?_, fun w i h => decode_sound w i h⟩
  have hd := decode_encode hf he
  obtain ⟨-, hu⟩ := decode_sound w i hd
  have hw : w = unchained w := Option.some.inj (he.symm.trans hu)
  exact ⟨hd, by rw [hw, chainBit_unchained]⟩

theorem decodeWord_of_error {w : Word} {r : Reject} (h : decode w = .error r) : decodeWord w = .illegalInstruction w := by
  rw [decodeWord, h]

/-- Settles O54, by running the decoder on each word. -/
theorem decodeKnownWords : Obligations.DecodeKnownWords := by
  refine ⟨fun p hp => ?_, fun w hw => ?_, fun w r h => decodeWord_of_error h⟩
  · fin_cases hp
    all_goals exact ⟨rfl, rfl⟩
  · fin_cases hw
    · exact ⟨.illegalMajor, rfl⟩
    · exact ⟨.illegalMajor, rfl⟩
    · exact ⟨.illegalMajor, rfl⟩
    · exact ⟨.reservedFunction, rfl⟩

end Sys2Proof.Machine
end

section
/-! PROOF. O1, O7 and O15: what a result reaches, and the words of addresses and of the stack pointer. -/

namespace Sys2Proof.Machine

set_option Elab.async false

/-! ### Results of one thread (R88, R89, R98, R111, R335) -/

theorem SameButRegs.refl (a : Thread) : SameButRegs a a := rfl

theorem SameButRegs.trans {a b c : Thread} (h : SameButRegs a b) (k : SameButRegs b c) : SameButRegs a c := by
  unfold SameButRegs at *; rw [k, h]

theorem Thread.setReg_same (t : Thread) (c : Nat) (v : Word) : SameButRegs t (t.setReg c v) ∧ (t.setReg c v).gregs = t.gregs ∧ (t.setReg c v).latch = t.latch := by
  unfold Thread.setReg
  split
  · exact ⟨rfl, rfl, rfl⟩
  · exact ⟨.refl t, rfl, rfl⟩

theorem Thread.toLatch_same (t : Thread) (p : Pipe) (v : Word) : SameButRegs t (t.toLatch p v) ∧ (t.toLatch p v).gregs = t.gregs := by
  cases p <;> exact ⟨rfl, rfl⟩

theorem Thread.latch_toLatch (t : Thread) (p : Pipe) (v : Word) (j : Nat) :
    mfind (t.toLatch p v).latch j = if p.latch = some j then some v else mfind t.latch j := by
  cases p <;> simp [Thread.toLatch, Pipe.latch, Thread.setLatch, mfind_mput, eq_comm]

theorem Thread.dst_same (t : Thread) (p : Pipe) (n : Bool) (d : Code) (v : Word) :
    SameButRegs t (t.dst p n d v) ∧ (t.dst p n d v).gregs = t.gregs ∧ (t.dst p n d v).latch = (t.toLatch p v).latch := by
  obtain ⟨hl, hlg⟩ := t.toLatch_same p v
  obtain ⟨hr, hrg, hrl⟩ := (t.toLatch p v).setReg_same d.toNat v
  cases n
  · exact ⟨hl.trans hr, hrg.trans hlg, hrl⟩
  · exact ⟨hl, hlg, rfl⟩

theorem Thread.dst64_same (t : Thread) (p : Pipe) (n : Bool) (d : Code) (v : DWord) :
    SameButRegs t (t.dst64 p n d v) ∧ (t.dst64 p n d v).gregs = t.gregs ∧ (t.dst64 p n d v).latch = (t.toLatch p (v.extractLsb' 0 32)).latch := by
  obtain ⟨hl, hlg⟩ := t.toLatch_same p (v.extractLsb' 0 32)
  obtain ⟨hr, hrg, hrl⟩ := (t.toLatch p (v.extractLsb' 0 32)).setReg_same d.toNat (v.extractLsb' 0 32)
  obtain ⟨hu, hug, hul⟩ := ((t.toLatch p (v.extractLsb' 0 32)).setReg d.toNat (v.extractLsb' 0 32)).setReg_same (d.toNat + 1) (v.extractLsb' 32 32)
  unfold Thread.dst64
  split
  · exact ⟨hl, hlg, rfl⟩
  · exact ⟨(hl.trans hr).trans hu, hug.trans (hrg.trans hlg), hul.trans hrl⟩

/-- The register of a code below 120 after a register is set. -/
theorem Thread.regs_setReg (t : Thread) (k j : Nat) (v : Word) (hj : j < 120) : mget 0 (t.setReg k v).regs j = if j = k then v else mget 0 t.regs j := by
  unfold Thread.setReg
  split
  · exact mget_mset ..
  · rw [if_neg (by omega)]

theorem Thread.regs_toLatch (t : Thread) (p : Pipe) (v : Word) : (t.toLatch p v).regs = t.regs := by cases p <;> rfl

theorem Thread.src_eq_regs (t : Thread) (c : Code) (hc : c.toNat < 120) : t.src c = mget 0 t.regs c.toNat := by simp [Thread.src, hc]

/-- The registers of a vector thread after a 64-bit result: the pair of the destination, unless N suppresses it or the code is none of a register. -/
theorem Thread.regs_dst64 (t : Thread) (p : Pipe) (n : Bool) (d : Code) (v : DWord) (j : Nat) (hj : j < 120) :
    mget 0 (t.dst64 p n d v).regs j = if n = true ∨ ¬ d.toNat < 120 then mget 0 t.regs j
      else if j = d.toNat + 1 then v.extractLsb' 32 32 else if j = d.toNat then v.extractLsb' 0 32 else mget 0 t.regs j := by
  unfold Thread.dst64
  split
  · simp only [Thread.regs_toLatch]
  · simp only [Thread.regs_setReg _ _ _ _ hj, Thread.regs_toLatch]

/-- A pair that is a legal destination reads as the result (R89). -/
theorem Thread.src64_dst64 (t : Thread) (p : Pipe) (d : Code) (v : DWord) (he : d.toNat % 2 = 0) (hd : d.toNat < 120) : (t.dst64 p false d v).src64 d = v := by
  have hlow := t.regs_dst64 p false d v d.toNat hd
  have hhigh := t.regs_dst64 p false d v (d.toNat + 1) (by omega)
  simp only [Bool.false_eq_true, hd, not_true_eq_false, or_self, ↓reduceIte, Nat.left_eq_add, one_ne_zero] at hlow hhigh
  rw [Thread.src64, if_pos hd, hlow, hhigh]
  exact BitVec.extractLsb'_append_extractLsb'

/-- The burin core's registers after a result (R335). -/
theorem Thread.gsrc_gdst (t : Thread) (n : Bool) (d c : Code) (v : DWord) (hc : c.toNat < 32) :
    (t.gdst n d v).gsrc c = if c = d ∧ n = false then v else t.gsrc c := by
  cases n
  · by_cases hd : d.toNat < 32
    · simp [Thread.gdst, Thread.setG, Thread.gsrc, hc, hd, mget_mset, BitVec.toNat_inj]
    · have hne : c ≠ d := fun h => hd (h ▸ hc)
      simp [Thread.gdst, Thread.setG, hd, hne]
  · simp [Thread.gdst]

theorem Thread.gdst_same (t : Thread) (n : Bool) (d : Code) (v : DWord) :
    SameButRegs t (t.gdst n d v) ∧ (t.gdst n d v).regs = t.regs ∧ (t.gdst n d v).latch = t.latch := by
  unfold Thread.gdst Thread.setG
  split
  · exact ⟨.refl t, rfl, rfl⟩
  · split
    · exact ⟨rfl, rfl, rfl⟩
    · exact ⟨.refl t, rfl, rfl⟩

/-- Settles O1: registers, latch and frame of each of the three ways in which a result is written. -/
theorem resultReachesRegisterAndLatch : Obligations.ResultReachesRegisterAndLatch := by
  refine ⟨fun th p n d v => ?_, fun th p n d v he => ?_, fun th n d v => ?_⟩
  · obtain ⟨hs, hg, hl⟩ := th.dst_same p n d v
    exact ⟨hs, hg, fun c hc => th.src_dst p n d c v hc, fun k hk => by rw [hl, th.latch_toLatch, if_pos hk], fun j hj => by rw [hl, th.latch_toLatch, if_neg hj], rfl⟩
  · obtain ⟨hs, hg, hl⟩ := th.dst64_same p n d v
    refine ⟨hs, hg, fun hd hn => ?_, fun c hc h => ?_, fun k hk => ?_, fun j hj => by rw [hl, th.latch_toLatch, if_neg hj], rfl⟩
    · subst hn
      exact th.src64_dst64 p d v he hd
    · rw [Thread.src_eq_regs _ _ hc, Thread.src_eq_regs _ _ hc, th.regs_dst64 p n d v _ hc]
      split
      case isTrue => rfl
      case isFalse hk =>
        have hcd : c.toNat ≠ d.toNat ∧ c.toNat ≠ d.toNat + 1 := by
          rcases h with hn | hd | hcd
          · exact absurd (.inl hn) hk
          · exact absurd (.inr (by omega)) hk
          · exact hcd
        rw [if_neg hcd.2, if_neg hcd.1]
    · rw [hl, th.latch_toLatch, if_pos hk, BitVec.setWidth_eq_extractLsb' (by decide)]
  · obtain ⟨hs, hr, hl⟩ := th.gdst_same n d v
    exact ⟨hs, hr, hl, fun c hc => th.gsrc_gdst n d c v hc, rfl⟩

/-! ### Address arithmetic (R135) -/

theorem toNat_flagWord {w : Nat} (hw : 0 < w) (c : Bool) : (flagWord c : BitVec w).toNat = if c then 1 else 0 := by
  have h : 2 ≤ 2 ^ w := Nat.le_self_pow hw.ne' 2
  cases c
  · exact Nat.zero_mod _
  · exact Nat.mod_eq_of_lt h

/-- The words of `testWord`. -/
theorem testWord_gives (i : Instr) (n : Bool) (d : Code) (f : State → Nat → Bool) (he : ∀ s, exec i s = testWord i n d f s)
    (hf : ∀ s l m, l ≠ m → ∀ x, f (s.setThread m x) l = f s l) : WordGives i .i n d (fun s l v => v.toNat = if f s l then 1 else 0) :=
  putWord_gives i .i n d (fun s l => flagWord (f s l)) he (fun s l m h x => by rw [hf s l m h x]) _ (fun _ _ => toNat_flagWord (by decide) _)

/-- Settles O7: each word writes one function of its pairs, whose value is that of 64-bit arithmetic. -/
theorem addressResults : Obligations.AddressResults := by
  intro n d a b
  have hw := State.wide_setThread_other
  have hn := State.narrow_setThread_other
  refine ⟨?_, ?_, ?_, ?_, ?_, ?_, ?_⟩
  · exact pairWord_gives _ n d (fun s l => s.wide l a + s.wide l b) (fun _ => rfl) (fun s l m h x => by rw [hw s l m h x]) _ (fun s l => BitVec.toNat_add ..)
  · refine pairWord_gives _ n d (fun s l => s.wide l a - s.wide l b) (fun _ => rfl) (fun s l m h x => by rw [hw s l m h x]) _ (fun s l => ?_)
    rw [BitVec.toNat_sub]
    have := (s.wide l b).isLt
    omega
  · refine pairWord_gives _ n d (fun s l => s.wide l a + (s.narrow l b).signExtend 64) (fun _ => rfl) (fun s l m h x => by rw [hw s l m h x, hn s l m h x]) _ (fun s l => ?_)
    rw [BitVec.toNat_add, BitVec.signExtend, BitVec.toNat_ofInt]
    omega
  · exact pairWord_gives _ n d (fun s l => s.wide l a + (s.narrow l b).setWidth 64) (fun _ => rfl) (fun s l m h x => by rw [hw s l m h x, hn s l m h x]) _ (fun s l => by
      rw [BitVec.toNat_add, BitVec.toNat_setWidth_of_le (by decide)])
  · exact (testWord_gives _ n d (fun s l => (s.wide l a).ult (s.wide l b)) (fun _ => rfl) (fun s l m h x => by rw [hw s l m h x])).mono (fun s l th h => by
      simpa only [BitVec.ult, decide_eq_true_eq] using h)
  · exact (testWord_gives _ n d (fun s l => decide (s.wide l a = s.wide l b)) (fun _ => rfl) (fun s l m h x => by rw [hw s l m h x])).mono (fun s l th h => by
      simpa only [decide_eq_true_eq, BitVec.toNat_inj] using h)
  · exact pairWord_gives _ n d (fun s l => s.wide l a) (fun _ => rfl) (fun s l m h x => by rw [hw s l m h x]) _ (fun _ _ => rfl)

/-! ### The stack pointer (R80, R122, R151) -/

theorem spadd_gives (a : Code) (x : BitVec 6) : LaneGives (.spadd a x) (fun s l th => th = { (s.thread l) with sp := BitVec.ofInt 32 (spaddValue s l a x) }) :=
  laneGives_of _ _ (fun s l => s.modThread l (fun t => { t with sp := BitVec.ofInt 32 (spaddValue s l a x) })) (fun _ => rfl) (fun _ _ => rfl)
    (fun s l m h x => by simp only [spaddValue, State.pre_setThread_other s l m h, State.narrow_setThread_other s l m h, State.thread_setThread_other s m l x h])

theorem spset_gives (a : Code) : LaneGives (.spset a) (fun s l th => th = { (s.thread l) with sp := s.narrow l a }) :=
  laneGives_of _ _ (fun s l => s.modThread l (fun t => { t with sp := s.narrow l a })) (fun _ => rfl) (fun _ _ => rfl)
    (fun s l m h x => by simp only [State.narrow_setThread_other s l m h, State.thread_setThread_other s m l x h])

theorem stackPointerWords : StackPointerWords :=
  ⟨spadd_gives, spset_gives, fun d => putWord_gives _ .k false d (fun s l => (s.pre l).sp) (fun _ => rfl) (fun s l m h x => by rw [State.pre_setThread_other s l m h]) _ (fun _ _ => rfl)⟩

theorem stackCheck_misaligned {s : State} {l : Nat} (h : (s.pre l).sp.toNat % 8 ≠ 0) (write : Bool) :
    ∃ f, stackCheck s l write = .trap f ∧ f.cause = 0x16 := by
  rw [stackCheck, if_pos h]; exact ⟨_, rfl, rfl⟩

/-- A push is out of bounds where its new sp lies below the window or its old one above it. -/
theorem stackCheck_push_out {s : State} {l : Nat} (h : (s.pre l).sp.toNat % 8 = 0)
    (ho : (s.pre l).sp.toInt - 8 < stackLow s (teamOf l) ∨ ((s.team (teamOf l)).kern.stack : Int) < (s.pre l).sp.toInt) :
    ∃ f, stackCheck s l true = .trap f ∧ f.cause = 0x17 := by
  rw [stackCheck, if_neg (not_not.2 h), if_pos (by simpa using ho)]; exact ⟨_, rfl, rfl⟩

theorem stackCheck_pop_out {s : State} {l : Nat} (h : (s.pre l).sp.toNat % 8 = 0)
    (ho : (s.pre l).sp.toInt < stackLow s (teamOf l) ∨ ((s.team (teamOf l)).kern.stack : Int) < (s.pre l).sp.toInt + 8) :
    ∃ f, stackCheck s l false = .trap f ∧ f.cause = 0x17 := by
  rw [stackCheck, if_neg (not_not.2 h), if_pos (by simpa using ho)]; exact ⟨_, rfl, rfl⟩

theorem trap_andThen {v : Verdict} {c : Nat} (h : ∃ f, v = .trap f ∧ f.cause = c) (u : Verdict) : ∃ f, v.andThen u = .trap f ∧ f.cause = c := by
  obtain ⟨f, rfl, hf⟩ := h; exact ⟨f, rfl, hf⟩

theorem spCheck_eq {s : State} {l : Nat} {i : Instr} {n : Int} (h : check7 s l i = spCheck s l n) :
    if n < stackLow s (teamOf l) ∨ ((s.team (teamOf l)).kern.stack : Int) < n then ∃ f, check7 s l i = .trap f ∧ f.cause = 0x17 else check7 s l i = .pass := by
  rw [h, spCheck]
  split
  · exact ⟨_, rfl, rfl⟩
  · rfl

/-- The address of a bad target is misaligned, or it names one of the last two slots of its line. -/
theorem jmpi_check7 (s : State) (l : Nat) (a : Code) : let t := (s.wide l a).toNat
    if t % 4 ≠ 0 then ∃ f, check7 s l (.jmpi a) = .trap f ∧ f.cause = 0x16
    else if 30 ≤ t / 4 % 32 then ∃ f, check7 s l (.jmpi a) = .trap f ∧ f.cause = 0x06 else check7 s l (.jmpi a) = .pass := by
  have hbad : badSlot (s.wide l a) = decide (30 ≤ (s.wide l a).toNat / 4 % 32) := rfl
  intro t
  change let v := targetCheck s (s.wide l a); if t % 4 ≠ 0 then ∃ f, v = .trap f ∧ f.cause = 0x16 else if 30 ≤ t / 4 % 32 then ∃ f, v = .trap f ∧ f.cause = 0x06 else v = .pass
  intro v
  by_cases ht : t % 4 ≠ 0
  · rw [if_pos ht]
    exact ⟨_, if_pos ht, rfl⟩
  · rw [if_neg ht]
    have hv : v = if badSlot (s.wide l a) then s.transferTrap 0x06 (s.wide l a) else .pass := if_neg ht
    rw [hv, hbad]
    by_cases hs : 30 ≤ t / 4 % 32
    · rw [if_pos hs, if_pos (decide_eq_true hs)]; exact ⟨_, rfl, rfl⟩
    · rw [if_neg hs, if_neg (by simpa using hs)]

theorem stackChecksTrap : StackChecksTrap := by
  intro s l a x
  refine ⟨fun h => ?_, fun h ho => ?_, fun h ho => ?_, spCheck_eq rfl, spCheck_eq rfl, jmpi_check7 s l a⟩
  · have hpush := stackCheck_misaligned h true
    exact ⟨trap_andThen (stackCheck_misaligned h false) _, trap_andThen hpush _, fun _ _ _ => hpush⟩
  · have hpush := stackCheck_push_out h ho
    exact ⟨trap_andThen hpush _, fun _ _ _ => hpush⟩
  · exact trap_andThen (stackCheck_pop_out h ho) _

/-- Settles O15: each word sets or reads sp for its lanes, and the checks compare sp with the window. -/
theorem stackPointer : Obligations.StackPointer := ⟨stackPointerWords, stackChecksTrap⟩

end Sys2Proof.Machine
end

section
/-! PROOF. O16, O17 and O18: forbidden words, operand checks, and lanes that fail together. -/

namespace Sys2Proof.Machine

set_option Elab.async false

/-! ### Words that may not run (R86, R93, R422) -/

theorem major_triW (m : BitVec 6) (n : Bool) (d a b : Code) (f : BitVec 3) : major (triW m n d a b f) = m :=
  BitVec.eq_of_toNat_eq ((triW_eq_iff.1 rfl : HasMajor (triW m n d a b f) m ∧ _).1).2

theorem major_extW (m : BitVec 6) (f : BitVec 5) (d a : Code) (x : BitVec 6) : major (extW m f d a x) = m :=
  BitVec.eq_of_toNat_eq ((extW_eq_iff.1 rfl : HasMajor (extW m f d a x) m ∧ _).1).2

/-- A word that may not run traps in step 3, before every other check. -/
theorem verdict_of_not_mayRun {s : State} {l : Nat} {i : Instr} (h : mayRun s l i = false) :
    verdict s l i = .trap { cause := 0x01, addr := 0, word := s.issue.word, flags := 0 } := by
  have h3 : check3 s l i = s.plainTrap 0x01 := by simp [check3, h]
  rw [verdict, early, h3]
  rfl

theorem burinOnly_of_encode {i : Instr} {f : BitVec 5} {d a : Code} {x : BitVec 6} (h : encode i = some (extW 0x3C f d a x)) : burinOnly i = true := by
  simp [burinOnly, h, major_extW]

/-- Whether a word is one of the majors that the core of a thread runs (R93). -/
def placed (l : Nat) (i : Instr) : Bool := if isBurin l then burinRuns i && decide (sizeCode i ≠ some 6) else !burinOnly i

theorem placed_vector {l : Nat} (hb : isBurin l = false) (i : Instr) : placed l i = !burinOnly i := by rw [placed, hb]; rfl

theorem mayRun_of_not_placed {s : State} {l : Nat} {i : Instr} (h : placed l i = false) : mayRun s l i = false := by
  unfold mayRun
  exact Bool.and_eq_false_iff.2 (.inl h)

/-- A word with a condition of its own in step 3, which does not hold. -/
theorem verdict_of_condition {s : State} {l : Nat} {i : Instr} {c : Bool} (h : mayRun s l i = (placed l i && c)) (hc : c = false) :
    verdict s l i = .trap { cause := 0x01, addr := 0, word := s.issue.word, flags := 0 } :=
  verdict_of_not_mayRun (by rw [h, hc, Bool.and_false])

/-- A word of major 0x3C on a vector thread. -/
theorem verdict_of_matrix {s : State} {l : Nat} {i : Instr} {f : BitVec 5} {d a : Code} {x : BitVec 6} (hb : isBurin l = false)
    (h : encode i = some (extW 0x3C f d a x)) : verdict s l i = .trap { cause := 0x01, addr := 0, word := s.issue.word, flags := 0 } :=
  verdict_of_not_mayRun (mayRun_of_not_placed (by rw [placed_vector hb, burinOnly_of_encode h]; rfl))

/-- Settles O16: none of these words may run, whatever its operands. -/
theorem forbiddenWordsTrap : Obligations.ForbiddenWordsTrap := by
  intro s l
  refine ⟨fun w => ?_, fun hb a d x => ?_, fun hs d a => ?_, fun ht => ?_⟩
  · exact verdict_of_condition (c := false) rfl rfl
  · refine ⟨?_, ?_, ?_, ?_, ?_, ?_, ?_, ?_, ?_⟩ <;> exact verdict_of_matrix hb rfl
  · refine ⟨?_, ?_, ?_, ?_, ?_, ?_, ?_, ?_⟩ <;> exact verdict_of_condition rfl hs
  · exact verdict_of_condition rfl (by rw [ht]; rfl)

/-! ### Operand codes and latches (R86, R88, R113) -/

/-- A word of a vector thread without rules of its own in steps 5 to 7. -/
theorem verdict_of_plain {s : State} {l : Nat} {i : Instr} (hb : isBurin l = false) (h3 : mayRun s l i = true) (h5 : staticSlot s i = none)
    (h6 : check6 s l i = (latchCheck s l i).andThen .pass) (h7 : check7 s l i = .pass) :
    verdict s l i = if !legalOperands s l i then s.plainTrap 0x02 else if !latchesValid (s.pre l) i then s.plainTrap 0x04 else .pass := by
  have k3 : check3 s l i = .pass := by simp [check3, h3]
  have k5 : check5 s l i = .pass := by simp [check5, h5]
  rw [verdict, early, k3, k5, h6, h7, check4, latchCheck, hb]
  cases legalOperands s l i <;> cases latchesValid (s.pre l) i <;> rfl

/-- The register codes and the other codes that a source of one register may have. -/
def sourceOk (regs : Nat) (c : Code) : Bool := if c.toNat < 120 then decide (c.toNat < regs) else decide (c.toNat ≤ 124)

/-- Those that a destination may have. -/
def destOk (regs : Nat) (c : Code) : Bool := if c.toNat < 120 then decide (c.toNat < regs) else decide (c.toNat = 124)

/-- A source whose latch, where its code is one's, is valid. -/
def latchOk (t : Thread) (c : Code) : Bool := decide (c.toNat < 120) || decide (124 ≤ c.toNat) || (mfind t.latch (c.toNat - 120)).isSome

theorem legalVector_src (regs : Nat) (c : Code) : legalVector regs (.src c .one) = sourceOk regs c := by
  by_cases h : c.toNat < 120
  · simp [legalVector, sourceOk, Opnd.code, Opnd.width, Width.count, h, Nat.mod_one]
  · simp [legalVector, sourceOk, Opnd.code, Opnd.writes, Opnd.width, Width.count, h]
    grind

theorem legalVector_dst (regs : Nat) (c : Code) (n : Bool) : legalVector regs (.dst c .one n) = destOk regs c := by
  by_cases h : c.toNat < 120
  · simp [legalVector, destOk, Opnd.code, Opnd.width, Width.count, h, Nat.mod_one]
  · simp [legalVector, destOk, Opnd.code, Opnd.writes, Opnd.width, Width.count, h]
    grind

/-- A word with one destination and two sources of one register each. -/
theorem verdict_of_triple {s : State} {l : Nat} {i : Instr} {n : Bool} {d a b : Code} (hb : isBurin l = false)
    (ho : operands i = [.dst d .one n, .src a .one, .src b .one]) (h3 : mayRun s l i = true) (h5 : staticSlot s i = none)
    (h6 : check6 s l i = (latchCheck s l i).andThen .pass) (h7 : check7 s l i = .pass) :
    verdict s l i =
      if !(destOk (s.team (teamOf l)).kern.regs d && sourceOk (s.team (teamOf l)).kern.regs a && sourceOk (s.team (teamOf l)).kern.regs b) then s.plainTrap 0x02
      else if !(latchOk (s.pre l) a && latchOk (s.pre l) b) then s.plainTrap 0x04 else .pass := by
  have hlegal : legalOperands s l i =
      (destOk (s.team (teamOf l)).kern.regs d && sourceOk (s.team (teamOf l)).kern.regs a && sourceOk (s.team (teamOf l)).kern.regs b) := by
    simp [legalOperands, hb, ho, legalVector_src, legalVector_dst, Bool.and_assoc]
  have hlatch : latchesValid (s.pre l) i = (latchOk (s.pre l) a && latchOk (s.pre l) b) := by
    simp only [latchesValid, ho, List.all_cons, List.all_nil, latchOk, Opnd.reads, Opnd.code]
    grind
  rw [verdict_of_plain hb h3 h5 h6 h7, hlegal, hlatch]

theorem mayRun_of_triW {s : State} {l : Nat} {i : Instr} {m : BitVec 6} {n : Bool} {d a b : Code} {f : BitVec 3} (hb : isBurin l = false)
    (he : encode i = some (triW m n d a b f)) (hm : m ≠ 0x3C) (hi : mayRun s l i = (placed l i && true)) : mayRun s l i = true := by
  rw [hi, placed_vector hb]
  simpa [burinOnly, he, major_triW] using hm

/-- Settles O17: the words have one destination and two sources, and steps 4 and 6 are all that can stop them. -/
theorem operandChecksTrap : Obligations.OperandChecksTrap := by
  intro s l n d a b hb regs source dest valid trap i hi
  fin_cases hi <;>
    exact verdict_of_triple hb rfl (mayRun_of_triW hb rfl (by decide) rfl) rfl rfl rfl

/-! ### Lanes that fail together (R398, R399) -/

/-- What stops the lanes of a set that trap for every lane. -/
theorem failing_of_traps {i : Instr} {s : State} {f : Nat → TrapInfo} (hc : s.issue.checked = false) (hv : ∀ l ∈ s.issue.lanes, verdict s l i = .trap (f l)) :
    failing s i = s.issue.lanes.map (fun l => (l, .trap (f l))) := by
  have hm : s.issue.lanes.map (fun l => (l, verdict s l i)) = s.issue.lanes.map (fun l => (l, .trap (f l))) :=
    List.map_congr_left (fun l hl => by rw [hv l hl])
  simp [failing, hc, hm, List.filter_eq_self]

theorem passing_of_traps {i : Instr} {s : State} {f : Nat → TrapInfo} (hc : s.issue.checked = false) (hv : ∀ l ∈ s.issue.lanes, verdict s l i = .trap (f l)) :
    passing s i = [] := by
  simp only [passing, hc, Bool.false_eq_true, if_false, List.filter_eq_nil_iff]
  intro l hl
  simp [hv l hl]

/-- Lanes that all trap are stopped by one trap entry and nothing else. -/
theorem stopLanes_traps (s : State) (ls : List Nat) (f : Nat → TrapInfo) :
    stopLanes s (ls.map (fun l => (l, .trap (f l)))) = takeTrap s s.issue.group (ls.map (fun l => (l, { f l with trapNo := s.runOf l }))) := by
  unfold stopLanes
  simp [List.foldl_map, List.filterMap_map]

theorem issued_of_traps {i : Instr} {s : State} {f : Nat → TrapInfo} (hc : s.issue.checked = false) (hv : ∀ l ∈ s.issue.lanes, verdict s l i = .trap (f l))
    (eff : State → List Nat → State) :
    issued i s eff = .next (takeTrap s s.issue.group (s.issue.lanes.map (fun l => (l, { f l with trapNo := s.runOf l })))) := by
  rw [issued, issueWord, failing_of_traps hc hv, passing_of_traps hc hv, ← stopLanes_traps]
  rfl

/-- Settles O18: no lane passes, and what stops each is a trap. -/
theorem failingLanesTrapTogether : Obligations.FailingLanesTrapTogether := by
  intro i s f _ hc hv eff
  exact issued_of_traps hc hv eff

end Sys2Proof.Machine
end

section
/-! PROOF. O19: what BRK and TRAP report, and the entry to the handler of lanes that all fail. -/

namespace Sys2Proof.Machine

set_option Elab.async false

/-! ### Frames do not depend on the threads -/

/-- A state with other threads. -/
def State.withThreads (s : State) (th : List (Nat × Thread)) : State := { s with threads := th }

section
variable (s : State) (th : List (Nat × Thread))

theorem readByte_withThreads (l : Loc) : readByte (s.withThreads th) l = readByte s l := rfl

theorem readBytes_withThreads (l : Loc) (n : Nat) : readBytes (s.withThreads th) l n = readBytes s l n := by
  induction n generalizing l with
  | zero => rfl
  | succ n ih => simp only [readBytes, readByte_withThreads, ih]

theorem entryAt_withThreads (a : Nat) : entryAt (s.withThreads th) a = entryAt s a := by
  unfold entryAt readNat
  rw [readBytes_withThreads]
  rfl

theorem walkFrom_withThreads (va table n : Nat) : walkFrom (s.withThreads th) va table n = walkFrom s va table n := by
  induction n generalizing table with
  | zero => simp only [walkFrom, walkFrom.step0, entryAt_withThreads]
  | succ n ih => simp only [walkFrom, entryAt_withThreads, ih]

theorem translate_withThreads (core ctx va : Nat) : translate (s.withThreads th) core ctx va = translate s core ctx va := by
  unfold translate joinWalk rootWalk
  simp only [walkFrom_withThreads]
  rfl

theorem poisoned_withThreads (l : Loc) (n : Nat) : poisoned (s.withThreads th) l n = poisoned s l n := by
  induction n generalizing l with
  | zero => rfl
  | succ n ih => rw [poisoned, poisoned, ih]; rfl

theorem checkPage_withThreads (core ctx uid : Nat) (va : DWord) (size : Nat) (u : Use) (rd wr : Bool) :
    checkPage (s.withThreads th) core ctx uid va size u rd wr = checkPage s core ctx uid va size u rd wr := by
  unfold checkPage
  rw [translate_withThreads]
  rfl

theorem framePlaces_withThreads (l : Nat) (write : Bool) : framePlaces (s.withThreads th) l write = framePlaces s l write := by
  unfold framePlaces
  simp only [checkPage_withThreads, poisoned_withThreads]
  rfl
end

/-! ### What the writing of frames keeps (R402) -/

/-- What entry to a handler reads of a state is the same in two states. -/
def KeepsEntry (s t : State) : Prop := t.threads = s.threads ∧ t.clock = s.clock ∧ ∀ u, (t.team u).kern = (s.team u).kern

theorem KeepsEntry.refl (s : State) : KeepsEntry s s := ⟨rfl, rfl, fun _ => rfl⟩

theorem KeepsEntry.trans {s t u : State} (h : KeepsEntry s t) (k : KeepsEntry t u) : KeepsEntry s u := by
  obtain ⟨ht, hc, hk⟩ := h
  obtain ⟨ht', hc', hk'⟩ := k
  exact ⟨ht'.trans ht, hc'.trans hc, fun u => (hk' u).trans (hk u)⟩

theorem KeepsEntry.thread {s t : State} (h : KeepsEntry s t) (l : Nat) : t.thread l = s.thread l := by rw [State.thread, State.thread, h.1]

theorem kern_modTeam {f : Team → Team} (hf : ∀ x, (f x).kern = x.kern) (s : State) (v u : Nat) : ((s.modTeam v f).team u).kern = (s.team u).kern := by
  simp only [State.team, State.modTeam, mget, mfind_mmod]
  split
  · cases mfind s.teams u with
    | none => rfl
    | some x => exact hf x
  · rfl

theorem writeByte_keepsEntry (s : State) (l : Loc) (v : Byte) : KeepsEntry s (writeByte s l v) := by
  unfold writeByte rawSet
  split
  · split <;> exact .refl s
  · next t o _ => exact ⟨rfl, rfl, kern_modTeam (f := fun x => { x with scratch := mset 0 x.scratch o v }) (fun _ => rfl) s t⟩

theorem writeBytes_keepsEntry (s : State) (l : Loc) (vs : List Byte) : KeepsEntry s (writeBytes s l vs) := by
  induction vs generalizing s l with
  | nil => exact .refl s
  | cons v vs ih => exact (writeByte_keepsEntry s l v).trans (ih _ _)

theorem modDir_keepsEntry (s : State) (n : Nat) (f : Dir → Dir) : KeepsEntry s (s.modDir n f) := ⟨rfl, rfl, fun _ => rfl⟩
theorem fitL2_keepsEntry (s : State) (d n : Nat) : KeepsEntry s (fitL2 s d n) := ⟨rfl, rfl, fun _ => rfl⟩

theorem noteHome_keepsEntry (s : State) (l : Loc) : KeepsEntry s (noteHome s l) := by
  unfold noteHome
  split
  · exact .refl s
  · exact ((modDir_keepsEntry s _ _).trans (fitL2_keepsEntry _ _ _)).trans (modDir_keepsEntry _ _ _)

theorem noteHomes_keepsEntry (s : State) (l : Loc) (n : Nat) : KeepsEntry s (noteHomes s l n) :=
  foldl_keeps (fun t x ht => ht.trans (noteHome_keepsEntry t x)) _ s (.refl s)

theorem writePlaces_keepsEntry (s : State) (ps : List (Loc × Nat)) (bs : List Byte) : KeepsEntry s (writePlaces s ps bs) := by
  induction ps generalizing s bs with
  | nil => exact .refl s
  | cons p ps ih => exact ((noteHomes_keepsEntry s p.1 p.2).trans (writeBytes_keepsEntry _ _ _)).trans (ih _ _)

/-! ### Entry to the handler (R399, R404) -/

/-- One ready lane enters: its thread alone changes. -/
theorem enterLane_ready {s : State} {l : Nat} (hr : (s.thread l).cond = .ready) (m : Word) (run : Nat) (f : TrapInfo) (ps : List (Loc × Nat)) :
    (enterLane s l m run f ps).thread l = (s.thread l).enter (s.team (teamOf l)).kern.handler m run s.clock ∧
    (∀ x, x ≠ l → (enterLane s l m run f ps).thread x = s.thread x) ∧ (enterLane s l m run f ps).clock = s.clock ∧
    ∀ u, ((enterLane s l m run f ps).team u).kern = (s.team u).kern := by
  have hw := writePlaces_keepsEntry s ps (frameBytes (s.team (teamOf l)).kern.regs (s.thread l) f)
  have he : enterLane s l m run f ps = (writePlaces s ps (frameBytes (s.team (teamOf l)).kern.regs (s.thread l) f)).modThread l
      (fun t => t.enter (s.team (teamOf l)).kern.handler m run s.clock) := by simp only [enterLane, hr]
  rw [he]
  exact ⟨by rw [State.thread_modThread_same, hw.thread], fun x hx => by rw [State.thread_modThread_other _ _ _ _ hx, hw.thread], hw.2.1, hw.2.2⟩

theorem enterLanes_ready {fs : List (Nat × TrapInfo × List (Loc × Nat))} (m : Word) (run : Nat) (s : State) (hn : (fs.map Prod.fst).Nodup)
    (hr : ∀ l ∈ fs.map Prod.fst, (s.thread l).cond = .ready) :
    (∀ x, x ∉ fs.map Prod.fst → (enterLanes m run s fs).thread x = s.thread x) ∧
    ∀ l ∈ fs.map Prod.fst, (enterLanes m run s fs).thread l = (s.thread l).enter (s.team (teamOf l)).kern.handler m run s.clock := by
  induction fs generalizing s with
  | nil => exact ⟨fun _ _ => rfl, fun l hl => by simp at hl⟩
  | cons p fs ih =>
    obtain ⟨l, f, ps⟩ := p
    simp only [List.map_cons, List.nodup_cons, List.forall_mem_cons] at hn hr ⊢
    obtain ⟨hl, hn⟩ := hn
    obtain ⟨hme, hother, hclock, hkern⟩ := enterLane_ready hr.1 m run f ps
    have hne : ∀ x ∈ fs.map Prod.fst, x ≠ l := fun x hx h => hl (h ▸ hx)
    obtain ⟨hrest, hin⟩ := ih (enterLane s l m run f ps) hn (fun x hx => by rw [hother x (hne x hx)]; exact hr.2 x hx)
    refine ⟨fun x hx => ?_, ?_, fun x hx => ?_⟩
    · obtain ⟨hxl, hx⟩ := not_or.1 (List.mem_cons.not.1 hx)
      exact (hrest x hx).trans (hother x hxl)
    · exact (hrest l hl).trans hme
    · exact (hin x hx).trans (by rw [hother x (hne x hx), hkern, hclock])

/-- A table whose values are changed and whose keys are not. -/
theorem mfind_map_of_keys {β : Type} {F : Nat × β → Nat × β} (hF : ∀ p, (F p).1 = p.1) (m : SMap β) (x : Nat) :
    mfind (m.map F) x = (mfind m x).map (fun v => (F (x, v)).2) := by
  induction m with
  | nil => rfl
  | cons p m ih =>
    obtain ⟨k, v⟩ := p
    have hk : F (k, v) = (k, (F (k, v)).2) := Prod.ext (hF _) rfl
    rw [List.map_cons, hk, mfind_cons, mfind_cons, ih]
    split
    · next h => rw [h]; rfl
    · rfl

/-- What joining sets makes of one thread. -/
def mergeEntry (s : State) (g : Nat) (out : List Nat) (p : Nat × Thread) : Nat × Thread :=
  let mates := (s.threads.filter (fun p => decide (grpOf p.1 = g) && !out.contains p.1)).filter (fun q => sameSet q.2 p.2)
  if grpOf p.1 = g ∧ p.2.cond = .ready ∧ p.1 ∉ out then
    (p.1, { p.2 with stamp := mates.foldl (fun m q => min m q.2.stamp) p.2.stamp
                     rank := if mates.all (fun q => decide (q.2.stamp = p.2.stamp ∧ q.2.rank = p.2.rank)) then p.2.rank else 0 })
  else p

/-- Joining sets changes stamps and ranks alone. -/
theorem thread_mergeSets (s : State) (g : Nat) (out : List Nat) (l : Nat) :
    ∃ stamp rank, (mergeSets s g out).thread l = { s.thread l with stamp := stamp, rank := rank } := by
  have hkeys : ∀ p : Nat × Thread, (mergeEntry s g out p).1 = p.1 := fun p => by unfold mergeEntry; split <;> rfl
  have hfind : mfind (mergeSets s g out).threads l = (mfind s.threads l).map (fun v => (mergeEntry s g out (l, v)).2) := mfind_map_of_keys hkeys _ _
  simp only [State.thread, mget, hfind]
  cases mfind s.threads l with
  | none => exact ⟨_, _, rfl⟩
  | some v =>
    simp only [Option.map_some, Option.getD_some, mergeEntry]
    split <;> exact ⟨_, _, rfl⟩

theorem mergeSets_eq (s : State) (g : Nat) (out : List Nat) : mergeSets s g out = s.withThreads (mergeSets s g out).threads := rfl

theorem logMet_none (s : State) {fs : List (Nat × TrapInfo)} (h : ∀ p ∈ fs, p.2.bad = none ∧ p.2.entry = none) : logMet s fs = s := by
  induction fs with
  | nil => rfl
  | cons p fs ih =>
    obtain ⟨⟨hb, he⟩, hfs⟩ := List.forall_mem_cons.1 h
    have hp : logMet s (p :: fs) = logMet s fs := by simp only [logMet, List.foldl_cons, hb, he]
    rw [hp, ih hfs]

/-- The threads of a group whose traps lead to the handler: vector lanes of a running team that are not in it, nothing of theirs under way, frames that
can be written, no cause that kills and nothing to log. -/
structure CanTake (s : State) (g : Nat) (fs : List (Nat × TrapInfo)) : Prop where
  some : fs ≠ []
  running : (s.team (g / 64)).life = .running
  handler : (s.team (g / 64)).kern.handler ≠ 0
  unlogged : ∀ p ∈ fs, p.2.bad = none ∧ p.2.entry = none
  cause : ∀ p ∈ fs, p.2.cause ≠ 0x22 ∧ p.2.cause ≠ 0x30
  vector : ∀ p ∈ fs, isBurin p.1 = false
  out : ∀ p ∈ fs, (s.thread p.1).trapping = none
  idle : ∀ x ∈ s.loads, x.tid ∉ fs.map Prod.fst
  frame : ∀ p ∈ fs, ∃ ps, framePlaces s p.1 true = .ok ps

/-- They enter it, each with its frame. -/
theorem takeTrap_enters {s : State} {g : Nat} {fs : List (Nat × TrapInfo)} (h : CanTake s g fs) :
    takeTrap s g fs = enterLanes (laneMask (fs.map Prod.fst)) s.nextId { mergeSets s g [] with nextId := s.nextId + 1 }
      (fs.map (fun p => (p.1, p.2, framePlacesOr (mergeSets s g []) p.1))) := by
  obtain ⟨hne, hlife, hh, hmet, hcause, hvec, hout, hloads, hframe⟩ := h
  obtain ⟨p0, rest, rfl⟩ := List.exists_cons_of_ne_nil hne
  have hp0 := List.mem_cons_self (a := p0) (l := rest)
  have hin : (p0 :: rest).find? (fun p => (s.thread p.1).trapping.isSome) = none := by
    rw [List.find?_eq_none]
    intro p hp
    simp [hout p hp]
  have hbad : (p0 :: rest).find? (fun p => (frameBad (mergeSets s g []) p.1).isSome) = none := by
    rw [List.find?_eq_none]
    intro p hp
    obtain ⟨ps, hps⟩ := hframe p hp
    rw [mergeSets_eq, frameBad, framePlaces_withThreads, hps]
    simp
  unfold takeTrap
  simp only [hlife, not_true, if_false, logMet_none s hmet, hvec p0 hp0, hh, (hcause p0 hp0).1, (hcause p0 hp0).2, or_self, hin,
    settleThreads_none hloads, hbad, ne_eq]
  rfl

/-- The thread of a lane that has entered. -/
theorem takeTrap_thread {s : State} {g : Nat} {fs : List (Nat × TrapInfo)} (h : CanTake s g fs) (hn : (fs.map Prod.fst).Nodup)
    (hr : ∀ l ∈ fs.map Prod.fst, (s.thread l).cond = .ready) {l : Nat} (hl : l ∈ fs.map Prod.fst) :
    (takeTrap s g fs).thread l = { (s.thread l) with
      pc := (s.team (teamOf l)).kern.handler, trapping := some (laneMask (fs.map Prod.fst)), trapNo := s.nextId, wasParked := none,
      latch := [], q3 := none, beneath := none, roomHeld := false, stamp := s.clock, rank := 0 } := by
  have hfst : (fs.map (fun p => (p.1, p.2, framePlacesOr (mergeSets s g []) p.1))).map Prod.fst = fs.map Prod.fst := by rw [List.map_map]; rfl
  have hmerge : ∀ x, ∃ stamp rank, (State.thread { mergeSets s g [] with nextId := s.nextId + 1 } x) = { s.thread x with stamp := stamp, rank := rank } :=
    thread_mergeSets s g []
  have hready : ∀ x ∈ fs.map Prod.fst, (State.thread { mergeSets s g [] with nextId := s.nextId + 1 } x).cond = .ready := fun x hx => by
    obtain ⟨_, _, e⟩ := hmerge x
    rw [e]; exact hr x hx
  obtain ⟨stamp, rank, e⟩ := hmerge l
  rw [takeTrap_enters h, (enterLanes_ready _ _ _ (by rwa [hfst]) (by rwa [hfst])).2 l (by rwa [hfst]), e]
  simp only [Thread.enter, hr l hl]
  rfl

/-! ### Every word of the machine is issued alike (R86) -/

/-- What an event is not. -/
theorem not_word {i : Instr} (he : encode i = none) (hi : ∀ w, i ≠ .illegalInstruction w) : ¬ ((encode i).isSome ∨ ∃ w, i = .illegalInstruction w) := by
  rintro (h | ⟨w, h⟩)
  · rw [he] at h; cases h
  · exact hi w h
/-- A word, an undefined one too, is issued with some effect on the lanes that pass. -/
theorem exec_word (i : Instr) (h : (encode i).isSome ∨ ∃ w, i = .illegalInstruction w) (s : State) : ∃ eff, exec i s = issued i s eff := by
  cases i
  case takeLaunchSlot | ageingExpiry | clusterStart | runLimitKill | completionEntryWrite | graphSlotTake | nodeFinish | loadDataReturn |
      storeQueueLeave | arrivalCounted | streamerBeat | copyComplete | matrixEntryStart | matrixEntryComplete | mainRowIssue | governorWindow |
      accContribution | adapterSliceArrival | accLineEvict | numericWindowClose | afterIssueFaultDelivery | killComplete | teamRetire | eviction |
      teamResume | moveRehome | versionFreed | syscallAnswered | waitevWake | qappAppend | queueEnable | queueDisable | systemRegisterWrite |
      dgevRequest | evictreqWrite | replayAnswer | repack | agentDeadScrub | softError | proofRunComplete | sendEvent | rdmaWrite | rdmaRead |
      rdmaAtomic | resetEvent | quote | thermalThreshold | systemCoreAccess | hostAccess | peerAccess | peerLinkLoss | cacheLineEviction |
      contextValidClear | staleIncarnation | hbmWindow | moveToPool | moveFromPool | criticalTemperature =>
    exact absurd h (not_word rfl (fun _ h => by cases h))
  all_goals exact ⟨_, rfl⟩

/-! ### The obligation -/

theorem breakAndTrapCause : BreakAndTrapCause := by
  intro s l a x
  exact ⟨fun h => by rw [verdict, h]; rfl, fun h => by rw [verdict, h]; rfl⟩

/-- A set that can enter its handler and whose lanes all trap. -/
theorem canTake_of_set {s : State} (hs : CanEnterHandler s) {f : Nat → TrapInfo}
    (hf : ∀ l ∈ s.issue.lanes, (f l).bad = none ∧ (f l).entry = none ∧ (f l).cause ≠ 0x22 ∧ (f l).cause ≠ 0x30) :
    CanTake s s.issue.group (s.issue.lanes.map (fun l => (l, { f l with trapNo := s.runOf l }))) := by
  obtain ⟨⟨hne, _, hgrp⟩, hvec, hlife, hh, hlanes⟩ := hs
  refine ⟨by simpa using hne, hlife, hh, ?_, ?_, ?_, ?_, ?_, ?_⟩ <;>
    simp only [List.forall_mem_map, List.map_map, Function.comp_def, List.map_id']
  · exact fun l hl => ⟨(hf l hl).1, (hf l hl).2.1⟩
  · exact fun l hl => (hf l hl).2.2
  · exact fun l hl => by rw [← hgrp l hl] at hvec; simpa [isBurin, groupIx, grpOf] using hvec
  · exact fun l hl => (hlanes l hl).1
  · exact fun x hx hl => (hlanes _ hl).2.2.1 x hx rfl
  · exact fun l hl => (hlanes l hl).2.2.2

theorem breakAndTrapEnterHandler : BreakAndTrapEnterHandler := by
  intro i hi s hs hc hv
  have : Nonempty TrapInfo := ⟨{ cause := 0, addr := 0, word := 0, flags := 0 }⟩
  choose! f hv hf using hv
  obtain ⟨eff, he⟩ := exec_word i hi s
  refine ⟨_, he.trans (issued_of_traps hc hv eff), fun l hl => ⟨s.nextId, ?_⟩⟩
  have hfst : (s.issue.lanes.map (fun l => (l, { f l with trapNo := s.runOf l }))).map Prod.fst = s.issue.lanes := by
    rw [List.map_map]; exact List.map_id _
  have hcan := canTake_of_set hs hf
  obtain ⟨⟨_, hsorted, hgrp⟩, _, _, _, hlanes⟩ := hs
  have hteam : teamOf l = s.issueTeam := by rw [State.issueTeam, ← hgrp l hl, teamOf, grpOf, Nat.div_div_eq_div_mul]
  have key := takeTrap_thread hcan (by rw [hfst]; exact nodup_of_sorted hsorted) (by rw [hfst]; exact fun l hl => (hlanes l hl).2.1) (by rwa [hfst])
  rw [key, hfst, hteam]

/-- Settles O19: the traps of a set are one entry to the handler. -/
theorem breakAndTrap : Obligations.BreakAndTrap := ⟨breakAndTrapCause, breakAndTrapEnterHandler⟩

end Sys2Proof.Machine
end

section
/-! PROOF. O59: every word, every event and every step leads to a next state. -/

namespace Sys2Proof.Machine

set_option Elab.async false

/-! ### Instructions and moves -/

/-- A word is issued and an event is performed: neither faults nor is refused. -/
theorem exec_next (i : Instr) (s : State) : ∃ t, exec i s = .next t := by
  cases i <;> exact ⟨_, rfl⟩

theorem runWords_next (ws : List (DWord × Word)) (s : State) : ∃ t, runWords s ws = .next t := by
  induction ws generalizing s with
  | nil => exact ⟨s, rfl⟩
  | cons p ws ih =>
    obtain ⟨t, ht⟩ := exec_next (decodeWord p.2) (s.atWord p.1 p.2)
    obtain ⟨u, hu⟩ := ih (wordDone t (decodeWord p.2))
    exact ⟨u, by rw [runWords, ht]; exact hu⟩

theorem issueChain_next (s : State) (g : Nat) (ls : List Nat) (c : Chain) (pc : DWord) : ∃ t, issueChain s g ls c pc = .next t := by
  have h : ∀ (b : Bool) (u : State) (ws : List (DWord × Word)), ∃ t, (if b then .next u else runWords u ws) = Host.Outcome.next t := by
    intro b u ws
    cases b
    · exact runWords_next ws u
    · exact ⟨u, rfl⟩
  unfold issueChain
  simp only
  split
  · exact ⟨_, rfl⟩
  · next o hne =>
    obtain ⟨t, ht⟩ := h _ _ _
    exact absurd ht (hne t)

theorem issueSet_next (s : State) (g : Nat) (ls : List Nat) : ∃ t, issueSet s g ls = .next t := by
  unfold issueSet
  split
  · exact ⟨s, rfl⟩
  · split
    · exact ⟨_, rfl⟩
    · simp only
      split
      · exact ⟨_, rfl⟩
      · exact issueChain_next _ _ _ _ _

theorem issueOf_next (s : State) (o : Option (List Nat)) : ∃ t, issueOf s o = .next t := by
  unfold issueOf
  split
  · exact issueSet_next _ _ _
  · exact ⟨s, rfl⟩

theorem moveOf_next (s : State) (m : Move) : ∃ t, moveOf s m = .next t := by
  cases m with
  | issue die core quad => exact issueOf_next _ _
  | burin die core => exact issueOf_next _ _
  | event i =>
    simp only [moveOf]
    split
    · exact exec_next i s
    · exact ⟨s, rfl⟩
  | _ => exact ⟨_, rfl⟩

theorem attempt_next (s : State) (m : Move) : ∃ t, attempt s m = .next t := by
  unfold attempt
  split
  · exact ⟨_, rfl⟩
  · exact moveOf_next s m

/-! ### Steps -/

theorem byDefault_next (s : State) : ∃ t, byDefault s = .next t := by
  have hevent : ∀ u : State, ∃ t, (match oneEvent u with
    | some t => Host.Outcome.next t
    | none => .next (tick u (u.turn / 3 % 2)) : Host.Outcome State Fault Refusal) = .next t := fun u => by cases oneEvent u <;> exact ⟨_, rfl⟩
  unfold byDefault
  simp only
  split
  · split
    · exact attempt_next _ _
    · exact hevent _
  · exact hevent _
  · exact ⟨_, rfl⟩

/-- Before the bookkeeping, too, a step stops only where the module is powered off (R447). -/
theorem act_next (s : State) (h : s.boot ≠ .off) : ∃ t, act s = .next t := by
  unfold act
  split
  · split
    · exact exec_next _ _
    · split
      · exact moveOf_next _ _
      · exact attempt_next _ _
      · exact byDefault_next _
  · exact ⟨_, rfl⟩
  · contradiction
  · split
    · exact moveOf_next _ _
    · exact ⟨_, rfl⟩
  · exact ⟨_, rfl⟩

/-- Settles O59: the bookkeeping leads on from every next state. -/
theorem everyStepGoesOn : Obligations.EveryStepGoesOn := by
  refine ⟨exec_next, fun s h => ?_⟩
  obtain ⟨t, ht⟩ := act_next s h
  exact ⟨settle t, by rw [step, ht]; rfl⟩

end Sys2Proof.Machine
end

section
/-! PROOF. O39: CWB, CINV, IINV, FETCHB and XB.TLOAD. -/

namespace Sys2Proof.Machine

set_option Elab.async false

/-! ### Words of one lane -/

/-- What a word does for one lane that passes. -/
theorem Alone.issued {i : Instr} {s : State} {l : Nat} (h : Alone i s l) (eff : State → List Nat → State) : issued i s eff = .next (eff s [l]) := by
  rw [issued_eq h.runs, h.2.1]

theorem Alone.group {i : Instr} {s : State} {l : Nat} (h : Alone i s l) : grpOf l = s.issue.group := h.runs.group (by rw [h.2.1]; exact List.mem_singleton_self l)

/-! ### Ranges of lines that wait in the queue (R301) -/

theorem rangeLines_empty {s : State} {l : Nat} {a d : Code} (h : s.narrow l d = 0) : rangeLines s l a d = [] := by
  simp [rangeLines, lineRange, h]

/-- A range within one line that is mapped to memory of its own. -/
theorem rangeLines_single {s : State} {l : Nat} {a d : Code} {en : DWord} {size : Nat} (hn : 0 < (s.narrow l d).toNat)
    (hfit : (s.wide l a).toNat % 128 + (s.narrow l d).toNat ≤ 128)
    (ht : translate s (s.team (teamOf l)).coreId (s.team (teamOf l)).ctx ((s.wide l a).toNat / 128 * 128) = .leaf en size) (hty : leafType en < 3) :
    rangeLines s l a d = [leafPhys en size ((s.wide l a).toNat / 128 * 128) / 128] := by
  have hrange : lineRange (s.wide l a) (s.narrow l d).toNat = ((s.wide l a).toNat / 128 * 128, 128) := by
    rw [lineRange, if_neg (by omega)]
    congr 1
    omega
  have hown : ¬ (leafType en = 3 ∨ leafType en = 4) := by omega
  simp [rangeLines, hrange, ht, hown]

/-- What a maintenance word puts at the young end of its group's queue. -/
theorem maintain_gives {i : Instr} {d a : Code} {op : List Nat → QOp} (he : ∀ s, exec i s = Machine.issued i s (eachLane (maintain d a op))) :
    AloneGives i (fun s l t => KeepsRest s l t ∧ t.threads = s.threads ∧ ∃ e lines, (t.group (grpOf l)).queue = (s.group (grpOf l)).queue ++ [e] ∧
      EntryOf s l e ∧ e.op = op lines ∧ (s.narrow l d = 0 → lines = []) ∧
        ∀ en size, 0 < (s.narrow l d).toNat → (s.wide l a).toNat % 128 + (s.narrow l d).toNat ≤ 128 →
          translate s (s.team (teamOf l)).coreId (s.team (teamOf l)).ctx ((s.wide l a).toNat / 128 * 128) = .leaf en size → leafType en < 3 →
          lines = [leafPhys en size ((s.wide l a).toNat / 128 * 128) / 128]) := by
  intro s l h
  refine ⟨maintain d a op s l, by rw [he, h.issued]; rfl, ⟨rfl, rfl, rfl, rfl, fun _ _ => rfl⟩, rfl,
    entryOf s l (.phys 0) (s.wide l a) 0 0 (op (rangeLines s l a d)), rangeLines s l a d, ?_, ⟨rfl, rfl, rfl⟩, rfl, rangeLines_empty,
    fun _ _ => rangeLines_single⟩
  rw [maintain, enqueue, State.group_modGroup_same]

/-! ### IINV leaves the queue (R248, R301) -/

theorem icache_dropCode (s : State) (core : Nat) (lines : List Nat) (c m : Nat) :
    mfind ((dropCode s core lines).core c).icache m = if c = core ∧ m ∈ lines then none else mfind (s.core c).icache m := by
  unfold dropCode
  by_cases hc : c = core
  · subst hc
    rw [State.core_modCore_same]
    refine (mfind_filter _ (fun x => !lines.contains x) m).trans ?_
    by_cases hm : m ∈ lines <;> simp [hm]
  · simp [State.core_modCore_other _ _ _ _ hc, hc]

theorem leaveHead_iinv {s : State} {g : Nat} {e : QEntry} {q : List QEntry} {lines : List Nat} (hq : (s.group g).queue = e :: q) (he : e.op = .iinv lines) :
    leaveHead s g = dropCode (s.modGroup g (fun g => { g with queue := q, left := g.left + 1 })) (s.team (g / 64)).coreId lines := by
  simp only [leaveHead, hq, performEntry, QEntry.isMessage, performLive, he, Bool.false_and, Bool.false_eq_true, if_false]
  rfl

theorem iinv_leaves {g : Nat} {e : QEntry} {q : List QEntry} {lines : List Nat} (he : e.op = .iinv lines) :
    EventGives (.storeQueueLeave g) (fun s => (s.group g).queue = e :: q) (fun s t => t.mem = s.mem ∧ t.threads = s.threads ∧ (t.group g).queue = q ∧
      ∀ c m, mfind (t.core c).icache m = if c = (s.team (g / 64)).coreId ∧ m ∈ lines then none else mfind (s.core c).icache m) := by
  intro s hq
  have hmark : headMark s g = false := by simp [headMark, hq, he, QOp.isMark]
  refine ⟨leaveHead s g, by rw [exec_storeQueueLeave, execStoreQueueLeave, hmark]; rfl, ?_⟩
  rw [leaveHead_iinv hq he]
  exact ⟨rfl, rfl, congrArg Group.queue (State.group_modGroup_same s g (fun g => { g with queue := q, left := g.left + 1 })), fun c m => icache_dropCode _ _ _ c m⟩

/-! ### FETCHB empties the queue (R302) -/

/-- Threads, groups and cores are the same in two states. -/
def KeepsUnits (s t : State) : Prop := t.threads = s.threads ∧ t.groups = s.groups ∧ t.cores = s.cores

theorem KeepsUnits.refl (s : State) : KeepsUnits s s := ⟨rfl, rfl, rfl⟩

theorem KeepsUnits.trans {s t u : State} (h : KeepsUnits s t) (k : KeepsUnits t u) : KeepsUnits s u :=
  ⟨k.1.trans h.1, k.2.1.trans h.2.1, k.2.2.trans h.2.2⟩

theorem OnlyBytes.keepsUnits {s t : State} (h : OnlyBytes s t) : KeepsUnits s t := by
  refine ⟨?_, ?_, ?_⟩ <;> rw [h]

theorem modDir_keepsUnits (s : State) (n : Nat) (f : Dir → Dir) : KeepsUnits s (s.modDir n f) := ⟨rfl, rfl, rfl⟩
theorem fitL2_keepsUnits (s : State) (d n : Nat) : KeepsUnits s (fitL2 s d n) := ⟨rfl, rfl, rfl⟩
theorem fitL1_keepsUnits (s : State) (c n : Nat) : KeepsUnits s (fitL1 s c n) := ⟨rfl, rfl, rfl⟩
theorem setSys_keepsUnits (s : State) (n : Nat) (v : DWord) : KeepsUnits s (s.setSys n v) := ⟨rfl, rfl, rfl⟩

theorem noteHome_keepsUnits (s : State) (l : Loc) : KeepsUnits s (noteHome s l) := by
  unfold noteHome
  split
  · exact .refl s
  · exact ((modDir_keepsUnits s _ _).trans (fitL2_keepsUnits _ _ _)).trans (modDir_keepsUnits _ _ _)

theorem noteHomes_keepsUnits (s : State) (l : Loc) (n : Nat) : KeepsUnits s (noteHomes s l n) :=
  foldl_keeps (fun t x ht => ht.trans (noteHome_keepsUnits t x)) _ s (.refl s)

theorem noteStore_keepsUnits (s : State) (core : Nat) (rt : BitVec 2) (normal atHome : Bool) (l : Loc) (n : Nat) :
    KeepsUnits s (noteStore s core rt normal atHome l n) := by
  unfold noteStore
  split
  · exact .refl s
  · split
    · exact noteHomes_keepsUnits s _ _
    · exact ((modDir_keepsUnits s _ _).trans (fitL2_keepsUnits _ _ _)).trans (fitL1_keepsUnits _ _ _)

theorem noteHeld_keepsUnits (s t : State) (rt : BitVec 2) (l : Loc) (bs : List Byte) : KeepsUnits t (noteHeld s t rt l bs) := by
  unfold noteHeld
  split
  · exact .refl t
  · exact ⟨rfl, rfl, rfl⟩

theorem deviceOut_keepsUnits (s : State) (l : Loc) (bs : List Byte) : KeepsUnits s (deviceOut s l bs) :=
  (noteHomes_keepsUnits s l _).trans (writeOut_only _ l bs).keepsUnits

theorem ringPush_keepsUnits {s t : State} {b i n : Nat} {r : List Byte} (e : ringPush s b i n r = some t) : KeepsUnits s t := by
  unfold ringPush at e
  split at e
  · cases e
  · simp only at e
    split at e
    · cases e
    · cases e
      exact (deviceOut_keepsUnits s _ _).trans (setSys_keepsUnits _ _ _)

theorem logError_keepsUnits (s : State) (k : Nat) (u : UnitId) (a : Nat) (c : Option Nat) (w : Word) : KeepsUnits s (logError s k u a c w) := by
  unfold logError
  simp only
  split
  · next e => exact (ringPush_keepsUnits e).trans ⟨rfl, rfl, rfl⟩
  · exact setSys_keepsUnits s _ _

/-- A store that leaves changes no thread, no queue and no core. -/
theorem performEntry_store_keepsUnits (s : State) (g : Nat) {e : QEntry} {bs : List Byte} (he : e.op = .store bs) : KeepsUnits s (performEntry s g e) := by
  unfold performEntry
  simp only
  split
  · have hdrop : dropLoads s e = s := by rw [dropLoads, he]
    rw [hdrop]
    exact logError_keepsUnits s _ _ _ _ _
  · have hlive : performLive s g e = writeBytes (noteHeld s (noteStore s (s.team (g / 64)).coreId e.rt e.normal e.atHome e.loc bs.length) e.rt e.loc bs)
        e.loc bs := by simp only [performLive, he]
    rw [hlive]
    exact ((noteStore_keepsUnits s _ _ _ _ _ _).trans (noteHeld_keepsUnits _ _ _ _ _)).trans (writeBytes_only _ _ _).keepsUnits

theorem leaveHead_store {s : State} {g : Nat} {e : QEntry} {q : List QEntry} {bs : List Byte} (hq : (s.group g).queue = e :: q) (he : e.op = .store bs) :
    ((leaveHead s g).group g).queue = q ∧ (leaveHead s g).threads = s.threads ∧ (leaveHead s g).cores = s.cores := by
  obtain ⟨ht, hg, hc⟩ := performEntry_store_keepsUnits (s.modGroup g (fun g => { g with queue := q, left := g.left + 1 })) g he
  have hl : leaveHead s g = performEntry (s.modGroup g (fun g => { g with queue := q, left := g.left + 1 })) g e := by rw [leaveHead, hq]
  rw [hl]
  refine ⟨?_, ht, hc⟩
  rw [State.group, hg]
  exact congrArg Group.queue (State.group_modGroup_same s g _)

/-- A queue of stores empties. -/
theorem leaveN_stores (q : List QEntry) (s : State) (g : Nat) (hq : (s.group g).queue = q) (hs : ∀ e ∈ q, ∃ bs, e.op = .store bs) :
    ((leaveN q.length s g).group g).queue = [] ∧ (leaveN q.length s g).threads = s.threads ∧ (leaveN q.length s g).cores = s.cores := by
  induction q generalizing s with
  | nil => exact ⟨hq, rfl, rfl⟩
  | cons e q ih =>
    obtain ⟨⟨bs, he⟩, hrest⟩ := List.forall_mem_cons.1 hs
    obtain ⟨hq', ht, hc⟩ := leaveHead_store hq he
    obtain ⟨hq'', ht', hc'⟩ := ih (leaveHead s g) hq' hrest
    exact ⟨hq'', ht'.trans ht, hc'.trans hc⟩

theorem fetchb_gives : AloneGives .fetchb (fun s l t => (∀ e ∈ (s.group (grpOf l)).queue, ∃ bs, e.op = .store bs) →
    (t.group (grpOf l)).queue = [] ∧ t.thread l = { (s.thread l) with line := none, ahead := [] } ∧ (∀ u, u ≠ l → t.thread u = s.thread u) ∧
    ((s.group (grpOf l)).queue = [] → t.mem = s.mem) ∧ t.cores = s.cores) := by
  intro s l h
  refine ⟨(drainQueue s s.issue.group).modThread l (fun t => { t with line := none, ahead := [] }), by rw [exec_fetchb, execFetchb, h.issued]; rfl, fun hs => ?_⟩
  rw [← h.group]
  obtain ⟨hq, ht, hc⟩ := leaveN_stores _ s (grpOf l) rfl hs
  have hthread : ∀ u, (drainQueue s (grpOf l)).thread u = s.thread u := fun u => by unfold State.thread drainQueue; rw [ht]
  refine ⟨hq, ?_, fun u hu => ?_, fun he => ?_, hc⟩
  · rw [State.thread_modThread_same, hthread]
  · rw [State.thread_modThread_other _ _ _ _ hu, hthread]
  · rw [drainQueue_empty he]; rfl

/-! ### XB.TLOAD (R193, R303) -/

theorem firstPoison_none {s : State} {l : Loc} {n : Nat} (h : poisoned s l n = false) : firstPoison s l n = none := by
  have hall : ∀ (n : Nat) (l : Loc), poisoned s l n = false → ∀ i, i < n → poisonAt s (l.plus i) = false := by
    intro n
    induction n with
    | zero => exact fun _ _ i hi => absurd hi (Nat.not_lt_zero i)
    | succ n ih =>
      intro l hp i hi
      obtain ⟨h0, hrest⟩ := Bool.or_eq_false_iff.1 hp
      cases i with
      | zero => cases l <;> exact h0
      | succ i =>
        have := ih (l.plus 1) hrest i (by omega)
        cases l <;> simpa [Loc.plus, Nat.add_assoc, Nat.add_comm 1] using this
  rw [firstPoison, List.find?_eq_none]
  intro i hi
  simp [hall n l h i (List.mem_range.1 hi)]

theorem mget_setPattern (vs : List Byte) (m : SMap Byte) (key e : Nat) :
    mget 0x80 (setPattern m key vs) e = if key ≤ e ∧ e < key + vs.length then vs.getD (e - key) 0 else mget 0x80 m e := by
  induction vs generalizing m key with
  | nil => simp [setPattern]
  | cons v vs ih =>
    rw [setPattern, ih, mget_mset]
    simp only [List.length_cons]
    rcases Nat.lt_trichotomy e key with h | rfl | h
    · rw [if_neg (by omega), if_neg (by omega), if_neg (by omega)]
    · rw [if_neg (by omega), if_pos rfl, if_pos (by omega), Nat.sub_self, List.getD_cons_zero]
    · have hk : e - key = (e - (key + 1)) + 1 := by omega
      have hc : (key ≤ e ∧ e < key + (vs.length + 1)) ↔ key + 1 ≤ e ∧ e < key + 1 + vs.length := by omega
      simp only [hc, hk, List.getD_cons_succ, if_neg (show ¬ e = key by omega)]

/-- What a load finds in scratchpad where its group's queue is empty. -/
theorem loadBytes_scratch {s : State} {g : Nat} (hq : (s.group g).queue = []) (u n off : Nat) :
    (loadBytes s g (.scratch u off) n).length = n ∧ ∀ e, e < n → (loadBytes s g (.scratch u off) n).getD e 0 = readByte s (.scratch u (off + e)) := by
  induction n generalizing off with
  | zero => exact ⟨rfl, fun e he => absurd he (Nat.not_lt_zero e)⟩
  | succ n ih =>
    obtain ⟨hlen, hget⟩ := ih (off + 1)
    have hcons : loadBytes s g (.scratch u off) (n + 1) = readByte s (.scratch u off) :: loadBytes s g (.scratch u (off + 1)) n := by
      simp [loadBytes, hq, forwardFrom, readByte, Loc.plus, resolve]
    rw [hcons]
    refine ⟨by rw [List.length_cons, hlen], fun e he => ?_⟩
    cases e with
    | zero => rfl
    | succ e => rw [List.getD_cons_succ, hget e (by omega), Nat.add_assoc, Nat.add_comm 1]

/-- XB.TLOAD of a lane whose group's queue is empty, from bytes without poison. -/
theorem tloadLane_eq {s : State} {l : Nat} {a : Code} {k : BitVec 4} (hq : (s.group (grpOf l)).queue = [])
    (hp : poisoned s (.scratch (teamOf l) (s.src l a).toNat) 128 = false) :
    tloadLane a k s l = s.modTeam (teamOf l) (fun t => { t with
      pt := setPattern t.pt (128 * k.toNat) (loadBytes s (grpOf l) (.scratch (teamOf l) (s.src l a).toNat) 128) }) := by
  have hs : settleLoad s (grpOf l) (.scratch (teamOf l) (s.src l a).toNat) 128 = s := by rw [settleLoad, hq]; rfl
  simp only [tloadLane, hs, notePoison, firstPoison_none hp]

theorem xbTload_gives (a : Code) (k : BitVec 4) : AloneGives (.xbTload a k) (fun s l t =>
    let off := (s.src l a).toNat
    (s.group (grpOf l)).queue = [] → (mfind s.teams (teamOf l)).isSome = true → poisoned s (.scratch (teamOf l) off) 128 = false →
    t = { s with teams := t.teams } ∧ (∀ u, t.team u = { (s.team u) with pt := (t.team u).pt }) ∧ (∀ u, u ≠ teamOf l → t.team u = s.team u) ∧
    (∀ e, e < 128 → mget 0x80 (t.team (teamOf l)).pt (128 * k.toNat + e) = readByte s (.scratch (teamOf l) (off + e))) ∧
    ∀ e, (e < 128 * k.toNat ∨ 128 * k.toNat + 128 ≤ e) → mget 0x80 (t.team (teamOf l)).pt e = mget 0x80 (s.team (teamOf l)).pt e) := by
  intro s l h
  refine ⟨tloadLane a k s l, by rw [exec_xbTload, execXbTload, h.issued]; rfl, fun hq hteam hp => ?_⟩
  obtain ⟨hlen, hget⟩ := loadBytes_scratch hq (teamOf l) 128 (s.src l a).toNat
  have hother : ∀ u, u ≠ teamOf l → (tloadLane a k s l).team u = s.team u := fun u hu => by
    rw [tloadLane_eq hq hp, State.team_modTeam_other _ _ _ _ hu]
  have hown : (tloadLane a k s l).team (teamOf l) = { (s.team (teamOf l)) with
      pt := setPattern (s.team (teamOf l)).pt (128 * k.toNat) (loadBytes s (grpOf l) (.scratch (teamOf l) (s.src l a).toNat) 128) } := by
    rw [tloadLane_eq hq hp, State.team_modTeam_same _ _ _ hteam]
  refine ⟨by rw [tloadLane_eq hq hp]; rfl, fun u => ?_, hother, fun e he => ?_, fun e he => ?_⟩
  · by_cases hu : u = teamOf l
    · rw [hu, hown]
    · rw [hother u hu]
  · rw [hown, mget_setPattern, hlen, if_pos (by omega), Nat.add_sub_cancel_left, hget e he]
  · rw [hown, mget_setPattern, hlen, if_neg (by omega)]

/-- Settles O39, word by word. -/
theorem maintenanceWords : Obligations.MaintenanceWords := by
  intro d a z k
  refine ⟨?_, fun g e q lines he => iinv_leaves he, fetchb_gives, xbTload_gives a k⟩
  simp only [List.forall_mem_cons]
  exact ⟨maintain_gives (fun _ => rfl), maintain_gives (fun _ => rfl), maintain_gives (fun _ => rfl), by simp⟩

end Sys2Proof.Machine
end

section
/-! PROOF. O6 and O11: reads of special registers, branches and jumps. -/

namespace Sys2Proof.Machine

/-! ### A thread written twice -/

theorem mput_mput {β : Type} (m : SMap β) (j : Nat) (u v : β) : mput (mput m j u) j v = mput m j v := by
  induction m with
  | nil => simp [mput]
  | cons p m ih =>
    obtain ⟨k, w⟩ := p
    rcases Nat.lt_trichotomy j k with h | rfl | h
    · simp [mput, h]
    · simp [mput]
    · simp [mput, Nat.not_lt.2 h.le, h.ne', ih]

theorem State.setThread_setThread (s : State) (l : Nat) (x y : Thread) : (s.setThread l x).setThread l y = s.setThread l y := by
  simp only [State.setThread, mput_mput]

/-! ### Special registers (R119, R120, R134) -/

theorem specialReg_setThread_other (s : State) (l m k : Nat) (h : l ≠ m) (x : Thread) : specialReg (s.setThread m x) l k = specialReg s l k := by
  unfold specialReg
  rw [State.pre_setThread_other s l m h]
  rfl

/-- The frame base of a vector thread is that of its group, 18,432 bytes after the one before (R119). -/
theorem toNat_frameBase (s : State) (l : Nat) :
    (frameBase s l).toNat = if isBurin l then 0 else ((s.team (teamOf l)).area.toNat + 18432 * groupIx (grpOf l)) % 2 ^ 64 := by
  unfold frameBase
  split
  · rfl
  · rw [BitVec.toNat_add, dw, BitVec.toNat_ofNat, Nat.add_mod_mod]

theorem specialRegisterReads : SpecialRegisterReads := by
  intro d imm hk
  refine putWord_gives _ .i false d (fun s l => specialReg s l imm.toNat) (fun s => ?_) (fun s l m h x => specialReg_setThread_other s l m _ h x) _ (fun s l => ?_)
  · simp only [exec_movs, execMovs, captureCycles, if_neg hk]
  have hlane : laneOf l < 32 := Nat.mod_lt _ (by decide)
  have hgroup : groupIx (grpOf l) < 64 := Nat.mod_lt _ (by decide)
  have hframe := toNat_frameBase s l
  refine ⟨fun h => ?_, fun h => ?_, fun h => ?_, fun h => ?_, fun h => ?_, fun h => ?_, fun h => ?_, fun h => ?_, fun h => ?_, fun h => ?_, fun h => ?_,
    fun h => ?_, fun h => ?_, fun h => ?_, fun h => ?_, fun h => ?_, fun h => ?_⟩
  all_goals simp only [h, specialReg, wd]
  case refine_1 =>
    split
    · rfl
    · exact Nat.mod_eq_of_lt (by omega)
  case refine_2 =>
    split
    · rfl
    · exact Nat.mod_eq_of_lt (by omega)
  case refine_10 => rw [BitVec.extractLsb'_toNat, Nat.shiftRight_zero]
  case refine_11 => rw [BitVec.extractLsb'_toNat, Nat.shiftRight_eq_div_pow]; omega
  case refine_13 =>
    rw [BitVec.extractLsb'_toNat, Nat.shiftRight_zero, hframe]
    split
    · rfl
    · omega
  case refine_14 =>
    rw [BitVec.extractLsb'_toNat, Nat.shiftRight_eq_div_pow, hframe]
    split
    · rfl
    · omega
  case refine_17 => rfl

/-- What a read of CYCLES makes of its thread: the high word kept, then the low word as the result (R120). -/
def readCycles (d : Code) (s : State) (l : Nat) : Thread :=
  let c := (s.core (s.coreOf l)).cycles
  let kept := { (s.thread l) with cycHi := BitVec.ofNat 32 (c / 2 ^ 32) }
  if isBurin l then kept.gdst false d (BitVec.ofNat 64 (c % 2 ^ 32)) else kept.dst .i false d (BitVec.ofNat 32 c)

theorem cyclesReadTogether : CyclesReadTogether := by
  intro d
  refine laneGives_of (.movs d 8) (readCycles d) (fun s l => (captureCycles s l 8).put .i l false d (specialReg s l 8)) (fun _ => rfl) (fun s l => ?_)
    (fun s l m hm x => ?_)
  · have hlow : specialReg s l 8 = BitVec.ofNat 32 (s.core (s.coreOf l)).cycles := rfl
    have hwide (c : Nat) : (BitVec.ofNat 32 c).setWidth 64 = BitVec.ofNat 64 (c % 2 ^ 32) :=
      BitVec.eq_of_toNat_eq (by rw [BitVec.toNat_setWidth]; rfl)
    simp only [captureCycles, if_true, State.put, State.modThread, State.thread_setThread_same, State.setThread_setThread, hlow, hwide]
    rfl
  · unfold readCycles
    rw [State.thread_setThread_other s m l x hm]
    rfl

/-- Settles O6: each number names one value of the thread, its team or its core, and a read of CYCLES keeps the high word. -/
theorem specialRegisters : Obligations.SpecialRegisters := ⟨specialRegisterReads, cyclesReadTogether⟩

/-! ### Targets (R87, R141, R142) -/

/-- The first address of the line of an address. -/
theorem clearLow_eq (pc : DWord) : pc &&& ~~~0x7F#64 = BitVec.ofNat 64 (pc.toNat / 128 * 128) := by
  have hlow (k : Nat) : (0x7F#64).getLsbD k = decide (k < 7) := by
    rw [BitVec.getLsbD_ofNat, Nat.testBit_two_pow_sub_one 7]
    by_cases hk : k < 7 <;> simp [hk]
    omega
  have hshift : pc &&& ~~~0x7F#64 = (pc >>> 7) <<< 7 := by
    refine BitVec.eq_of_getLsbD_eq (fun k hk => ?_)
    rw [BitVec.getLsbD_and, BitVec.getLsbD_not, hlow, BitVec.getLsbD_shiftLeft, BitVec.getLsbD_ushiftRight]
    by_cases h7 : k < 7
    · simp [h7]
    · rw [show 7 + (k - 7) = k by omega]
      simp [h7, hk]
  refine BitVec.eq_of_toNat_eq ?_
  rw [hshift, BitVec.toNat_shiftLeft, BitVec.toNat_ushiftRight, Nat.shiftRight_eq_div_pow, Nat.shiftLeft_eq, BitVec.toNat_ofNat]

/-- A static target counts lines from that of the PC, and slots in the line that it comes to. -/
theorem staticTarget_eq {v : Nat} (pc : DWord) (slot : BitVec 5) (dline : BitVec v) :
    staticTarget pc slot dline = BitVec.ofInt 64 ((pc.toNat / 128 * 128 : Nat) + dline.toInt * 128 + 4 * (slot.toNat : Int)) := by
  have hline : (128 : DWord) = BitVec.ofInt 64 128 := rfl
  have hslot : (4 : DWord) * slot.setWidth 64 = BitVec.ofInt 64 (4 * (slot.toNat : Int)) := by
    rw [BitVec.ofInt_mul, BitVec.ofInt_natCast, BitVec.ofNat_toNat]
    rfl
  rw [staticTarget, clearLow_eq, ← BitVec.ofInt_natCast, BitVec.signExtend, hline, hslot, ← BitVec.ofInt_mul, ← BitVec.ofInt_add, ← BitVec.ofInt_add]

/-! ### Branches and jumps (R104, R141, R142, R145) -/

theorem rankOne_eq (h : BitVec 2) (yes no : List Nat) :
    rankOne h yes no = if yes = [] ∨ no = [] then [] else if h = 1 then no else if h = 2 then yes else if no.length < yes.length then no else yes := by
  simp [rankOne]

/-- The lanes that take a branch, and those that go on. -/
def takers (s : State) (a : Code) (onZero : Bool) : List Nat := s.issue.lanes.filter (fun m => branchTaken s m a onZero)
def fallers (s : State) (a : Code) (onZero : Bool) : List Nat := s.issue.lanes.filter (fun m => !branchTaken s m a onZero)

/-- Every lane goes its way, with the rank of its side; the sides are those of the state in which the word issues. -/
theorem branchLanes_gives {i : Instr} {h : BitVec 2} {a : Code} {slot : BitVec 5} {dline : BitVec 11} {onZero : Bool}
    (he : ∀ s, exec i s = issued i s (branchLanes h a slot dline onZero)) :
    LaneGives i (fun s l th => th = { (s.thread l) with
      pc := if branchTaken s l a onZero then staticTarget s.issue.pc slot dline else s.issue.next
      rank := if l ∈ rankOne h (takers s a onZero) (fallers s a onZero) then 1 else (s.thread l).rank }) := by
  intro s hr
  obtain ⟨hs, hout, hin⟩ := eachLane_threads
    (fun t l => { (t.thread l) with
      pc := if (takers s a onZero).contains l then staticTarget s.issue.pc slot dline else t.issue.next
      rank := if (rankOne h (takers s a onZero) (fallers s a onZero)).contains l then 1 else (t.thread l).rank })
    _ s.issue.lanes (nodup_of_sorted hr.sorted) (fun _ _ => rfl) (fun t l m hm x => by simp only [State.thread_setThread_other _ _ _ _ hm, State.setThread_issue]) s
  refine ⟨_, by rw [he, issued_eq hr]; rfl, ⟨hs, hout⟩, fun l hl => (hin l hl).trans ?_⟩
  have htake : (takers s a onZero).contains l = branchTaken s l a onZero := by
    rw [Bool.eq_iff_iff, List.contains_iff_mem, takers, List.mem_filter]
    exact and_iff_right hl
  simp only [htake, List.contains_iff_mem]

theorem branchesSplit : BranchesSplit := by
  intro h a slot dline
  have hbnz := branchLanes_gives (i := .bnz h a slot dline) (fun _ => rfl)
  have hbz := branchLanes_gives (i := .bz h a slot dline) (fun _ => rfl)
  simp only [rankOne_eq, staticTarget_eq] at hbnz hbz
  exact ⟨hbnz, hbz⟩

theorem jumpsSetPc : JumpsSetPc := by
  refine ⟨fun h slot dline => ?_, fun a => ?_⟩
  · have hg := laneGives_of (.jmp h slot dline) (fun s l => { (s.thread l) with pc := staticTarget s.issue.pc slot dline })
      (fun s l => s.goto l (staticTarget s.issue.pc slot dline)) (fun _ => rfl) (fun _ _ => rfl)
      (fun s l m hm x => by simp only [State.thread_setThread_other _ _ _ _ hm, State.setThread_issue])
    simpa only [staticTarget_eq] using hg
  · exact laneGives_of (.jmpi a) _ (fun s l => s.goto l (s.wide l a)) (fun _ => rfl) (fun _ _ => rfl)
      (fun s l m hm x => by simp only [State.thread_setThread_other _ _ _ _ hm, State.wide_setThread_other s l m hm])

/-- Settles O11: each lane goes its own way, and the sides of a split take their ranks from the hint. -/
theorem branchesAndJumps : Obligations.BranchesAndJumps := ⟨branchesSplit, jumpsSetPc⟩

end Sys2Proof.Machine
end

section
/-! PROOF. O13 and O14: rejoin registers, EXIT, YIELD and NOP. -/

namespace Sys2Proof.Machine

/-! ### The masks of one rejoin register (R114, R115) -/

theorem Group.mask_setMask (g : Group) (k j : Nat) (m : Word × Word) : (g.setMask k m).mask j = if j = k then m else g.mask j := mget_mset _ _ _ _ _

/-- Nothing of the device but one rejoin register of a group and threads of that group differs between two states. -/
def OnlyRejoin (gid k : Nat) (s t : State) : Prop :=
  t = { s with groups := t.groups, threads := t.threads } ∧ (∀ g, g ≠ gid → t.group g = s.group g) ∧
    (∀ j, j ≠ k → (t.group gid).mask j = (s.group gid).mask j) ∧ ∀ x, grpOf x ≠ gid → t.thread x = s.thread x

theorem OnlyRejoin.refl (gid k : Nat) (s : State) : OnlyRejoin gid k s s := ⟨rfl, fun _ _ => rfl, fun _ _ => rfl, fun _ _ => rfl⟩

theorem OnlyRejoin.trans {gid k : Nat} {s t u : State} (h : OnlyRejoin gid k s t) (h' : OnlyRejoin gid k t u) : OnlyRejoin gid k s u := by
  obtain ⟨hs, hg, hm, hx⟩ := h
  obtain ⟨hs', hg', hm', hx'⟩ := h'
  exact ⟨by rw [hs', hs], fun g h => (hg' g h).trans (hg g h), fun j h => (hm' j h).trans (hm j h), fun x h => (hx' x h).trans (hx x h)⟩

theorem onlyRejoin_of_threads {gid k : Nat} {s t : State} (h : t = { s with threads := t.threads }) (hx : ∀ x, grpOf x ≠ gid → t.thread x = s.thread x) :
    OnlyRejoin gid k s t := by
  have hgroups : t.groups = s.groups := by rw [h]
  have hgroup (g : Nat) : t.group g = s.group g := by rw [State.group, State.group, hgroups]
  exact ⟨by rw [hgroups]; exact h, fun g _ => hgroup g, fun j _ => by rw [hgroup], hx⟩

/-- A change of one register's masks. -/
theorem onlyRejoin_setMask (s : State) (gid k : Nat) (f : Word × Word → Word × Word) :
    OnlyRejoin gid k s (s.modGroup gid (fun g => g.setMask k (f (g.mask k)))) :=
  ⟨rfl, fun g h => State.group_modGroup_other _ _ _ _ h, fun j h => by rw [State.group_modGroup_same, Group.mask_setMask, if_neg h], fun _ _ => rfl⟩

theorem mask_modGroup (s : State) (gid k : Nat) (f : Word × Word → Word × Word) :
    ((s.modGroup gid (fun g => g.setMask k (f (g.mask k)))).group gid).mask k = f ((s.group gid).mask k) := by
  rw [State.group_modGroup_same, Group.mask_setMask, if_pos rfl]

theorem laneMask_ne_zero {ls : List Nat} (h : ls ≠ []) : laneMask ls ≠ 0 := by
  obtain ⟨l, ls, rfl⟩ := List.exists_cons_of_ne_nil h
  have hl : laneOf l < 32 := Nat.mod_lt _ (by decide)
  intro h0
  have hbit : (laneMask (l :: ls)).getLsbD (laneOf l) = false := by rw [h0]; exact BitVec.getLsbD_zero
  simp [laneMask, hl] at hbit

/-! ### The release test (R108, R116) -/

theorem Thread.wake_eq (t : Thread) :
    t.wake = { t with cond := (if let some (j, a) := t.beneath then .blocked (.phase j a) else .ready), beneath := none } := by
  cases hb : t.beneath with
  | none => simp only [Thread.wake, hb]
  | some p => simp only [Thread.wake, hb]

/-- What a release makes of a thread that is parked on its register. -/
def Thread.resumed (t : Thread) (clock : Nat) : Thread :=
  { t with cond := (if let some (j, a) := t.beneath then .blocked (.phase j a) else .ready), beneath := none, pc := nextAddr t.pc, stamp := clock, rank := 0 }

/-- The release test on a register finds its threads arrived. -/
def Releases (s : State) (gid k : Nat) : Prop := ((s.group gid).mask k).2 ≠ 0 ∧ ((s.group gid).mask k).2 = ((s.group gid).mask k).1

/-- What a release makes of an entry of the threads. -/
def resumeEntry (s : State) (gid k : Nat) (p : Nat × Thread) : Nat × Thread :=
  if grpOf p.1 = gid ∧ p.2.cond = .parked k then (p.1, p.2.resumed s.clock) else p

theorem releaseTest_of_not {s : State} {gid k : Nat} (h : ¬ Releases s gid k) : releaseTest s gid k = s := if_neg h

theorem releaseTest_of_releases {s : State} {gid k : Nat} (h : Releases s gid k) :
    releaseTest s gid k = (s.modGroup gid (fun g => g.setMask k (0, 0))).withThreads (s.threads.map (resumeEntry s gid k)) := by
  have hr : releaseTest s gid k = { (s.modGroup gid (fun g => g.setMask k (0, 0))) with threads := s.threads.map (fun p =>
      if grpOf p.1 = gid ∧ p.2.cond = .parked k then (p.1, { p.2.wake with pc := nextAddr p.2.pc, stamp := s.clock, rank := 0 }) else p) } := if_pos h
  simp only [Thread.wake_eq] at hr
  exact hr

theorem releaseTest_thread {s : State} {gid k : Nat} (h : Releases s gid k) (x : Nat) :
    (releaseTest s gid k).thread x = if grpOf x = gid ∧ (s.thread x).cond = .parked k then (s.thread x).resumed s.clock else s.thread x := by
  have hfind : mfind (releaseTest s gid k).threads x = (mfind s.threads x).map (fun v => (resumeEntry s gid k (x, v)).2) := by
    rw [releaseTest_of_releases h]
    exact mfind_map_of_keys (fun p => by unfold resumeEntry; split <;> rfl) _ _
  cases hx : mfind s.threads x with
  | none => simp [State.thread, mget, hfind, hx]
  | some v =>
    simp only [State.thread, mget, hfind, hx, Option.map_some, Option.getD_some, resumeEntry]
    split <;> rfl

theorem releaseTest_mask (s : State) (gid k : Nat) :
    ((releaseTest s gid k).group gid).mask k =
      if ((s.group gid).mask k).2 ≠ 0 ∧ ((s.group gid).mask k).2 = ((s.group gid).mask k).1 then (0, 0) else (s.group gid).mask k := by
  by_cases h : Releases s gid k
  · rw [releaseTest_of_releases h]
    exact (mask_modGroup s gid k (fun _ => (0, 0))).trans (if_pos h).symm
  · rw [releaseTest_of_not h]
    exact (if_neg h).symm

theorem releaseTest_only (s : State) (gid k : Nat) : OnlyRejoin gid k s (releaseTest s gid k) := by
  by_cases h : Releases s gid k
  · obtain ⟨-, hgroup, hmask, -⟩ := onlyRejoin_setMask s gid k (fun _ => (0, 0))
    have hthread : ∀ x, grpOf x ≠ gid → (releaseTest s gid k).thread x = s.thread x := fun x hx => by
      rw [releaseTest_thread h, if_neg (fun hp => hx hp.1)]
    rw [releaseTest_of_releases h] at hthread ⊢
    exact ⟨rfl, hgroup, hmask, hthread⟩
  · rw [releaseTest_of_not h]
    exact .refl gid k s

theorem releaseResumesParked : ReleaseResumesParked := by
  intro s gid k m t
  by_cases h : m.2 ≠ 0 ∧ m.2 = m.1
  · rw [if_pos h]
    exact ⟨(releaseTest_mask s gid k).trans (if_pos h), releaseTest_thread h⟩
  · rw [if_neg h]
    exact releaseTest_of_not h

/-! ### Threads struck from a register (R115) -/

/-- What striking lanes leaves of the masks of a register, the release test that follows it made. -/
def struck (m : Word × Word) (l : Word) : Word × Word :=
  if (m.1 ||| m.2) &&& l = 0 then m
  else if m.2 &&& ~~~l ≠ 0 ∧ m.2 &&& ~~~l = m.1 &&& ~~~l then (0, 0) else (m.1 &&& ~~~l, m.2 &&& ~~~l)

theorem and_not_of_and_eq_zero {a l : Word} (h : a &&& l = 0) : a &&& ~~~l = a := by
  refine BitVec.eq_of_getLsbD_eq (fun k hk => ?_)
  have hbit : (a &&& l).getLsbD k = false := by rw [h]; exact BitVec.getLsbD_zero
  rw [BitVec.getLsbD_and] at hbit
  rw [BitVec.getLsbD_and, BitVec.getLsbD_not]
  cases ha : a.getLsbD k <;> simp_all

/-- Masks without a lane that is struck keep all theirs. -/
theorem struck_eq (m : Word × Word) (l : Word) :
    struck m l = if (m.1 ||| m.2) &&& l ≠ 0 ∧ m.2 &&& ~~~l ≠ 0 ∧ m.2 &&& ~~~l = m.1 &&& ~~~l then (0, 0) else (m.1 &&& ~~~l, m.2 &&& ~~~l) := by
  unfold struck
  by_cases h : (m.1 ||| m.2) &&& l = 0
  · have hor : m.1 &&& l ||| m.2 &&& l = 0 := by rw [← BitVec.and_or_distrib_right]; exact h
    obtain ⟨h1, h2⟩ := BitVec.or_eq_zero_iff.1 hor
    rw [if_pos h, if_neg (fun hs => hs.1 h), and_not_of_and_eq_zero h1, and_not_of_and_eq_zero h2]
  · rw [if_neg h]
    simp only [ne_eq, h, not_false_eq_true, true_and]

theorem strikeFrom_mask (s : State) (gid k : Nat) (l : Word) : ((strikeFrom s gid k l).group gid).mask k = struck ((s.group gid).mask k) l := by
  unfold strikeFrom struck
  simp only
  split
  · rfl
  · rw [releaseTest_mask, show ((strikeMask s gid k l).group gid).mask k = _ from mask_modGroup s gid k (fun m => (m.1 &&& ~~~l, m.2 &&& ~~~l))]

theorem strikeFrom_only (s : State) (gid k : Nat) (l : Word) : OnlyRejoin gid k s (strikeFrom s gid k l) := by
  unfold strikeFrom
  simp only
  split
  · exact .refl gid k s
  · exact (onlyRejoin_setMask s gid k (fun m => (m.1 &&& ~~~l, m.2 &&& ~~~l))).trans (releaseTest_only _ gid k)

/-! ### The rejoin words (R108, R115, R116, R150) -/

/-- The phase that a thread waits for, where it waits for one. -/
def Thread.phaseWaited (t : Thread) : Option (Nat × Word) :=
  match t.cond with
  | .blocked (.phase j a) => some (j, a)
  | _ => t.beneath

theorem Thread.blockOn_eq (t : Thread) (c : Cond) : t.blockOn c = { t with cond := c, beneath := t.phaseWaited } := by
  cases hc : t.cond with
  | blocked why => cases why <;> simp only [Thread.blockOn, Thread.phaseWaited, hc]
  | ready => simp only [Thread.blockOn, Thread.phaseWaited, hc]
  | parked j => simp only [Thread.blockOn, Thread.phaseWaited, hc]
  | exited => simp only [Thread.blockOn, Thread.phaseWaited, hc]

theorem enrol_gives (k : BitVec 3) : Completes (.rjEnrol k) (fun s t => OnlyRejoin s.issue.group k.toNat s t ∧ t.threads = s.threads ∧
    (t.group s.issue.group).mask k.toNat =
      (((s.group s.issue.group).mask k.toNat).1 ||| laneMask s.issue.lanes, ((s.group s.issue.group).mask k.toNat).2)) := by
  intro s h
  let enrol (m : Word × Word) : Word × Word := (m.1 ||| laneMask s.issue.lanes, m.2)
  exact ⟨_, by rw [exec_rjEnrol, execRjEnrol, issued_eq h]; rfl, onlyRejoin_setMask s s.issue.group k.toNat enrol, rfl, mask_modGroup s s.issue.group k.toNat enrol⟩

theorem strike_gives (k : BitVec 3) : Completes (.rjStrike k) (fun s t => OnlyRejoin s.issue.group k.toNat s t ∧
    (t.group s.issue.group).mask k.toNat = struck ((s.group s.issue.group).mask k.toNat) (laneMask s.issue.lanes)) := by
  intro s h
  exact ⟨_, by rw [exec_rjStrike, execRjStrike, issued_eq h], strikeFrom_only _ _ _ _, strikeFrom_mask _ _ _ _⟩

/-- A thread that has come to its RJ.WAIT. -/
def Thread.parkedAt (t : Thread) (k : Nat) (pc : DWord) : Thread := { t with cond := .parked k, beneath := t.phaseWaited, pc := pc }

theorem wait_gives (k : BitVec 3) : Completes (.rjWait k) (fun s t =>
    let m := (s.group s.issue.group).mask k.toNat
    let r := m.2 ||| laneMask s.issue.lanes
    OnlyRejoin s.issue.group k.toNat s t ∧ (t.group s.issue.group).mask k.toNat = (if r = m.1 then (0, 0) else (m.1, r)) ∧
    ∀ l ∈ s.issue.lanes, t.thread l =
      if r = m.1 then ((s.thread l).parkedAt k.toNat s.issue.addr).resumed s.clock else (s.thread l).parkedAt k.toNat s.issue.addr) := by
  intro s h
  let m := (s.group s.issue.group).mask k.toNat
  let r := m.2 ||| laneMask s.issue.lanes
  obtain ⟨hs, hout, hin⟩ := eachLane_threads (fun t l => (t.thread l).parkedAt k.toNat t.issue.addr)
    (fun t l => t.modThread l (fun th => { th.blockOn (.parked k.toNat) with pc := t.issue.addr }))
    s.issue.lanes (nodup_of_sorted h.sorted) (fun t l => by simp only [State.modThread, Thread.blockOn_eq, Thread.parkedAt])
    (fun t l m hm x => by simp only [State.thread_setThread_other _ _ _ _ hm, State.setThread_issue]) s
  generalize hp : eachLane (fun t l => t.modThread l (fun th => { th.blockOn (.parked k.toNat) with pc := t.issue.addr })) s s.issue.lanes = p at hs hout hin
  let arrive (m : Word × Word) : Word × Word := (m.1, m.2 ||| laneMask s.issue.lanes)
  set a := p.modGroup s.issue.group (fun g => g.setMask k.toNat (arrive (g.mask k.toNat))) with ha
  have hpg : (p.group s.issue.group).mask k.toNat = m := by rw [hs]; rfl
  have hpc : a.clock = s.clock := by rw [ha, State.modGroup_clock, hs]
  have hmask : (a.group s.issue.group).mask k.toNat = (m.1, r) := by rw [ha, mask_modGroup, hpg]
  have hpark : OnlyRejoin s.issue.group k.toNat s p := onlyRejoin_of_threads hs (fun x hx => by
    rw [State.thread, State.thread, mget, mget, hout x (fun hl => hx (h.group hl))])
  have hne : r ≠ 0 := fun h0 => laneMask_ne_zero h.ne (BitVec.or_eq_zero_iff.1 h0).2
  refine ⟨releaseTest a s.issue.group k.toNat, ?_, ?_, ?_, fun l hl => ?_⟩
  · rw [exec_rjWait, execRjWait, issued_eq h, waitLanes, hp]
    rfl
  · exact (hpark.trans (onlyRejoin_setMask p _ _ arrive)).trans (releaseTest_only a _ _)
  · rw [releaseTest_mask, hmask]
    simp only [hne, ne_eq, not_false_eq_true, true_and]
    rfl
  · have hthread : a.thread l = (s.thread l).parkedAt k.toNat s.issue.addr := hin l hl
    have hiff : Releases a s.issue.group k.toNat ↔ r = m.1 := by rw [Releases, hmask]; exact and_iff_right hne
    by_cases hr : r = m.1
    · rw [releaseTest_thread (hiff.2 hr), if_pos hr, hthread, hpc]
      exact if_pos ⟨h.group hl, rfl⟩
    · rw [releaseTest_of_not (fun hc => hr (hiff.1 hc)), if_neg hr, hthread]

theorem rejoinMasks : RejoinMasks := by
  intro d k
  refine ⟨enrol_gives k, fun s h => ?_, fun s h => ?_, ?_⟩
  · obtain ⟨t, he, ho, hm⟩ := strike_gives k s h
    exact ⟨t, he, ho, by rw [hm, struck_eq]⟩
  · obtain ⟨t, he, ho, hm, hl⟩ := wait_gives k s h
    refine ⟨t, he, ho, hm, fun l hmem => ?_⟩
    have hthread := hl l hmem
    intro phase
    by_cases hr : ((s.group s.issue.group).mask k.toNat).2 ||| laneMask s.issue.lanes = ((s.group s.issue.group).mask k.toNat).1
    · rw [if_pos hr]
      exact hthread.trans (if_pos hr)
    · rw [if_neg hr]
      exact hthread.trans (if_neg hr)
  · exact putWord_gives _ .k false d (fun s l => ((s.group (grpOf l)).mask k.toNat).1) (fun _ => rfl) (fun _ _ _ _ _ => rfl) _ (fun _ _ => rfl)

/-- Settles O14: the masks word by word, then what a release makes of the parked threads. -/
theorem rejoinRegisters : Obligations.RejoinRegisters := ⟨rejoinMasks, releaseResumesParked⟩

/-! ### Threads struck from every register (R115, R147) -/

/-- Groups and threads alone differ, and no thread that has exited. -/
def KeepsExited (s t : State) : Prop := t = { s with groups := t.groups, threads := t.threads } ∧ ∀ x, (s.thread x).cond = .exited → t.thread x = s.thread x

theorem KeepsExited.trans {s t u : State} (h : KeepsExited s t) (h' : KeepsExited t u) : KeepsExited s u := by
  obtain ⟨hs, hx⟩ := h
  obtain ⟨hs', hx'⟩ := h'
  exact ⟨by rw [hs', hs], fun x he => (hx' x (by rw [hx x he]; exact he)).trans (hx x he)⟩

theorem releaseTest_keepsExited (s : State) (gid k : Nat) : KeepsExited s (releaseTest s gid k) := by
  refine ⟨(releaseTest_only s gid k).1, fun x he => ?_⟩
  by_cases h : Releases s gid k
  · rw [releaseTest_thread h, if_neg (fun hp => by rw [he] at hp; exact Cond.noConfusion hp.2)]
  · rw [releaseTest_of_not h]

theorem strikeFrom_keepsExited (s : State) (gid k : Nat) (l : Word) : KeepsExited s (strikeFrom s gid k l) := by
  unfold strikeFrom
  simp only
  split
  · exact ⟨rfl, fun _ _ => rfl⟩
  · exact KeepsExited.trans (t := strikeMask s gid k l) ⟨rfl, fun _ _ => rfl⟩ (releaseTest_keepsExited _ _ _)

theorem strikeAll_keepsExited (s : State) (gid : Nat) (l : Word) : KeepsExited s (strikeAll s gid l) :=
  eachLane_keeps (p := KeepsExited s) (fun t k h => h.trans (strikeFrom_keepsExited t gid k l)) s _ ⟨rfl, fun _ _ => rfl⟩

theorem strikeEach_mask (gid : Nat) (l : Word) (ks : List Nat) (hn : ks.Nodup) (s : State) (j : Nat) :
    ((eachLane (fun s k => strikeFrom s gid k l) s ks).group gid).mask j = if j ∈ ks then struck ((s.group gid).mask j) l else (s.group gid).mask j := by
  induction ks generalizing s with
  | nil => rfl
  | cons k ks ih =>
    obtain ⟨hk, hn⟩ := List.nodup_cons.1 hn
    rw [eachLane, ih hn]
    by_cases hj : j = k
    · subst hj
      rw [if_neg hk, strikeFrom_mask, if_pos (List.mem_cons_self ..)]
    · rw [(strikeFrom_only s gid k l).2.2.1 j hj]
      simp only [List.mem_cons, hj, false_or]

theorem strikeAll_mask (s : State) (gid : Nat) (l : Word) {j : Nat} (hj : j < 8) : ((strikeAll s gid l).group gid).mask j = struck ((s.group gid).mask j) l := by
  rw [strikeAll, strikeEach_mask gid l _ (by decide), if_pos]
  interval_cases j <;> decide

/-! ### Threads end (R147, R339) -/

/-- What leaving a trapping sub-group makes of an entry of the threads. -/
def leaveTrapEntry (s : State) (gid : Nat) (tids : List Nat) (p : Nat × Thread) : Nat × Thread :=
  let out (run : Nat) : Word := laneMask (tids.filter (fun l => (s.thread l).trapping.isSome && decide ((s.thread l).trapNo = run)))
  if tids.contains p.1 then (p.1, { p.2 with trapping := none, wasParked := none })
  else if grpOf p.1 = gid then (p.1, { p.2 with trapping := p.2.trapping.map (fun m => m &&& ~~~(out p.2.trapNo)) })
  else p

/-- Threads that leave their trapping sub-groups keep their PCs. -/
theorem leaveTrap_pc (s : State) (gid : Nat) (tids : List Nat) (x : Nat) : ((leaveTrap s gid tids).thread x).pc = (s.thread x).pc := by
  have hfind : mfind (leaveTrap s gid tids).threads x = (mfind s.threads x).map (fun v => (leaveTrapEntry s gid tids (x, v)).2) :=
    mfind_map_of_keys (F := leaveTrapEntry s gid tids) (fun p => by unfold leaveTrapEntry; simp only; split <;> (try split) <;> rfl) _ _
  cases hx : mfind s.threads x with
  | none => simp only [State.thread, mget, hfind, hx, Option.map_none]
  | some v =>
    simp only [State.thread, mget, hfind, hx, Option.map_some, Option.getD_some, leaveTrapEntry]
    split
    · rfl
    · split <;> rfl

/-- Threads of a group marked as ended, their loads dropped, and the view units that those held returned. -/
def threadsEnded (s : State) (gid : Nat) (tids : List Nat) : State :=
  let s1 := eachLane (fun s l => s.modThread l (fun t => { t with cond := .exited, beneath := none })) (leaveTrap s gid tids) tids
  freeUnits { s1 with loads := s1.loads.filter (fun l => !tids.contains l.tid) } (gid / 64)

/-- The mark that the end of threads leaves in their queue, and a group without live threads no longer active. -/
def endMarked (s : State) (gid : Nat) (tids : List Nat) : State :=
  let s1 := match tids with
    | [] => s
    | l :: _ => enqueue s gid [{ tid := l, word := 0, loc := .phys 0, addr := 0, rt := 0, flags := 0, op := .leave }]
  if groupAlive s1 gid then s1 else s1.modGroup gid (fun g => { g with active := false })

theorem exitThreads_eq (s : State) (gid : Nat) (tids : List Nat) : exitThreads s gid tids =
    if groupIx gid = 32 then threadsEnded s gid tids else endMarked (strikeAll (threadsEnded s gid tids) gid (laneMask tids)) gid tids := rfl

theorem freeUnits_only (s : State) (uid : Nat) : freeUnits s uid = { s with teams := (freeUnits s uid).teams } := by
  unfold freeUnits
  simp only
  split <;> rfl

/-- The ended threads keep their PCs, and beside threads and teams only their loads go. -/
theorem threadsEnded_spec (s : State) (gid : Nat) {tids : List Nat} (hn : tids.Nodup) :
    threadsEnded s gid tids = { s with threads := (threadsEnded s gid tids).threads, teams := (threadsEnded s gid tids).teams
                                       loads := s.loads.filter (fun l => !tids.contains l.tid) } ∧
    ∀ l ∈ tids, ((threadsEnded s gid tids).thread l).cond = .exited ∧ ((threadsEnded s gid tids).thread l).pc = (s.thread l).pc := by
  obtain ⟨hs, -, hin⟩ := eachLane_threads (fun s l => { (s.thread l) with cond := .exited, beneath := none })
    (fun s l => s.modThread l (fun t => { t with cond := .exited, beneath := none })) tids hn (fun _ _ => rfl)
    (fun s l m hm x => by simp only [State.thread_setThread_other _ _ _ _ hm]) (leaveTrap s gid tids)
  generalize he : eachLane (fun s l => s.modThread l (fun t => { t with cond := .exited, beneath := none })) (leaveTrap s gid tids) tids = e at hs hin
  have hf : threadsEnded s gid tids = freeUnits { e with loads := e.loads.filter (fun l => !tids.contains l.tid) } (gid / 64) := by rw [← he]; rfl
  have hfree := freeUnits_only { e with loads := e.loads.filter (fun l => !tids.contains l.tid) } (gid / 64)
  refine ⟨?_, fun l hl => ?_⟩
  · rw [hf, hfree, hs]
    rfl
  · have hthread : (threadsEnded s gid tids).thread l = e.thread l := by rw [hf, hfree]; rfl
    rw [hthread, hin l hl]
    exact ⟨rfl, leaveTrap_pc s gid tids l⟩

/-- The mark of the end changes neither a thread nor a mask. -/
theorem endMarked_spec (s : State) (gid : Nat) (tids : List Nat) : endMarked s gid tids = { s with groups := (endMarked s gid tids).groups } ∧
    ∀ k, ((endMarked s gid tids).group gid).mask k = (s.group gid).mask k := by
  have hactive (t : State) (k : Nat) : ((t.modGroup gid (fun g => { g with active := false })).group gid).mask k = (t.group gid).mask k := by
    rw [State.group_modGroup_same]; rfl
  cases tids with
  | nil =>
    unfold endMarked
    simp only
    split
    · exact ⟨rfl, fun _ => rfl⟩
    · exact ⟨rfl, hactive s⟩
  | cons l ls =>
    have hq (k : Nat) : ((enqueue s gid [{ tid := l, word := 0, loc := .phys 0, addr := 0, rt := 0, flags := 0, op := .leave }]).group gid).mask k =
        (s.group gid).mask k := by rw [enqueue, State.group_modGroup_same]; rfl
    unfold endMarked
    simp only
    split
    · exact ⟨rfl, hq⟩
    · exact ⟨rfl, fun k => (hactive _ k).trans (hq k)⟩

/-- Threads that end: marked, struck from their registers, their loads discarded; memory and system registers are as they were. -/
theorem exitThreads_spec (s : State) (gid : Nat) {tids : List Nat} (hn : tids.Nodup) :
    (∀ l ∈ tids, ((exitThreads s gid tids).thread l).cond = .exited ∧ ((exitThreads s gid tids).thread l).pc = (s.thread l).pc) ∧
    (exitThreads s gid tids).loads = s.loads.filter (fun l => !tids.contains l.tid) ∧
    (exitThreads s gid tids).mem = s.mem ∧ (exitThreads s gid tids).poison = s.poison ∧ (exitThreads s gid tids).sys = s.sys ∧
    (groupIx gid ≠ 32 → ∀ k, k < 8 → ((exitThreads s gid tids).group gid).mask k = struck ((s.group gid).mask k) (laneMask tids)) := by
  obtain ⟨he, hth⟩ := threadsEnded_spec s gid hn
  rw [exitThreads_eq]
  generalize threadsEnded s gid tids = e at he hth ⊢
  by_cases hb : groupIx gid = 32
  · rw [if_pos hb]
    exact ⟨hth, by rw [he], by rw [he], by rw [he], by rw [he], fun h => absurd hb h⟩
  · rw [if_neg hb]
    obtain ⟨ha, hkeep⟩ := strikeAll_keepsExited e gid (laneMask tids)
    have hstruck := fun {j : Nat} => strikeAll_mask e gid (laneMask tids) (j := j)
    generalize strikeAll e gid (laneMask tids) = a at ha hkeep hstruck ⊢
    obtain ⟨hm, hmask⟩ := endMarked_spec a gid tids
    generalize endMarked a gid tids = t at hm hmask ⊢
    have hthread : ∀ l ∈ tids, t.thread l = e.thread l := fun l hl => by
      have ht : t.thread l = a.thread l := by rw [hm]; rfl
      rw [ht, hkeep l (hth l hl).1]
    have hgroup : e.group gid = s.group gid := by rw [he]; rfl
    exact ⟨fun l hl => by rw [hthread l hl]; exact hth l hl, by rw [hm, ha, he], by rw [hm, ha, he], by rw [hm, ha, he], by rw [hm, ha, he],
      fun _ k hk => by rw [hmask, hstruck hk, hgroup]⟩

/-! ### Latches invalidated (R112) -/

/-- A thread without the latches that no earlier word of its chain has written. -/
def invalidated (s : State) (l : Nat) : Thread :=
  { (s.thread l) with
    latch := (s.thread l).latch.filter (fun p => s.issue.kept.contains p.1)
    q3 := if s.issue.kept.contains 3 then (s.thread l).q3 else none }

theorem invalidate_spec (s : State) {ls : List Nat} (hn : ls.Nodup) :
    invalidate s ls = { s with threads := (invalidate s ls).threads } ∧ (∀ x, x ∉ ls → mfind (invalidate s ls).threads x = mfind s.threads x) ∧
    ∀ l ∈ ls, (invalidate s ls).thread l = invalidated s l :=
  eachLane_threads invalidated _ ls hn (fun _ _ => rfl)
    (fun s l m hm x => by simp only [invalidated, State.thread_setThread_other _ _ _ _ hm, State.setThread_issue]) s

/-! ### EXIT, YIELD and NOP (R118, R147 to R149, R338) -/

theorem exitEndsThreads : ExitEndsThreads := by
  intro s h
  have hn := nodup_of_sorted h.sorted
  obtain ⟨hs, -, hin⟩ := eachLane_threads (fun s l => { (s.thread l) with pc := s.issue.addr }) (fun s l => s.goto l s.issue.addr) s.issue.lanes hn
    (fun _ _ => rfl) (fun s l m hm x => by simp only [State.thread_setThread_other _ _ _ _ hm, State.setThread_issue]) s
  refine ⟨exitLanes s s.issue.lanes, by rw [exec_exit, execExit, issued_eq h], ?_⟩
  unfold exitLanes
  generalize eachLane (fun s l => s.goto l s.issue.addr) s s.issue.lanes = g at hs hin ⊢
  obtain ⟨hth, hl, hm, hp, hsys, hmask⟩ := exitThreads_spec g s.issue.group hn
  have hgroup : g.group s.issue.group = s.group s.issue.group := by rw [hs]; rfl
  refine ⟨fun l hmem => ⟨(hth l hmem).1, by rw [(hth l hmem).2, hin l hmem]⟩, fun x hx => ?_, by rw [hm, hs], by rw [hp, hs], by rw [hsys, hs], fun hb k hk => ?_⟩
  · rw [hl, List.mem_filter] at hx
    simpa using hx.2
  · rw [hmask hb k hk, hgroup]
    rfl

theorem yield_gives : LaneGives .yield (fun s l th => th = if isBurin l then s.thread l else { invalidated s l with rank := 0, stamp := s.clock }) := by
  intro s h
  set vs := s.issue.lanes.filter (fun l => !isBurin l)
  have hn : vs.Nodup := (nodup_of_sorted h.sorted).filter _
  have hmem : ∀ {x}, x ∈ vs → x ∈ s.issue.lanes := List.mem_of_mem_filter
  obtain ⟨hs, hout, hin⟩ := invalidate_spec s hn
  obtain ⟨hs', hout', hin'⟩ := eachLane_threads (fun s l => { (s.thread l) with rank := 0, stamp := s.clock })
    (fun s l => s.modThread l (fun t => { t with rank := 0, stamp := s.clock })) vs hn (fun _ _ => rfl)
    (fun s l m hm x => by simp only [State.thread_setThread_other _ _ _ _ hm, State.setThread_clock]) (invalidate s vs)
  have hclock : (invalidate s vs).clock = s.clock := by rw [hs]
  refine ⟨_, by rw [exec_yield, execYield, issued_eq h], ⟨by rw [hs', hs], fun x hx => ?_⟩, fun l hl => ?_⟩
  · rw [hout' x (fun hm => hx (hmem hm)), hout x (fun hm => hx (hmem hm))]
  · cases hb : isBurin l with
    | true =>
      have hlv : l ∉ vs := fun hm => by simpa [hb] using (List.mem_filter.1 hm).2
      refine Eq.trans ?_ (if_pos hb).symm
      rw [State.thread, State.thread, mget, mget, hout' l hlv, hout l hlv]
    | false =>
      have hlv : l ∈ vs := List.mem_filter.2 ⟨hl, by rw [hb]; rfl⟩
      refine Eq.trans ?_ (if_neg (ne_true_of_eq_false hb)).symm
      rw [hin' l hlv, hin l hlv, hclock]

/-- Settles O13: EXIT by what becomes of ended threads and of their registers, YIELD by its two passes over the vector threads. -/
theorem threadsEndOrYield : Obligations.ThreadsEndOrYield := ⟨exitEndsThreads, yield_gives, fun s h => by rw [exec_nop, execNop, issued_eq h]⟩

end Sys2Proof.Machine
end

section
/-! PROOF. O30 and O31: loads and the return of their data. -/

namespace Sys2Proof.Machine

/-! ### What a load writes (R87, R277) -/

theorem Thread.regs_setRegs (t : Thread) (k j : Nat) (ws : List Word) (hj : j < 120) :
    mget 0 (t.setRegs k ws).regs j = if k ≤ j ∧ j < k + ws.length then ws.getD (j - k) 0 else mget 0 t.regs j := by
  induction ws generalizing t k with
  | nil => rw [if_neg (by simp)]; rfl
  | cons w ws ih =>
    rw [Thread.setRegs, ih, Thread.regs_setReg _ _ _ _ hj, List.length_cons]
    rcases Nat.lt_trichotomy j k with h | rfl | h
    · rw [if_neg (by omega), if_neg (by omega), if_neg (by omega)]
    · rw [if_neg (by omega), if_pos rfl, if_pos (by omega), Nat.sub_self, List.getD_cons_zero]
    · have hs : j - k = (j - (k + 1)) + 1 := by omega
      have hc : (k ≤ j ∧ j < k + (ws.length + 1)) ↔ k + 1 ≤ j ∧ j < k + 1 + ws.length := by omega
      simp only [hc, hs, List.getD_cons_succ, if_neg (show ¬ j = k by omega)]

/-- Nothing of a thread but v registers differs. -/
def SameButVector (a b : Thread) : Prop := b = { a with regs := b.regs }

theorem SameButVector.trans {a b c : Thread} (h : SameButVector a b) (k : SameButVector b c) : SameButVector a c := by
  unfold SameButVector at *; rw [k, h]

theorem Thread.setReg_vector (t : Thread) (c : Nat) (v : Word) : SameButVector t (t.setReg c v) := by
  unfold Thread.setReg
  split <;> rfl

theorem Thread.setRegs_vector (t : Thread) (k : Nat) (ws : List Word) : SameButVector t (t.setRegs k ws) := by
  induction ws generalizing t k with
  | nil => rfl
  | cons w ws ih => exact (t.setReg_vector k w).trans (ih _ _)

/-- The words that a load of a size writes to consecutive registers. -/
def loadedWords (sz : BitVec 3) (v : Nat) : List Word := (List.range (loadCount sz)).map (loadWord sz v)

theorem loadedWords_length (sz : BitVec 3) (v : Nat) : (loadedWords sz v).length = loadCount sz := by simp [loadedWords]

theorem loadedWords_getD (sz : BitVec 3) (v : Nat) {i : Nat} (h : i < loadCount sz) : (loadedWords sz v).getD i 0 = loadWord sz v i := by
  simp [loadedWords, List.getD_eq_getElem?_getD, h]

theorem extended_eq_loadWord (sz : BitVec 3) (v : Nat) : extended sz 32 v = loadWord sz v 0 := by
  unfold extended loadWord
  split
  · next h => rw [if_pos h]
  · next h => rw [if_neg (by omega), if_pos h]
  · next h1 h3 => rw [if_neg h1, if_neg h3, Nat.mul_zero, Nat.pow_zero, Nat.div_one]

theorem Thread.loaded_eq (t : Thread) (d : Code) (sz : BitVec 3) (v : Nat) (hd : d.toNat < 120) :
    t.loaded false false d sz v = t.setRegs d.toNat (loadedWords sz v) := by
  have hwords (n : Nat) (h1 : sz.toNat ≠ 1) (h3 : sz.toNat ≠ 3) (hn : loadCount sz = n) : wordsOf v n = loadedWords sz v := by
    rw [loadedWords, hn]
    exact List.map_congr_left (fun i _ => by rw [loadWord, if_neg h1, if_neg h3]; rfl)
  simp only [Thread.loaded, Bool.false_eq_true, if_false, if_pos hd]
  split
  · next h => rw [hwords 2 (by omega) (by omega) (by rw [loadCount, if_pos h])]
  · next h => rw [hwords 4 (by omega) (by omega) (by rw [loadCount, if_neg (by omega), if_pos h])]
  · next h5 h6 =>
    have hone : loadCount sz = 1 := by rw [loadCount, if_neg h5, if_neg h6]
    rw [extended_eq_loadWord, loadedWords, hone]
    rfl

/-- A load to a vector thread changes the registers of its destination alone. -/
theorem Thread.loaded_spec (t : Thread) (n : Bool) (d : Code) (sz : BitVec 3) (v : Nat) :
    SameButVector t (t.loaded false n d sz v) ∧ LoadedRegs t (t.loaded false n d sz v) n d sz v := by
  by_cases hw : n = false ∧ d.toNat < 120
  · obtain ⟨rfl, hd⟩ := hw
    have hsame := t.setRegs_vector d.toNat (loadedWords sz v)
    rw [t.loaded_eq d sz v hd]
    refine ⟨hsame, by rw [hsame], fun c hc => ?_⟩
    rw [Thread.regs_setRegs _ _ _ _ hc, loadedWords_length]
    by_cases hin : d.toNat ≤ c ∧ c < d.toNat + loadCount sz
    · rw [if_pos hin, if_pos ⟨rfl, hin⟩, loadedWords_getD sz v (by omega)]
    · rw [if_neg hin, if_neg (fun h => hin h.2)]
  · have hnone : t.loaded false n d sz v = t := by
      cases n with
      | true => rfl
      | false => simp only [Thread.loaded, Bool.false_eq_true, if_false, if_neg (fun hd => hw ⟨rfl, hd⟩)]
    rw [hnone]
    exact ⟨rfl, rfl, fun c hc => (if_neg (fun h => hw ⟨h.1, by omega⟩)).symm⟩

/-! ### The data returns (R111, R401) -/

/-- What the data of a load that has been read makes of its thread. -/
def Thread.returned (t : Thread) (ld : Load) (v : Nat) : Thread :=
  let t1 := t.loaded (isBurin ld.tid) ld.n ld.d ld.sz v
  if t.q3 = some ld.id ∧ isBurin ld.tid = false then { t1 with q3 := none, latch := mput t1.latch 3 (extended ld.sz 32 v) } else t1

theorem freeUnits_none {s : State} {uid : Nat} (h : (s.team uid).oldUnits = []) : freeUnits s uid = s := by
  rw [freeUnits, h]
  rfl

/-- The return of a load whose bytes have been read and hold no poison. -/
theorem returnLoad_eq {s : State} {id : Nat} {ld : Load} {v : Nat} (hf : s.loads.find? (fun x => x.id = id) = some ld) (hp : ld.parts = none)
    (hv : ld.value = some v) (hb : ld.poison = false) (hc : (s.thread ld.tid).cond ≠ .exited) (ho : (s.team (teamOf ld.tid)).oldUnits = []) :
    returnLoad s id = { s with loads := s.loads.filter (fun x => decide (x.id ≠ id)) }.setThread ld.tid ((s.thread ld.tid).returned ld v) := by
  have hid : ld.id = id := by simpa using List.find?_some hf
  have hview : finishView s id = s := by simp only [finishView, hf, hp]
  have hfree : ∀ x, freeUnits ({ s with loads := s.loads.filter (fun x => decide (x.id ≠ id)) }.setThread ld.tid x) (teamOf ld.tid) =
      { s with loads := s.loads.filter (fun x => decide (x.id ≠ id)) }.setThread ld.tid x := fun x => freeUnits_none ho
  simp only [returnLoad, hview, hf, hv, hb, if_neg hc, Bool.false_eq_true, if_false, hfree]
  congr 1
  rw [Thread.returned, hid]
  simp

/-- What the return of a vector thread's load writes: the destination, and q3 where the load still owns it. -/
theorem Thread.returned_vector (t : Thread) {ld : Load} (hb : isBurin ld.tid = false) (v : Nat) :
    LoadedRegs t (t.returned ld v) ld.n ld.d ld.sz v ∧ SameButRegs t (t.returned ld v) ∧
    (∀ k, k ≠ 3 → mfind (t.returned ld v).latch k = mfind t.latch k) ∧
    (t.returned ld v).q3 = (if t.q3 = some ld.id then none else t.q3) ∧
    mfind (t.returned ld v).latch 3 = if t.q3 = some ld.id then some (loadWord ld.sz v 0) else mfind t.latch 3 := by
  obtain ⟨hsame, hregs⟩ := t.loaded_spec ld.n ld.d ld.sz v
  simp only [Thread.returned, hb, and_true]
  by_cases hq : t.q3 = some ld.id
  · simp only [hq, if_true]
    generalize t.loaded false ld.n ld.d ld.sz v = u at hsame hregs
    refine ⟨hregs, by rw [hsame]; rfl, fun k hk => ?_, trivial, ?_⟩
    · rw [mfind_mput_other _ _ _ _ hk, hsame]
    · rw [mfind_mput_same, extended_eq_loadWord]
  · simp only [hq, if_false]
    generalize t.loaded false ld.n ld.d ld.sz v = u at hsame hregs
    exact ⟨hregs, by rw [hsame]; rfl, fun k _ => by rw [hsame], by rw [hsame], by rw [hsame]⟩

/-- Settles O31: the return of such a load writes its own thread and drops its record. -/
theorem loadDataReturns : Obligations.LoadDataReturns := by
  intro id s h
  obtain ⟨ld, v, hf, hp, hv, hpoison, hc, hb, ho⟩ := h
  have hid : ld.id = id := by simpa using List.find?_some hf
  obtain ⟨hregs, hsame, hlatch, hq, hq3⟩ := (s.thread ld.tid).returned_vector hb v
  rw [hid] at hq hq3
  refine ⟨returnLoad s id, rfl, ld, v, hf, hv, ?_⟩
  rw [returnLoad_eq hf hp hv hpoison hc ho, State.thread_setThread_same]
  exact ⟨rfl, fun x hx => State.thread_setThread_other _ _ _ _ hx, hregs, hsame, hlatch, hq, hq3⟩

/-! ### What a load leaves in the caches (R205, R256, R370) -/

/-- Nothing of the device but the state of its cores' and dies' caches and their directory differs. -/
def OnlyCaches (s t : State) : Prop := t = { s with cores := t.cores, dies := t.dies, dir := t.dir }

theorem OnlyCaches.trans {s t u : State} (h : OnlyCaches s t) (k : OnlyCaches t u) : OnlyCaches s u := by
  unfold OnlyCaches at *; rw [k, h]

theorem modCore_caches (s : State) (c : Nat) (f : Core → Core) : OnlyCaches s (s.modCore c f) := rfl
theorem modDie_caches (s : State) (d : Nat) (f : Die → Die) : OnlyCaches s (s.modDie d f) := rfl
theorem modDir_caches (s : State) (n : Nat) (f : Dir → Dir) : OnlyCaches s (s.modDir n f) := rfl
theorem fitL1_caches (s : State) (c n : Nat) : OnlyCaches s (fitL1 s c n) := rfl
theorem fitL2_caches (s : State) (d n : Nat) : OnlyCaches s (fitL2 s d n) := rfl

theorem noteRead_caches (s : State) (d : Nat) (l : Loc) : OnlyCaches s (noteRead s d l) := by
  unfold noteRead
  split
  · rfl
  · exact ((modDir_caches s _ _).trans (fitL2_caches _ _ _)).trans (modDir_caches _ _ _)

theorem noteHomeReads_caches (s : State) (l : Loc) (n : Nat) : OnlyCaches s (noteHomeReads s l n) :=
  foldl_keeps (p := OnlyCaches s) (fun t x h => h.trans (noteRead_caches t _ x)) _ s rfl

theorem dirLoad_caches (s : State) (c : Nat) (rt : BitVec 2) (pa n : Nat) : OnlyCaches s (dirLoad s c rt pa n) :=
  ((modDir_caches s _ _).trans (fitL2_caches _ _ _)).trans (fitL1_caches _ _ _)

theorem noteLoad_caches (s : State) (c : Nat) (rt : BitVec 2) (l : Loc) (e : DWord) (n : Nat) : OnlyCaches s (noteLoad s c rt l e n) := by
  unfold noteLoad
  split
  · rfl
  · split
    · exact noteHomeReads_caches _ _ _
    · exact dirLoad_caches _ _ _ _ _

theorem noteLookup_caches (tid : Nat) (b : TSlot) (span : Nat) (s : State) (block : Nat) : OnlyCaches s (noteLookup tid b span s block) := by
  have h := noteHomeReads_caches s (.phys (b.pa + 8)) 4
  unfold noteLookup
  simp only
  split
  · exact h
  · split
    · exact h.trans rfl
    · exact h

theorem fillTokens_caches (tid : Nat) (v : ViewReg) (ts : List Nat) (s : State) : OnlyCaches s (fillTokens s tid v ts) := by
  induction ts generalizing s with
  | nil => rfl
  | cons t ts ih =>
    refine OnlyCaches.trans ?_ (ih _)
    split
    · rfl
    · split
      · exact (noteLookup_caches _ _ _ _ _).trans (modCore_caches _ _ _)
      · rfl

theorem fillView_caches (size : Nat) (s : State) (tid : Nat) (va : DWord) : OnlyCaches s (fillView size s tid va) := by
  unfold fillView
  split
  · rfl
  · exact fillTokens_caches _ _ _ _

theorem cacheTrans_caches (s : State) (d : Nat) (t : Trans) : OnlyCaches s (cacheTrans s d t) := by
  unfold cacheTrans
  split
  · rfl
  · exact modDie_caches _ _ _

theorem missWalk_caches (s : State) (d : Nat) (tag : BitVec 12) (va : Nat) : OnlyCaches s (missWalk s d tag va) := by
  unfold missWalk
  split
  · exact modDie_caches _ _ _
  · rfl

theorem fillTrans_caches (s : State) (core ctx va : Nat) : OnlyCaches s (fillTrans s core ctx va) := by
  unfold fillTrans
  split
  · simp only
    split
    · rfl
    · split
      · exact modCore_caches _ _ _
      · exact ((modCore_caches s _ _).trans (missWalk_caches _ _ _ _)).trans (cacheTrans_caches _ _ _)
  · rfl

theorem poisoned_congr {s t : State} (hb : t.binds = s.binds) (hp : t.poison = s.poison) (hl : t.lost = s.lost) (hd : t.deadChannels = s.deadChannels)
    (ht : t.teams = s.teams) (l : Loc) (n : Nat) : poisoned t l n = poisoned s l n := by
  have hat (l : Loc) : poisonAt t l = poisonAt s l := by
    simp only [poisonAt, resolve_congr hb, lostPeer, lostChannel, hp, hl, hd, State.team, ht]
  induction n generalizing l with
  | zero => rfl
  | succ n ih => simp only [poisoned, hat, ih]

/-! ### Loads begin (R111, R112, R229, R277) -/

/-- Nothing of the device but caches and the latches of one lane differs: what a load of the lane reads is as it was. -/
structure OnlyLatches (s : State) (l : Nat) (t : State) : Prop where
  rest : t = { s with threads := t.threads, cores := t.cores, dies := t.dies, dir := t.dir }
  lane : t.thread l = { (s.thread l) with latch := (t.thread l).latch, q3 := (t.thread l).q3 }
  others : ∀ x, x ≠ l → t.thread x = s.thread x

theorem OnlyLatches.trans {s t u : State} {l : Nat} (h : OnlyLatches s l t) (k : OnlyLatches t l u) : OnlyLatches s l u :=
  ⟨by rw [k.rest, h.rest], by rw [k.lane, h.lane], fun x hx => (k.others x hx).trans (h.others x hx)⟩

theorem OnlyLatches.keepsRest {s t : State} {l : Nat} (h : OnlyLatches s l t) : KeepsRest s l t :=
  ⟨by rw [h.rest], by rw [h.rest], by rw [h.rest], by rw [h.rest], h.others⟩

theorem OnlyCaches.onlyLatches {s t : State} (h : OnlyCaches s t) (l : Nat) : OnlyLatches s l t := by
  have ht : t.threads = s.threads := by rw [h]
  have hthread (x : Nat) : t.thread x = s.thread x := by rw [State.thread, State.thread, ht]
  exact ⟨by rw [ht]; exact h, by rw [hthread], fun x _ => hthread x⟩

theorem readNat_onlyLatches {s t : State} {l : Nat} (h : OnlyLatches s l t) (p : Loc) (n : Nat) : readNat t p n = readNat s p n :=
  congrArg leNat (readBytes_same (by rw [h.rest]) (by rw [h.rest]) (by rw [h.rest]) p n)

theorem poisoned_onlyLatches {s t : State} {l : Nat} (h : OnlyLatches s l t) (p : Loc) (n : Nat) : poisoned t p n = poisoned s p n :=
  poisoned_congr (by rw [h.rest]) (by rw [h.rest]) (by rw [h.rest]) (by rw [h.rest]) (by rw [h.rest]) p n

theorem settleLoad_empty {s : State} {g : Nat} (h : (s.group g).queue = []) (p : Loc) (n : Nat) : settleLoad s g p n = s := by
  rw [settleLoad, h]
  rfl

/-- A load finds what stands in memory where no store of its group waits. -/
theorem loadBytes_empty {s : State} {g : Nat} (h : (s.group g).queue = []) (p : Loc) (n : Nat) : loadBytes s g p n = readBytes s p n := by
  induction n generalizing p with
  | zero => rfl
  | succ n ih => simp only [loadBytes, readBytes, readByte, h, List.reverse_nil, forwardFrom, ih]

theorem invalidate_onlyLatches (s : State) (l : Nat) : OnlyLatches s l (invalidate s [l]) :=
  ⟨rfl, by simp only [invalidate, eachLane, State.thread_modThread_same], fun x hx => by
    simp only [invalidate, eachLane, State.thread_modThread_other _ _ _ _ hx]⟩

/-- A load record entered, its identity taken. -/
def State.addLoad (s : State) (ld : Load) : State := { s with loads := s.loads ++ [ld], nextId := s.nextId + 1 }

theorem KeepsRest.trans {s t u : State} {l : Nat} (h : KeepsRest s l t) (k : KeepsRest t l u) : KeepsRest s l u := by
  obtain ⟨hm, hp, hs, ht, ho⟩ := h
  obtain ⟨hm', hp', hs', ht', ho'⟩ := k
  exact ⟨hm'.trans hm, hp'.trans hp, hs'.trans hs, ht'.trans ht, fun x hx => (ho' x hx).trans (ho x hx)⟩

/-- A load or atomic that begins has its record, and on a vector thread it owns q3. -/
theorem beginLoad_spec (s : State) (ld : Load) : (beginLoad s ld).loads = s.loads ++ [ld] ∧ KeepsRest s ld.tid (beginLoad s ld) ∧
    (beginLoad s ld).thread ld.tid =
      if isBurin ld.tid then s.thread ld.tid else { (s.thread ld.tid) with q3 := some ld.id, latch := mdel (s.thread ld.tid).latch 3 } := by
  cases hb : isBurin ld.tid with
  | true =>
    rw [show beginLoad s ld = s.addLoad ld from if_pos hb]
    exact ⟨rfl, ⟨rfl, rfl, rfl, rfl, fun _ _ => rfl⟩, rfl⟩
  | false =>
    have hbegin : beginLoad s ld = (s.addLoad ld).modThread ld.tid (fun t => { t with q3 := some ld.id, latch := mdel t.latch 3 }) :=
      if_neg (ne_true_of_eq_false hb)
    rw [hbegin]
    exact ⟨rfl, ⟨rfl, rfl, rfl, rfl, fun x hx => State.thread_modThread_other _ _ _ _ hx⟩, State.thread_modThread_same _ _ _⟩

/-- A load that begins is awaited at its destination and, on a vector thread, at q3; nothing else of the device has changed that the lane reads. -/
theorem beginLoad_begun {s u : State} {l : Nat} (h : OnlyLatches s l u) {ld : Load} (ht : ld.tid = l) (hw : ld.word = s.issue.word) :
    KeepsRest s l (beginLoad u ld) ∧ LoadBegun s l (beginLoad u ld) ld.n ld.d ld.sz ld.addr ld.value ld.poison := by
  subst ht
  obtain ⟨hloads, hrest, hthread⟩ := beginLoad_spec u ld
  refine ⟨h.keepsRest.trans hrest, ld, by rw [hloads]; exact List.mem_append_right _ (List.mem_singleton_self _), rfl, rfl, rfl, rfl, rfl, rfl, rfl, hw, ?_, fun hb => ?_⟩
  · rw [hthread]
    split
    · exact h.lane
    · rw [h.lane]
  · rw [hthread, hb]
    exact ⟨rfl, mfind_mdel_same _ _⟩

theorem OnlyLatches.pre {s t : State} {l : Nat} (h : OnlyLatches s l t) (hs : (mfind s.issue.snap l).isSome = true) : t.pre l = s.pre l := by
  obtain ⟨th, hth⟩ := Option.isSome_iff_exists.1 hs
  have hi : t.issue = s.issue := by rw [h.rest]
  simp only [State.pre, hi, hth, Option.getD_some]

theorem OnlyLatches.memAddr {s t : State} {l : Nat} (h : OnlyLatches s l t) (hs : (mfind s.issue.snap l).isSome = true) (a : Code) (sz : BitVec 3) (off : BitVec 5) :
    Machine.memAddr t l a sz off = Machine.memAddr s l a sz off := by
  simp only [Machine.memAddr, State.wide, State.gsrc, State.src64, h.pre hs]

theorem OnlyLatches.memOff {s t : State} {l : Nat} (h : OnlyLatches s l t) (hs : (mfind s.issue.snap l).isSome = true) (a : Code) (sz : BitVec 3) (off : BitVec 5) :
    Machine.memOff t l a sz off = Machine.memOff s l a sz off := by
  simp only [Machine.memOff, State.amount, State.gsrc, State.src, h.pre hs]

/-! ### The words (R276, R277) -/

/-- LDG from an ordinary page, where no store of the group waits. -/
theorem ldgLane_begun {s u : State} {l : Nat} {n : Bool} {d a : Code} {rt : BitVec 2} {sz : BitVec 3} {off : BitVec 5} {loc : Loc} {leaf : DWord} {size : Nat}
    (h : OnlyLatches s l u) (hs : (mfind s.issue.snap l).isSome = true) (hq : (s.group (grpOf l)).queue = [])
    (hc : checkAccess s (s.team (teamOf l)).coreId (s.team (teamOf l)).ctx (teamOf l) (memAddr s l a sz off) (szBytes sz) .load = .at loc leaf size) :
    KeepsRest s l (ldgLane s n d a rt sz off u l) ∧ LoadBegun s l (ldgLane s n d a rt sz off u l) n d sz (memAddr s l a sz off)
      (some (readNat s loc (szBytes sz))) (poisoned s loc (szBytes sz)) := by
  have hteam : u.team (teamOf l) = s.team (teamOf l) := by rw [h.rest]; rfl
  have hnote : OnlyLatches s l (noteTrans u l (memAddr s l a sz off)) := h.trans ((fillTrans_caches _ _ _ _).onlyLatches l)
  generalize hn : noteTrans u l (memAddr s l a sz off) = w at hnote
  have hload : OnlyLatches s l (noteLoad w (s.team (teamOf l)).coreId rt loc leaf (szBytes sz)) := hnote.trans ((noteLoad_caches _ _ _ _ _ _).onlyLatches l)
  have hempty : (w.group (grpOf l)).queue = [] := by rw [hnote.rest]; exact hq
  have hword : (noteLoad w (s.team (teamOf l)).coreId rt loc leaf (szBytes sz)).issue.word = s.issue.word := by rw [hload.rest]
  have hval : leNat (loadBytes w (grpOf l) loc (szBytes sz)) = readNat s loc (szBytes sz) := by
    rw [loadBytes_empty hempty]; exact readNat_onlyLatches hnote _ _
  simp only [ldgLane, h.memAddr hs, hteam, hc, hn, settleLoad_empty hempty, hval, poisoned_onlyLatches hnote]
  exact beginLoad_begun hload rfl hword

theorem Thread.privBytes_congr {a b : Thread} (h : a.priv = b.priv) (o n : Nat) : a.privBytes o n = b.privBytes o n := by
  induction n generalizing o with
  | zero => rfl
  | succ n ih => simp only [Thread.privBytes, h, ih]

theorem ldpLane_begun {s u : State} {l : Nat} {n : Bool} {d a : Code} {sz : BitVec 3} {off : BitVec 5} (h : OnlyLatches s l u)
    (hs : (mfind s.issue.snap l).isSome = true) :
    let o := (memOff s l a sz off).toNat
    KeepsRest s l (ldpLane n d a sz off u l) ∧ LoadBegun s l (ldpLane n d a sz off u l) n d sz (BitVec.ofNat 64 o)
      (some (leNat ((s.thread l).privBytes o (szBytes sz)))) ((s.thread l).privPoison.contains (o / 32)) := by
  intro o
  have hpriv : (u.thread l).priv = (s.thread l).priv := by rw [h.lane]
  have hpoison : (u.thread l).privPoison = (s.thread l).privPoison := by rw [h.lane]
  have hword : u.issue.word = s.issue.word := by rw [h.rest]
  simp only [ldpLane, h.memOff hs, hpoison, Thread.privBytes_congr hpriv]
  exact beginLoad_begun h rfl hword

/-- A load that begins with its data returns it at once: on a vector thread registers and q3 are written, on the burin core the register alone. -/
theorem returnLoad_beginLoad {s : State} {ld : Load} {v : Nat} (hid : ∀ x ∈ s.loads, x.id ≠ ld.id) (hparts : ld.parts = none) (hv : ld.value = some v)
    (hp : ld.poison = false) (hc : (s.thread ld.tid).cond ≠ .exited) (ho : (s.team (teamOf ld.tid)).oldUnits = []) :
    let t := returnLoad (beginLoad s ld) ld.id
    KeepsRest s ld.tid t ∧ t.loads = s.loads ∧
      if isBurin ld.tid then t.thread ld.tid = (s.thread ld.tid).loaded true ld.n ld.d ld.sz v
      else LoadedRegs (s.thread ld.tid) (t.thread ld.tid) ld.n ld.d ld.sz v ∧ mfind (t.thread ld.tid).latch 3 = some (loadWord ld.sz v 0) ∧
        (t.thread ld.tid).q3 = none := by
  intro t
  obtain ⟨hloads, hrest, hthread⟩ := beginLoad_spec s ld
  obtain ⟨hm, hpo, hs, ht, hother⟩ := hrest
  have hfind : (beginLoad s ld).loads.find? (fun x => x.id = ld.id) = some ld := by
    rw [hloads, List.find?_append, List.find?_eq_none.2 (fun x hx => by simpa using hid x hx)]
    simp
  have hfilter : (beginLoad s ld).loads.filter (fun x => decide (x.id ≠ ld.id)) = s.loads := by
    rw [hloads, List.filter_append, List.filter_eq_self.2 (fun x hx => by simpa using hid x hx)]
    simp
  have hcond : ((beginLoad s ld).thread ld.tid).cond ≠ .exited := by
    rw [hthread]
    split <;> exact hc
  have hteam : ((beginLoad s ld).team (teamOf ld.tid)).oldUnits = [] := by rw [State.team, ht]; exact ho
  have hret : t = { beginLoad s ld with loads := s.loads }.setThread ld.tid (((beginLoad s ld).thread ld.tid).returned ld v) := by
    rw [← hfilter]
    exact returnLoad_eq hfind hparts hv hp hcond hteam
  rw [hret, State.thread_setThread_same]
  refine ⟨⟨hm, hpo, hs, ht, fun x hx => (State.thread_setThread_other _ _ _ _ hx).trans (hother x hx)⟩, rfl, ?_⟩
  cases hb : isBurin ld.tid with
  | true =>
    rw [if_pos rfl, hthread, hb]
    simp only [Thread.returned, hb, if_true, Bool.true_eq_false, and_false, if_false]
  | false =>
    obtain ⟨⟨hg, hregs⟩, -, -, hq, hlatch⟩ := ((beginLoad s ld).thread ld.tid).returned_vector hb v
    rw [hthread, hb] at hg hregs hq hlatch ⊢
    exact ⟨⟨hg, hregs⟩, hlatch.trans (if_pos rfl), hq.trans (if_pos rfl)⟩

theorem ldsLane_done {s : State} {l : Nat} {n : Bool} {d a : Code} {sz : BitVec 3} {off : BitVec 5} (hq : (s.group (grpOf l)).queue = [])
    (hc : (s.thread l).cond ≠ .exited) (hid : ∀ x ∈ s.loads, x.id ≠ s.nextId) (ho : (s.team (teamOf l)).oldUnits = []) :
    let o := (memOff s l a sz off).toNat
    let v := readNat s (.scratch (teamOf l) o) (szBytes sz)
    poisoned s (.scratch (teamOf l) o) (szBytes sz) = false →
    let t := ldsLane n d a sz off s l
    KeepsRest s l t ∧ t.loads = s.loads ∧
      if isBurin l then t.thread l = (if n then s.thread l else (s.thread l).setG d.toNat (extended sz 64 v))
      else LoadedRegs (s.thread l) (t.thread l) n d sz v ∧ mfind (t.thread l).latch 3 = some (loadWord sz v 0) ∧ (t.thread l).q3 = none := by
  intro o v hp
  have hval : leNat (loadBytes s (grpOf l) (.scratch (teamOf l) o) (szBytes sz)) = v := by rw [loadBytes_empty hq]; rfl
  have hlane : ldsLane n d a sz off s l = returnLoad (beginLoad s (loadOf s l n d sz (dw o) (mkFlags (szBytes sz) .scratch false (isBurin l) false false false false false)
      (some v) (poisoned s (.scratch (teamOf l) o) (szBytes sz)))) s.nextId := by rw [← hval, ldsLane]; simp only [settleLoad_empty hq]; rfl
  simp only [hlane]
  exact returnLoad_beginLoad (ld := loadOf s l n d sz (dw o) _ (some v) _) hid rfl rfl hp hc ho

/-- Settles O30: each word begins its load, or ends it at once, with the bytes that stand at its place. -/
theorem loadsTakeTheirBytes : Obligations.LoadsTakeTheirBytes := by
  intro n d a r sz off
  refine ⟨fun s l loc leaf size h hq hc => ?_, fun s l h => ?_, fun s l h hq he hid ho hp => ?_⟩
  · have hfill := (fillView_caches (szBytes sz) s l (memAddr s l a sz off)).onlyLatches l
    exact ⟨_, by rw [exec_ldg, execLdg, h.issued]; rfl, ldgLane_begun (hfill.trans (invalidate_onlyLatches _ l)) h.2.2.2 hq hc⟩
  · exact ⟨_, by rw [exec_ldp, execLdp, h.issued]; rfl, ldpLane_begun (invalidate_onlyLatches s l) h.2.2.2⟩
  · exact ⟨_, by rw [exec_lds, execLds, h.issued]; rfl, ldsLane_done hq he hid ho hp⟩

end Sys2Proof.Machine
end

section
/-! PROOF. O2 to O5 and O8 to O10: the integer words. What each operation computes at every width of a register, then the words that write it. -/

namespace Sys2Proof.Machine

/-! ### Arithmetic at every width (R127, R128) -/

theorem natCast_toNat_ofInt (w : Nat) (i : Int) : ((BitVec.ofInt w i).toNat : Int) = i % 2 ^ w := by
  rw [BitVec.toNat_ofInt, Int.toNat_of_nonneg (Int.emod_nonneg _ (by positivity))]
  norm_cast

theorem natCast_toNat_sub {w : Nat} (a b : BitVec w) : ((a - b).toNat : Int) = (a.toNat - b.toNat : Int) % 2 ^ w := by
  have hcast : ((2 ^ w - b.toNat + a.toNat : Nat) : Int) = (a.toNat - b.toNat) + 2 ^ w := by
    rw [Nat.cast_add, Nat.cast_sub b.isLt.le]
    push_cast
    ring
  rw [BitVec.toNat_sub, Int.natCast_emod, hcast, Nat.cast_pow, Nat.cast_ofNat, Int.add_emod_right]

theorem toNat_mulhiUnsigned {w : Nat} (a b : BitVec w) : (mulhiUnsigned a b).toNat = a.toNat * b.toNat / 2 ^ w := by
  rw [mulhiUnsigned, BitVec.toNat_ofNat, Nat.mod_eq_of_lt]
  exact Nat.div_lt_of_lt_mul (Nat.mul_lt_mul'' a.isLt b.isLt)

/-- The high word of a signed product fits: the product lies within 2^(2w - 2) of zero. -/
theorem toInt_mulhiSigned {w : Nat} (hw : 0 < w) (a b : BitVec w) : (mulhiSigned a b).toInt = a.toInt * b.toInt / 2 ^ w := by
  have hp : (2 : Int) ^ w = 2 * 2 ^ (w - 1) := by rw [← pow_succ', Nat.sub_add_cancel hw]
  have hpos : (0 : Int) < 2 ^ (w - 1) := by positivity
  have hal := a.le_toInt; have hau := a.toInt_lt
  have hbl := b.le_toInt; have hbu := b.toInt_lt
  refine BitVec.toInt_ofInt_eq_self hw ?_ ?_ <;> rw [hp]
  · rw [Int.le_ediv_iff_mul_le (by omega)]; nlinarith
  · rw [Int.ediv_lt_iff_lt_mul (by omega)]; nlinarith

theorem toNat_magnitude {w : Nat} (a : BitVec w) : (magnitude a).toNat = a.toInt.natAbs % 2 ^ w := by
  rw [← BitVec.toNat_ofNat, magnitude, ← BitVec.ofInt_natCast]
  split
  case isTrue h => rw [Int.ofNat_natAbs_of_nonpos h.le, BitVec.ofInt_neg, BitVec.ofInt_toInt]
  case isFalse h => rw [Int.natAbs_of_nonneg (not_lt.1 h), BitVec.ofInt_toInt]

theorem toInt_saturate {w : Nat} (hw : 0 < w) (y : Int) : (saturate w y).toInt = max (-2 ^ (w - 1)) (min (2 ^ (w - 1) - 1) y) := by
  have hpos : (0 : Int) < 2 ^ (w - 1) := by positivity
  exact BitVec.toInt_ofInt_eq_self hw (by omega) (by omega)

theorem bitLen_le {a w : Nat} (h : a < 2 ^ w) : bitLen a ≤ w := by
  unfold bitLen
  split
  case isTrue => omega
  case isFalse h0 => exact (Nat.log2_lt h0).2 h

theorem lt_two_pow_bitLen (a : Nat) : a < 2 ^ bitLen a := by
  unfold bitLen
  split
  case isTrue h0 => rw [h0]; decide
  case isFalse => exact Nat.lt_log2_self

theorem two_pow_bitLen_le {a : Nat} (h : bitLen a ≠ 0) : 2 ^ (bitLen a - 1) ≤ a := by
  have h0 : a ≠ 0 := fun h0 => h (if_pos h0)
  rw [bitLen, if_neg h0]
  exact Nat.log2_self_le h0

theorem leadingZeros_spec {w : Nat} (a : BitVec w) : (leadingZeros a).toNat ≤ w ∧ a.toNat < 2 ^ (w - (leadingZeros a).toNat) ∧
    ((leadingZeros a).toNat < w → 2 ^ (w - 1 - (leadingZeros a).toNat) ≤ a.toNat) := by
  have hle := bitLen_le a.isLt
  have hz : (leadingZeros a).toNat = w - bitLen a.toNat := by
    rw [leadingZeros, BitVec.toNat_ofNat, Nat.mod_eq_of_lt]
    exact (Nat.sub_le _ _).trans_lt Nat.lt_two_pow_self
  rw [hz, Nat.sub_sub_self hle]
  refine ⟨Nat.sub_le _ _, lt_two_pow_bitLen _, fun h => ?_⟩
  rw [show w - 1 - (w - bitLen a.toNat) = bitLen a.toNat - 1 by omega]
  exact two_pow_bitLen_le (by omega)

theorem toNat_ofNat_oneBits {w : Nat} (a : BitVec w) : (BitVec.ofNat w (oneBits a)).toNat = ((List.range w).filter (fun k => a.getLsbD k)).length := by
  rw [BitVec.toNat_ofNat, oneBits, Nat.mod_eq_of_lt]
  exact ((List.length_filter_le _ _).trans_eq List.length_range).trans_lt Nat.lt_two_pow_self

/-- A sum of distinct powers of two, read bit by bit. -/
theorem testBit_sum_two_pow (p : Nat → Bool) (n : Nat) :
    let s := ((List.range n).map (fun k => if p k then 2 ^ k else 0)).sum
    s < 2 ^ n ∧ ∀ k, s.testBit k = (decide (k < n) && p k) := by
  induction n with
  | zero => simp
  | succ n ih =>
    obtain ⟨hlt, hbit⟩ := ih
    simp only [List.range_succ, List.map_append, List.sum_append, List.map_cons, List.map_nil, List.sum_cons, List.sum_nil, Nat.add_zero]
    generalize ((List.range n).map (fun k => if p k then 2 ^ k else 0)).sum = s at hlt hbit ⊢
    cases hp : p n with
    | false =>
      rw [if_neg Bool.false_ne_true, Nat.add_zero]
      refine ⟨hlt.trans (Nat.pow_lt_pow_succ (by decide)), fun k => ?_⟩
      rcases Nat.lt_trichotomy k n with hk | rfl | hk
      · simp [hbit, hk, Nat.lt_succ_of_lt hk]
      · simp [hbit, hp]
      · simp [hbit, Nat.not_lt.2 hk.le, Nat.not_lt.2 hk]
    | true =>
      rw [if_pos rfl, Nat.add_comm]
      refine ⟨by rw [Nat.pow_succ]; omega, fun k => ?_⟩
      rcases Nat.lt_trichotomy k n with hk | rfl | hk
      · rw [Nat.testBit_two_pow_add_gt hk, hbit]
        simp [hk, Nat.lt_succ_of_lt hk]
      · rw [Nat.testBit_two_pow_add_eq, hbit]
        simp [hp]
      · rw [Nat.testBit_lt_two_pow]
        · simp [Nat.not_lt.2 hk]
        · calc 2 ^ n + s < 2 ^ (n + 1) := by rw [Nat.pow_succ]; omega
            _ ≤ 2 ^ k := Nat.pow_le_pow_right (by decide) hk

theorem getLsbD_reversed {w : Nat} (a : BitVec w) {k : Nat} (hk : k < w) : (reversed a).getLsbD k = a.getLsbD (w - 1 - k) := by
  have hsum : ((List.range w).map (fun k => if a.getLsbD k then 2 ^ (w - 1 - k) else 0)).sum =
      ((List.range w).map (fun k => if a.getLsbD (w - 1 - k) then 2 ^ k else 0)).sum := by
    rw [← List.sum_reverse, ← List.map_reverse, List.range_eq_range', List.reverse_range', List.map_map, ← List.range_eq_range']
    refine congrArg List.sum (List.map_congr_left (fun i hi => ?_))
    have := List.mem_range.1 hi
    simp only [Function.comp_apply, Nat.zero_add]
    rw [show w - 1 - (w - 1 - i) = i by omega]
  rw [reversed, hsum, BitVec.getLsbD_ofNat, (testBit_sum_two_pow _ w).2 k]
  simp [hk]

/-! ### Shifts at every width (R130) -/

theorem toNat_shiftLeft_if {w : Nat} (a : BitVec w) (b : Nat) : (shiftLeft a b).toNat = if b < w then a.toNat * 2 ^ b % 2 ^ w else 0 := by
  unfold shiftLeft
  split
  · rw [BitVec.toNat_shiftLeft, Nat.shiftLeft_eq]
  · rfl

theorem toNat_shiftRight_if {w : Nat} (a : BitVec w) (b : Nat) : (shiftRight a b).toNat = if b < w then a.toNat / 2 ^ b else 0 := by
  unfold shiftRight
  split
  · rw [BitVec.toNat_ushiftRight, Nat.shiftRight_eq_div_pow]
  · rfl

theorem toInt_shiftArith {w : Nat} (a : BitVec w) (b : Nat) : (shiftArith a b).toInt = a.toInt / 2 ^ min b (w - 1) := by
  rw [shiftArith, BitVec.toInt_sshiftRight, Int.shiftRight_eq_div_pow]
  norm_cast

/-- The two parts of a rotation do not overlap, so that they may be added. -/
theorem toNat_rotate {w : Nat} (a : BitVec w) (b : Nat) :
    (rotate a b).toNat = (a.toNat * 2 ^ (b % w) + a.toNat / 2 ^ (w - b % w)) % 2 ^ w := by
  rcases Nat.eq_zero_or_pos w with rfl | hw
  · rw [BitVec.of_length_zero (x := rotate a b)]; simp [Nat.mod_one]
  have hr : b % w < w := Nat.mod_lt _ hw
  have hbound := (rotate a b).isLt
  rw [rotate, BitVec.toNat_rotateLeft, Nat.mod_mod, Nat.shiftLeft_eq, Nat.shiftRight_eq_div_pow] at hbound ⊢
  generalize b % w = r at hr hbound ⊢
  have hp : 2 ^ w = 2 ^ (w - r) * 2 ^ r := by rw [← pow_add, Nat.sub_add_cancel hr.le]
  have hlow : a.toNat / 2 ^ (w - r) < 2 ^ r := Nat.div_lt_of_lt_mul (hp ▸ a.isLt)
  have hor : a.toNat * 2 ^ r % 2 ^ w ||| a.toNat / 2 ^ (w - r) = a.toNat * 2 ^ r % 2 ^ w + a.toNat / 2 ^ (w - r) := by
    rw [hp, Nat.mul_mod_mul_right, ← Nat.shiftLeft_eq, Nat.shiftLeft_add_eq_or_of_lt hlow]
  rw [hor] at hbound ⊢
  rw [← Nat.mod_eq_of_lt hbound, Nat.mod_add_mod]

/-! ### Bitfields (R131, R336) -/

/-- The control words of the two widths, with position and width as the rule has them. -/
theorem fieldPos_eq {w : Nat} (hw : w = 32 ∨ w = 64) (c : Nat) : fieldPos w c = if w = 64 then c % 64 else c % 32 := by
  rcases hw with rfl | rfl <;> rfl

theorem fieldWidth_eq (w c : Nat) : fieldWidth w c = min w (if w = 64 then c / 256 % 128 else c / 256 % 64) := rfl

theorem toInt_eq_of_top_bit {n : Nat} (x : BitVec n) : x.toInt = if 0 < n ∧ 2 ^ (n - 1) ≤ x.toNat then (x.toNat : Int) - 2 ^ n else x.toNat := by
  cases n with
  | zero => simp [BitVec.of_length_zero]
  | succ n =>
    rw [BitVec.toInt_eq_toNat_cond, Nat.pow_succ, Nat.add_sub_cancel]
    by_cases hb : 2 ^ n ≤ x.toNat
    · rw [if_neg (by omega), if_pos ⟨n.succ_pos, hb⟩, pow_succ]
      norm_cast
    · rw [if_pos (by omega), if_neg (fun h => hb h.2)]

/-- BitExtract is the field, extended by its sign where bit 15 asks for it. -/
theorem bitExtract_eq {w : Nat} (a : BitVec w) (c : Nat) : bitExtract a c =
    let x := a.extractLsb' (fieldPos w c) (fieldWidth w c)
    if c.testBit 15 then x.signExtend w else x.setWidth w := by
  extract_lets x
  have hx : a.toNat / 2 ^ fieldPos w c % 2 ^ fieldWidth w c = x.toNat := by rw [BitVec.extractLsb'_toNat, Nat.shiftRight_eq_div_pow]
  simp only [bitExtract, hx]
  cases c.testBit 15 with
  | false => simp [BitVec.ofNat_toNat]
  | true =>
    rw [if_pos rfl, BitVec.signExtend, toInt_eq_of_top_bit]
    simp only [true_and]
    split
    · rfl
    · rw [BitVec.ofInt_natCast]

theorem getLsbD_bitExtract {w : Nat} (a : BitVec w) (c : Nat) {k : Nat} (hk : k < w) : (bitExtract a c).getLsbD k =
    if k < fieldWidth w c then a.getLsbD (fieldPos w c + k)
    else (c.testBit 15 && decide (0 < fieldWidth w c) && a.getLsbD (fieldPos w c + fieldWidth w c - 1)) := by
  rw [bitExtract_eq]
  generalize fieldWidth w c = n
  cases c.testBit 15 with
  | false => by_cases hin : k < n <;> simp [hk, hin]
  | true =>
    rw [if_pos rfl, BitVec.getLsbD_signExtend]
    by_cases hin : k < n
    · simp [hk, hin]
    · rcases Nat.eq_zero_or_pos n with rfl | hn
      · simp
      · simp [BitVec.msb_eq_getLsbD_last, hk, hin, hn, Nat.add_sub_assoc hn]

theorem getLsbD_bitInsert {w : Nat} (d a : BitVec w) (c : Nat) {k : Nat} (hk : k < w) : (bitInsert d a c).getLsbD k =
    if fieldPos w c ≤ k ∧ k < fieldPos w c + fieldWidth w c then a.getLsbD (k - fieldPos w c) else d.getLsbD k := by
  have hmask : (BitVec.ofNat w ((2 ^ fieldWidth w c - 1) * 2 ^ fieldPos w c)).getLsbD k =
      decide (fieldPos w c ≤ k ∧ k < fieldPos w c + fieldWidth w c) := by
    rw [BitVec.getLsbD_ofNat, Nat.testBit_mul_two_pow, Nat.testBit_two_pow_sub_one, decide_eq_true hk, Bool.true_and, Bool.decide_and]
    by_cases hle : fieldPos w c ≤ k
    · simp only [hle, decide_true, Bool.true_and, decide_eq_decide]; omega
    · simp [hle]
  simp only [bitInsert, BitVec.getLsbD_or, BitVec.getLsbD_and, BitVec.getLsbD_not, BitVec.getLsbD_shiftLeft, hmask, hk, decide_true, Bool.true_and]
  by_cases hin : fieldPos w c ≤ k ∧ k < fieldPos w c + fieldWidth w c
  · simp [hin, Nat.not_lt.2 hin.1]
  · simp [hin]

/-! ### Immediates (R136 to R140) -/

theorem natCast_toNat_signExtend {v : Nat} (w : Nat) (x : BitVec v) : ((x.signExtend w).toNat : Int) = x.toInt % 2 ^ w := natCast_toNat_ofInt w x.toInt

theorem toNat_moveHigh {w : Nat} (hw : 32 ≤ w) (d : BitVec w) (imm : BitVec 18) :
    (moveHigh d imm).toNat = (d.toNat % 2 ^ 14 + imm.toNat * 2 ^ 14) % 2 ^ w := by
  have hp : 2 ^ 32 ≤ 2 ^ w := Nat.pow_le_pow_right (by decide) hw
  have hmask : (BitVec.ofNat w (2 ^ 14 - 1)).toNat = 2 ^ 14 - 1 := Nat.mod_eq_of_lt (by omega)
  have hdef : moveHigh d imm = (d &&& BitVec.ofNat w (2 ^ 14 - 1)) ||| (imm.setWidth w <<< 14) := rfl
  have himm := imm.isLt
  have hd : d.toNat % 2 ^ 14 < 2 ^ 14 := Nat.mod_lt _ (by decide)
  have hshift : (imm.setWidth w <<< 14).toNat = imm.toNat <<< 14 := by
    rw [BitVec.toNat_shiftLeft, BitVec.toNat_setWidth, Nat.mod_eq_of_lt (show imm.toNat < 2 ^ w by omega), Nat.mod_eq_of_lt]
    rw [Nat.shiftLeft_eq]
    omega
  have hsum : d.toNat % 2 ^ 14 + imm.toNat * 2 ^ 14 < 2 ^ w := by omega
  rw [hdef, BitVec.toNat_or, BitVec.toNat_and, hmask, hshift, Nat.and_two_pow_sub_one_eq_mod, Nat.or_comm, ← Nat.shiftLeft_add_eq_or_of_lt hd,
    Nat.shiftLeft_eq, Nat.add_comm, Nat.mod_eq_of_lt hsum]

theorem eq_signExtend_iff {v w : Nat} (a : BitVec w) (x : BitVec v) : a = x.signExtend w ↔ (a.toNat : Int) = x.toInt % 2 ^ w := by
  rw [← natCast_toNat_signExtend, Nat.cast_inj, BitVec.toNat_inj]

theorem ult_signExtend_iff {v w : Nat} (a : BitVec w) (x : BitVec v) : a.ult (x.signExtend w) = true ↔ (a.toNat : Int) < x.toInt % 2 ^ w := by
  rw [← natCast_toNat_signExtend, Nat.cast_lt, BitVec.ult, decide_eq_true_eq]

theorem ule_signExtend_iff {v w : Nat} (a : BitVec w) (x : BitVec v) : a.ule (x.signExtend w) = true ↔ (a.toNat : Int) ≤ x.toInt % 2 ^ w := by
  rw [← natCast_toNat_signExtend, Nat.cast_le, BitVec.ule, decide_eq_true_eq]

/-! ### Words with one result at the width of the registers (R127 to R132, R136 to R140) -/

/-- The words of `aluWord` whose result is as it should be at every width of a register. -/
theorem aluWord_gives_each (i : Instr) (n : Bool) (d : Code) (f : (w : Nat) → (Code → BitVec w) → BitVec w) (he : ∀ s, exec i s = aluWord i n d f s)
    {rel : (w : Nat) → (Code → BitVec w) → BitVec w → Prop} (h : ∀ w, w = 32 ∨ w = 64 → ∀ r, rel w r (f w r)) : AluGives i n d rel :=
  aluWord_gives i n d f he rel (h 32 (.inl rfl)) (h 64 (.inr rfl))

/-- The words of `aluWord` that write a condition. -/
theorem aluWord_gives_flag (i : Instr) (n : Bool) (d : Code) (c : (w : Nat) → (Code → BitVec w) → Bool)
    (he : ∀ s, exec i s = aluWord i n d (fun w r => flagWord (c w r)) s) {p : (w : Nat) → (Code → BitVec w) → Prop} [∀ w r, Decidable (p w r)]
    (h : ∀ w, w = 32 ∨ w = 64 → ∀ r, c w r = true ↔ p w r) : AluGives i n d (fun w r v => v.toNat = if p w r then 1 else 0) :=
  aluWord_gives_each i n d _ he (fun w hw r => by
    rw [toNat_flagWord (by omega)]
    simp only [h w hw r])

theorem iArithResults : IArithResults := by
  intro n d a b
  refine ⟨?add, ?sub, ?mul, ?mulhiI, ?mulhiN, ?mad, ?minI, ?maxI⟩
  case add => exact aluWord_gives_each _ n d (fun _ r => r a + r b) (fun _ => rfl) (fun _ _ _ => BitVec.toNat_add ..)
  case sub => exact aluWord_gives_each _ n d (fun _ r => r a - r b) (fun _ => rfl) (fun _ _ _ => natCast_toNat_sub ..)
  case mul => exact aluWord_gives_each _ n d (fun _ r => r a * r b) (fun _ => rfl) (fun _ _ _ => BitVec.toNat_mul ..)
  case mulhiI => exact aluWord_gives_each _ n d (fun _ r => mulhiSigned (r a) (r b)) (fun _ => rfl) (fun _ hw _ => toInt_mulhiSigned (by omega) ..)
  case mulhiN => exact aluWord_gives_each _ n d (fun _ r => mulhiUnsigned (r a) (r b)) (fun _ => rfl) (fun _ _ _ => toNat_mulhiUnsigned ..)
  case mad =>
    exact aluWord_gives_each _ n d (fun _ r => r d + r a * r b) (fun _ => rfl) (fun _ _ _ => by
      rw [BitVec.toNat_add, BitVec.toNat_mul, Nat.add_mod_mod])
  case minI =>
    exact aluWord_gives_each _ n d (fun _ r => if (r a).sle (r b) then r a else r b) (fun _ => rfl) (fun _ _ _ => by
      simp only [BitVec.sle_iff_toInt_le])
  case maxI =>
    exact aluWord_gives_each _ n d (fun _ r => if (r b).sle (r a) then r a else r b) (fun _ => rfl) (fun _ _ _ => by
      simp only [BitVec.sle_iff_toInt_le])

theorem iMiscResults : IMiscResults := by
  intro n d a b
  refine ⟨?minN, ?maxN, ?absInt, ?addsatI, ?subsatI, ?clz, ?popc, ?brev⟩
  case minN =>
    exact aluWord_gives_each _ n d (fun _ r => if r a ≤ r b then r a else r b) (fun _ => rfl) (fun _ _ _ => by
      simp only [apply_ite BitVec.toNat, BitVec.le_def, Nat.min_def])
  case maxN =>
    exact aluWord_gives_each _ n d (fun _ r => if r b ≤ r a then r a else r b) (fun _ => rfl) (fun _ _ r => by
      simp only [apply_ite BitVec.toNat, BitVec.le_def, Nat.max_def, Nat.max_comm (r a).toNat])
  case absInt => exact aluWord_gives_each _ n d (fun _ r => magnitude (r a)) (fun _ => rfl) (fun _ _ _ => toNat_magnitude _)
  case addsatI =>
    exact aluWord_gives_each _ n d (fun w r => saturate w ((r a).toInt + (r b).toInt)) (fun _ => rfl) (fun _ hw _ => toInt_saturate (by omega) _)
  case subsatI =>
    exact aluWord_gives_each _ n d (fun w r => saturate w ((r a).toInt - (r b).toInt)) (fun _ => rfl) (fun _ hw _ => toInt_saturate (by omega) _)
  case clz => exact aluWord_gives_each _ n d (fun _ r => leadingZeros (r a)) (fun _ => rfl) (fun _ _ _ => leadingZeros_spec _)
  case popc => exact aluWord_gives_each _ n d (fun w r => BitVec.ofNat w (oneBits (r a))) (fun _ => rfl) (fun _ _ _ => toNat_ofNat_oneBits _)
  case brev => exact aluWord_gives_each _ n d (fun _ r => reversed (r a)) (fun _ => rfl) (fun _ _ _ _ hk => getLsbD_reversed _ hk)

theorem integerEncodings : IntegerEncodings := by
  intro n d a b word
  simp only [List.forall_mem_cons]
  exact ⟨⟨⟨rfl, rfl⟩, ⟨rfl, rfl⟩, ⟨rfl, rfl⟩, ⟨rfl, rfl⟩, ⟨rfl, rfl⟩, ⟨rfl, rfl⟩, ⟨rfl, rfl⟩, ⟨rfl, rfl⟩, by simp⟩,
    ⟨⟨rfl, rfl⟩, ⟨rfl, rfl⟩, ⟨rfl, rfl⟩, ⟨rfl, rfl⟩, by simp⟩, ⟨rfl, rfl⟩, ⟨rfl, rfl⟩, ⟨rfl, rfl⟩, ⟨rfl, rfl⟩, by simp⟩

/-- Settles O2: each word writes one function of its registers, with the value that the rule gives at both widths. -/
theorem integerArithmetic : Obligations.IntegerArithmetic := ⟨iArithResults, iMiscResults, integerEncodings⟩

/-! ### Logic and shifts (R129, R130) -/

theorem toNat_eq_zero_iff {w : Nat} (x : BitVec w) : x.toNat = 0 ↔ x = 0 := by
  rw [← BitVec.toNat_inj]
  rfl

theorem logicResults : LogicResults := by
  intro n d a b
  refine ⟨?andW, ?orW, ?xorW, ?andn, ?orn, ?xnor, ?sel, ?mov⟩
  case andW => exact aluWord_gives_each _ n d (fun _ r => r a &&& r b) (fun _ => rfl) (fun _ _ _ _ _ => BitVec.getLsbD_and)
  case orW => exact aluWord_gives_each _ n d (fun _ r => r a ||| r b) (fun _ => rfl) (fun _ _ _ _ _ => BitVec.getLsbD_or)
  case xorW => exact aluWord_gives_each _ n d (fun _ r => r a ^^^ r b) (fun _ => rfl) (fun _ _ _ _ _ => BitVec.getLsbD_xor)
  case andn =>
    exact aluWord_gives_each _ n d (fun _ r => r a &&& ~~~r b) (fun _ => rfl) (fun _ _ _ _ hk => by
      rw [BitVec.getLsbD_and, BitVec.getLsbD_not, decide_eq_true hk, Bool.true_and])
  case orn =>
    exact aluWord_gives_each _ n d (fun _ r => r a ||| ~~~r b) (fun _ => rfl) (fun _ _ _ _ hk => by
      rw [BitVec.getLsbD_or, BitVec.getLsbD_not, decide_eq_true hk, Bool.true_and])
  case xnor =>
    exact aluWord_gives_each _ n d (fun _ r => ~~~(r a ^^^ r b)) (fun _ => rfl) (fun _ _ r k hk => by
      rw [BitVec.getLsbD_not, BitVec.getLsbD_xor, decide_eq_true hk, Bool.true_and]
      cases (r a).getLsbD k <;> simp)
  case sel =>
    exact aluWord_gives_each _ n d (fun _ r => if r d = 0 then r b else r a) (fun _ => rfl) (fun _ _ _ => by
      simp only [ne_eq, toNat_eq_zero_iff, ite_not])
  case mov => exact aluWord_gives_each _ n d (fun _ r => r a) (fun _ => rfl) (fun _ _ _ => rfl)

theorem shiftResults : ShiftResults := by
  intro n d a b
  have hw := State.wide_setThread_other
  have hm := State.amount_setThread_other
  refine ⟨?shl, ?shr, ?sar, ?rol, ?shl64, ?shr64⟩
  case shl => exact aluWord_gives_each _ n d (fun _ r => shiftLeft (r a) (r b).toNat) (fun _ => rfl) (fun _ _ _ => toNat_shiftLeft_if ..)
  case shr => exact aluWord_gives_each _ n d (fun _ r => shiftRight (r a) (r b).toNat) (fun _ => rfl) (fun _ _ _ => toNat_shiftRight_if ..)
  case sar => exact aluWord_gives_each _ n d (fun _ r => shiftArith (r a) (r b).toNat) (fun _ => rfl) (fun _ _ _ => toInt_shiftArith ..)
  case rol => exact aluWord_gives_each _ n d (fun _ r => rotate (r a) (r b).toNat) (fun _ => rfl) (fun _ _ _ => toNat_rotate ..)
  case shl64 =>
    exact pairWord_gives _ n d (fun s l => shiftLeft (s.wide l a) (s.amount l b)) (fun _ => rfl)
      (fun s l m h x => by rw [hw s l m h x, hm s l m h x]) _ (fun s l => toNat_shiftLeft_if ..)
  case shr64 =>
    exact pairWord_gives _ n d (fun s l => shiftRight (s.wide l a) (s.amount l b)) (fun _ => rfl)
      (fun s l m h x => by rw [hw s l m h x, hm s l m h x]) _ (fun s l => toNat_shiftRight_if ..)

/-- Settles O3: logic bit by bit, shifts as multiplication and division by powers of two. -/
theorem logicAndShifts : Obligations.LogicAndShifts := ⟨logicResults, shiftResults⟩

/-- Settles O4: extract is the field extended by its sign, insert a choice under a mask. -/
theorem bitfieldResults : Obligations.BitfieldResults := by
  intro n d a b pos width
  refine ⟨?bfx, ?bfi⟩
  case bfx =>
    exact aluWord_gives_each _ n d (fun _ r => bitExtract (r a) (r b).toNat) (fun _ => rfl) (fun w hw r k hk => by
      rw [getLsbD_bitExtract _ _ hk, fieldPos_eq hw]
      rfl)
  case bfi =>
    exact aluWord_gives_each _ n d (fun _ r => bitInsert (r d) (r a) (r b).toNat) (fun _ => rfl) (fun w hw r k hk => by
      rw [getLsbD_bitInsert _ _ _ hk, fieldPos_eq hw]
      rfl)

/-! ### Compares and votes (R132, R133) -/

theorem compareResults : CompareResults := by
  intro n d a b
  refine ⟨?cmpEq, ?cmpNe, ?ltI, ?leI, ?ltN, ?leN, ?tst⟩
  case cmpEq =>
    exact aluWord_gives_flag _ n d (fun _ r => decide (r a = r b)) (fun _ => rfl) (fun _ _ _ => by rw [decide_eq_true_eq, BitVec.toNat_inj])
  case cmpNe =>
    exact aluWord_gives_flag _ n d (fun _ r => decide (r a ≠ r b)) (fun _ => rfl) (fun _ _ _ => by rw [decide_eq_true_eq, Ne, Ne, BitVec.toNat_inj])
  case ltI => exact aluWord_gives_flag _ n d (fun _ r => (r a).slt (r b)) (fun _ => rfl) (fun _ _ _ => BitVec.slt_iff_toInt_lt)
  case leI => exact aluWord_gives_flag _ n d (fun _ r => (r a).sle (r b)) (fun _ => rfl) (fun _ _ _ => BitVec.sle_iff_toInt_le)
  case ltN => exact aluWord_gives_flag _ n d (fun _ r => (r a).ult (r b)) (fun _ => rfl) (fun _ _ _ => by rw [BitVec.ult, decide_eq_true_eq])
  case leN => exact aluWord_gives_flag _ n d (fun _ r => (r a).ule (r b)) (fun _ => rfl) (fun _ _ _ => by rw [BitVec.ule, decide_eq_true_eq])
  case tst =>
    exact aluWord_gives_flag _ n d (fun _ r => decide (r a &&& r b ≠ 0)) (fun _ => rfl) (fun w _ r => by
      rw [decide_eq_true_eq, Ne, BitVec.eq_of_getLsbD_eq_iff]
      simp)

/-- The mask of some lanes has bit LANE of each of them (R133). -/
theorem getLsbD_laneMask (ls : List Nat) (k : Nat) : (laneMask ls).getLsbD k = true ↔ ∃ m ∈ ls, laneOf m = k := by
  induction ls with
  | nil => simp [laneMask]
  | cons l ls ih =>
    have hlane : laneOf l < 32 := Nat.mod_lt _ (by decide)
    have hbit : (1#32 <<< laneOf l).getLsbD k = decide (laneOf l = k) := by
      rw [← BitVec.twoPow_eq, BitVec.getLsbD_twoPow, decide_eq_true hlane, Bool.true_and]
    rw [laneMask, BitVec.getLsbD_or, hbit, Bool.or_eq_true, decide_eq_true_eq, ih]
    simp only [List.mem_cons, exists_eq_or_imp]

theorem flagWord_eq_ite (c : Bool) : (flagWord c : Word) = if c then 1 else 0 := by cases c <;> rfl

theorem voteResults : VoteResults := by
  intro n d a
  refine ⟨?any, ?all, ?bal, ?like, ?mask⟩
  case any =>
    exact crossWord_gives _ n d (fun s ls _ => flagWord (ls.any (fun m => decide (s.src m a ≠ 0)))) (fun _ => rfl) _ (fun s _ => by
      simp only [flagWord_eq_ite, List.any_eq_true, decide_eq_true_eq])
  case all =>
    exact crossWord_gives _ n d (fun s ls _ => flagWord (ls.all (fun m => decide (s.src m a ≠ 0)))) (fun _ => rfl) _ (fun s _ => by
      simp only [flagWord_eq_ite, List.all_eq_true, decide_eq_true_eq])
  case bal =>
    exact crossWord_gives _ n d (fun s ls _ => laneMask (yesLanes s ls a)) (fun _ => rfl) _ (fun s _ k _ => by
      simp only [getLsbD_laneMask, yesLanes, List.mem_filter, decide_eq_true_eq, and_assoc, and_comm (a := laneOf _ = k)])
  case like =>
    exact crossWord_gives _ n d (fun s ls l => laneMask (ls.filter (fun m => decide (s.src m a = s.src l a)))) (fun _ => rfl) _ (fun s _ k _ => by
      simp only [getLsbD_laneMask, List.mem_filter, decide_eq_true_eq, and_assoc, and_comm (a := laneOf _ = k)])
  case mask => exact crossWord_gives _ n d (fun _ ls _ => laneMask ls) (fun _ => rfl) _ (fun s _ k _ => getLsbD_laneMask _ k)

/-- Settles O5: compares by the order of the numbers, votes by the lanes of the set. -/
theorem comparesAndVotes : Obligations.ComparesAndVotes := ⟨compareResults, voteResults⟩

/-! ### Words with an immediate (R136 to R140) -/

theorem immediateResults : ImmediateResults := by
  intro n d a imm
  have hbit {w k : Nat} (hk : k < w) : (imm.setWidth w).getLsbD k = imm.getLsbD k := by rw [BitVec.getLsbD_setWidth, decide_eq_true hk, Bool.true_and]
  refine ⟨?addi, ?andi, ?ori, ?xori⟩
  case addi =>
    exact aluWord_gives_each _ n d (fun w r => r a + imm.signExtend w) (fun _ => rfl) (fun w _ r => by
      rw [BitVec.toNat_add, Int.natCast_emod, Nat.cast_add, natCast_toNat_signExtend, Nat.cast_pow, Nat.cast_ofNat, Int.add_emod_emod])
  case andi => exact aluWord_gives_each _ n d (fun w r => r a &&& imm.setWidth w) (fun _ => rfl) (fun _ _ _ _ hk => by rw [BitVec.getLsbD_and, hbit hk])
  case ori => exact aluWord_gives_each _ n d (fun w r => r a ||| imm.setWidth w) (fun _ => rfl) (fun _ _ _ _ hk => by rw [BitVec.getLsbD_or, hbit hk])
  case xori => exact aluWord_gives_each _ n d (fun w r => r a ^^^ imm.setWidth w) (fun _ => rfl) (fun _ _ _ _ hk => by rw [BitVec.getLsbD_xor, hbit hk])

theorem shiftImmediateResults : ShiftImmediateResults := by
  intro n d a k
  have hk (w : Nat) (hw : w = 32 ∨ w = 64) : k.toNat < w := by omega
  refine ⟨?shli, ?shri, ?sari, ?roli⟩
  case shli =>
    exact aluWord_gives_each _ n d (fun _ r => shiftLeft (r a) k.toNat) (fun _ => rfl) (fun w hw _ => by rw [toNat_shiftLeft_if, if_pos (hk w hw)])
  case shri =>
    exact aluWord_gives_each _ n d (fun _ r => shiftRight (r a) k.toNat) (fun _ => rfl) (fun w hw _ => by rw [toNat_shiftRight_if, if_pos (hk w hw)])
  case sari =>
    exact aluWord_gives_each _ n d (fun _ r => shiftArith (r a) k.toNat) (fun _ => rfl) (fun w hw _ => by
      rw [toInt_shiftArith, Nat.min_eq_left (Nat.le_sub_one_of_lt (hk w hw))])
  case roli =>
    exact aluWord_gives_each _ n d (fun _ r => rotate (r a) k.toNat) (fun _ => rfl) (fun w hw _ => by rw [toNat_rotate, Nat.mod_eq_of_lt (hk w hw)])

theorem compareImmediateResults : CompareImmediateResults := by
  intro n d a imm pat
  have hwide (w : Nat) (hw : w = 32 ∨ w = 64) : (imm.signExtend w).toInt = imm.toInt := BitVec.toInt_signExtend_of_le (by omega)
  refine ⟨?eq, ?ne, ?ltI, ?leI, ?ltN, ?leN, ?gtI, ?geI⟩
  case eq =>
    exact aluWord_gives_flag _ n d (fun w r => decide (r a = imm.signExtend w)) (fun _ => rfl) (fun w _ r => by
      rw [decide_eq_true_eq, eq_signExtend_iff])
  case ne =>
    exact aluWord_gives_flag _ n d (fun w r => decide (r a ≠ imm.signExtend w)) (fun _ => rfl) (fun w _ r => by
      rw [decide_eq_true_eq, Ne, eq_signExtend_iff])
  case ltI =>
    exact aluWord_gives_flag _ n d (fun w r => (r a).slt (imm.signExtend w)) (fun _ => rfl) (fun w hw r => by rw [BitVec.slt_iff_toInt_lt, hwide w hw])
  case leI =>
    exact aluWord_gives_flag _ n d (fun w r => (r a).sle (imm.signExtend w)) (fun _ => rfl) (fun w hw r => by rw [BitVec.sle_iff_toInt_le, hwide w hw])
  case ltN => exact aluWord_gives_flag _ n d (fun w r => (r a).ult (imm.signExtend w)) (fun _ => rfl) (fun w _ r => ult_signExtend_iff ..)
  case leN => exact aluWord_gives_flag _ n d (fun w r => (r a).ule (imm.signExtend w)) (fun _ => rfl) (fun w _ r => ule_signExtend_iff ..)
  case gtI =>
    exact aluWord_gives_flag _ n d (fun w r => (imm.signExtend w).slt (r a)) (fun _ => rfl) (fun w hw r => by rw [BitVec.slt_iff_toInt_lt, hwide w hw])
  case geI =>
    exact aluWord_gives_flag _ n d (fun w r => (imm.signExtend w).sle (r a)) (fun _ => rfl) (fun w hw r => by rw [BitVec.sle_iff_toInt_le, hwide w hw])

/-- Settles O8: the words of two registers, with the extended immediate as the second. -/
theorem immediateWords : Obligations.ImmediateWords := ⟨immediateResults, shiftImmediateResults, compareImmediateResults⟩

/-- Settles O9: the immediate as a signed number lies within 2^17 of zero, and its extension keeps it at both widths. -/
theorem moviResult : Obligations.MoviResult := by
  intro d imm
  have hlow : -2 ^ 17 ≤ imm.toInt := imm.le_toInt
  have hhigh : imm.toInt < 2 ^ 17 := imm.toInt_lt
  exact ⟨rfl, rfl, rfl, by omega, by omega,
    aluWord_gives_each _ false d (fun w _ => imm.signExtend w) (fun _ => rfl) (fun w _ _ => natCast_toNat_signExtend w imm)⟩

/-- Settles O10: the two fields of the result do not overlap. -/
theorem movhiResult : Obligations.MovhiResult := by
  intro d imm
  exact ⟨rfl, rfl, rfl, aluWord_gives_each _ false d (fun _ r => moveHigh (r d) imm) (fun _ => rfl) (fun w hw r => toNat_moveHigh (by omega) _ _)⟩

end Sys2Proof.Machine
end

section
/-! PROOF. O12: calls and returns. -/

namespace Sys2Proof.Machine

/-! ### The bytes of a thread's own window (R122, R143) -/

theorem Thread.setPriv_same (t : Thread) (off : Nat) (vs : List Byte) : t.setPriv off vs = { t with priv := (t.setPriv off vs).priv } := by
  induction vs generalizing t off with
  | nil => rfl
  | cons v vs ih => exact (ih { t with priv := mset 0 t.priv off v } (off + 1)).trans rfl

theorem Thread.mget_setPriv (t : Thread) (off : Nat) (vs : List Byte) (o : Nat) :
    mget 0 (t.setPriv off vs).priv o = if off ≤ o ∧ o < off + vs.length then vs.getD (o - off) 0 else mget 0 t.priv o := by
  induction vs generalizing t off with
  | nil => rw [if_neg (by simp)]; rfl
  | cons v vs ih =>
    have hset : mget 0 (mset 0 t.priv off v) o = if o = off then v else mget 0 t.priv o := mget_mset ..
    rw [Thread.setPriv, ih, List.length_cons, hset]
    rcases Nat.lt_trichotomy o off with h | rfl | h
    · rw [if_neg (by omega), if_neg (by omega), if_neg (by omega)]
    · rw [if_neg (by omega), if_pos rfl, if_pos (by omega), Nat.sub_self, List.getD_cons_zero]
    · rw [show o - off = o - (off + 1) + 1 by omega, List.getD_cons_succ, if_neg (show ¬ o = off by omega)]
      simp only [show (off ≤ o ∧ o < off + (vs.length + 1)) ↔ (off + 1 ≤ o ∧ o < off + 1 + vs.length) by omega]

theorem Thread.privBytes_of_mget {t : Thread} {vs : List Byte} {off : Nat} (h : ∀ i, i < vs.length → mget 0 t.priv (off + i) = vs.getD i 0) :
    t.privBytes off vs.length = vs := by
  induction vs generalizing off with
  | nil => rfl
  | cons v vs ih =>
    have hhead : mget 0 t.priv off = v := h 0 (Nat.zero_lt_succ _)
    have htail : t.privBytes (off + 1) vs.length = vs := ih (fun i hi => by
      rw [Nat.add_assoc, Nat.add_comm 1]
      exact h (i + 1) (Nat.succ_lt_succ hi))
    rw [List.length_cons, Thread.privBytes, hhead, htail]

/-- Bytes just written are read back. -/
theorem Thread.privBytes_setPriv (t : Thread) (off : Nat) (vs : List Byte) : (t.setPriv off vs).privBytes off vs.length = vs :=
  privBytes_of_mget (fun i hi => by rw [mget_setPriv, if_pos (by omega), Nat.add_sub_cancel_left])

/-! ### Calls and returns (R143 to R146) -/

/-- A thread after a call: the return address stands in the eight bytes below the old sp, and the rest of its window is as before. -/
theorem Thread.push_spec (t : Thread) (sp : Word) (next pc : DWord) :
    let th := { t.push sp next with pc := pc }
    th = { t with pc := pc, sp := sp, priv := th.priv } ∧ th.privBytes sp.toNat 8 = leBytes 8 next.toNat ∧
      ∀ o, (o < sp.toNat ∨ sp.toNat + 8 ≤ o) → mget 0 th.priv o = mget 0 t.priv o := by
  have hlen : (leBytes 8 next.toNat).length = 8 := rfl
  refine ⟨?_, ?_, fun o ho => ?_⟩
  · simp only [Thread.push]
    rw [Thread.setPriv_same]
  · exact (Thread.privBytes_congr rfl _ _).trans (t.privBytes_setPriv sp.toNat (leBytes 8 next.toNat))
  · refine (t.mget_setPriv sp.toNat (leBytes 8 next.toNat) o).trans (if_neg ?_)
    omega

/-- The words that call `target`. -/
theorem call_gives {i : Instr} {target : State → Nat → DWord} (he : ∀ s, exec i s = issued i s (eachLane (callLane target)))
    (hf : ∀ s l m, l ≠ m → ∀ x, target (s.setThread m x) l = target s l) :
    LaneGives i (fun s l th => th = { (s.thread l).push ((s.pre l).sp - 8) s.issue.next with pc := target s l }) :=
  laneGives_of i _ _ he (fun _ _ => rfl) (fun s l m h x => by
    simp only [State.thread_setThread_other _ _ _ _ h, State.pre_setThread_other _ _ _ h, State.setThread_issue, hf s l m h x])

theorem callsPushReturnAddress : CallsPushReturnAddress := by
  refine ⟨fun h slot dline => ?_, fun a => ?_⟩
  · refine (call_gives (target := fun s _ => staticTarget s.issue.pc slot dline) (fun _ => rfl) (fun _ _ _ _ _ => rfl)).mono (fun s l th hth => ?_)
    have htarget := staticTarget_eq s.issue.pc slot dline
    rw [hth]
    simp only [← htarget]
    exact (s.thread l).push_spec _ _ _
  · refine (call_gives (target := fun s l => s.wide l a) (fun _ => rfl)
      (fun s l m h x => by rw [State.wide_setThread_other s l m h])).mono (fun s l th hth => ?_)
    rw [hth]
    exact (s.thread l).push_spec _ _ _

/-- Nothing of the device but one thread differs between two states. -/
def OnlyThread (s : State) (l : Nat) (t : State) : Prop :=
  t = { s with threads := t.threads } ∧ ∀ x, x ≠ l → mfind t.threads x = mfind s.threads x

theorem OnlyThread.thread {s t : State} {l x : Nat} (h : OnlyThread s l t) (hx : x ≠ l) : t.thread x = s.thread x := by
  unfold State.thread mget
  rw [h.2 x hx]

theorem OnlyThread.issue {s t : State} {l : Nat} (h : OnlyThread s l t) : t.issue = s.issue := by rw [h.1]

theorem OnlyThread.pre {s t : State} {l x : Nat} (h : OnlyThread s l t) (hx : x ≠ l) : t.pre x = s.pre x := by
  unfold State.pre
  rw [h.issue, h.thread hx]

/-- Lanes in turn, each changing its own thread, in whatever way its table then holds it. -/
theorem eachLane_only {f : State → Nat → Thread} {g : State → Nat → State} {ls : List Nat} (hn : ls.Nodup)
    (hg : ∀ s l, OnlyThread s l (g s l) ∧ (g s l).thread l = f s l) (hf : ∀ s t l m, l ≠ m → OnlyThread s m t → f t l = f s l) (s : State) :
    eachLane g s ls = { s with threads := (eachLane g s ls).threads } ∧
    (∀ x, x ∉ ls → mfind (eachLane g s ls).threads x = mfind s.threads x) ∧ ∀ l ∈ ls, (eachLane g s ls).thread l = f s l := by
  induction ls generalizing s with
  | nil => exact ⟨rfl, fun _ _ => rfl, fun l hl => absurd hl List.not_mem_nil⟩
  | cons l ls ih =>
    obtain ⟨hl, hls⟩ := List.nodup_cons.1 hn
    obtain ⟨honly, hthread⟩ := hg s l
    obtain ⟨hrest, hout, hin⟩ := ih hls (g s l)
    refine ⟨?_, fun x hx => ?_, fun m hm => ?_⟩
    · rw [eachLane, hrest, honly.1]
    · exact (hout x (fun h => hx (List.mem_cons_of_mem _ h))).trans (honly.2 x (fun h => hx (h ▸ List.mem_cons_self ..)))
    · rcases List.mem_cons.1 hm with rfl | hm
      · rw [eachLane, State.thread, mget, hout m hl]
        exact hthread
      · exact (hin m hm).trans (hf s (g s l) m l (fun h => hl (h ▸ hm)) honly)

/-- The report of a poisoned return address (R208). -/
def poisonedReturn (s : State) (l : Nat) : TrapInfo :=
  { cause := 0x19, addr := (s.pre l).sp.setWidth 64, word := s.issue.word, trapNo := s.runOf l,
    flags := mkFlags 8 .priv false (isBurin l) false false false false true }

/-- A thread after RET. -/
def returnedThread (s : State) (l : Nat) : Thread :=
  let p := s.pre l
  { (s.thread l) with
    sp := p.sp + 8, pc := popped p
    faults := if p.privPoison.contains (p.sp.toNat / 32) then (s.thread l).faults ++ [poisonedReturn s l] else (s.thread l).faults }

theorem pendFault_only (s : State) (l : Nat) (f : TrapInfo) : OnlyThread s l (pendFault s l f) :=
  ⟨rfl, fun x hx => by rw [pendFault, mfind_mmod, if_neg hx]⟩

theorem setThread_only (s : State) (l : Nat) (x : Thread) : OnlyThread s l (s.setThread l x) := ⟨rfl, fun _ hy => mfind_mput_other _ _ _ _ hy⟩

theorem OnlyThread.trans {s t u : State} {l : Nat} (h : OnlyThread s l t) (k : OnlyThread t l u) : OnlyThread s l u :=
  ⟨by rw [k.1, h.1], fun x hx => (k.2 x hx).trans (h.2 x hx)⟩

theorem thread_pendFault_setThread (s : State) (l : Nat) (x : Thread) (f : TrapInfo) :
    (pendFault (s.setThread l x) l f).thread l = { x with faults := x.faults ++ [f] } := by
  simp [pendFault, State.thread, mget, mfind_mmod]

theorem retLane_spec (s : State) (l : Nat) : OnlyThread s l (retLane s l) ∧ (retLane s l).thread l = returnedThread s l := by
  unfold retLane returnedThread
  simp only [State.modThread]
  split
  · exact ⟨(setThread_only s l _).trans (pendFault_only _ l _), thread_pendFault_setThread s l _ _⟩
  · exact ⟨setThread_only s l _, State.thread_setThread_same s l _⟩

theorem returnPopsAddress : ReturnPopsAddress := by
  intro s hr
  obtain ⟨hs, hout, hin⟩ := eachLane_only (f := returnedThread) (nodup_of_sorted hr.sorted) retLane_spec
    (fun s t l m h k => by simp only [returnedThread, poisonedReturn, State.runOf, k.pre h, k.thread h, k.issue]) s
  refine ⟨_, by rw [exec_ret, execRet, issued_eq hr], ⟨hs, hout⟩, fun l hl => ?_⟩
  simp only [hin l hl]
  refine ⟨rfl, ?_⟩
  split
  case isTrue hp => exact ⟨poisonedReturn s l, rfl, rfl, rfl, if_pos hp⟩
  case isFalse hp => exact if_neg hp

/-- Settles O12: a call is a push on the thread's own stack, and a return reads them before the chain's own stores. -/
theorem callsAndReturns : Obligations.CallsAndReturns := ⟨callsPushReturnAddress, returnPopsAddress⟩

end Sys2Proof.Machine
end

section
/-! PROOF. O50 fails: the look of a waiting thread at an entry that does not translate may record a malformed page-table entry. -/

namespace Sys2Proof.Machine

/-- A running team of one group, and lane 0 of it, which waits in a SYSCALL with result v3 for the answer in the entry at 0x30040. -/
def LostEntry.team : Team := { noTeam with kern := SlotTake.kernel, life := .running }
def LostEntry.thread : Thread := { pc := 0x20004, sp := 64, cond := .blocked (.reply 3 0x30040) }

/-- The error ring is on at 0x20000, and the root table of context 0 begins at 0x10000 with a valid entry whose zero field [7:2] is 1. -/
def LostEntry.state : State :=
  { State.reset with
    boot := .running, sys := [(0, 0x10000), (0x6012, 0x20004)], mem := [(0x10000, 5)]
    teams := [(1, team)], threads := [(tidOf 1 0 0, thread)] }

open LostEntry

theorem cond_lostEntry : (state.thread (tidOf 1 0 0)).cond = .blocked (.reply 3 0x30040) := by decide +kernel

theorem placeOf_lostEntry : placeOf state (state.coreOf (tidOf 1 0 0)) (state.ctxOf (tidOf 1 0 0)) 0x30040 = none := by decide +kernel

theorem mem_lostEntry : mget unwritten state.mem 0x20000 = 0 := by decide +kernel

/-- The look at the entry has met the malformed one: the first byte of the error ring is the kind of its record, 4 (R201, R418). -/
theorem syscallWake_lostEntry_mem : mget unwritten (syscallWake state (tidOf 1 0 0)).mem 0x20000 = 4 := by decide +kernel

/-- Refutes O50: its clause on SYSCALL_ANSWERED says that nothing changes while the entry of a waiting thread does not translate, but the look at the entry
is an access of its core, and a malformed page-table entry that it meets is written to the error ring. -/
theorem not_teamsEndAndWait : ¬ Obligations.TeamsEndAndWait := by
  unfold Obligations.TeamsEndAndWait
  intro h
  obtain ⟨-, -, -, -, -, -, -, -, -, -, hanswered, -⟩ := h
  obtain ⟨t, ht, hwait⟩ := hanswered (tidOf 1 0 0) state trivial
  obtain ⟨hstays, -⟩ := hwait 3 0x30040 cond_lostEntry
  have he : t = syscallWake state (tidOf 1 0 0) := by
    rw [exec_syscallAnswered, execSyscallAnswered] at ht
    exact (Host.Outcome.next.inj ht).symm
  have hring := syscallWake_lostEntry_mem
  rw [← he, hstays placeOf_lostEntry, mem_lostEntry] at hring
  cases hring

end Sys2Proof.Machine
end

section
/-! PROOF. Exact values as rational numbers (R154, R162 to R167, R184): what the operations on values and their roundings say of the numbers that they stand for. -/

namespace Sys2Proof.Machine

/-! ### Powers of two -/

theorem two_zpow_pos (e : ℤ) : (0 : ℚ) < 2 ^ e := zpow_pos (by norm_num) e

theorem two_zpow_add (a b : ℤ) : (2 : ℚ) ^ (a + b) = 2 ^ a * 2 ^ b := zpow_add₀ (by norm_num) a b

theorem two_zpow_le {a b : ℤ} : (2 : ℚ) ^ a ≤ 2 ^ b ↔ a ≤ b := zpow_le_zpow_iff_right₀ (by norm_num)

theorem two_zpow_lt {a b : ℤ} : (2 : ℚ) ^ a < 2 ^ b ↔ a < b := zpow_lt_zpow_iff_right₀ (by norm_num)

theorem two_zpow_natCast (n : Nat) : (2 : ℚ) ^ (n : ℤ) = 2 ^ n := zpow_natCast 2 n

theorem cast_powInt {e : ℤ} (h : 0 ≤ e) : (powInt e : ℚ) = 2 ^ e := by
  rw [powInt, Nat.cast_pow, Nat.cast_ofNat, ← two_zpow_natCast, Int.toNat_of_nonneg h]

/-! ### The number of a value -/

/-- The magnitude of a finite value. -/
def magOf (m : Nat) (e : ℤ) : ℚ := (m : ℚ) * 2 ^ e

theorem magOf_nonneg (m : Nat) (e : ℤ) : 0 ≤ magOf m e := mul_nonneg (Nat.cast_nonneg m) (two_zpow_pos e).le

theorem magOf_pos {m : Nat} (h : m ≠ 0) (e : ℤ) : 0 < magOf m e := mul_pos (Nat.cast_pos.2 (Nat.pos_of_ne_zero h)) (two_zpow_pos e)

theorem magOf_eq_zero {m : Nat} {e : ℤ} : magOf m e = 0 ↔ m = 0 := by
  rw [magOf, mul_eq_zero, Nat.cast_eq_zero, or_iff_left (two_zpow_pos e).ne']

theorem ratOf_fin (neg : Bool) (m : Nat) (e : ℤ) : ratOf (.fin neg m e) = if neg then -magOf m e else magOf m e := by
  cases neg <;> simp [ratOf, magOf]

theorem abs_ratOf_fin (neg : Bool) (m : Nat) (e : ℤ) : |ratOf (.fin neg m e)| = magOf m e := by
  rw [ratOf_fin]
  split
  · rw [abs_neg, abs_of_nonneg (magOf_nonneg m e)]
  · exact abs_of_nonneg (magOf_nonneg m e)

theorem ratOf_fin_eq_zero {neg : Bool} {m : Nat} {e : ℤ} : ratOf (.fin neg m e) = 0 ↔ m = 0 := by
  rw [← abs_eq_zero, abs_ratOf_fin, magOf_eq_zero]

theorem ratOf_scale (v : Val) (k : ℤ) : ratOf (v.scale k) = ratOf v * 2 ^ k := by
  cases v with
  | fin n m e => simp only [Val.scale, ratOf, two_zpow_add, mul_assoc]
  | nan => simp [Val.scale, ratOf]
  | inf n => simp [Val.scale, ratOf]

@[simp] theorem ratOf_neg (v : Val) : ratOf v.neg = -ratOf v := by
  cases v with
  | fin n m e => cases n <;> simp [Val.neg, ratOf]
  | nan => simp [Val.neg, ratOf]
  | inf n => simp [Val.neg, ratOf]

/-- A finite value, not an infinity and not NaN. -/
theorem eq_fin_of_finite {v : Val} (hn : v.isNan = false) (hi : v.isInf = false) : ∃ neg m e, v = .fin neg m e := by
  cases v with
  | nan => cases hn
  | inf n => cases hi
  | fin n m e => exact ⟨n, m, e, rfl⟩

theorem mantAt_mul {n : Bool} {m : Nat} {e lo : ℤ} (h : lo ≤ e) : (mantAt n m e lo : ℚ) * 2 ^ lo = ratOf (.fin n m e) := by
  have hm : ((m * powInt (e - lo) : ℤ) : ℚ) * 2 ^ lo = magOf m e := by
    rw [Int.cast_mul, Int.cast_natCast, Int.cast_natCast, cast_powInt (by omega), mul_assoc, ← two_zpow_add, Int.sub_add_cancel, magOf]
  rw [ratOf_fin, mantAt]
  cases n
  · exact hm
  · simp only [if_true, Int.cast_neg, neg_mul, hm]

/-- The number of a signed mantissa. -/
theorem ratOf_of_int (v : ℤ) (lo : ℤ) : ratOf (.fin (decide (v < 0)) v.natAbs lo) = (v : ℚ) * 2 ^ lo := by
  have hc : (v.natAbs : ℚ) = |(v : ℚ)| := by rw [Nat.cast_natAbs, Int.cast_abs]
  rw [ratOf_fin, magOf, hc]
  by_cases h : v < 0
  · rw [if_pos (by simpa using h), abs_of_neg (by exact_mod_cast h), neg_mul, neg_neg]
  · rw [if_neg (by simpa using h), abs_of_nonneg (by exact_mod_cast not_lt.1 h)]

theorem ratOf_valOf (a s : ℤ) : ratOf (valOf a s) = (a : ℚ) * 2 ^ s := ratOf_of_int a s

/-- A sum is exact. -/
theorem ratOf_addFin (n1 : Bool) (m1 : Nat) (e1 : ℤ) (n2 : Bool) (m2 : Nat) (e2 : ℤ) :
    ratOf (Val.addFin n1 m1 e1 n2 m2 e2) = ratOf (.fin n1 m1 e1) + ratOf (.fin n2 m2 e2) := by
  have h : ((mantAt n1 m1 e1 (min e1 e2) + mantAt n2 m2 e2 (min e1 e2) : ℤ) : ℚ) * 2 ^ min e1 e2 = ratOf (.fin n1 m1 e1) + ratOf (.fin n2 m2 e2) := by
    rw [Int.cast_add, add_mul, mantAt_mul (min_le_left _ _), mantAt_mul (min_le_right _ _)]
  simp only [Val.addFin]
  split
  case isTrue h0 => rw [ratOf_fin_eq_zero.2 rfl, ← h, h0, Int.cast_zero, zero_mul]
  case isFalse => rw [ratOf_of_int, h]

/-- A product is exact. -/
theorem ratOf_mulFin (n1 : Bool) (m1 : Nat) (e1 : ℤ) (n2 : Bool) (m2 : Nat) (e2 : ℤ) :
    ratOf (.fin (n1 != n2) (m1 * m2) (e1 + e2)) = ratOf (.fin n1 m1 e1) * ratOf (.fin n2 m2 e2) := by
  have h : magOf (m1 * m2) (e1 + e2) = magOf m1 e1 * magOf m2 e2 := by
    rw [magOf, magOf, magOf, Nat.cast_mul, two_zpow_add]
    ring
  simp only [ratOf_fin, h]
  cases n1 <;> cases n2 <;> simp

theorem Val.lt_fin_iff (n1 : Bool) (m1 : Nat) (e1 : ℤ) (n2 : Bool) (m2 : Nat) (e2 : ℤ) :
    Val.lt (.fin n1 m1 e1) (.fin n2 m2 e2) = true ↔ ratOf (.fin n1 m1 e1) < ratOf (.fin n2 m2 e2) := by
  rw [← mantAt_mul (min_le_left e1 e2), ← mantAt_mul (min_le_right e1 e2), mul_lt_mul_iff_left₀ (two_zpow_pos _), Int.cast_lt]
  exact decide_eq_true_iff

/-! ### The place of the leading bit -/

theorem bitLen_ne_zero {m : Nat} (h : m ≠ 0) : bitLen m ≠ 0 := by simp [bitLen, h]

theorem two_zpow_le_magOf {m : Nat} (h : m ≠ 0) (e : ℤ) : (2 : ℚ) ^ (e + bitLen m - 1) ≤ magOf m e := by
  have hb := bitLen_ne_zero h
  rw [show e + bitLen m - 1 = ((bitLen m - 1 : Nat) : ℤ) + e by omega, two_zpow_add, two_zpow_natCast, magOf]
  exact mul_le_mul_of_nonneg_right (by exact_mod_cast two_pow_bitLen_le hb) (two_zpow_pos e).le

theorem magOf_lt_two_zpow (m : Nat) (e : ℤ) : magOf m e < 2 ^ (e + bitLen m) := by
  rw [add_comm, two_zpow_add, two_zpow_natCast, magOf]
  exact mul_lt_mul_of_pos_right (by exact_mod_cast lt_two_pow_bitLen m) (two_zpow_pos e)

/-- The place of the leading bit of a number is its own, however it is written. -/
theorem leading_unique {x : ℚ} {a b : ℤ} (ha : (2 : ℚ) ^ a ≤ x) (ha' : x < 2 ^ (a + 1)) (hb : (2 : ℚ) ^ b ≤ x) (hb' : x < 2 ^ (b + 1)) : a = b := by
  have h1 := two_zpow_lt.1 (ha.trans_lt hb')
  have h2 := two_zpow_lt.1 (hb.trans_lt ha')
  omega

theorem bitLen_of_bounds {q n : Nat} (h1 : 2 ^ n ≤ q) (h2 : q < 2 ^ (n + 1)) : bitLen q = n + 1 := by
  have hq : q ≠ 0 := by have := Nat.two_pow_pos n; omega
  rw [bitLen, if_neg hq, (Nat.log2_eq_iff hq).2 ⟨h1, h2⟩]

/-! ### Rounding to an integer (R162) -/

theorem roundShift_bounds (mode : Mode) (neg : Bool) (m sh : Nat) : m / 2 ^ sh ≤ roundShift mode neg m sh ∧ roundShift mode neg m sh ≤ m / 2 ^ sh + 1 := by
  unfold roundShift
  extract_lets q r half up
  clear_value up
  cases up <;> simp [q]

/-- The integer that a magnitude rounds to, with the number's sign. -/
def signed (neg : Bool) (q : Nat) : ℤ := if neg then -(q : ℤ) else q

theorem abs_cast_signed (neg : Bool) (q : Nat) : |(signed neg q : ℚ)| = q := by
  cases neg <;> simp [signed]

/-- An integer rounds to itself. -/
theorem roundedInt_intCast (mode : Mode) (n : ℤ) : RoundedInt mode (n : ℚ) n := by
  cases mode <;> simp [RoundedInt, mul_self_nonneg]

theorem cast_signed (neg : Bool) (q : Nat) : (signed neg q : ℚ) = (if neg then -1 else 1) * (q : ℚ) := by
  cases neg <;> simp [signed]

/-- Rounding to nearest forgets the sign. -/
theorem roundedInt_rne_signed (neg : Bool) {t : ℚ} {q q' : Nat} (h : 2 * |(q : ℚ) + t - q'| ≤ 1) (he : 2 * |(q : ℚ) + t - q'| = 1 → q' % 2 = 0) :
    RoundedInt .rne ((if neg then -1 else 1) * (q + t)) (signed neg q') := by
  have habs : |(if neg then -1 else 1) * ((q : ℚ) + t) - signed neg q'| = |(q : ℚ) + t - q'| := by
    rw [cast_signed, ← mul_sub, abs_mul]
    cases neg <;> simp
  simp only [RoundedInt, habs]
  refine ⟨h, fun h1 => ?_⟩
  have := he h1
  cases neg
  · exact (by omega : ((q' : ℤ)) % 2 = 0)
  · exact (by omega : (-(q' : ℤ)) % 2 = 0)

theorem roundedInt_rne_fraction (neg up : Bool) {q : Nat} {t : ℚ} (h0 : 0 ≤ t) (h1 : t < 1) (hup : up = true ↔ 1 < 2 * t ∨ 2 * t = 1 ∧ q % 2 = 1) :
    RoundedInt .rne ((if neg then -1 else 1) * (q + t)) (signed neg (if up then q + 1 else q)) := by
  cases up with
  | true =>
    have hu := hup.1 rfl
    have habs : |(q : ℚ) + t - ((q + 1 : Nat) : ℚ)| = 1 - t := by
      rw [abs_of_nonpos (by push_cast; linarith)]
      push_cast
      ring
    refine roundedInt_rne_signed neg (q' := q + 1) ?_ ?_ <;> rw [habs]
    · rcases hu with hu | hu <;> linarith [hu]
    · intro he
      rcases hu with hu | ⟨-, hu⟩
      · linarith
      · omega
  | false =>
    have hu := mt hup.2 (by simp)
    have habs : |(q : ℚ) + t - q| = t := by rw [add_sub_cancel_left, abs_of_nonneg h0]
    push Not at hu
    refine roundedInt_rne_signed neg ?_ ?_ <;> rw [if_neg (by simp), habs]
    · exact hu.1
    · intro he
      have := hu.2 he
      omega

theorem roundedInt_rtz_fraction (neg : Bool) {q : Nat} {t : ℚ} (h0 : 0 ≤ t) (h1 : t < 1) : RoundedInt .rtz ((if neg then -1 else 1) * (q + t)) (signed neg q) := by
  have hq0 : (0 : ℚ) ≤ q := Nat.cast_nonneg q
  have hsgn : |(if neg then -1 else 1) * ((q : ℚ) + t)| = q + t := by
    rw [abs_mul, abs_of_nonneg (by linarith : 0 ≤ (q : ℚ) + t)]
    cases neg <;> simp
  simp only [RoundedInt, hsgn, abs_cast_signed]
  refine ⟨by linarith, by linarith, ?_⟩
  rw [cast_signed]
  have : 0 ≤ ((q : ℚ) + t) * q := by positivity
  cases neg <;> simp <;> linarith

/-- The rounding of a number between two integers, from its whole part and its fraction: whether it goes up, for each mode and sign. -/
theorem roundedInt_of_fraction (mode : Mode) (neg up : Bool) {q : Nat} {t : ℚ} (h0 : 0 ≤ t) (h1 : t < 1)
    (hup : up = true ↔ match mode with
      | .rne => 1 < 2 * t ∨ 2 * t = 1 ∧ q % 2 = 1
      | .rtz => False
      | .rdn => neg = true ∧ 0 < t
      | .rup => neg = false ∧ 0 < t) :
    RoundedInt mode ((if neg then -1 else 1) * (q + t)) (signed neg (if up then q + 1 else q)) := by
  cases mode with
  | rne => exact roundedInt_rne_fraction neg up h0 h1 hup
  | rtz =>
    obtain rfl : up = false := by simpa using hup
    exact roundedInt_rtz_fraction neg h0 h1
  | rdn =>
    simp only [RoundedInt, cast_signed]
    cases neg with
    | true =>
      cases up with
      | true =>
        have hu := (hup.1 rfl).2
        constructor <;> push_cast <;> simp <;> linarith
      | false =>
        have hu := mt hup.2 (by simp)
        simp only [true_and, not_lt] at hu
        constructor <;> simp <;> linarith
    | false =>
      obtain rfl : up = false := by simpa using hup
      constructor <;> simp <;> linarith
  | rup =>
    simp only [RoundedInt, cast_signed]
    cases neg with
    | true =>
      obtain rfl : up = false := by simpa using hup
      constructor <;> simp <;> linarith
    | false =>
      cases up with
      | true =>
        have hu := (hup.1 rfl).2
        constructor <;> push_cast <;> simp <;> linarith
      | false =>
        have hu := mt hup.2 (by simp)
        simp only [true_and, not_lt] at hu
        constructor <;> simp <;> linarith

theorem roundedInt_roundShift (mode : Mode) (neg : Bool) (m sh : Nat) :
    RoundedInt mode ((if neg then -1 else 1) * ((m : ℚ) / 2 ^ sh)) (signed neg (roundShift mode neg m sh)) := by
  have hp : (0 : ℚ) < 2 ^ sh := by positivity
  have hr : m % 2 ^ sh < 2 ^ sh := Nat.mod_lt _ (Nat.two_pow_pos sh)
  have hm : (m : ℚ) / 2 ^ sh = (m / 2 ^ sh : Nat) + ((m % 2 ^ sh : Nat) : ℚ) / 2 ^ sh := by
    rw [eq_comm, ← mul_left_inj' hp.ne', add_mul, div_mul_cancel₀ _ hp.ne', div_mul_cancel₀ _ hp.ne']
    exact_mod_cast (by rw [Nat.mul_comm]; exact Nat.div_add_mod m (2 ^ sh) : m / 2 ^ sh * 2 ^ sh + m % 2 ^ sh = m)
  have hhalf (r : Nat) : 2 ^ sh < 2 * r ↔ 1 < 2 * ((r : ℚ) / 2 ^ sh) := by
    rw [← mul_div_assoc, lt_div_iff₀ hp, one_mul]; exact_mod_cast Iff.rfl
  have htie (r : Nat) : 2 * r = 2 ^ sh ↔ 2 * ((r : ℚ) / 2 ^ sh) = 1 := by
    rw [← mul_div_assoc, div_eq_one_iff_eq hp.ne']; exact_mod_cast Iff.rfl
  have hpos (r : Nat) : 0 < r ↔ 0 < (r : ℚ) / 2 ^ sh := by rw [div_pos_iff_of_pos_right hp, Nat.cast_pos]
  rw [hm]
  refine roundedInt_of_fraction mode neg _ (div_nonneg (Nat.cast_nonneg _) hp.le) ?_ ?_
  · rw [div_lt_one hp]
    exact_mod_cast hr
  · cases mode with
    | rne => simp only [hhalf, htie, Bool.or_eq_true, Bool.and_eq_true, decide_eq_true_eq]
    | rtz => exact ⟨nofun, nofun⟩
    | rdn => simp only [hpos, Bool.and_eq_true, decide_eq_true_eq]
    | rup => simp only [hpos, Bool.and_eq_true, Bool.not_eq_true', decide_eq_true_eq]

theorem roundInt_eq (mode : Mode) (neg : Bool) (m : Nat) (e : ℤ) :
    roundInt mode neg m e = signed neg (if 0 ≤ e then m * powInt e else roundShift mode neg m (-e).toNat) := rfl

theorem ratOf_fin_sign (neg : Bool) (m : Nat) (e : ℤ) : ratOf (.fin neg m e) = (if neg then -1 else 1) * magOf m e := by
  rw [ratOf, magOf, mul_assoc]

/-- A finite value rounds to the integer that its mode names (R162). -/
theorem roundedInt_roundInt (mode : Mode) (neg : Bool) (m : Nat) (e : ℤ) : RoundedInt mode (ratOf (.fin neg m e)) (roundInt mode neg m e) := by
  rw [roundInt_eq, ratOf_fin_sign]
  by_cases he : 0 ≤ e
  · have hx : (if neg then -1 else 1) * magOf m e = ((signed neg (m * powInt e) : ℤ) : ℚ) := by
      rw [cast_signed, Nat.cast_mul, cast_powInt he, magOf]
    rw [if_pos he, hx]
    exact roundedInt_intCast mode _
  · have hx : magOf m e = (m : ℚ) / 2 ^ (-e).toNat := by
      rw [← two_zpow_natCast, Int.toNat_of_nonneg (by omega), zpow_neg, div_inv_eq_mul, magOf]
    rw [if_neg he, hx]
    exact roundedInt_roundShift mode neg m _

end Sys2Proof.Machine
end

section
/-! PROOF. O23: rounding to a float format goes to the nearest multiple of the step that the format has there, and patterns come back. -/

namespace Sys2Proof.Machine

/-! ### Bounds on a rounded number -/

/-- Rounding keeps to the side of an integer on which the number lies. -/
theorem le_of_roundedInt {mode : Mode} {y : ℚ} {n a : ℤ} (h : RoundedInt mode y n) (ha : (a : ℚ) ≤ y) : a ≤ n := by
  by_contra hlt
  have hn : (n : ℚ) + 1 ≤ a := by exact_mod_cast (by omega : n + 1 ≤ a)
  cases mode with
  | rne =>
    have := (abs_le.1 (by linarith [h.1] : |y - n| ≤ 1 / 2)).2
    linarith
  | rtz =>
    obtain ⟨h1, h2, h3⟩ := h
    rcases lt_or_ge n 0 with hneg | hpos
    · have hn0 : (n : ℚ) < 0 := by exact_mod_cast hneg
      have hy : y ≤ 0 := nonpos_of_mul_nonneg_left h3 hn0
      rw [abs_of_neg hn0, abs_of_nonpos hy] at h1
      linarith
    · have hn0 : (0 : ℚ) ≤ n := by exact_mod_cast hpos
      have := le_abs_self y
      rw [abs_of_nonneg hn0] at h2
      linarith
  | rdn => linarith [h.2]
  | rup => linarith [h.1]

theorem ge_of_roundedInt {mode : Mode} {y : ℚ} {n b : ℤ} (h : RoundedInt mode y n) (hb : y ≤ b) : n ≤ b := by
  by_contra hlt
  have hn : (b : ℚ) + 1 ≤ n := by exact_mod_cast (by omega : b + 1 ≤ n)
  cases mode with
  | rne =>
    have := (abs_le.1 (by linarith [h.1] : |y - n| ≤ 1 / 2)).1
    linarith
  | rtz =>
    obtain ⟨h1, h2, h3⟩ := h
    rcases lt_or_ge 0 n with hpos | hneg
    · have hn0 : (0 : ℚ) < n := by exact_mod_cast hpos
      have hy : 0 ≤ y := nonneg_of_mul_nonneg_left h3 hn0
      rw [abs_of_pos hn0, abs_of_nonneg hy] at h1
      linarith
    · have hn0 : (n : ℚ) ≤ 0 := by exact_mod_cast hneg
      have := neg_abs_le y
      rw [abs_of_nonpos hn0] at h2
      linarith
  | rdn => linarith [h.1]
  | rup => linarith [h.2]

/-- An integer rounds to no other one. -/
theorem eq_of_roundedInt_int {mode : Mode} {y : ℚ} {n a : ℤ} (h : RoundedInt mode y n) (ha : y = a) : n = a :=
  le_antisymm (ge_of_roundedInt h ha.le) (le_of_roundedInt h ha.ge)

/-! ### The float formats (R154, R155) -/

/-- The exponent of the subnormal step of a float format. -/
def Fmt.low (f : Fmt) : ℤ := 1 - (f.bias : ℤ) - f.fracBits

/-- The formats of R155: at least one fraction bit, and exponents from the bias to its negation. -/
theorem fmt_facts {f : Fmt} (hf : f ∈ [Fmt.f32, .bf16, .f16]) :
    1 ≤ f.fracBits ∧ 1 ≤ f.bias ∧ 2 * f.bias + 2 = 2 ^ f.expBits ∧ f.fracBits + f.expBits + 1 = f.width ∧ 1 ≤ f.expBits := by
  simp only [List.mem_cons, List.not_mem_nil, or_false] at hf
  rcases hf with rfl | rfl | rfl <;> decide

/-- The exponent of a number's last place in a float format. -/
def Fmt.place (f : Fmt) (m : Nat) (e : ℤ) : ℤ := max (e + bitLen m - 1 - f.fracBits) f.low

/-- The mantissa to which a magnitude rounds at a last place. -/
def roundAt (mode : Mode) (neg : Bool) (m : Nat) (e k : ℤ) : Nat := if k ≤ e then m * powInt (e - k) else roundShift mode neg m (k - e).toNat

/-- Whether a mantissa at a last place lies beyond the largest finite magnitude. -/
def Fmt.beyond (f : Fmt) (q : Nat) (k : ℤ) : Bool := decide (f.maxFin.2 < k) || (decide (k = f.maxFin.2) && decide (f.maxFin.1 < q))

/-- What a mode gives beyond the largest finite magnitude (R163). -/
def Fmt.overflow (f : Fmt) (mode : Mode) (neg : Bool) : Val :=
  if mode = .rtz ∨ (mode = .rdn ∧ neg = false) ∨ (mode = .rup ∧ neg = true) then .fin neg f.maxFin.1 f.maxFin.2 else .inf neg

theorem roundFloat_fin (f : Fmt) (mode : Mode) (neg : Bool) {m : Nat} (hm : m ≠ 0) (e : ℤ) :
    roundFloat f mode (.fin neg m e) = if f.beyond (roundAt mode neg m e (f.place m e)) (f.place m e) = true then f.overflow mode neg
      else .fin neg (roundAt mode neg m e (f.place m e)) (f.place m e) := by
  simp only [roundFloat, if_neg hm]
  refine if_congr Iff.rfl ?_ rfl
  cases mode <;> cases neg <;> rfl

theorem place_low_le (f : Fmt) (m : Nat) (e : ℤ) : f.low ≤ f.place m e := le_max_right _ _

theorem magOf_lt_place (f : Fmt) (m : Nat) (e : ℤ) : magOf m e < 2 ^ (f.place m e + f.fracBits + 1) := by
  refine (magOf_lt_two_zpow m e).trans_le (two_zpow_le.2 ?_)
  have := le_max_left (e + bitLen m - 1 - f.fracBits) f.low
  rw [Fmt.place]
  omega

theorem place_le_magOf (f : Fmt) {m : Nat} (hm : m ≠ 0) (e : ℤ) : f.place m e = f.low ∨ (2 : ℚ) ^ (f.place m e + f.fracBits) ≤ magOf m e := by
  rcases max_choice (e + bitLen m - 1 - f.fracBits) f.low with h | h
  · refine .inr ?_
    rw [Fmt.place, h, show e + bitLen m - 1 - f.fracBits + f.fracBits = e + bitLen m - 1 by omega]
    exact two_zpow_le_magOf hm e
  · exact .inl h

theorem roundedInt_roundAt (mode : Mode) (neg : Bool) (m : Nat) (e k : ℤ) :
    RoundedInt mode (ratOf (.fin neg m e) / 2 ^ k) (signed neg (roundAt mode neg m e k)) := by
  have h := roundedInt_roundInt mode neg m (e - k)
  have hr : ratOf (.fin neg m (e - k)) = ratOf (.fin neg m e) / 2 ^ k := by
    rw [div_eq_mul_inv, ← zpow_neg, ← ratOf_scale, Val.scale, sub_eq_add_neg]
  rw [hr, roundInt_eq] at h
  unfold roundAt
  simpa only [sub_nonneg, neg_sub] using h

/-- A mantissa is at most the power of two that the magnitude stays below. -/
theorem roundAt_le {mode : Mode} {neg : Bool} {m n : Nat} {e k : ℤ} (h : magOf m e ≤ 2 ^ (k + n)) : roundAt mode neg m e k ≤ 2 ^ n := by
  have hx : magOf m e / 2 ^ k ≤ 2 ^ n := by
    rwa [div_le_iff₀ (two_zpow_pos k), ← two_zpow_natCast, ← two_zpow_add, add_comm]
  have hr := roundedInt_roundAt mode neg m e k
  rw [ratOf_fin_sign, mul_div_assoc] at hr
  cases neg with
  | false =>
    exact Int.ofNat_le.1 (ge_of_roundedInt hr (b := ((2 ^ n : Nat) : ℤ)) (by simpa using hx))
  | true =>
    exact Int.ofNat_le.1 (neg_le_neg_iff.1 (le_of_roundedInt hr (a := -((2 ^ n : Nat) : ℤ)) (by simpa using hx)))

theorem le_roundAt {mode : Mode} {neg : Bool} {m n : Nat} {e k : ℤ} (h : (2 : ℚ) ^ (k + n) ≤ magOf m e) : 2 ^ n ≤ roundAt mode neg m e k := by
  have hx : 2 ^ n ≤ magOf m e / 2 ^ k := by
    rwa [le_div_iff₀ (two_zpow_pos k), ← two_zpow_natCast, ← two_zpow_add, add_comm]
  have hr := roundedInt_roundAt mode neg m e k
  rw [ratOf_fin_sign, mul_div_assoc] at hr
  cases neg with
  | false =>
    exact Int.ofNat_le.1 (le_of_roundedInt hr (a := ((2 ^ n : Nat) : ℤ)) (by simpa using hx))
  | true =>
    exact Int.ofNat_le.1 (neg_le_neg_iff.1 (ge_of_roundedInt hr (b := -((2 ^ n : Nat) : ℤ)) (by simpa using hx)))

/-- A mantissa of a format at the last place of its number: it has at most one bit beyond the format's, and fewer bits only at the subnormal step. -/
theorem roundAt_place (f : Fmt) (mode : Mode) (neg : Bool) {m : Nat} (hm : m ≠ 0) (e : ℤ) :
    (f.place m e = f.low ∨ 2 ^ f.fracBits ≤ roundAt mode neg m e (f.place m e)) ∧ roundAt mode neg m e (f.place m e) ≤ 2 ^ (f.fracBits + 1) := by
  refine ⟨(place_le_magOf f hm e).imp_right le_roundAt, roundAt_le ?_⟩
  push_cast
  rw [← add_assoc]
  exact (magOf_lt_place f m e).le

/-- The largest finite magnitude of a format, as a number. -/
theorem maxFin_lt {f : Fmt} : magOf f.maxFin.1 f.maxFin.2 < 2 ^ (f.maxFin.2 + f.fracBits + 1) := by
  have h : ((2 ^ (f.fracBits + 1) - 1 : Nat) : ℚ) < 2 ^ (f.fracBits + 1) := by
    exact_mod_cast Nat.sub_lt (Nat.two_pow_pos _) one_pos
  rw [add_assoc, add_comm, two_zpow_add, magOf, show ((f.fracBits : ℤ) + 1) = ((f.fracBits + 1 : Nat) : ℤ) by push_cast; rfl, two_zpow_natCast]
  exact mul_lt_mul_of_pos_right h (two_zpow_pos _)

/-- The comparison with the largest finite magnitude, as one of numbers. -/
theorem beyond_iff {f : Fmt} (hf : f ∈ [Fmt.f32, .bf16, .f16]) {q : Nat} {k : ℤ} (hlow : k = f.low ∨ 2 ^ f.fracBits ≤ q) (hq : q ≤ 2 ^ (f.fracBits + 1)) :
    f.beyond q k = true ↔ magOf f.maxFin.1 f.maxFin.2 < magOf q k := by
  obtain ⟨hfrac, hbias, -⟩ := fmt_facts hf
  have hmax1 : f.maxFin.1 = 2 ^ (f.fracBits + 1) - 1 := rfl
  have hmax2 : f.maxFin.2 = (f.bias : ℤ) - f.fracBits := rfl
  have hlowv : f.low = 1 - (f.bias : ℤ) - f.fracBits := rfl
  simp only [Fmt.beyond, Bool.or_eq_true, Bool.and_eq_true, decide_eq_true_eq]
  rcases lt_trichotomy k f.maxFin.2 with h | h | h
  · refine iff_of_false (by omega) (not_lt.2 ?_)
    have h1 : magOf q k ≤ 2 ^ (f.maxFin.2 + f.fracBits) := by
      rw [magOf]
      calc (q : ℚ) * 2 ^ k ≤ 2 ^ (f.fracBits + 1) * 2 ^ k := mul_le_mul_of_nonneg_right (by exact_mod_cast hq) (two_zpow_pos k).le
        _ = 2 ^ ((f.fracBits : ℤ) + 1 + k) := by rw [two_zpow_add, ← two_zpow_natCast]; push_cast; rfl
        _ ≤ 2 ^ (f.maxFin.2 + f.fracBits) := two_zpow_le.2 (by omega)
    refine h1.trans ?_
    rw [add_comm, two_zpow_add, two_zpow_natCast, magOf]
    refine mul_le_mul_of_nonneg_right ?_ (two_zpow_pos _).le
    have : 2 ^ f.fracBits ≤ 2 ^ (f.fracBits + 1) - 1 := by
      have := Nat.two_pow_pos f.fracBits
      rw [pow_succ]
      omega
    rw [hmax1]
    exact_mod_cast this
  · subst h
    rw [magOf, magOf, mul_lt_mul_iff_left₀ (two_zpow_pos _), Nat.cast_lt]
    omega
  · refine iff_of_true (.inl h) ?_
    have hq' : 2 ^ f.fracBits ≤ q := by
      rcases hlow with h' | h'
      · omega
      · exact h'
    calc magOf f.maxFin.1 f.maxFin.2 < 2 ^ (f.maxFin.2 + f.fracBits + 1) := maxFin_lt
      _ ≤ 2 ^ ((f.fracBits : ℤ) + k) := two_zpow_le.2 (by omega)
      _ = 2 ^ f.fracBits * 2 ^ k := by rw [two_zpow_add, two_zpow_natCast]
      _ ≤ magOf q k := mul_le_mul_of_nonneg_right (by exact_mod_cast hq') (two_zpow_pos k).le

theorem roundingIsNearest : RoundingIsNearest := by
  intro f hf mode neg m e hm
  obtain ⟨hlow, hle⟩ := roundAt_place f mode neg hm e
  refine ⟨f.place m e, roundAt mode neg m e (f.place m e), place_low_le f m e, ?_, ?_, hlow, hle, roundedInt_roundAt mode neg m e _, ?_⟩
  · rw [abs_ratOf_fin]
    exact magOf_lt_place f m e
  · rw [abs_ratOf_fin]
    exact place_le_magOf f hm e
  · have hmax : ((2 : ℚ) ^ (f.fracBits + 1) - 1) * 2 ^ ((f.bias : ℤ) - f.fracBits) = magOf f.maxFin.1 f.maxFin.2 := by
      simp only [magOf, Fmt.maxFin, Nat.cast_sub (Nat.one_le_two_pow)]
      push_cast
      rfl
    rw [roundFloat_fin f mode neg hm e, hmax, ← ite_not]
    exact if_congr ((not_congr (beyond_iff hf hlow hle)).trans not_lt) rfl rfl

/-! ### Patterns (R155, R157) -/

/-- The pattern with a sign, an exponent field and a fraction field. -/
def Fmt.pattern (f : Fmt) (s : Bool) (x m : Nat) : Nat := b1 s * 2 ^ (f.fracBits + f.expBits) + (x * 2 ^ f.fracBits + m)

theorem fields_lt {f : Fmt} {x m : Nat} (hx : x < 2 ^ f.expBits) (hm : m < 2 ^ f.fracBits) : x * 2 ^ f.fracBits + m < 2 ^ (f.fracBits + f.expBits) := by
  have : (x + 1) * 2 ^ f.fracBits ≤ 2 ^ f.expBits * 2 ^ f.fracBits := Nat.mul_le_mul_right _ hx
  rw [pow_add, mul_comm (2 ^ f.fracBits)]
  linarith

theorem pattern_lt {f : Fmt} (hf : f ∈ [Fmt.f32, .bf16, .f16]) (s : Bool) {x m : Nat} (hx : x < 2 ^ f.expBits) (hm : m < 2 ^ f.fracBits) :
    f.pattern s x m < 2 ^ f.width := by
  obtain ⟨-, -, -, hw, -⟩ := fmt_facts hf
  have := fields_lt hx hm
  rw [Fmt.pattern, ← hw, pow_succ]
  cases s <;> simp only [b1, Bool.false_eq_true, if_true, if_false] <;> omega

/-- The value that the fields of a pattern stand for. -/
theorem floatValue_pattern (f : Fmt) (s : Bool) {x m : Nat} (hx : x < 2 ^ f.expBits) (hm : m < 2 ^ f.fracBits) :
    floatValue f (f.pattern s x m) = if x = 2 ^ f.expBits - 1 then (if m = 0 then .inf s else .nan) else
      if x = 0 then .fin s m f.low else .fin s (2 ^ f.fracBits + m) ((x : ℤ) - f.bias - f.fracBits) := by
  have hlow := fields_lt hx hm
  have hs : (f.pattern s x m).testBit (f.fracBits + f.expBits) = s := by
    rw [Fmt.pattern, Nat.mul_comm, Nat.testBit_two_pow_mul_add _ hlow, if_neg (lt_irrefl _), Nat.sub_self]
    cases s <;> decide
  have hm' : f.pattern s x m % 2 ^ f.fracBits = m := by
    rw [Fmt.pattern, pow_add, ← Nat.add_assoc, show b1 s * (2 ^ f.fracBits * 2 ^ f.expBits) + x * 2 ^ f.fracBits = 2 ^ f.fracBits * (b1 s * 2 ^ f.expBits + x) by ring,
      Nat.mul_add_mod, Nat.mod_eq_of_lt hm]
  have hx' : f.pattern s x m / 2 ^ f.fracBits % 2 ^ f.expBits = x := by
    rw [Fmt.pattern, pow_add, ← Nat.add_assoc, show b1 s * (2 ^ f.fracBits * 2 ^ f.expBits) + x * 2 ^ f.fracBits = 2 ^ f.fracBits * (2 ^ f.expBits * b1 s + x) by ring,
      Nat.mul_add_div (Nat.two_pow_pos _), Nat.div_eq_of_lt hm, Nat.add_zero, Nat.mul_add_mod, Nat.mod_eq_of_lt hx]
  simp only [floatValue, hs, hm', hx']
  rfl

/-- A pattern is made of its fields. -/
theorem exists_fields {f : Fmt} (hf : f ∈ [Fmt.f32, .bf16, .f16]) {x : Nat} (h : x < 2 ^ f.width) :
    ∃ s e m, e < 2 ^ f.expBits ∧ m < 2 ^ f.fracBits ∧ x = f.pattern s e m := by
  obtain ⟨-, -, -, hw, -⟩ := fmt_facts hf
  refine ⟨decide (2 ^ (f.fracBits + f.expBits) ≤ x), x % 2 ^ (f.fracBits + f.expBits) / 2 ^ f.fracBits, x % 2 ^ (f.fracBits + f.expBits) % 2 ^ f.fracBits, ?_,
    Nat.mod_lt _ (Nat.two_pow_pos _), ?_⟩
  · exact Nat.div_lt_of_lt_mul (by rw [← pow_add]; exact Nat.mod_lt _ (Nat.two_pow_pos _))
  · rw [← hw, pow_succ] at h
    rw [Fmt.pattern, Nat.div_add_mod']
    by_cases hs : 2 ^ (f.fracBits + f.expBits) ≤ x
    · rw [Nat.mod_eq_sub_mod hs, Nat.mod_eq_of_lt (by omega)]
      simp only [hs, b1, decide_true, if_true]
      omega
    · rw [Nat.mod_eq_of_lt (by omega)]
      simp only [hs, b1, decide_false, Bool.false_eq_true, if_false]
      omega

/-! ### Mantissas that a format holds -/

/-- A mantissa at the last place that a format gives it. -/
def Fmt.Canonical (f : Fmt) (q : Nat) (k : ℤ) : Prop := f.low ≤ k ∧ q < 2 ^ (f.fracBits + 1) ∧ (k = f.low ∨ 2 ^ f.fracBits ≤ q)

/-- The exponent and fraction fields of a canonical mantissa. -/
def Fmt.fields (f : Fmt) (q : Nat) (k : ℤ) : Nat × Nat := if q < 2 ^ f.fracBits then (0, q) else ((k - f.low + 1).toNat, q - 2 ^ f.fracBits)

/-- A format holds a magnitude exactly. -/
def Fmt.Holds (f : Fmt) (m : Nat) (e : ℤ) : Prop := ∃ q k, f.Canonical q k ∧ k ≤ f.maxFin.2 ∧ magOf m e = magOf q k

theorem place_congr (f : Fmt) {m m' : Nat} {e e' : ℤ} (hm : m ≠ 0) (h : magOf m e = magOf m' e') : f.place m e = f.place m' e' := by
  have hm' : m' ≠ 0 := fun h0 => hm (by rwa [h0, magOf_eq_zero.2 rfl, magOf_eq_zero] at h)
  have h1 := magOf_lt_two_zpow m e
  have h2 := magOf_lt_two_zpow m' e'
  have he : e + bitLen m - 1 = e' + bitLen m' - 1 := by
    refine leading_unique (two_zpow_le_magOf hm e) (by rwa [Int.sub_add_cancel]) ?_ (by rwa [Int.sub_add_cancel, h])
    rw [h]
    exact two_zpow_le_magOf hm' e'
  rw [Fmt.place, Fmt.place, he]

theorem place_canonical {f : Fmt} {q : Nat} {k : ℤ} (h : f.Canonical q k) : f.place q k = k := by
  obtain ⟨hlow, hlt, hk⟩ := h
  rw [Fmt.place]
  rcases Nat.lt_or_ge q (2 ^ f.fracBits) with hsmall | hbig
  · have := bitLen_le hsmall
    rcases hk with hk | hk
    · omega
    · omega
  · rw [bitLen_of_bounds hbig hlt]
    push_cast
    omega

/-- The multiple of a last place that a magnitude is. -/
theorem roundAt_exact (mode : Mode) (neg : Bool) {m q : Nat} {e k : ℤ} (h : magOf m e = magOf q k) : roundAt mode neg m e k = q := by
  have hr := roundedInt_roundAt mode neg m e k
  rw [ratOf_fin_sign, mul_div_assoc, h, magOf, mul_div_cancel_right₀ _ (two_zpow_pos k).ne', ← cast_signed] at hr
  have := eq_of_roundedInt_int hr rfl
  cases neg <;> simpa [signed] using this

theorem floatPattern_of_canonical {f : Fmt} {q : Nat} {k : ℤ} (hc : f.Canonical q k) (s : Bool) {m : Nat} {e : ℤ} (h : magOf m e = magOf q k) :
    floatPattern f (.fin s m e) = f.pattern s (f.fields q k).1 (f.fields q k).2 := by
  by_cases hm : m = 0
  · subst hm
    have hq : q = 0 := by rwa [magOf_eq_zero.2 rfl, eq_comm, magOf_eq_zero] at h
    simp [floatPattern, Fmt.pattern, Fmt.fields, hq]
  · have hplace : max (e + bitLen m - 1 - f.fracBits) f.low = k := (place_congr f hm h).trans (place_canonical hc)
    have hmant : (if k ≤ e then m * powInt (e - k) else m / powInt (k - e)) = q := by
      have hround := roundAt_exact .rtz s h
      rwa [roundAt] at hround
    simp only [floatPattern, if_neg hm]
    rw [show (1 : ℤ) - f.bias - f.fracBits = f.low from rfl, hplace, hmant, Fmt.fields, Fmt.pattern]
    split <;> simp [Nat.add_assoc]

theorem fields_bounds {f : Fmt} (hf : f ∈ [Fmt.f32, .bf16, .f16]) {q : Nat} {k : ℤ} (hc : f.Canonical q k) (hk : k ≤ f.maxFin.2) :
    (f.fields q k).1 < 2 ^ f.expBits - 1 ∧ (f.fields q k).2 < 2 ^ f.fracBits := by
  obtain ⟨-, hbias, hexp, -⟩ := fmt_facts hf
  have hmax : f.maxFin.2 = (f.bias : ℤ) - f.fracBits := rfl
  have hlow : f.low = 1 - (f.bias : ℤ) - f.fracBits := rfl
  obtain ⟨hk0, hlt, -⟩ := hc
  rw [pow_succ] at hlt
  unfold Fmt.fields
  split
  · exact ⟨by simp only; omega, by assumption⟩
  · exact ⟨by simp only; omega, by simp only; omega⟩

theorem floatValue_of_canonical {f : Fmt} (hf : f ∈ [Fmt.f32, .bf16, .f16]) {q : Nat} {k : ℤ} (hc : f.Canonical q k) (hk : k ≤ f.maxFin.2) (s : Bool) :
    floatValue f (f.pattern s (f.fields q k).1 (f.fields q k).2) = .fin s q k := by
  obtain ⟨h1, h2⟩ := fields_bounds hf hc hk
  have hlow : f.low = 1 - (f.bias : ℤ) - f.fracBits := rfl
  obtain ⟨hk0, hlt, hor⟩ := hc
  rw [floatValue_pattern f s (by omega) h2, if_neg (by omega)]
  rcases Nat.lt_or_ge q (2 ^ f.fracBits) with hsmall | hbig
  · simp only [Fmt.fields, if_pos hsmall, if_true]
    rw [hor.resolve_right (by omega)]
  · simp only [Fmt.fields, if_neg (not_lt.2 hbig)]
    rw [if_neg (by omega), Nat.add_sub_cancel' hbig]
    congr 1
    omega

theorem holds_of_bounds {f : Fmt} {q : Nat} {k : ℤ} (hlow : f.low ≤ k) (hk : k ≤ f.maxFin.2) (hq : q < 2 ^ (f.fracBits + 1)) : f.Holds q k := by
  by_cases h0 : q = 0
  · exact ⟨0, f.low, ⟨le_refl _, Nat.two_pow_pos _, .inl rfl⟩, hlow.trans hk, by rw [h0, magOf_eq_zero.2 rfl, magOf_eq_zero.2 rfl]⟩
  · have hplace : f.place q k ≤ k := by
      have := bitLen_le hq
      rw [Fmt.place]
      omega
    have hmag : magOf q k = magOf (q * powInt (k - f.place q k)) (f.place q k) := by
      rw [magOf, magOf, Nat.cast_mul, cast_powInt (by omega), mul_assoc, ← two_zpow_add, Int.sub_add_cancel]
    refine ⟨q * powInt (k - f.place q k), f.place q k, ⟨place_low_le f q k, ?_, ?_⟩, hplace.trans hk, hmag⟩
    · have := magOf_lt_place f q k
      rw [hmag, magOf, add_assoc, add_comm, two_zpow_add, mul_lt_mul_iff_left₀ (two_zpow_pos _), ← Nat.cast_one, ← Nat.cast_add, two_zpow_natCast] at this
      exact_mod_cast this
    · refine (place_le_magOf f h0 k).imp_right (fun h => ?_)
      rw [hmag, magOf, add_comm, two_zpow_add, mul_le_mul_iff_left₀ (two_zpow_pos _), two_zpow_natCast] at h
      exact_mod_cast h

/-- A pattern that is written from a value that its format holds reads as that value. -/
theorem floatValue_floatPattern {f : Fmt} (hf : f ∈ [Fmt.f32, .bf16, .f16]) {m : Nat} {e : ℤ} (h : f.Holds m e) (s : Bool) :
    ∃ q k, floatValue f (floatPattern f (.fin s m e)) = .fin s q k ∧ magOf q k = magOf m e := by
  obtain ⟨q, k, hc, hk, hmag⟩ := h
  exact ⟨q, k, by rw [floatPattern_of_canonical hc s hmag, floatValue_of_canonical hf hc hk], hmag.symm⟩

theorem floatPattern_congr {f : Fmt} {m m' : Nat} {e e' : ℤ} (h : f.Holds m e) (he : magOf m' e' = magOf m e) (s : Bool) :
    floatPattern f (.fin s m' e') = floatPattern f (.fin s m e) := by
  obtain ⟨q, k, hc, -, hmag⟩ := h
  rw [floatPattern_of_canonical hc s hmag, floatPattern_of_canonical hc s (he.trans hmag)]

/-- What a finite pattern stands for, its format holds, at the mantissa and exponent that it reads as. -/
theorem canonical_of_floatValue {f : Fmt} (hf : f ∈ [Fmt.f32, .bf16, .f16]) {x m : Nat} {s : Bool} {e : ℤ} (hx : x < 2 ^ f.width) (h : floatValue f x = .fin s m e) :
    f.Canonical m e ∧ e ≤ f.maxFin.2 ∧ x = f.pattern s (f.fields m e).1 (f.fields m e).2 := by
  obtain ⟨s', e', m', he', hm', rfl⟩ := exists_fields hf hx
  obtain ⟨-, hbias, hexp, -⟩ := fmt_facts hf
  have hmax : f.maxFin.2 = (f.bias : ℤ) - f.fracBits := rfl
  have hlow : f.low = 1 - (f.bias : ℤ) - f.fracBits := rfl
  rw [floatValue_pattern f s' he' hm'] at h
  have hpow : 2 ^ (f.fracBits + 1) = 2 ^ f.fracBits + 2 ^ f.fracBits := by rw [pow_succ]; omega
  split at h
  · split at h <;> cases h
  · split at h
    case isTrue h0 =>
      cases h
      subst h0
      refine ⟨⟨le_refl _, by omega, .inl rfl⟩, by omega, ?_⟩
      rw [Fmt.fields, if_pos hm']
    case isFalse h0 =>
      cases h
      refine ⟨⟨by omega, by omega, .inr (by omega)⟩, by omega, ?_⟩
      rw [Fmt.fields, if_neg (by omega)]
      congr 1
      · simp only; omega
      · simp

theorem holds_of_floatValue {f : Fmt} (hf : f ∈ [Fmt.f32, .bf16, .f16]) {x m : Nat} {s : Bool} {e : ℤ} (hx : x < 2 ^ f.width) (h : floatValue f x = .fin s m e) :
    f.Holds m e := by
  obtain ⟨hc, hk, -⟩ := canonical_of_floatValue hf hx h
  exact ⟨m, e, hc, hk, rfl⟩

theorem floatPattern_inf (f : Fmt) (s : Bool) : floatPattern f (.inf s) = f.pattern s (2 ^ f.expBits - 1) 0 := rfl

/-- A pattern that is not NaN comes back. -/
theorem floatPattern_floatValue {f : Fmt} (hf : f ∈ [Fmt.f32, .bf16, .f16]) {x : Nat} (hx : x < 2 ^ f.width) (h : floatValue f x ≠ .nan) :
    floatPattern f (floatValue f x) = x := by
  cases hv : floatValue f x with
  | nan => exact absurd hv h
  | fin s m e =>
    obtain ⟨hc, -, hp⟩ := canonical_of_floatValue hf hx hv
    rw [floatPattern_of_canonical hc s rfl, ← hp]
  | inf s =>
    obtain ⟨s', e', m', he', hm', rfl⟩ := exists_fields hf hx
    rw [floatValue_pattern f s' he' hm'] at hv
    split at hv
    · next he =>
      split at hv
      · next hm =>
        cases hv
        rw [floatPattern_inf, he, hm]
      · cases hv
    · split at hv <;> cases hv

/-! ### Tapered patterns (R157, R164) -/

/-- Whether every pattern of a tapered format comes back under a mode. -/
def taperedBack (n es : Nat) (mode : Mode) : Bool := (List.range (2 ^ n)).all (fun x => decide (taperedRound n es mode (taperedValue x n es) = (x, false)))

theorem taperedBack_all : ([(8, 0), (8, 1), (8, 2), (6, 0), (6, 1), (6, 2)].all (fun q => [Mode.rne, .rtz, .rdn, .rup].all (taperedBack q.1 q.2))) = true := by
  decide +kernel

theorem taperedRound_taperedValue {q : Nat × Nat} (hq : q ∈ [(8, 0), (8, 1), (8, 2), (6, 0), (6, 1), (6, 2)]) (mode : Mode) {x : Nat} (hx : x < 2 ^ q.1) :
    taperedRound q.1 q.2 mode (taperedValue x q.1 q.2) = (x, false) := by
  have hmode := List.all_eq_true.1 (List.all_eq_true.1 taperedBack_all q hq) mode (by cases mode <;> simp)
  exact of_decide_eq_true (List.all_eq_true.1 hmode x (List.mem_range.2 hx))

/-- Settles O23: rounding goes to a nearest multiple of the format's step, and patterns come back. -/
theorem numberPatterns : Obligations.NumberPatterns :=
  ⟨roundingIsNearest, fun _ hf _ hx h => floatPattern_floatValue hf hx h, fun _ hq mode _ hx => taperedRound_taperedValue hq mode hx⟩

end Sys2Proof.Machine
end

section
/-! PROOF. O24: exact sums and products rounded once, the signs of zeros, NaN and infinities, and the pass sum. -/

namespace Sys2Proof.Machine

/-! ### Out (R183) -/

theorem outVal_nan (f : Fmt) (mode : Mode) : outVal f mode .nan = (floatPattern f .nan, []) := rfl

theorem outVal_inf (f : Fmt) (mode : Mode) (s : Bool) : outVal f mode (.inf s) = (floatPattern f (.inf s), []) := rfl

theorem outVal_fin (f : Fmt) (mode : Mode) (s : Bool) (m : Nat) (e : ℤ) : outVal f mode (.fin s m e) =
    (floatPattern f (roundFloat f mode (.fin s m e)), (if (roundFloat f mode (.fin s m e)).isInf = true then [0] else []) ++
      (if (!(Val.fin s m e).isZero && (roundFloat f mode (.fin s m e)).isZero) = true then [2] else [])) := rfl

@[simp] theorem Val.isNan_fin (s : Bool) (m : Nat) (e : ℤ) : (Val.fin s m e).isNan = false := rfl
@[simp] theorem Val.isNan_inf (s : Bool) : (Val.inf s).isNan = false := rfl
@[simp] theorem Val.isNan_nan : Val.nan.isNan = true := rfl
@[simp] theorem Val.isInf_fin (s : Bool) (m : Nat) (e : ℤ) : (Val.fin s m e).isInf = false := rfl
@[simp] theorem Val.isInf_inf (s : Bool) : (Val.inf s).isInf = true := rfl
@[simp] theorem Val.isInf_nan : Val.nan.isInf = false := rfl

theorem isZero_fin {s : Bool} {m : Nat} {e : ℤ} : (Val.fin s m e).isZero = decide (m = 0) := by
  cases m <;> rfl

/-- What rounding gives is NaN, an infinity, or a magnitude that the format holds. -/
theorem roundFloat_holds {f : Fmt} (hf : f ∈ [Fmt.f32, .bf16, .f16]) (mode : Mode) (s : Bool) (m : Nat) (e : ℤ) :
    roundFloat f mode (.fin s m e) = .inf s ∨ ∃ q k, roundFloat f mode (.fin s m e) = .fin s q k ∧ f.Holds q k := by
  obtain ⟨hfrac, hbias, -⟩ := fmt_facts hf
  have hmax1 : f.maxFin.1 = 2 ^ (f.fracBits + 1) - 1 := rfl
  have hmax2 : f.maxFin.2 = (f.bias : ℤ) - f.fracBits := rfl
  have hlow : f.low = 1 - (f.bias : ℤ) - f.fracBits := rfl
  have hpos := Nat.two_pow_pos (f.fracBits + 1)
  by_cases hm : m = 0
  · subst hm
    exact .inr ⟨0, 0, rfl, 0, f.low, ⟨le_rfl, Nat.two_pow_pos _, .inl rfl⟩, by omega, by rw [magOf_eq_zero.2 rfl, magOf_eq_zero.2 rfl]⟩
  rw [roundFloat_fin f mode s hm e]
  obtain ⟨hq0, hq⟩ := roundAt_place f mode s hm e
  have hk := place_low_le f m e
  generalize roundAt mode s m e (f.place m e) = q at hq0 hq
  generalize f.place m e = k at hq0 hk
  split
  · unfold Fmt.overflow
    split
    · exact .inr ⟨_, _, rfl, holds_of_bounds (by omega) le_rfl (by omega)⟩
    · exact .inl rfl
  · next hb =>
    simp only [Fmt.beyond, Bool.or_eq_true, Bool.and_eq_true, decide_eq_true_eq, not_or, not_and, not_lt] at hb
    obtain ⟨hb1, hb2⟩ := hb
    refine .inr ⟨q, k, rfl, ?_⟩
    rcases Nat.lt_or_ge q (2 ^ (f.fracBits + 1)) with hlt | hge
    · exact holds_of_bounds hk hb1 hlt
    · obtain ⟨q', k', hc, hk', hmag⟩ := holds_of_bounds (f := f) (q := 2 ^ f.fracBits) (k := k + 1) (by omega) (by omega) (by rw [pow_succ]; omega)
      refine ⟨q', k', hc, hk', ?_⟩
      rw [← hmag, le_antisymm hq hge, magOf, magOf, two_zpow_add]
      push_cast
      ring

theorem floatPattern_lt_of_holds {f : Fmt} (hf : f ∈ [Fmt.f32, .bf16, .f16]) (s : Bool) {m : Nat} {e : ℤ} (h : f.Holds m e) : floatPattern f (.fin s m e) < 2 ^ f.width := by
  obtain ⟨q, k, hc, hk, hmag⟩ := h
  obtain ⟨h1, h2⟩ := fields_bounds hf hc hk
  rw [floatPattern_of_canonical hc s hmag]
  exact pattern_lt hf s (by omega) h2

theorem floatPattern_inf_lt {f : Fmt} (hf : f ∈ [Fmt.f32, .bf16, .f16]) (s : Bool) : floatPattern f (.inf s) < 2 ^ f.width :=
  pattern_lt hf s (Nat.sub_lt (Nat.two_pow_pos _) one_pos) (Nat.two_pow_pos _)

/-- A pattern has the width of its format. -/
theorem outVal_lt {f : Fmt} (hf : f ∈ [Fmt.f32, .bf16, .f16]) (mode : Mode) (v : Val) : (outVal f mode v).1 < 2 ^ f.width := by
  cases v with
  | nan =>
    simp only [List.mem_cons, List.not_mem_nil, or_false] at hf
    rcases hf with rfl | rfl | rfl <;> rw [outVal_nan] <;> decide
  | inf s => exact floatPattern_inf_lt hf s
  | fin s m e =>
    rw [outVal_fin]
    rcases roundFloat_holds hf mode s m e with h | ⟨q, k, h, hh⟩ <;> rw [h]
    · exact floatPattern_inf_lt hf s
    · exact floatPattern_lt_of_holds hf s hh

theorem width_le {f : Fmt} (hf : f ∈ [Fmt.f32, .bf16, .f16]) : f.width ≤ 32 := by
  simp only [List.mem_cons, List.not_mem_nil, or_false] at hf
  rcases hf with rfl | rfl | rfl <;> decide

theorem toNat_outRes {f : Fmt} (hf : f ∈ [Fmt.f32, .bf16, .f16]) (mode : Mode) (v : Val × List Nat) : (outRes f mode v).1.toNat = (outVal f mode v.1).1 := by
  rw [outRes, wd, BitVec.toNat_ofNat, Nat.mod_eq_of_lt]
  exact (outVal_lt hf mode v.1).trans_le (Nat.pow_le_pow_right (by decide) (width_le hf))

/-- A value that its format holds is written without an event, whatever the mode. -/
theorem outVal_of_holds {f : Fmt} {m : Nat} {e : ℤ} (h : f.Holds m e) (mode : Mode) (s : Bool) :
    outVal f mode (.fin s m e) = (floatPattern f (.fin s m e), []) := by
  by_cases hm : m = 0
  · subst hm
    rfl
  · obtain ⟨q, k, hc, hk, hmag⟩ := h
    have hq : q ≠ 0 := fun h0 => hm (by rwa [h0, magOf_eq_zero.2 rfl, magOf_eq_zero] at hmag)
    have hplace : f.place m e = k := (place_congr f hm hmag).trans (place_canonical hc)
    have hbeyond : f.beyond q k = false := by
      have hmax1 : f.maxFin.1 = 2 ^ (f.fracBits + 1) - 1 := rfl
      obtain ⟨-, hlt, -⟩ := hc
      simp only [Fmt.beyond, Bool.or_eq_false_iff, Bool.and_eq_false_iff, decide_eq_false_iff_not]
      omega
    have hround : roundFloat f mode (.fin s m e) = .fin s q k := by
      rw [roundFloat_fin f mode s hm e, hplace, roundAt_exact mode s hmag, hbeyond]
      rfl
    rw [outVal_fin, hround, isZero_fin, isZero_fin, floatPattern_of_canonical hc s rfl, floatPattern_of_canonical hc s hmag]
    simp [hm, hq, Val.isInf]

/-! ### Exact, then rounded once (R167, R183) -/

/-- A result is that of an exact number rounded once. -/
def RoundedOnce (f : Fmt) (x : ℚ) (r : FRes) : Prop :=
  ∃ neg m e, ratOf (.fin neg m e) = x ∧ r.1.toNat = (outVal f .rne (.fin neg m e)).1 ∧ r.2 = (outVal f .rne (.fin neg m e)).2

theorem roundedOnce_of_eq {f : Fmt} (hf : f ∈ [Fmt.f32, .bf16, .f16]) {s : Bool} {m : Nat} {e : ℤ} {x : ℚ} (h : ratOf (.fin s m e) = x) :
    RoundedOnce f x (outRes f .rne (.fin s m e, [])) := ⟨s, m, e, h, toNat_outRes hf .rne _, rfl⟩

/-- Neither NaN nor an infinity. -/
def Val.Finite (v : Val) : Prop := v.isNan = false ∧ v.isInf = false

theorem Val.Finite.eq_fin {v : Val} (h : v.Finite) : ∃ s m e, v = .fin s m e := eq_fin_of_finite h.1 h.2

theorem finite_fin (s : Bool) (m : Nat) (e : ℤ) : (Val.fin s m e).Finite := ⟨rfl, rfl⟩

theorem Val.Finite.neg {v : Val} (h : v.Finite) : v.neg.Finite := by
  obtain ⟨s, m, e, rfl⟩ := h.eq_fin
  exact finite_fin _ _ _

theorem addFin_fin (n1 : Bool) (m1 : Nat) (e1 : ℤ) (n2 : Bool) (m2 : Nat) (e2 : ℤ) : ∃ s m e, Val.addFin n1 m1 e1 n2 m2 e2 = .fin s m e := by
  simp only [Val.addFin]
  split <;> exact ⟨_, _, _, rfl⟩

theorem add_finite {x y : Val} (hx : x.Finite) (hy : y.Finite) : ∃ s m e, x.add y = (.fin s m e, []) ∧ ratOf (.fin s m e) = ratOf x + ratOf y := by
  obtain ⟨n1, m1, e1, rfl⟩ := hx.eq_fin
  obtain ⟨n2, m2, e2, rfl⟩ := hy.eq_fin
  obtain ⟨s, m, e, h⟩ := addFin_fin n1 m1 e1 n2 m2 e2
  exact ⟨s, m, e, by rw [← h]; rfl, by rw [← h, ratOf_addFin]⟩

theorem mul_finite {x y : Val} (hx : x.Finite) (hy : y.Finite) : ∃ s m e, x.mul y = (.fin s m e, []) ∧ ratOf (.fin s m e) = ratOf x * ratOf y := by
  obtain ⟨n1, m1, e1, rfl⟩ := hx.eq_fin
  obtain ⟨n2, m2, e2, rfl⟩ := hy.eq_fin
  exact ⟨_, _, _, rfl, ratOf_mulFin _ _ _ _ _ _⟩

theorem fma_of_finite {z x y : Val} (hz : z.Finite) (hx : x.Finite) (hy : y.Finite) : Val.fma z x y = z.add (x.mul y).1 := by
  obtain ⟨s, m, e, hp, -⟩ := mul_finite hx hy
  simp only [Val.fma, hz.1, hx.1, hy.1, hp, Val.isNan_fin, Bool.or_false, Bool.false_eq_true, if_false]

theorem fma_finite {z x y : Val} (hz : z.Finite) (hx : x.Finite) (hy : y.Finite) :
    ∃ s m e, Val.fma z x y = (.fin s m e, []) ∧ ratOf (.fin s m e) = ratOf z + ratOf x * ratOf y := by
  obtain ⟨s, m, e, hp, hr⟩ := mul_finite hx hy
  rw [fma_of_finite hz hx hy, hp, ← hr]
  exact add_finite hz (finite_fin s m e)

/-- An operation whose value is finite gives it rounded once. -/
theorem roundedOnce_of_exact {f : Fmt} (hf : f ∈ [Fmt.f32, .bf16, .f16]) {v : Val × List Nat} {x : ℚ} (h : ∃ s m e, v = (.fin s m e, []) ∧ ratOf (.fin s m e) = x) :
    RoundedOnce f x (outRes f .rne v) := by
  obtain ⟨s, m, e, rfl, hr⟩ := h
  exact roundedOnce_of_eq hf hr

theorem f32_mem : Fmt.f32 ∈ [Fmt.f32, .bf16, .f16] := by decide
theorem bf16_mem : Fmt.bf16 ∈ [Fmt.f32, .bf16, .f16] := by decide
theorem f16_mem : Fmt.f16 ∈ [Fmt.f32, .bf16, .f16] := by decide

theorem f32_words_exact {a b d : Word} (ha : (inF32 a).Finite) (hb : (inF32 b).Finite) (hd : (inF32 d).Finite) :
    RoundedOnce .f32 (ratOf (inF32 a) + ratOf (inF32 b)) (faddOp a b) ∧ RoundedOnce .f32 (ratOf (inF32 a) - ratOf (inF32 b)) (fsubOp a b) ∧
    RoundedOnce .f32 (ratOf (inF32 a) * ratOf (inF32 b)) (fmulOp a b) ∧ RoundedOnce .f32 (ratOf (inF32 d) + ratOf (inF32 a) * ratOf (inF32 b)) (ffmaOp d a b) ∧
    RoundedOnce .f32 (ratOf (inF32 d) - ratOf (inF32 a) * ratOf (inF32 b)) (ffmsOp d a b) := by
  refine ⟨roundedOnce_of_exact f32_mem (add_finite ha hb), ?_, roundedOnce_of_exact f32_mem (mul_finite ha hb),
    roundedOnce_of_exact f32_mem (fma_finite hd ha hb), ?_⟩
  · rw [sub_eq_add_neg, ← ratOf_neg]
    exact roundedOnce_of_exact f32_mem (add_finite ha hb.neg)
  · rw [sub_eq_add_neg, ← neg_mul, ← ratOf_neg]
    exact roundedOnce_of_exact f32_mem (fma_finite hd ha.neg hb)

/-- Three finite terms add up exactly. -/
theorem sumThree_finite {x y z : Val} (hx : x.Finite) (hy : y.Finite) (hz : z.Finite) :
    ∃ s m e, sumThree x y z = (.fin s m e, []) ∧ ratOf (.fin s m e) = ratOf x + ratOf y + ratOf z := by
  obtain ⟨s, m, e, hxy, hr⟩ := add_finite hx hy
  obtain ⟨s', m', e', hs, hr'⟩ := add_finite (finite_fin s m e) hz
  refine ⟨s', m', e', ?_, by rw [hr', hr]⟩
  obtain ⟨n1, m1, e1, rfl⟩ := hx.eq_fin
  obtain ⟨n2, m2, e2, rfl⟩ := hy.eq_fin
  obtain ⟨n3, m3, e3, rfl⟩ := hz.eq_fin
  rw [sumThree, if_neg (by simp), hxy, hs]

theorem hdot2_exact {a b d : Word} (hal : (inBf (lowHalf a)).Finite) (hbl : (inBf (lowHalf b)).Finite) (hah : (inBf (highHalf a)).Finite)
    (hbh : (inBf (highHalf b)).Finite) (hd : (inF32 d).Finite) :
    RoundedOnce .f32 (ratOf (inF32 d) + ratOf (inBf (lowHalf a)) * ratOf (inBf (lowHalf b)) + ratOf (inBf (highHalf a)) * ratOf (inBf (highHalf b))) (hdot2Op d a b) := by
  obtain ⟨s, m, e, hp, hpr⟩ := mul_finite hal hbl
  obtain ⟨s', m', e', hq, hqr⟩ := mul_finite hah hbh
  have hop : hdot2Op d a b = outRes .f32 .rne (sumThree (inF32 d) (.fin s m e) (.fin s' m' e')) := by
    have hnan : ([inBf (lowHalf a), inBf (lowHalf b), inBf (highHalf a), inBf (highHalf b)].any Val.isNan) = false := by simp [hal.1, hbl.1, hah.1, hbh.1]
    simp only [hdot2Op, hd.1, hnan, hp, hq, Val.isNan_fin, Bool.or_false, Bool.false_eq_true, if_false]
  rw [hop, ← hpr, ← hqr]
  exact roundedOnce_of_exact f32_mem (sumThree_finite hd (finite_fin _ _ _) (finite_fin _ _ _))

/-! ### Pairs (R188) -/

/-- A word is made of its halves. -/
theorem toNat_append_halves (x y : BitVec 16) : (x ++ y).toNat = x.toNat * 2 ^ 16 + y.toNat := by
  rw [BitVec.toNat_append, ← Nat.shiftLeft_add_eq_or_of_lt y.isLt, Nat.shiftLeft_eq]

theorem lowHalf_append (x y : BitVec 16) : lowHalf (x ++ y) = y := by
  have := toNat_append_halves x y
  apply BitVec.eq_of_toNat_eq
  rw [lowHalf, BitVec.extractLsb'_toNat, Nat.shiftRight_zero]
  omega

theorem highHalf_append (x y : BitVec 16) : highHalf (x ++ y) = x := by
  have := toNat_append_halves x y
  apply BitVec.eq_of_toNat_eq
  rw [highHalf, BitVec.extractLsb'_toNat, Nat.shiftRight_eq_div_pow]
  omega

theorem extract_ofNat_half (n : Nat) : (BitVec.ofNat 32 n).extractLsb' 0 16 = BitVec.ofNat 16 n := by
  apply BitVec.eq_of_toNat_eq
  rw [BitVec.extractLsb'_toNat, BitVec.toNat_ofNat, BitVec.toNat_ofNat, Nat.shiftRight_zero, Nat.mod_mod_of_dvd _ (by decide)]

theorem lowHalf_halves (g : BitVec 16 → BitVec 16 → BitVec 16 → Val × List Nat) (d a b : Word) :
    lowHalf (halves g d a b).1 = BitVec.ofNat 16 (outVal .bf16 .rne (g (lowHalf d) (lowHalf a) (lowHalf b)).1).1 :=
  (lowHalf_append _ _).trans (extract_ofNat_half _)

theorem highHalf_halves (g : BitVec 16 → BitVec 16 → BitVec 16 → Val × List Nat) (d a b : Word) :
    highHalf (halves g d a b).1 = BitVec.ofNat 16 (outVal .bf16 .rne (g (highHalf d) (highHalf a) (highHalf b)).1).1 :=
  (highHalf_append _ _).trans (extract_ofNat_half _)

/-- The results of both halves, joined. -/
def Joins (l h : ℚ) (r : FRes) : Prop :=
  ∃ lo hi : FRes, RoundedOnce .bf16 l lo ∧ RoundedOnce .bf16 h hi ∧ r.1.toNat = hi.1.toNat * 2 ^ 16 + lo.1.toNat ∧ r.2 = lo.2 ++ hi.2

theorem extract_outRes_bf16 (v : Val × List Nat) : ((outRes .bf16 .rne v).1.extractLsb' 0 16).toNat = (outRes .bf16 .rne v).1.toNat := by
  rw [BitVec.extractLsb'_toNat, Nat.shiftRight_zero, Nat.mod_eq_of_lt]
  rw [toNat_outRes bf16_mem]
  exact outVal_lt bf16_mem .rne v.1

theorem joins_halves {g : BitVec 16 → BitVec 16 → BitVec 16 → Val × List Nat} {d a b : Word} {l h : ℚ}
    (hl : RoundedOnce .bf16 l (outRes .bf16 .rne (g (lowHalf d) (lowHalf a) (lowHalf b))))
    (hh : RoundedOnce .bf16 h (outRes .bf16 .rne (g (highHalf d) (highHalf a) (highHalf b)))) : Joins l h (halves g d a b) := by
  refine ⟨_, _, hl, hh, ?_, rfl⟩
  rw [← extract_outRes_bf16, ← extract_outRes_bf16]
  exact toNat_append_halves _ _

theorem pair_words_exact {a b d : Word} (hfin : ∀ x ∈ [a, b, d], (inBf (lowHalf x)).Finite ∧ (inBf (highHalf x)).Finite) :
    let low (x : Word) : ℚ := ratOf (inBf (lowHalf x))
    let high (x : Word) : ℚ := ratOf (inBf (highHalf x))
    Joins (low a + low b) (high a + high b) (hadd2Op a b) ∧ Joins (low a - low b) (high a - high b) (hsub2Op a b) ∧
    Joins (low a * low b) (high a * high b) (hmul2Op a b) ∧ Joins (low d + low a * low b) (high d + high a * high b) (hfma2Op d a b) := by
  obtain ⟨hal, hah⟩ := hfin a (by simp)
  obtain ⟨hbl, hbh⟩ := hfin b (by simp)
  obtain ⟨hdl, hdh⟩ := hfin d (by simp)
  refine ⟨joins_halves (roundedOnce_of_exact bf16_mem (add_finite hal hbl)) (roundedOnce_of_exact bf16_mem (add_finite hah hbh)), ?_,
    joins_halves (roundedOnce_of_exact bf16_mem (mul_finite hal hbl)) (roundedOnce_of_exact bf16_mem (mul_finite hah hbh)),
    joins_halves (roundedOnce_of_exact bf16_mem (fma_finite hdl hal hbl)) (roundedOnce_of_exact bf16_mem (fma_finite hdh hah hbh))⟩
  rw [sub_eq_add_neg, sub_eq_add_neg, ← ratOf_neg, ← ratOf_neg]
  exact joins_halves (roundedOnce_of_exact bf16_mem (add_finite hal hbl.neg)) (roundedOnce_of_exact bf16_mem (add_finite hah hbh.neg))

/-! ### The sign of a zero (R184) -/

/-- A sum that is zero is -0 only where both terms are. -/
theorem addFin_eq_zero {n1 n2 : Bool} {m1 m2 : Nat} {e1 e2 : ℤ} (h : ratOf (.fin n1 m1 e1) + ratOf (.fin n2 m2 e2) = 0) :
    Val.addFin n1 m1 e1 n2 m2 e2 = .fin (n1 && n2 && decide (m1 = 0) && decide (m2 = 0)) 0 0 := by
  rw [← ratOf_addFin] at h
  revert h
  simp only [Val.addFin]
  split
  · intro; rfl
  · next hv =>
    intro h
    rw [ratOf_fin_eq_zero] at h
    exact absurd (Int.natAbs_eq_zero.1 h) hv

/-- A pattern of zero has its sign bit alone. -/
theorem pattern_of_zero {f : Fmt} (hf : f ∈ [Fmt.f32, .bf16, .f16]) {x : Nat} {s : Bool} {e : ℤ} (hx : x < 2 ^ f.width) (h : floatValue f x = .fin s 0 e) :
    x = b1 s * 2 ^ (f.fracBits + f.expBits) := by
  obtain ⟨-, -, hp⟩ := canonical_of_floatValue hf hx h
  rw [hp, Fmt.pattern, Fmt.fields, if_pos (Nat.two_pow_pos _)]
  simp

/-- A sign bit alone stands for a zero. -/
theorem floatValue_signed_zero {f : Fmt} (hf : f ∈ [Fmt.f32, .bf16, .f16]) (s : Bool) : floatValue f (b1 s * 2 ^ (f.fracBits + f.expBits)) = .fin s 0 f.low := by
  obtain ⟨-, hbias, hexp, -⟩ := fmt_facts hf
  have h := floatValue_pattern f s (x := 0) (m := 0) (Nat.two_pow_pos _) (Nat.two_pow_pos _)
  rw [if_neg (by omega), if_pos rfl] at h
  simpa [Fmt.pattern] using h

theorem floatValue_zero_iff {f : Fmt} (hf : f ∈ [Fmt.f32, .bf16, .f16]) {x m : Nat} {s : Bool} {e : ℤ} (hx : x < 2 ^ f.width) (h : floatValue f x = .fin s m e) (t : Bool) :
    x = b1 t * 2 ^ (f.fracBits + f.expBits) ↔ s = t ∧ m = 0 := by
  constructor
  · intro hp
    rw [hp, floatValue_signed_zero hf] at h
    cases h
    exact ⟨rfl, rfl⟩
  · rintro ⟨rfl, rfl⟩
    exact pattern_of_zero hf hx h

theorem inF32_zero_iff {a : Word} {s : Bool} {m : Nat} {e : ℤ} (h : inF32 a = .fin s m e) :
    (a = 0x80000000 ↔ s = true ∧ m = 0) ∧ (a = 0 ↔ s = false ∧ m = 0) := by
  refine ⟨?_, ?_⟩
  · rw [← floatValue_zero_iff f32_mem a.isLt h true, ← BitVec.toNat_inj]; rfl
  · rw [← floatValue_zero_iff f32_mem a.isLt h false, ← BitVec.toNat_inj]; rfl

theorem inBf_zero_iff {a : BitVec 16} {s : Bool} {m : Nat} {e : ℤ} (h : inBf a = .fin s m e) :
    (a = 0x8000 ↔ s = true ∧ m = 0) ∧ (a = 0 ↔ s = false ∧ m = 0) := by
  refine ⟨?_, ?_⟩
  · rw [← floatValue_zero_iff bf16_mem a.isLt h true, ← BitVec.toNat_inj]; rfl
  · rw [← floatValue_zero_iff bf16_mem a.isLt h false, ← BitVec.toNat_inj]; rfl

theorem sign_of_floatValue {f : Fmt} {x m : Nat} {s : Bool} {e : ℤ} (h : floatValue f x = .fin s m e) : x.testBit (f.fracBits + f.expBits) = s := by
  simp only [floatValue] at h
  split at h
  · split at h <;> cases h
  · split at h <;> cases h <;> rfl

theorem sign_inF32 {a : Word} {s : Bool} {m : Nat} {e : ℤ} (h : inF32 a = .fin s m e) : a.getLsbD 31 = s := sign_of_floatValue h
theorem sign_inBf {a : BitVec 16} {s : Bool} {m : Nat} {e : ℤ} (h : inBf a = .fin s m e) : a.getLsbD 15 = s := sign_of_floatValue h

/-- A zero as an f32 word, -0 where a condition holds. -/
def zeroWord (c : Prop) [Decidable c] : Word := if c then 0x80000000 else 0
def zeroHalf (c : Prop) [Decidable c] : BitVec 16 := if c then 0x8000 else 0

theorem outRes_zero_f32 {s : Bool} {c : Prop} [Decidable c] (h : s = true ↔ c) (e : ℤ) : outRes .f32 .rne (.fin s 0 e, []) = (zeroWord c, []) := by
  by_cases hc : c
  · rw [h.2 hc, zeroWord, if_pos hc]; rfl
  · rw [Bool.eq_false_iff.2 (mt h.1 hc), zeroWord, if_neg hc]; rfl

theorem outVal_zero_bf16 {s : Bool} {c : Prop} [Decidable c] (h : s = true ↔ c) (e : ℤ) : BitVec.ofNat 16 (outVal .bf16 .rne (.fin s 0 e)).1 = zeroHalf c := by
  by_cases hc : c
  · rw [h.2 hc, zeroHalf, if_pos hc]; rfl
  · rw [Bool.eq_false_iff.2 (mt h.1 hc), zeroHalf, if_neg hc]; rfl

theorem f32_zero_signs {a b d : Word} (ha : (inF32 a).Finite) (hb : (inF32 b).Finite) (hd : (inF32 d).Finite) :
    let x := ratOf (inF32 a)
    let y := ratOf (inF32 b)
    (x + y = 0 → faddOp a b = (zeroWord (a = 0x80000000 ∧ b = 0x80000000), [])) ∧ (x - y = 0 → fsubOp a b = (zeroWord (a = 0x80000000 ∧ b = 0), [])) ∧
    (x * y = 0 → fmulOp a b = (zeroWord (a.getLsbD 31 ≠ b.getLsbD 31), [])) ∧
    (ratOf (inF32 d) + x * y = 0 → ffmaOp d a b = (zeroWord (d = 0x80000000 ∧ x * y = 0 ∧ a.getLsbD 31 ≠ b.getLsbD 31), [])) ∧
    (ratOf (inF32 d) - x * y = 0 → ffmsOp d a b = (zeroWord (d = 0x80000000 ∧ x * y = 0 ∧ a.getLsbD 31 = b.getLsbD 31), [])) := by
  obtain ⟨n1, m1, e1, hx⟩ := ha.eq_fin
  obtain ⟨n2, m2, e2, hy⟩ := hb.eq_fin
  obtain ⟨n3, m3, e3, hz⟩ := hd.eq_fin
  have hprod : ratOf (inF32 a) * ratOf (inF32 b) = ratOf (.fin (n1 != n2) (m1 * m2) (e1 + e2)) := by rw [hx, hy, ratOf_mulFin]
  have hprod0 : ratOf (inF32 a) * ratOf (inF32 b) = 0 ↔ m1 * m2 = 0 := by rw [hprod, ratOf_fin_eq_zero]
  have hmul : (inF32 a).mul (inF32 b) = (.fin (n1 != n2) (m1 * m2) (e1 + e2), []) := by rw [hx, hy]; rfl
  have hnegmul : (inF32 a).neg.mul (inF32 b) = (.fin ((!n1) != n2) (m1 * m2) (e1 + e2), []) := by rw [hx, hy]; rfl
  refine ⟨fun h => ?_, fun h => ?_, fun h => ?_, fun h => ?_, fun h => ?_⟩
  · rw [hx, hy] at h
    have hadd : (inF32 a).add (inF32 b) = (Val.addFin n1 m1 e1 n2 m2 e2, []) := by rw [hx, hy]; rfl
    rw [faddOp, hadd, addFin_eq_zero h]
    refine outRes_zero_f32 ?_ 0
    rw [(inF32_zero_iff hx).1, (inF32_zero_iff hy).1]
    simp only [Bool.and_eq_true, decide_eq_true_eq]
    tauto
  · rw [sub_eq_add_neg, ← ratOf_neg, hx, hy] at h
    have hadd : (inF32 a).add (inF32 b).neg = (Val.addFin n1 m1 e1 (!n2) m2 e2, []) := by rw [hx, hy]; rfl
    rw [fsubOp, hadd, addFin_eq_zero h]
    refine outRes_zero_f32 ?_ 0
    rw [(inF32_zero_iff hx).1, (inF32_zero_iff hy).2]
    simp only [Bool.and_eq_true, decide_eq_true_eq, Bool.not_eq_true']
    tauto
  · rw [fmulOp, hmul, hprod0.1 h]
    refine outRes_zero_f32 ?_ _
    rw [sign_inF32 hx, sign_inF32 hy, bne_iff_ne]
  · rw [hprod, hz] at h
    have hfma : Val.fma (inF32 d) (inF32 a) (inF32 b) = (Val.addFin n3 m3 e3 (n1 != n2) (m1 * m2) (e1 + e2), []) := by rw [fma_of_finite hd ha hb, hmul, hz]; rfl
    rw [ffmaOp, hfma, addFin_eq_zero h]
    refine outRes_zero_f32 ?_ 0
    rw [(inF32_zero_iff hz).1, hprod0, sign_inF32 hx, sign_inF32 hy]
    simp only [Bool.and_eq_true, decide_eq_true_eq, bne_iff_ne]
    tauto
  · have hneg : ratOf (inF32 d) + ratOf (.fin ((!n1) != n2) (m1 * m2) (e1 + e2)) = 0 := by
      have : ratOf (.fin ((!n1) != n2) (m1 * m2) (e1 + e2)) = -(ratOf (inF32 a) * ratOf (inF32 b)) := by
        rw [ratOf_mulFin, ← neg_mul, ← ratOf_neg, hx, hy]; rfl
      rw [this, ← sub_eq_add_neg, h]
    rw [hz] at hneg
    have hfma : Val.fma (inF32 d) (inF32 a).neg (inF32 b) = (Val.addFin n3 m3 e3 ((!n1) != n2) (m1 * m2) (e1 + e2), []) := by
      rw [fma_of_finite hd ha.neg hb, hnegmul, hz]; rfl
    rw [ffmsOp, hfma, addFin_eq_zero hneg]
    refine outRes_zero_f32 ?_ 0
    rw [(inF32_zero_iff hz).1, hprod0, sign_inF32 hx, sign_inF32 hy]
    simp only [Bool.and_eq_true, decide_eq_true_eq, bne_iff_ne, Bool.not_eq_eq_eq_not, ne_eq, Bool.not_eq_not]
    tauto

/-- What each half of a pair word gives. -/
theorem half_halves {q : (Word → BitVec 16)} (hq : q = lowHalf ∨ q = highHalf) (g : BitVec 16 → BitVec 16 → BitVec 16 → Val × List Nat) (d a b : Word) :
    q (halves g d a b).1 = BitVec.ofNat 16 (outVal .bf16 .rne (g (q d) (q a) (q b)).1).1 := by
  rcases hq with rfl | rfl
  · exact lowHalf_halves g d a b
  · exact highHalf_halves g d a b

theorem pair_zero_signs {q : Word → BitVec 16} (hq : q = lowHalf ∨ q = highHalf) {a b : Word} (ha : (inBf (q a)).Finite) (hb : (inBf (q b)).Finite) :
    let x := ratOf (inBf (q a))
    let y := ratOf (inBf (q b))
    (x + y = 0 → q (hadd2Op a b).1 = zeroHalf (q a = 0x8000 ∧ q b = 0x8000)) ∧ (x - y = 0 → q (hsub2Op a b).1 = zeroHalf (q a = 0x8000 ∧ q b = 0)) ∧
    (x * y = 0 → q (hmul2Op a b).1 = zeroHalf ((q a).getLsbD 15 ≠ (q b).getLsbD 15)) := by
  obtain ⟨n1, m1, e1, hx⟩ := ha.eq_fin
  obtain ⟨n2, m2, e2, hy⟩ := hb.eq_fin
  refine ⟨fun h => ?_, fun h => ?_, fun h => ?_⟩
  · rw [hx, hy] at h
    have hadd : (inBf (q a)).add (inBf (q b)) = (Val.addFin n1 m1 e1 n2 m2 e2, []) := by rw [hx, hy]; rfl
    rw [hadd2Op, half_halves hq, hadd, addFin_eq_zero h]
    refine outVal_zero_bf16 ?_ 0
    rw [(inBf_zero_iff hx).1, (inBf_zero_iff hy).1]
    simp only [Bool.and_eq_true, decide_eq_true_eq]
    tauto
  · rw [sub_eq_add_neg, ← ratOf_neg, hx, hy] at h
    have hadd : (inBf (q a)).add (inBf (q b)).neg = (Val.addFin n1 m1 e1 (!n2) m2 e2, []) := by rw [hx, hy]; rfl
    rw [hsub2Op, half_halves hq, hadd, addFin_eq_zero h]
    refine outVal_zero_bf16 ?_ 0
    rw [(inBf_zero_iff hx).1, (inBf_zero_iff hy).2]
    simp only [Bool.and_eq_true, decide_eq_true_eq, Bool.not_eq_true']
    tauto
  · have hmul : (inBf (q a)).mul (inBf (q b)) = (.fin (n1 != n2) (m1 * m2) (e1 + e2), []) := by rw [hx, hy]; rfl
    have h0 : m1 * m2 = 0 := by rwa [hx, hy, ← ratOf_mulFin, ratOf_fin_eq_zero] at h
    rw [hmul2Op, half_halves hq, hmul, h0]
    refine outVal_zero_bf16 ?_ _
    rw [sign_inBf hx, sign_inBf hy, bne_iff_ne]

end Sys2Proof.Machine
end

section
/-! PROOF. O24, continued: NaN and infinities, and the pass sum. -/

namespace Sys2Proof.Machine

/-! ### NaN and infinities (R167, R183, R188) -/

theorem isNan_eq_false {v : Val} : v.isNan = false ↔ v ≠ .nan := by cases v <;> simp

theorem isNan_eq_true {v : Val} : v.isNan = true ↔ v = .nan := by cases v <;> simp

theorem add_nan {x y : Val} (h : x = .nan ∨ y = .nan) : x.add y = (.nan, []) := by
  rcases h with rfl | rfl
  · rfl
  · cases x <;> rfl

theorem mul_nan {x y : Val} (h : x = .nan ∨ y = .nan) : x.mul y = (.nan, []) := by
  rcases h with rfl | rfl
  · rfl
  · cases x <;> rfl

theorem fma_nan {z x y : Val} (h : x = .nan ∨ y = .nan ∨ z = .nan) : Val.fma z x y = (.nan, []) := by
  rcases h with rfl | rfl | rfl <;> simp [Val.fma]

@[simp] theorem Val.neg_eq_nan {v : Val} : v.neg = .nan ↔ v = .nan := by cases v <;> simp [Val.neg]

@[simp] theorem Val.isInf_neg (v : Val) : v.neg.isInf = v.isInf := by cases v <;> rfl

theorem outRes_nan_f32 : outRes .f32 .rne (.nan, []) = (0x7FC00000, []) := rfl

/-- A NaN operand gives the canonical NaN without an event. -/
theorem f32_words_nan {a b d : Word} (h : inF32 a = .nan ∨ inF32 b = .nan) :
    faddOp a b = (0x7FC00000, []) ∧ fsubOp a b = (0x7FC00000, []) ∧ fmulOp a b = (0x7FC00000, []) ∧ ffmaOp d a b = (0x7FC00000, []) ∧
    ffmsOp d a b = (0x7FC00000, []) := by
  have hneg : (inF32 a).neg = .nan ∨ inF32 b = .nan := by rwa [Val.neg_eq_nan]
  have hneg' : inF32 a = .nan ∨ (inF32 b).neg = .nan := by rwa [Val.neg_eq_nan]
  refine ⟨by rw [faddOp, add_nan h, outRes_nan_f32], by rw [fsubOp, add_nan hneg', outRes_nan_f32], by rw [fmulOp, mul_nan h, outRes_nan_f32], ?_, ?_⟩
  · rw [ffmaOp, fma_nan (by tauto), outRes_nan_f32]
  · rw [ffmsOp, fma_nan (by tauto), outRes_nan_f32]

theorem fma_words_nan {a b d : Word} (h : inF32 d = .nan) : ffmaOp d a b = (0x7FC00000, []) ∧ ffmsOp d a b = (0x7FC00000, []) :=
  ⟨by rw [ffmaOp, fma_nan (.inr (.inr h)), outRes_nan_f32], by rw [ffmsOp, fma_nan (.inr (.inr h)), outRes_nan_f32]⟩

/-- A value that is not finite is written with the events that formed it. -/
theorem outRes_special (f : Fmt) {v : Val} (h : v = .nan ∨ v.isInf = true) (evs : List Nat) : outRes f .rne (v, evs) = (wd (floatPattern f v), evs) := by
  cases v with
  | fin s m e => simp at h
  | nan => rw [outRes, outVal_nan, List.append_nil]
  | inf s => rw [outRes, outVal_inf, List.append_nil]

theorem specialSum_special (ts : List (Option Val)) : (specialSum ts).1 = .nan ∨ (specialSum ts).1.isInf = true := by
  unfold specialSum
  split
  · exact .inl rfl
  · split <;> exact .inr rfl

theorem outRes_specialSum (f : Fmt) (ts : List (Option Val)) : outRes f .rne (specialSum ts) = (wd (floatPattern f (specialSum ts).1), (specialSum ts).2) :=
  outRes_special f (specialSum_special ts) _

theorem outVal_specialSum (f : Fmt) (ts : List (Option Val)) : outVal f .rne (specialSum ts).1 = (floatPattern f (specialSum ts).1, []) := by
  rcases specialSum_special ts with h | h
  · rw [h, outVal_nan]
  · cases hv : (specialSum ts).1 with
    | inf s => rw [outVal_inf]
    | nan => rw [hv] at h; cases h
    | fin s m e => rw [hv] at h; cases h

theorem wordOf_specialSum (ts : List (Option Val)) : wordOf (specialSum ts) = outRes .f32 .rne (specialSum ts) := (outRes_specialSum .f32 ts).symm

theorem add_special {x y : Val} (hx : x ≠ .nan) (hy : y ≠ .nan) (h : x.isInf = true ∨ y.isInf = true) : x.add y = specialSum [some x, some y] := by
  cases x with
  | nan => exact absurd rfl hx
  | inf s =>
    cases y with
    | nan => exact absurd rfl hy
    | inf t => cases s <;> cases t <;> rfl
    | fin t m e => cases s <;> rfl
  | fin s m e =>
    cases y with
    | nan => exact absurd rfl hy
    | inf t => cases t <;> rfl
    | fin t m' e' => simp at h

/-- What a product is that is no number: NaN with its event where it is invalid, else an infinity. -/
theorem mul_of_specialProduct {x y : Val} (hx : x ≠ .nan) (hy : y ≠ .nan) :
    (specialProduct x y = none → x.mul y = (.nan, [1])) ∧ (∀ s, specialProduct x y = some (.inf s) → x.mul y = (.inf s, [])) ∧
    ((∃ s m e, specialProduct x y = some (.fin s m e)) → x.Finite ∧ y.Finite) ∧ specialProduct x y ≠ some .nan := by
  cases x with
  | nan => exact absurd rfl hx
  | inf s =>
    cases y with
    | nan => exact absurd rfl hy
    | inf t => simp [specialProduct, Val.isZero, Val.mul, Val.sign]
    | fin t m e => by_cases hm : m = 0 <;> simp [specialProduct, isZero_fin, Val.mul, Val.sign, hm]
  | fin s m e =>
    cases y with
    | nan => exact absurd rfl hy
    | inf t => by_cases hm : m = 0 <;> simp [specialProduct, isZero_fin, Val.mul, Val.sign, hm]
    | fin t m' e' => simp [specialProduct, Val.Finite]

theorem specialProduct_cases (x y : Val) : specialProduct x y = none ∨ (∃ s, specialProduct x y = some (.inf s)) ∨ specialProduct x y = some (.fin false 0 0) := by
  unfold specialProduct
  split
  · exact .inl rfl
  · split
    · exact .inr (.inl ⟨_, rfl⟩)
    · exact .inr (.inr rfl)

theorem specialProduct_of_isInf {x y : Val} (h : x.isInf = true ∨ y.isInf = true) : specialProduct x y = none ∨ ∃ s, specialProduct x y = some (.inf s) := by
  unfold specialProduct
  split
  · exact .inl rfl
  · exact .inr ⟨_, rfl⟩

theorem mul_special {x y : Val} (hx : x ≠ .nan) (hy : y ≠ .nan) (h : x.isInf = true ∨ y.isInf = true) : x.mul y = specialSum [specialProduct x y] := by
  obtain ⟨hnone, hinf, -⟩ := mul_of_specialProduct hx hy
  rcases specialProduct_of_isInf h with hp | ⟨s, hp⟩ <;> rw [hp]
  · exact hnone hp
  · rw [hinf s hp]
    cases s <;> rfl

theorem finite_of_not_special {x : Val} (hx : x ≠ .nan) (h : x.isInf ≠ true) : x.Finite := ⟨isNan_eq_false.2 hx, Bool.eq_false_iff.2 h⟩

/-- Of its terms a sum that is no number sees only the invalid ones and the infinities. -/
theorem specialSum_congr {ts us : List (Option Val)} (hn : none ∈ ts ↔ none ∈ us) (hi : ∀ s, some (.inf s) ∈ ts ↔ some (.inf s) ∈ us) : specialSum ts = specialSum us := by
  simp only [specialSum, hn, hi]

theorem specialSum_of_none {ts : List (Option Val)} (h : none ∈ ts) : specialSum ts = (.nan, [1]) := if_pos (.inl h)

theorem specialSum_of_both {ts : List (Option Val)} (h : some (.inf true) ∈ ts ∧ some (.inf false) ∈ ts) : specialSum ts = (.nan, [1]) := if_pos (.inr h)

theorem specialSum_of_one {ts : List (Option Val)} {s : Bool} (hn : none ∉ ts) (hs : some (.inf s) ∈ ts) (ho : some (.inf (!s)) ∉ ts) : specialSum ts = (.inf s, []) := by
  cases s
  · rw [specialSum, if_neg (by rintro (h | h); exacts [hn h, ho h.1])]
    exact if_neg ho
  · rw [specialSum, if_neg (by rintro (h | h); exacts [hn h, ho h.2]), if_pos hs]

/-- A product that is valid: no NaN, an infinity where `specialProduct` says so, and no event. -/
theorem mul_valid {x y : Val} (hx : x ≠ .nan) (hy : y ≠ .nan) (h : specialProduct x y ≠ none) :
    ∃ p, x.mul y = (p, []) ∧ p ≠ .nan ∧ ∀ s, specialProduct x y = some (.inf s) ↔ p = .inf s := by
  obtain ⟨-, hinf, hfin, -⟩ := mul_of_specialProduct hx hy
  rcases specialProduct_cases x y with hp | ⟨s, hp⟩ | hp
  · exact absurd hp h
  · exact ⟨.inf s, hinf s hp, nofun, fun t => by rw [hp]; simp⟩
  · obtain ⟨hxf, hyf⟩ := hfin ⟨_, _, _, hp⟩
    obtain ⟨s, m, e, hmul, -⟩ := mul_finite hxf hyf
    exact ⟨.fin s m e, hmul, nofun, fun t => by rw [hp]; simp⟩

theorem fma_special {z x y : Val} (hx : x ≠ .nan) (hy : y ≠ .nan) (hz : z ≠ .nan) (h : x.isInf = true ∨ y.isInf = true ∨ z.isInf = true) :
    Val.fma z x y = specialSum [some z, specialProduct x y] := by
  have hfma : Val.fma z x y = if (x.mul y).1.isNan = true then x.mul y else z.add (x.mul y).1 := by
    simp only [Val.fma, isNan_eq_false.2 hx, isNan_eq_false.2 hy, isNan_eq_false.2 hz, Bool.or_false, Bool.false_eq_true, if_false]
  obtain ⟨hnone, -⟩ := mul_of_specialProduct hx hy
  rw [hfma]
  by_cases hp : specialProduct x y = none
  · rw [hp, hnone hp, specialSum_of_none (by simp)]
    rfl
  · obtain ⟨p, hmul, hpn, hpi⟩ := mul_valid hx hy hp
    have hone : z.isInf = true ∨ p.isInf = true := by
      rcases h with h | h | h
      · obtain ⟨s, hs⟩ := (specialProduct_of_isInf (.inl h)).resolve_left hp
        exact .inr (by rw [(hpi s).1 hs, Val.isInf_inf])
      · obtain ⟨s, hs⟩ := (specialProduct_of_isInf (.inr h)).resolve_left hp
        exact .inr (by rw [(hpi s).1 hs, Val.isInf_inf])
      · exact .inl h
    rw [hmul, if_neg (by rwa [isNan_eq_true]), add_special hz hpn hone]
    exact specialSum_congr (by simp [Ne.symm hp]) (fun s => by simp only [List.mem_cons, List.not_mem_nil, or_false, Option.some.injEq, @eq_comm _ (some (Val.inf s)), hpi])

theorem f32_sums_special {a b : Word} (hx : inF32 a ≠ .nan) (hy : inF32 b ≠ .nan) (h : (inF32 a).isInf = true ∨ (inF32 b).isInf = true) :
    faddOp a b = wordOf (specialSum [some (inF32 a), some (inF32 b)]) ∧ fsubOp a b = wordOf (specialSum [some (inF32 a), some (inF32 b).neg]) ∧
    fmulOp a b = wordOf (specialSum [specialProduct (inF32 a) (inF32 b)]) := by
  simp only [wordOf_specialSum]
  refine ⟨by rw [faddOp, add_special hx hy h], ?_, by rw [fmulOp, mul_special hx hy h]⟩
  rw [fsubOp, add_special hx (mt Val.neg_eq_nan.1 hy) (by rwa [Val.isInf_neg])]

theorem fma_words_special {a b d : Word} (hx : inF32 a ≠ .nan) (hy : inF32 b ≠ .nan) (hz : inF32 d ≠ .nan)
    (h : (inF32 a).isInf = true ∨ (inF32 b).isInf = true ∨ (inF32 d).isInf = true) :
    ffmaOp d a b = wordOf (specialSum [some (inF32 d), specialProduct (inF32 a) (inF32 b)]) ∧
    ffmsOp d a b = wordOf (specialSum [some (inF32 d), specialProduct (inF32 a).neg (inF32 b)]) := by
  simp only [wordOf_specialSum]
  refine ⟨by rw [ffmaOp, fma_special hx hy hz h], ?_⟩
  rw [ffmsOp, fma_special (mt Val.neg_eq_nan.1 hx) hy hz (by rwa [Val.isInf_neg])]

/-! ### HDOT2 (R188) -/

/-- The four bf16 operands and the f32 operand of HDOT2. -/
def hdot2Operands (d a b : Word) : List Val := [inBf (lowHalf a), inBf (lowHalf b), inBf (highHalf a), inBf (highHalf b), inF32 d]

theorem hdot2_nan {d a b : Word} (h : .nan ∈ hdot2Operands d a b) : hdot2Op d a b = (0x7FC00000, []) := by
  have hany : ((inF32 d).isNan || [inBf (lowHalf a), inBf (lowHalf b), inBf (highHalf a), inBf (highHalf b)].any Val.isNan) = true := by
    simp only [hdot2Operands, List.mem_cons, List.not_mem_nil, or_false] at h
    simp only [List.any_cons, List.any_nil, Bool.or_false, Bool.or_eq_true, isNan_eq_true]
    tauto
  simp only [hdot2Op, hany, if_true]
  exact outRes_nan_f32

/-- A value that is finite or the infinity of a sign. -/
def Val.Toward (s : Bool) (v : Val) : Prop := v = .inf s ∨ v.Finite

/-- Terms that are finite or infinite of one sign add up to that infinity, if one of them is infinite. -/
theorem add_toward {s : Bool} {x y : Val} (hx : x.Toward s) (hy : y.Toward s) :
    (x.add y).1.Toward s ∧ (x = .inf s ∨ y = .inf s → (x.add y).1 = .inf s) := by
  rcases hx with rfl | hx <;> rcases hy with rfl | hy
  · have h : (Val.inf s).add (.inf s) = (.inf s, []) := if_pos rfl
    exact ⟨.inl (by rw [h]), fun _ => by rw [h]⟩
  · obtain ⟨t, m, e, rfl⟩ := hy.eq_fin
    exact ⟨.inl rfl, fun _ => rfl⟩
  · obtain ⟨t, m, e, rfl⟩ := hx.eq_fin
    exact ⟨.inl rfl, fun _ => rfl⟩
  · obtain ⟨t, m, e, hadd, -⟩ := add_finite hx hy
    rw [hadd]
    refine ⟨.inr (finite_fin t m e), ?_⟩
    rintro (rfl | rfl)
    · exact absurd hx.2 (by simp)
    · exact absurd hy.2 (by simp)

theorem toward_of_not_opposite {s : Bool} {v : Val} (hv : v ≠ .nan) (h : v ≠ .inf (!s)) : v.Toward s := by
  cases v with
  | nan => exact absurd rfl hv
  | fin t m e => exact .inr (finite_fin t m e)
  | inf t => cases s <;> cases t <;> simp_all [Val.Toward]

/-- A sum of three terms of which one is infinite. -/
theorem sumThree_special {x y z : Val} (hx : x ≠ .nan) (hy : y ≠ .nan) (hz : z ≠ .nan) (h : x.isInf = true ∨ y.isInf = true ∨ z.isInf = true) :
    sumThree x y z = specialSum [some x, some y, some z] := by
  have hmem (s : Bool) : some (.inf s) ∈ [some x, some y, some z] ↔ .inf s ∈ [x, y, z] := by simp
  have hnone : none ∉ [some x, some y, some z] := by simp
  have hcontains (s : Bool) : [x, y, z].contains (.inf s) = true ↔ .inf s ∈ [x, y, z] := List.contains_iff_mem
  by_cases hboth : Val.inf true ∈ [x, y, z] ∧ Val.inf false ∈ [x, y, z]
  · rw [sumThree, if_pos (by rw [Bool.and_eq_true, hcontains, hcontains]; exact hboth), specialSum_of_both (by rwa [hmem, hmem])]
  · obtain ⟨s, hs⟩ : ∃ s, Val.inf s ∈ [x, y, z] := by
      obtain ⟨v, hv, hinf⟩ : ∃ v ∈ [x, y, z], v.isInf = true := by simpa using h
      cases v with
      | inf s => exact ⟨s, hv⟩
      | nan => cases hinf
      | fin s m e => cases hinf
    have hopp : Val.inf (!s) ∉ [x, y, z] := by
      intro hn
      cases s
      · exact hboth ⟨hn, hs⟩
      · exact hboth ⟨hs, hn⟩
    have htoward : ∀ v ∈ [x, y, z], v ≠ .nan → v.Toward s := fun v hv hn => toward_of_not_opposite hn (fun he => hopp (he ▸ hv))
    obtain ⟨hxy, hxy'⟩ := add_toward (htoward x (by simp) hx) (htoward y (by simp) hy)
    have hsum := (add_toward hxy (htoward z (by simp) hz)).2 (by simp only [List.mem_cons, List.not_mem_nil, or_false] at hs; tauto)
    rw [sumThree, if_neg (by rw [Bool.and_eq_true, hcontains, hcontains]; exact hboth), hsum, specialSum_of_one hnone ((hmem s).2 hs) (mt (hmem _).1 hopp)]

theorem hdot2_special {d a b : Word} (hnan : .nan ∉ hdot2Operands d a b) (hinf : ∃ v ∈ hdot2Operands d a b, v.isInf = true) :
    hdot2Op d a b = wordOf (specialSum [some (inF32 d), specialProduct (inBf (lowHalf a)) (inBf (lowHalf b)), specialProduct (inBf (highHalf a)) (inBf (highHalf b))]) := by
  have hne : ∀ v ∈ hdot2Operands d a b, v ≠ .nan := fun v hv h => hnan (h ▸ hv)
  simp only [hdot2Operands, List.forall_mem_cons, List.not_mem_nil, false_imp_iff, implies_true, and_true] at hne
  obtain ⟨hal, hbl, hah, hbh, hd⟩ := hne
  have hany : ((inF32 d).isNan || [inBf (lowHalf a), inBf (lowHalf b), inBf (highHalf a), inBf (highHalf b)].any Val.isNan) = false := by
    simp [isNan_eq_false.2 hal, isNan_eq_false.2 hbl, isNan_eq_false.2 hah, isNan_eq_false.2 hbh, isNan_eq_false.2 hd]
  rw [wordOf_specialSum]
  simp only [hdot2Op, hany, Bool.false_eq_true, if_false]
  by_cases hp : specialProduct (inBf (lowHalf a)) (inBf (lowHalf b)) = none
  · rw [(mul_of_specialProduct hal hbl).1 hp, if_pos (by simp), specialSum_of_none (by simp [hp])]
  by_cases hq : specialProduct (inBf (highHalf a)) (inBf (highHalf b)) = none
  · rw [(mul_of_specialProduct hah hbh).1 hq, if_pos (by simp), specialSum_of_none (by simp [hq])]
  obtain ⟨p, hpm, hpn, hpi⟩ := mul_valid hal hbl hp
  obtain ⟨q, hqm, hqn, hqi⟩ := mul_valid hah hbh hq
  have hone : (inF32 d).isInf = true ∨ p.isInf = true ∨ q.isInf = true := by
    have hpinf (h : (inBf (lowHalf a)).isInf = true ∨ (inBf (lowHalf b)).isInf = true) : p.isInf = true := by
      obtain ⟨s, hs⟩ := (specialProduct_of_isInf h).resolve_left hp
      rw [(hpi s).1 hs, Val.isInf_inf]
    have hqinf (h : (inBf (highHalf a)).isInf = true ∨ (inBf (highHalf b)).isInf = true) : q.isInf = true := by
      obtain ⟨s, hs⟩ := (specialProduct_of_isInf h).resolve_left hq
      rw [(hqi s).1 hs, Val.isInf_inf]
    simp only [hdot2Operands, List.mem_cons, List.not_mem_nil, or_false, exists_eq_or_imp, exists_eq_left] at hinf
    tauto
  rw [hpm, hqm, if_neg (by simp [isNan_eq_false.2 hpn, isNan_eq_false.2 hqn]), sumThree_special hd hpn hqn hone]
  congr 1
  exact specialSum_congr (by simp [Ne.symm hp, Ne.symm hq])
    (fun s => by simp only [List.mem_cons, List.not_mem_nil, or_false, Option.some.injEq, @eq_comm _ (some (Val.inf s)), hpi, hqi])

/-! ### Halves that are no numbers (R188) -/

/-- One half of a word and the other one. -/
def IsHalves (q : (Word → BitVec 16) × (Word → BitVec 16)) : Prop := q ∈ [(lowHalf, highHalf), (highHalf, lowHalf)]

theorem IsHalves.fst {q : (Word → BitVec 16) × (Word → BitVec 16)} (hq : IsHalves q) : q.1 = lowHalf ∨ q.1 = highHalf := by
  simp only [IsHalves, List.mem_cons, List.not_mem_nil, or_false] at hq
  rcases hq with rfl | rfl <;> simp

/-- With no event in the other half, the word's events are those of one half. -/
theorem events_halves {q : (Word → BitVec 16) × (Word → BitVec 16)} (hq : IsHalves q) (g : BitVec 16 → BitVec 16 → BitVec 16 → Val × List Nat) {d a b : Word}
    (h : (outRes .bf16 .rne (g (q.2 d) (q.2 a) (q.2 b))).2 = []) :
    (halves g d a b).2 = (outRes .bf16 .rne (g (q.1 d) (q.1 a) (q.1 b))).2 := by
  simp only [IsHalves, List.mem_cons, List.not_mem_nil, or_false] at hq
  rcases hq with rfl | rfl
  · simp only at h
    simp only [halves, h, List.append_nil]
  · simp only at h
    simp only [halves, h, List.nil_append]

theorem half_special {p : Word → BitVec 16} (hp : p = lowHalf ∨ p = highHalf) {g : BitVec 16 → BitVec 16 → BitVec 16 → Val × List Nat} {d a b : Word} {ts : List (Option Val)}
    (h : g (p d) (p a) (p b) = specialSum ts) : p (halves g d a b).1 = BitVec.ofNat 16 (floatPattern .bf16 (specialSum ts).1) := by
  rw [half_halves hp, h, outVal_specialSum]

theorem half_nan {p : Word → BitVec 16} (hp : p = lowHalf ∨ p = highHalf) {g : BitVec 16 → BitVec 16 → BitVec 16 → Val × List Nat} {d a b : Word}
    (h : g (p d) (p a) (p b) = (.nan, [])) : p (halves g d a b).1 = 0x7FC0 := by
  rw [half_halves hp, h]
  rfl

theorem events_special {q : (Word → BitVec 16) × (Word → BitVec 16)} (hq : IsHalves q) {g : BitVec 16 → BitVec 16 → BitVec 16 → Val × List Nat} {d a b : Word}
    {ts : List (Option Val)} (h : g (q.1 d) (q.1 a) (q.1 b) = specialSum ts) (h0 : (outRes .bf16 .rne (g (q.2 d) (q.2 a) (q.2 b))).2 = []) :
    (halves g d a b).2 = (specialSum ts).2 := by
  rw [events_halves hq g h0, h, outRes_specialSum]

theorem pair_words_nan {p : Word → BitVec 16} (hp : p = lowHalf ∨ p = highHalf) {a b d : Word} :
    let x := inBf (p a)
    let y := inBf (p b)
    let z := inBf (p d)
    (x = .nan ∨ y = .nan → p (hadd2Op a b).1 = 0x7FC0 ∧ p (hsub2Op a b).1 = 0x7FC0 ∧ p (hmul2Op a b).1 = 0x7FC0) ∧
    (x = .nan ∨ y = .nan ∨ z = .nan → p (hfma2Op d a b).1 = 0x7FC0) := by
  refine ⟨fun h => ⟨half_nan hp (add_nan h), half_nan hp (add_nan ?_), half_nan hp (mul_nan h)⟩, fun h => half_nan hp (fma_nan h)⟩
  rwa [Val.neg_eq_nan]

theorem pair_words_special {q : (Word → BitVec 16) × (Word → BitVec 16)} (hq : IsHalves q) {a b d : Word} :
    let x := inBf (q.1 a)
    let y := inBf (q.1 b)
    let z := inBf (q.1 d)
    let pat (v : Val × List Nat) : BitVec 16 := BitVec.ofNat 16 (floatPattern .bf16 v.1)
    (x ≠ .nan → y ≠ .nan → (x.isInf = true ∨ y.isInf = true) → q.1 (hadd2Op a b).1 = pat (specialSum [some x, some y]) ∧
      q.1 (hsub2Op a b).1 = pat (specialSum [some x, some y.neg]) ∧ q.1 (hmul2Op a b).1 = pat (specialSum [specialProduct x y])) ∧
    (x ≠ .nan → y ≠ .nan → z ≠ .nan → (x.isInf = true ∨ y.isInf = true ∨ z.isInf = true) → q.1 (hfma2Op d a b).1 = pat (specialSum [some z, specialProduct x y])) ∧
    (x ≠ .nan → y ≠ .nan → z ≠ .nan → q.2 a = 0 → q.2 b = 0 → q.2 d = 0 →
      ((x.isInf = true ∨ y.isInf = true) → (hadd2Op a b).2 = (specialSum [some x, some y]).2 ∧ (hsub2Op a b).2 = (specialSum [some x, some y.neg]).2 ∧
        (hmul2Op a b).2 = (specialSum [specialProduct x y]).2) ∧
      ((x.isInf = true ∨ y.isInf = true ∨ z.isInf = true) → (hfma2Op d a b).2 = (specialSum [some z, specialProduct x y]).2)) := by
  intro x y z pat
  have hsub (hx : x ≠ .nan) (hy : y ≠ .nan) (h : x.isInf = true ∨ y.isInf = true) : x.add y.neg = specialSum [some x, some y.neg] :=
    add_special hx (mt Val.neg_eq_nan.1 hy) (by rwa [Val.isInf_neg])
  refine ⟨fun hx hy h => ⟨half_special hq.fst (add_special hx hy h), half_special hq.fst (hsub hx hy h), half_special hq.fst (mul_special hx hy h)⟩,
    fun hx hy hz h => half_special hq.fst (fma_special hx hy hz h), fun hx hy hz ha hb hd => ⟨fun h => ⟨?_, ?_, ?_⟩, fun h => ?_⟩⟩
  · exact events_special hq (add_special hx hy h) (by simp only [ha, hb]; decide)
  · exact events_special hq (hsub hx hy h) (by simp only [ha, hb]; decide)
  · exact events_special hq (mul_special hx hy h) (by simp only [ha, hb]; decide)
  · exact events_special hq (fma_special hx hy hz h) (by simp only [ha, hb, hd]; decide)

/-! ### The pass sum (R168) -/

theorem passSum_eq (f : Fmt) (ps : List (Val × Val)) : passSum f ps = ((outVal f .rne (prodSum ps).1).1, (prodSum ps).2 ++ (outVal f .rne (prodSum ps).1).2) := rfl

/-- No operand of a row is NaN. -/
def NoNan (ps : List (Val × Val)) : Prop := ∀ p ∈ ps, p.1 ≠ .nan ∧ p.2 ≠ .nan

theorem passSum_nan {ps : List (Val × Val)} (h : ∃ p ∈ ps, p.1 = .nan ∨ p.2 = .nan) : passSum .f32 ps = (0x7FC00000, []) := by
  have hany : ps.any (fun p => p.1.isNan || p.2.isNan) = true := by simpa [isNan_eq_true] using h
  have hs : prodSum ps = (.nan, []) := by simp only [prodSum, hany, if_true]
  rw [passSum_eq, hs]
  rfl

/-- The exact products of a row. -/
def rowProducts (ps : List (Val × Val)) : List Val := ps.map (fun p => (p.1.mul p.2).1)

/-- The place of the leading bit of a number that is not zero. -/
def Val.leading : Val → Option ℤ
  | .fin _ 0 _ => none
  | .fin _ m e => some (e + bitLen m - 1)
  | _ => none

/-- The unit at which the products of a row are cut off: 2^60 units reach the leading bit of the largest. -/
def cutUnit (qs : List Val) : ℤ := (qs.filterMap Val.leading).foldl max ((qs.filterMap Val.leading).headD 0) - 60

/-- A sum and one product more, in whole units. -/
def addUnits (ul acc : ℤ) (q : Val) : ℤ :=
  match q with
  | .fin n m e =>
    let t : Nat := if ul ≤ e then m * powInt (e - ul) else m / powInt (ul - e)
    if n then acc - t else acc + t
  | _ => acc

/-- The sum of a row of products in whole units. -/
def unitSum (qs : List Val) : ℤ := qs.foldl (addUnits (cutUnit qs)) 0

theorem prodSum_eq {ps : List (Val × Val)} (hn : NoNan ps) : prodSum ps = if (rowProducts ps).any Val.isNan = true then (.nan, [1])
      else if ((rowProducts ps).contains (.inf true) && (rowProducts ps).contains (.inf false)) = true then (.nan, [1])
      else if (rowProducts ps).contains (.inf true) = true then (.inf true, [])
      else if (rowProducts ps).contains (.inf false) = true then (.inf false, [])
      else if (rowProducts ps).all Val.isZero = true then (.fin false 0 0, [])
      else (.fin (decide (unitSum (rowProducts ps) < 0)) (unitSum (rowProducts ps)).natAbs (cutUnit (rowProducts ps)), []) := by
  have hany : ¬ ps.any (fun p => p.1.isNan || p.2.isNan) = true := by
    rw [Bool.not_eq_true, List.any_eq_false]
    intro p hp
    simp [isNan_eq_false.2 (hn p hp).1, isNan_eq_false.2 (hn p hp).2]
  exact if_neg hany

/-- The sum of a row's products of which one is an infinity or invalid. -/
theorem prodSum_special {ps : List (Val × Val)} (hn : NoNan ps) (h : ∃ p ∈ ps, p.1.isInf = true ∨ p.2.isInf = true) :
    prodSum ps = specialSum (ps.map (fun p => specialProduct p.1 p.2)) := by
  have hnone : (rowProducts ps).any Val.isNan = true ↔ none ∈ ps.map (fun p => specialProduct p.1 p.2) := by
    simp only [rowProducts, List.any_map, List.any_eq_true, List.mem_map, Function.comp]
    refine exists_congr (fun p => and_congr_right (fun hp => ?_))
    obtain ⟨hx, hy⟩ := hn p hp
    by_cases hs : specialProduct p.1 p.2 = none
    · simp [hs, (mul_of_specialProduct hx hy).1 hs]
    · obtain ⟨v, hv, hvn, -⟩ := mul_valid hx hy hs
      simp [hs, hv, isNan_eq_false.2 hvn]
  have hinf (s : Bool) : (rowProducts ps).contains (.inf s) = true ↔ some (.inf s) ∈ ps.map (fun p => specialProduct p.1 p.2) := by
    rw [List.contains_iff_mem]
    simp only [rowProducts, List.mem_map]
    refine exists_congr (fun p => and_congr_right (fun hp => ?_))
    obtain ⟨hx, hy⟩ := hn p hp
    by_cases hs : specialProduct p.1 p.2 = none
    · simp [hs, (mul_of_specialProduct hx hy).1 hs]
    · obtain ⟨v, hv, -, hi⟩ := mul_valid hx hy hs
      rw [hv, hi]
  rw [prodSum_eq hn]
  by_cases h1 : (rowProducts ps).any Val.isNan = true
  · rw [if_pos h1, specialSum_of_none (hnone.1 h1)]
  rw [if_neg h1]
  by_cases h2 : (rowProducts ps).contains (.inf true) = true ∧ (rowProducts ps).contains (.inf false) = true
  · rw [if_pos (by rw [h2.1, h2.2]; rfl), specialSum_of_both ⟨(hinf true).1 h2.1, (hinf false).1 h2.2⟩]
  rw [if_neg (by rwa [Bool.and_eq_true])]
  by_cases h3 : (rowProducts ps).contains (.inf true) = true
  · rw [if_pos h3, specialSum_of_one (s := true) (mt hnone.2 h1) ((hinf true).1 h3) (fun h4 => h2 ⟨h3, (hinf false).2 h4⟩)]
  rw [if_neg h3]
  by_cases h4 : (rowProducts ps).contains (.inf false) = true
  · rw [if_pos h4, specialSum_of_one (s := false) (mt hnone.2 h1) ((hinf false).1 h4) (fun h5 => h3 ((hinf true).2 h5))]
  · obtain ⟨p, hp, hpi⟩ := h
    have hmem : specialProduct p.1 p.2 ∈ ps.map (fun p => specialProduct p.1 p.2) := List.mem_map.2 ⟨p, hp, rfl⟩
    rcases specialProduct_of_isInf hpi with hs | ⟨s, hs⟩
    · exact absurd (hnone.2 (hs ▸ hmem)) h1
    · have := (hinf s).2 (hs ▸ hmem)
      cases s
      · exact absurd this h4
      · exact absurd this h3

theorem passSum_special {ps : List (Val × Val)} (hn : NoNan ps) (h : ∃ p ∈ ps, p.1.isInf = true ∨ p.2.isInf = true) :
    passSum .f32 ps = (floatPattern .f32 (specialSum (ps.map (fun p => specialProduct p.1 p.2))).1, (specialSum (ps.map (fun p => specialProduct p.1 p.2))).2) := by
  rw [passSum_eq, prodSum_special hn h, outVal_specialSum, List.append_nil]

/-- Every operand of a row is a finite number. -/
def AllFinite (ps : List (Val × Val)) : Prop := ∀ p ∈ ps, p.1.Finite ∧ p.2.Finite

theorem AllFinite.noNan {ps : List (Val × Val)} (h : AllFinite ps) : NoNan ps :=
  fun p hp => ⟨isNan_eq_false.1 (h p hp).1.1, isNan_eq_false.1 (h p hp).2.1⟩

theorem mul_fst_finite {x y : Val} (hx : x.Finite) (hy : y.Finite) : (x.mul y).1.Finite ∧ ratOf (x.mul y).1 = ratOf x * ratOf y := by
  obtain ⟨s, m, e, h, hr⟩ := mul_finite hx hy
  rw [h]
  exact ⟨finite_fin s m e, hr⟩

theorem AllFinite.products {ps : List (Val × Val)} (h : AllFinite ps) :
    (∀ q ∈ rowProducts ps, q.Finite) ∧ (rowProducts ps).map ratOf = ps.map (fun p => ratOf p.1 * ratOf p.2) := by
  constructor
  · intro q hq
    obtain ⟨p, hp, rfl⟩ := List.mem_map.1 hq
    exact (mul_fst_finite (h p hp).1 (h p hp).2).1
  · rw [rowProducts, List.map_map]
    exact List.map_congr_left (fun p hp => (mul_fst_finite (h p hp).1 (h p hp).2).2)

theorem isZero_iff_ratOf {v : Val} (h : v.Finite) : v.isZero = true ↔ ratOf v = 0 := by
  obtain ⟨s, m, e, rfl⟩ := h.eq_fin
  rw [isZero_fin, ratOf_fin_eq_zero, decide_eq_true_eq]

theorem prodSum_finite {ps : List (Val × Val)} (h : AllFinite ps) : prodSum ps = if (rowProducts ps).all Val.isZero = true then (.fin false 0 0, [])
      else (.fin (decide (unitSum (rowProducts ps) < 0)) (unitSum (rowProducts ps)).natAbs (cutUnit (rowProducts ps)), []) := by
  obtain ⟨hfin, -⟩ := h.products
  have hinf (s : Bool) : ¬ (rowProducts ps).contains (.inf s) = true := by
    rw [List.contains_iff_mem]
    intro hm
    exact absurd (hfin _ hm).2 (by simp)
  have hnan : ¬ (rowProducts ps).any Val.isNan = true := by
    rw [List.any_eq_true]
    rintro ⟨q, hq, hn⟩
    exact absurd (hfin q hq).1 (by simp [hn])
  rw [prodSum_eq h.noNan, if_neg hnan, if_neg (by rw [Bool.and_eq_true]; exact fun hb => hinf true hb.1), if_neg (hinf true), if_neg (hinf false)]

/-- The leading bit of a number that is not zero. -/
theorem leading_bounds {q : Val} (hq : q.Finite) (h0 : ratOf q ≠ 0) : ∃ t, q.leading = some t ∧ (2 : ℚ) ^ t ≤ |ratOf q| ∧ |ratOf q| < 2 ^ (t + 1) := by
  obtain ⟨s, m, e, rfl⟩ := hq.eq_fin
  have hm : m ≠ 0 := mt ratOf_fin_eq_zero.2 h0
  refine ⟨e + bitLen m - 1, ?_, ?_, ?_⟩
  · cases m with
    | zero => exact absurd rfl hm
    | succ m => rfl
  · rw [abs_ratOf_fin]
    exact two_zpow_le_magOf hm e
  · rw [abs_ratOf_fin, Int.sub_add_cancel]
    exact magOf_lt_two_zpow m e

theorem leading_of_zero {q : Val} (hq : q.Finite) (h0 : ratOf q = 0) : q.leading = none := by
  obtain ⟨s, m, e, rfl⟩ := hq.eq_fin
  rw [ratOf_fin_eq_zero.1 h0]
  rfl

theorem foldl_max_eq {l : List ℤ} {a b : ℤ} (ha : a ≤ b) (hl : ∀ t ∈ l, t ≤ b) (h : a = b ∨ b ∈ l) : l.foldl max a = b := by
  induction l generalizing a with
  | nil => simpa using h
  | cons t l ih =>
    obtain ⟨ht, hl⟩ := List.forall_mem_cons.1 hl
    refine ih (max_le ha ht) hl ?_
    rcases h with rfl | h
    · exact .inl (max_eq_left ht)
    · rcases List.mem_cons.1 h with rfl | h
      · exact .inl (max_eq_right ha)
      · exact .inr h

/-- The unit lies 60 bits below the leading bit of the largest product. -/
theorem cutUnit_eq {qs : List Val} (hfin : ∀ q ∈ qs, q.Finite) {E : ℤ} (hex : ∃ q ∈ qs, (2 : ℚ) ^ E ≤ |ratOf q|) (hall : ∀ q ∈ qs, |ratOf q| < 2 ^ (E + 1)) :
    cutUnit qs = E - 60 := by
  have hle : ∀ t ∈ qs.filterMap Val.leading, t ≤ E := by
    intro t ht
    obtain ⟨q, hq, hqt⟩ := List.mem_filterMap.1 ht
    have h0 : ratOf q ≠ 0 := fun h0 => by
      rw [leading_of_zero (hfin q hq) h0] at hqt
      cases hqt
    obtain ⟨t', ht', hlo, -⟩ := leading_bounds (hfin q hq) h0
    rw [ht'] at hqt
    cases hqt
    have := two_zpow_lt.1 (hlo.trans_lt (hall q hq))
    omega
  have hmem : E ∈ qs.filterMap Val.leading := by
    obtain ⟨q, hq, hqE⟩ := hex
    have h0 : ratOf q ≠ 0 := fun h0 => by
      rw [h0, abs_zero] at hqE
      exact absurd hqE (not_le.2 (two_zpow_pos E))
    obtain ⟨t, ht, hlo, hhi⟩ := leading_bounds (hfin q hq) h0
    rw [leading_unique hqE (hall q hq) hlo hhi]
    exact List.mem_filterMap.2 ⟨q, hq, ht⟩
  have hhead : (qs.filterMap Val.leading).headD 0 ≤ E := by
    cases hl : qs.filterMap Val.leading with
    | nil => rw [hl] at hmem; cases hmem
    | cons t l => exact hle t (hl ▸ List.mem_cons_self ..)
  rw [cutUnit, foldl_max_eq hhead hle (.inr hmem)]

/-- A product's part of the sum: its magnitude cut off to whole units, with its sign. -/
theorem addUnits_eq {q : Val} (hq : q.Finite) (ul acc : ℤ) : ((addUnits ul acc q : ℤ) : ℚ) = acc + (if ratOf q < 0 then -1 else 1) * ((⌊|ratOf q| / 2 ^ ul⌋ : ℤ) : ℚ) := by
  obtain ⟨s, m, e, rfl⟩ := hq.eq_fin
  have hfloor : ⌊|ratOf (.fin s m e)| / 2 ^ ul⌋ = ((if ul ≤ e then m * powInt (e - ul) else m / powInt (ul - e) : Nat) : ℤ) := by
    rw [abs_ratOf_fin, magOf, mul_div_assoc, div_eq_mul_inv, ← zpow_neg, ← two_zpow_add]
    split
    · next h =>
      rw [show e + -ul = e - ul by omega, ← cast_powInt (by omega), ← Nat.cast_mul, Int.floor_natCast]
    · next h =>
      rw [show e + -ul = -(ul - e) by omega, zpow_neg, ← cast_powInt (by omega), ← div_eq_mul_inv]
      exact Rat.floor_natCast_div_natCast m _
  rw [hfloor]
  by_cases hm : m = 0
  · subst hm
    cases s <;> simp [addUnits]
  · have hs : ratOf (.fin s m e) < 0 ↔ s = true := by
      have := magOf_pos hm e
      rw [ratOf_fin]
      cases s <;> simp <;> linarith
    simp only [hs, addUnits]
    generalize (if ul ≤ e then m * powInt (e - ul) else m / powInt (ul - e)) = t
    cases s <;> simp [sub_eq_add_neg]

theorem foldl_addUnits {qs : List Val} (hfin : ∀ q ∈ qs, q.Finite) (ul acc : ℤ) : ((qs.foldl (addUnits ul) acc : ℤ) : ℚ) * 2 ^ ul =
    acc * 2 ^ ul + ((qs.map ratOf).map (fun x => (if x < 0 then -1 else 1) * ((⌊|x| / 2 ^ ul⌋ : ℤ) : ℚ) * 2 ^ ul)).sum := by
  induction qs generalizing acc with
  | nil => simp
  | cons q qs ih =>
    obtain ⟨hq, hqs⟩ := List.forall_mem_cons.1 hfin
    rw [List.foldl_cons, ih hqs, addUnits_eq hq, List.map_cons, List.map_cons, List.sum_cons, add_mul, add_assoc]

theorem passSum_zeros {ps : List (Val × Val)} (h : AllFinite ps) (h0 : ∀ x ∈ ps.map (fun p => ratOf p.1 * ratOf p.2), x = 0) : passSum .f32 ps = (0, []) := by
  obtain ⟨hfin, hmap⟩ := h.products
  have hall : (rowProducts ps).all Val.isZero = true := by
    rw [List.all_eq_true]
    intro q hq
    rw [isZero_iff_ratOf (hfin q hq)]
    exact h0 _ (hmap ▸ List.mem_map.2 ⟨q, hq, rfl⟩)
  rw [passSum_eq, prodSum_finite h, if_pos hall]
  rfl

/-- The sum that R168 gives a row: each product cut off to whole units of 2^(E - 60), added up exactly. -/
def cutSum (products : List ℚ) (E : ℤ) : ℚ := (products.map (fun x => (if x < 0 then -1 else 1) * ((⌊|x| / (2 : ℚ) ^ (E - 60)⌋ : ℤ) : ℚ) * (2 : ℚ) ^ (E - 60))).sum

theorem passSum_finite {ps : List (Val × Val)} (h : AllFinite ps) {E : ℤ} (hex : ∃ x ∈ ps.map (fun p => ratOf p.1 * ratOf p.2), (2 : ℚ) ^ E ≤ |x|)
    (hall : ∀ x ∈ ps.map (fun p => ratOf p.1 * ratOf p.2), |x| < (2 : ℚ) ^ (E + 1)) :
    (cutSum (ps.map (fun p => ratOf p.1 * ratOf p.2)) E = 0 → passSum .f32 ps = (0, [])) ∧
    RoundedOnce .f32 (cutSum (ps.map (fun p => ratOf p.1 * ratOf p.2)) E) (BitVec.ofNat 32 (passSum .f32 ps).1, (passSum .f32 ps).2) := by
  obtain ⟨hfin, hmap⟩ := h.products
  rw [← hmap] at hex hall ⊢
  obtain ⟨x, hx, hxE⟩ := hex
  obtain ⟨q, hq, rfl⟩ := List.mem_map.1 hx
  have hcut : cutUnit (rowProducts ps) = E - 60 := cutUnit_eq hfin ⟨q, hq, hxE⟩ (fun q hq => hall _ (List.mem_map.2 ⟨q, hq, rfl⟩))
  have hnz : ¬ (rowProducts ps).all Val.isZero = true := by
    rw [List.all_eq_true]
    intro hz
    rw [(isZero_iff_ratOf (hfin q hq)).1 (hz q hq), abs_zero] at hxE
    exact absurd hxE (not_le.2 (two_zpow_pos E))
  have hsum : ((unitSum (rowProducts ps) : ℤ) : ℚ) * 2 ^ (E - 60) = cutSum ((rowProducts ps).map ratOf) E := by
    rw [unitSum, hcut, foldl_addUnits hfin, Int.cast_zero, zero_mul, zero_add, cutSum]
  have hpass : passSum .f32 ps = outVal .f32 .rne (.fin (decide (unitSum (rowProducts ps) < 0)) (unitSum (rowProducts ps)).natAbs (E - 60)) := by
    rw [passSum_eq, prodSum_finite h, if_neg hnz, hcut, List.nil_append]
  refine ⟨fun h0 => ?_, _, _, _, (ratOf_of_int _ _).trans hsum, ?_, by rw [hpass]⟩
  · have : unitSum (rowProducts ps) = 0 := by
      rw [h0, mul_eq_zero, or_iff_left (two_zpow_pos _).ne', Int.cast_eq_zero] at hsum
      exact hsum
    rw [hpass, this]
    rfl
  · rw [hpass, BitVec.toNat_ofNat, Nat.mod_eq_of_lt]
    exact outVal_lt f32_mem .rne _

/-! ### The statement -/

theorem allFinite_of {ps : List (Val × Val)} (hn : ¬ ∃ p ∈ ps, p.1 = .nan ∨ p.2 = .nan) (hi : ¬ ∃ p ∈ ps, p.1.isInf = true ∨ p.2.isInf = true) : AllFinite ps := by
  intro p hp
  have h1 := not_or.1 (fun h => hn ⟨p, hp, h⟩)
  have h2 := not_or.1 (fun h => hi ⟨p, hp, h⟩)
  exact ⟨finite_of_not_special h1.1 h2.1, finite_of_not_special h1.2 h2.2⟩

/-- Settles O24, clause by clause. -/
theorem floatArithmeticIsExact : Obligations.FloatArithmeticIsExact := by
  unfold Obligations.FloatArithmeticIsExact
  refine ⟨fun a b d ha hb hd => f32_words_exact ha hb hd, fun a b d hal hbl hah hbh hd => hdot2_exact hal hbl hah hbh hd, fun a b d h => pair_words_exact h,
    fun a b d ha hb hd => f32_zero_signs ha hb hd, fun a b hfin h hh => ?_, fun a b d h => f32_words_nan h, fun a b d h => fma_words_nan h,
    fun a b hx hy h => f32_sums_special hx hy h, fun a b d hx hy hz h => fma_words_special hx hy hz h, fun a b d => ⟨hdot2_nan, hdot2_special⟩, fun a b d q hq => ?_,
    fun ps => ⟨passSum_nan, fun hn hi => ?_, fun hn hi h0 => ?_, fun E hn hi hex hall => passSum_finite (allFinite_of hn hi) hex hall⟩⟩
  · have hp : h = lowHalf ∨ h = highHalf := by simpa using hh
    have hhalf : ∀ z ∈ [a, b], (inBf (h z)).Finite := by
      intro z hz
      rcases hp with rfl | rfl
      · exact (hfin z hz).1
      · exact (hfin z hz).2
    exact pair_zero_signs hp (hhalf a (by simp)) (hhalf b (by simp))
  · obtain ⟨hsum, hfma, hevents⟩ := pair_words_special (a := a) (b := b) (d := d) hq
    obtain ⟨hnan, hnan'⟩ := pair_words_nan (IsHalves.fst hq) (a := a) (b := b) (d := d)
    exact ⟨hnan, hnan', hsum, hfma, hevents⟩
  · refine passSum_special (fun p hp => ?_) hi
    exact not_or.1 (fun h => hn ⟨p, hp, h⟩)
  · exact passSum_zeros (allFinite_of hn hi) h0

end Sys2Proof.Machine
end

section
/-! PROOF. O26: conversions between f32 and integers, the narrower floats and the formats of a slot, and packing. -/

namespace Sys2Proof.Machine

/-! ### To integers (R190) -/

theorem natAbs_roundInt (mode : Mode) (neg : Bool) (m : Nat) (e : ℤ) :
    (roundInt mode neg m e).natAbs = if 0 ≤ e then m * powInt e else roundShift mode neg m (-e).toNat := by
  rw [roundInt_eq, signed]
  cases neg
  · rfl
  · exact Int.natAbs_neg _

theorem signed_natAbs_roundInt (mode : Mode) (neg : Bool) (m : Nat) (e : ℤ) : signed neg (roundInt mode neg m e).natAbs = roundInt mode neg m e := by
  rw [natAbs_roundInt, roundInt_eq]

theorem toIntOp_fin {lo hi : ℤ} {mode : Mode} {a : Word} {neg : Bool} {m : Nat} {e : ℤ} (h : inF32 a = .fin neg m e) :
    toIntOp lo hi mode a = (BitVec.ofInt 32 (max lo (min hi (roundInt mode neg m e))), if max lo (min hi (roundInt mode neg m e)) ≠ roundInt mode neg m e then [0] else []) := by
  simp only [toIntOp, h]

theorem cvtF2i_fin {mode : Mode} {a : Word} {neg : Bool} {m : Nat} {e : ℤ} (h : inF32 a = .fin neg m e) :
    (cvtF2iOp mode a).1.toInt = max (-2 ^ 31) (min (2 ^ 31 - 1) (roundInt mode neg m e)) ∧
    (cvtF2iOp mode a).2 = if -2 ^ 31 ≤ roundInt mode neg m e ∧ roundInt mode neg m e < 2 ^ 31 then [] else [0] := by
  rw [cvtF2iOp, toIntOp_fin h]
  refine ⟨BitVec.toInt_ofInt_eq_self (by decide) (by omega) (by omega), ?_⟩
  simp only [ne_eq, ite_not]
  exact if_congr (by omega) rfl rfl

theorem cvtF2n_fin {mode : Mode} {a : Word} {neg : Bool} {m : Nat} {e : ℤ} (h : inF32 a = .fin neg m e) :
    ((cvtF2nOp mode a).1.toNat : ℤ) = max 0 (min (2 ^ 32 - 1) (roundInt mode neg m e)) ∧
    (cvtF2nOp mode a).2 = if 0 ≤ roundInt mode neg m e ∧ roundInt mode neg m e < 2 ^ 32 then [] else [0] := by
  rw [cvtF2nOp, toIntOp_fin h]
  refine ⟨?_, ?_⟩
  · rw [natCast_toNat_ofInt]
    omega
  · simp only [ne_eq, ite_not]
    exact if_congr (by omega) rfl rfl

/-! ### FRND (R190) -/

theorem inF32_ofNat {x : Nat} (h : x < 2 ^ 32) : inF32 (BitVec.ofNat 32 x) = floatValue .f32 x := by
  rw [inF32, BitVec.toNat_ofNat, Nat.mod_eq_of_lt h]

/-- An f32 number rounded to an integer is an f32 number. -/
theorem holds_roundInt {a : Word} {neg : Bool} {m : Nat} {e : ℤ} (h : inF32 a = .fin neg m e) (mode : Mode) : Fmt.f32.Holds (roundInt mode neg m e).natAbs 0 := by
  obtain ⟨hc, hk, -⟩ := canonical_of_floatValue f32_mem a.isLt h
  rw [natAbs_roundInt]
  by_cases he : 0 ≤ e
  · refine ⟨m, e, hc, hk, ?_⟩
    rw [if_pos he, magOf, magOf, zpow_zero, mul_one, Nat.cast_mul, cast_powInt he]
  · rw [if_neg he]
    refine holds_of_bounds (by decide) (by decide) ?_
    have hm : m < 2 ^ 24 := hc.2.1
    have hdiv : m / 2 ^ (-e).toNat ≤ m / 2 := by
      refine Nat.div_le_div_left ?_ (by decide)
      calc 2 = 2 ^ 1 := rfl
        _ ≤ 2 ^ (-e).toNat := Nat.pow_le_pow_right (by decide) (by omega)
    have := (roundShift_bounds mode neg m (-e).toNat).2
    rw [show Fmt.f32.fracBits + 1 = 24 from rfl]
    omega

theorem cvtFrnd_fin {mode : Mode} {a : Word} {neg : Bool} {m : Nat} {e : ℤ} (h : inF32 a = .fin neg m e) :
    ratOf (inF32 (cvtFrndOp mode a).1) = roundInt mode neg m e ∧ (inF32 (cvtFrndOp mode a).1).sign = neg ∧ (cvtFrndOp mode a).2 = [] := by
  have hop : cvtFrndOp mode a = (wd (floatPattern .f32 (.fin neg (roundInt mode neg m e).natAbs 0)), []) := by simp only [cvtFrndOp, h]
  have hh := holds_roundInt h mode
  obtain ⟨q, k, hv, hmag⟩ := floatValue_floatPattern f32_mem hh neg
  have hread : inF32 (cvtFrndOp mode a).1 = .fin neg q k := by
    rw [hop]
    exact (inF32_ofNat (floatPattern_lt_of_holds f32_mem neg hh)).trans hv
  refine ⟨?_, by rw [hread]; rfl, by rw [hop]⟩
  rw [hread, ratOf_fin_sign, hmag, magOf, zpow_zero, mul_one, ← cast_signed, signed_natAbs_roundInt]

/-! ### To and from the narrower floats (R189) -/

theorem toNat_cvtF2bf (mode : Mode) (a : Word) : (cvtF2bfOp mode a).1.toNat = (outVal .bf16 mode (inF32 a)).1 := toNat_outRes bf16_mem mode _
theorem toNat_cvtF2h (mode : Mode) (a : Word) : (cvtF2hOp mode a).1.toNat = (outVal .f16 mode (inF32 a)).1 := toNat_outRes f16_mem mode _

theorem floats_nan {mode : Mode} {a : Word} (h : inF32 a = .nan) : cvtF2iOp mode a = (0, [0]) ∧ cvtF2nOp mode a = (0, [0]) ∧ cvtFrndOp mode a = (0x7FC00000, []) ∧
    cvtF2bfOp mode a = (0x7FC0, []) ∧ cvtF2hOp mode a = (0x7E00, []) := by
  refine ⟨by simp only [cvtF2iOp, toIntOp, h], by simp only [cvtF2nOp, toIntOp, h], by simp only [cvtFrndOp, h], ?_, ?_⟩
  · rw [cvtF2bfOp, h]; rfl
  · rw [cvtF2hOp, h]; rfl

theorem floats_inf {mode : Mode} {a : Word} {neg : Bool} (h : inF32 a = .inf neg) : cvtF2iOp mode a = (if neg then 0x80000000 else 0x7FFFFFFF, [0]) ∧
    cvtF2nOp mode a = (if neg then 0 else 0xFFFFFFFF, [0]) ∧ cvtFrndOp mode a = (a, []) ∧ cvtF2bfOp mode a = (if neg then 0xFF80 else 0x7F80, []) ∧
    cvtF2hOp mode a = (if neg then 0xFC00 else 0x7C00, []) := by
  refine ⟨?_, ?_, by simp only [cvtFrndOp, h], ?_, ?_⟩
  · simp only [cvtF2iOp, toIntOp, h]
    cases neg <;> rfl
  · simp only [cvtF2nOp, toIntOp, h]
    cases neg <;> rfl
  · rw [cvtF2bfOp, h]
    cases neg <;> rfl
  · rw [cvtF2hOp, h]
    cases neg <;> rfl

/-- The numbers of 32 bits lie well within f32: rounding one raises no event. -/
theorem outVal_int_events (mode : Mode) {v : ℤ} (h : v.natAbs ≤ 2 ^ 32) : (outVal .f32 mode (valOf v 0)).2 = [] := by
  rw [valOf]
  generalize hm : v.natAbs = m at h
  generalize decide (v < 0) = s
  by_cases h0 : m = 0
  · subst h0; rfl
  have hlen : bitLen m ≤ 33 := bitLen_le (by omega)
  have hpos := bitLen_ne_zero h0
  have hplace : Fmt.f32.place m 0 = bitLen m - 24 := by
    rw [Fmt.place, show Fmt.f32.low = -149 from rfl, show Fmt.f32.fracBits = 23 from rfl]
    omega
  obtain ⟨hq, -⟩ := roundAt_place .f32 mode s h0 0
  have hbeyond : Fmt.f32.beyond (roundAt mode s m 0 (Fmt.f32.place m 0)) (Fmt.f32.place m 0) = false := by
    rw [Fmt.beyond, show Fmt.f32.maxFin.2 = 104 from rfl, Bool.or_eq_false_iff, Bool.and_eq_false_iff, decide_eq_false_iff_not, decide_eq_false_iff_not]
    omega
  have hq0 : roundAt mode s m 0 (Fmt.f32.place m 0) ≠ 0 := by
    have := Nat.two_pow_pos Fmt.f32.fracBits
    have hlow : Fmt.f32.low = -149 := rfl
    omega
  rw [outVal_fin, roundFloat_fin _ _ _ h0, hbeyond]
  simp [isZero_fin, hq0]

theorem int_to_f32 (mode : Mode) (a : Word) : ∃ u v, ratOf u = a.toInt ∧ ratOf v = a.toNat ∧ cvtI2fOp mode a = (BitVec.ofNat 32 (outVal .f32 mode u).1, []) ∧
    cvtN2fOp mode a = (BitVec.ofNat 32 (outVal .f32 mode v).1, []) := by
  refine ⟨valOf a.toInt 0, valOf a.toNat 0, ?_, ?_, ?_, ?_⟩
  · rw [ratOf_valOf, zpow_zero, mul_one]
  · rw [ratOf_valOf, zpow_zero, mul_one, Int.cast_natCast]
  · have := a.le_toInt; have := a.toInt_lt
    rw [cvtI2fOp, outRes, outVal_int_events mode (by omega)]
    rfl
  · have := a.isLt
    rw [cvtN2fOp, outRes, outVal_int_events mode (by omega)]
    rfl

theorem toNat_lowHalf (a : Word) : (lowHalf a).toNat = a.toNat % 2 ^ 16 := by rw [lowHalf, BitVec.extractLsb'_toNat, Nat.shiftRight_zero]

/-- A number equal to that of an f32 pattern is written as that pattern, without an event. -/
theorem outVal_of_pattern (mode : Mode) {x m q : Nat} {s : Bool} {e k : ℤ} (hx : x < 2 ^ 32) (h : floatValue .f32 x = .fin s q k) (hmag : magOf m e = magOf q k) :
    outVal .f32 mode (.fin s m e) = (x, []) := by
  have hh := holds_of_floatValue f32_mem hx h
  have hback := floatPattern_floatValue f32_mem hx (by rw [h]; nofun)
  rw [outVal_of_holds (by obtain ⟨q', k', hc, hk, hm⟩ := hh; exact ⟨q', k', hc, hk, hmag.trans hm⟩), floatPattern_congr hh hmag, ← h, hback]

/-- A bf16 pattern with sixteen zeros behind it stands for the same value in f32. -/
theorem bf16_widens (s : Bool) (e m : Nat) : Fmt.f32.pattern s e (m * 2 ^ 16) = Fmt.bf16.pattern s e m * 2 ^ 16 := by
  simp only [Fmt.pattern, show Fmt.f32.fracBits = 23 from rfl, show Fmt.f32.expBits = 8 from rfl, show Fmt.bf16.fracBits = 7 from rfl, show Fmt.bf16.expBits = 8 from rfl]
  omega

theorem cvtBf2f_eq {a : Word} (h : (inBf (lowHalf a)).isNan = false) : cvtBf2fOp a = (BitVec.ofNat 32 (a.toNat % 2 ^ 16 * 2 ^ 16), []) := by
  obtain ⟨s, e, m, he, hm, hx⟩ := exists_fields bf16_mem (lowHalf a).isLt
  have hm' : m * 2 ^ 16 < 2 ^ Fmt.f32.fracBits := by
    rw [show Fmt.bf16.fracBits = 7 from rfl] at hm
    rw [show Fmt.f32.fracBits = 23 from rfl]
    omega
  have hnarrow := floatValue_pattern .bf16 s he hm
  have hwide := floatValue_pattern .f32 s (x := e) he hm'
  rw [show Fmt.f32.expBits = Fmt.bf16.expBits from rfl] at hwide
  have hlt := pattern_lt f32_mem s (x := e) he hm'
  have hout : outVal .f32 .rne (inBf (lowHalf a)) = (Fmt.f32.pattern s e (m * 2 ^ 16), []) := by
    rw [inBf, hx, hnarrow] at h ⊢
    by_cases hmax : e = 2 ^ Fmt.bf16.expBits - 1
    · rw [if_pos hmax] at h ⊢
      by_cases h0 : m = 0
      · rw [if_pos h0, outVal_inf, floatPattern_inf, h0, hmax]
        rfl
      · rw [if_neg h0] at h
        cases h
    · rw [if_neg hmax] at hwide ⊢
      by_cases h0 : e = 0
      · rw [if_pos h0] at hwide ⊢
        refine outVal_of_pattern _ hlt hwide ?_
        rw [magOf, magOf, show Fmt.bf16.low = 16 + Fmt.f32.low from rfl, two_zpow_add]
        push_cast
        ring
      · rw [if_neg h0] at hwide ⊢
        refine outVal_of_pattern _ hlt hwide ?_
        rw [magOf, magOf, show (e : ℤ) - Fmt.bf16.bias - Fmt.bf16.fracBits = 16 + ((e : ℤ) - Fmt.f32.bias - Fmt.f32.fracBits) by
          rw [show Fmt.bf16.bias = 127 from rfl, show Fmt.bf16.fracBits = 7 from rfl, show Fmt.f32.bias = 127 from rfl, show Fmt.f32.fracBits = 23 from rfl]; omega,
          two_zpow_add, show Fmt.bf16.fracBits = 7 from rfl, show Fmt.f32.fracBits = 23 from rfl]
        push_cast
        ring
  rw [cvtBf2fOp, outRes, hout, bf16_widens s, ← hx, toNat_lowHalf]
  rfl

theorem cvtBf2f_nan {a : Word} (h : inBf (lowHalf a) = .nan) : cvtBf2fOp a = (0x7FC00000, []) := by rw [cvtBf2fOp, h]; rfl

/-- Every f16 number is an f32 number. -/
theorem holds_of_f16 {x m : Nat} {s : Bool} {e : ℤ} (hx : x < 2 ^ 16) (h : floatValue .f16 x = .fin s m e) : Fmt.f32.Holds m e := by
  obtain ⟨hc, hk, -⟩ := canonical_of_floatValue f16_mem hx h
  obtain ⟨hlow, hm, -⟩ := hc
  exact holds_of_bounds (le_trans (by decide) hlow) (hk.trans (by decide)) (hm.trans_le (by decide))

theorem cvtH2f_eq (a : Word) : cvtH2fOp a = outRes .f32 .rne (floatValue .f16 (a.toNat % 2 ^ 16), []) := by rw [cvtH2fOp, toNat_lowHalf]

theorem cvtH2f_nan {a : Word} (h : floatValue .f16 (a.toNat % 2 ^ 16) = .nan) : cvtH2fOp a = (0x7FC00000, []) := by rw [cvtH2f_eq, h]; rfl

theorem cvtH2f_inf {a : Word} {s : Bool} (h : floatValue .f16 (a.toNat % 2 ^ 16) = .inf s) : inF32 (cvtH2fOp a).1 = .inf s ∧ (cvtH2fOp a).2 = [] := by
  rw [cvtH2f_eq, h]
  cases s <;> exact ⟨by decide +kernel, rfl⟩

theorem cvtH2f_fin {a : Word} {s : Bool} {m : Nat} {e : ℤ} (h : floatValue .f16 (a.toNat % 2 ^ 16) = .fin s m e) :
    (cvtH2fOp a).2 = [] ∧ ∃ q k, inF32 (cvtH2fOp a).1 = .fin s q k ∧ magOf q k = magOf m e := by
  have hh := holds_of_f16 (Nat.mod_lt _ (by decide)) h
  obtain ⟨q, k, hv, hmag⟩ := floatValue_floatPattern f32_mem hh s
  have hop : cvtH2fOp a = (wd (floatPattern .f32 (.fin s m e)), []) := by rw [cvtH2f_eq, h, outRes, outVal_of_holds hh]; rfl
  rw [hop]
  exact ⟨rfl, q, k, (inF32_ofNat (floatPattern_lt_of_holds f32_mem s hh)).trans hv, hmag⟩

/-! ### CVT.ENC (R166, R191) -/

theorem encodeVal_i8 {slot : Word} (h : slotFmt slot = .i8) (mode : Mode) (force s : Bool) (m : Nat) (e : ℤ) :
    encodeVal slot mode force (.fin s m e) = ((BitVec.ofInt 8 (max (-128) (min 127 (roundInt mode s m (e + -slotScale slot))))).toNat,
      (if roundInt mode s m (e + -slotScale slot) = 0 ∧ m ≠ 0 then [2] else []) ++
      (if max (-128) (min 127 (roundInt mode s m (e + -slotScale slot))) ≠ roundInt mode s m (e + -slotScale slot) then [0] else [])) := by
  simp only [encodeVal, h, Val.scale]

theorem encodeVal_n8 {slot : Word} (h : slotFmt slot = .n8) (mode : Mode) (force s : Bool) (m : Nat) (e : ℤ) :
    encodeVal slot mode force (.fin s m e) = ((max 0 (min 255 (roundInt mode s m (e + -slotScale slot)))).toNat,
      (if roundInt mode s m (e + -slotScale slot) = 0 ∧ m ≠ 0 then [2] else []) ++
      (if max 0 (min 255 (roundInt mode s m (e + -slotScale slot))) ≠ roundInt mode s m (e + -slotScale slot) then [0] else [])) := by
  simp only [encodeVal, h, Val.scale]

/-- The formats of a tapered slot, with the width of their patterns (R159). -/
def IsTapered (slot : Word) (n es : Nat) : Prop := slotFmt slot = .t8 es ∧ n = 8 ∨ slotFmt slot = .t6 es ∧ n = 6

theorem encodeVal_tapered {slot : Word} {n es : Nat} (h : IsTapered slot n es) (mode : Mode) (force : Bool) {v : Val} (hv : v ≠ .nan) :
    encodeVal slot mode force v = ((taperedRound n es mode (v.scale (-slotScale slot))).1, if (taperedRound n es mode (v.scale (-slotScale slot))).2 then [0] else []) := by
  obtain ⟨hf, rfl⟩ | ⟨hf, rfl⟩ := h <;> cases v <;> simp_all [encodeVal]

theorem encodeVal_float {slot : Word} {f : Fmt} (h : slotFmt slot = f) (hf : f ∈ [Fmt.f32, .bf16, .f16]) (mode : Mode) {v y : Val} (hv : v ≠ .nan)
    (hy : roundFloat f mode (v.scale (-slotScale slot)) = y) :
    encodeVal slot mode false v = (floatPattern f (if slotSat slot && y.isInf then .fin y.sign f.maxFin.1 f.maxFin.2 else y),
      (if y.isZero && !(v.scale (-slotScale slot)).isZero then [2] else []) ++
      (if (slotSat slot && y.isInf) || (!(v.scale (-slotScale slot)).isInf && y.isInf) then [0] else [])) := by
  subst hy
  simp only [List.mem_cons, List.not_mem_nil, or_false] at hf
  obtain rfl | rfl | rfl := hf
  all_goals cases v <;> simp_all [encodeVal]

/-- What a slot's pattern and events say of a finite operand that its integer format clamps. -/
theorem clamped_events {y lo hi : ℤ} {m : Nat} : ((0 : Nat) ∈ (if y = 0 ∧ m ≠ 0 then [2] else []) ++ (if max lo (min hi y) ≠ y then [0] else []) ↔ max lo (min hi y) ≠ y) ∧
    (2 ∈ (if y = 0 ∧ m ≠ 0 then [2] else []) ++ (if max lo (min hi y) ≠ y then [0] else []) ↔ y = 0 ∧ m ≠ 0) := by
  by_cases h1 : y = 0 ∧ m ≠ 0 <;> by_cases h2 : max lo (min hi y) = y <;> simp [h1, h2]

/-- The number that CVT.ENC rounds: the operand over the power of two of the slot's scale. -/
theorem ratOf_unscaled (s : Bool) (m : Nat) (e k : ℤ) : ratOf (.fin s m (e + -k)) = ratOf (.fin s m e) / (2 : ℚ) ^ k := by
  rw [div_eq_mul_inv, ← zpow_neg]
  exact ratOf_scale (.fin s m e) (-k)

theorem encode_i8 {slot : Word} (h : slotFmt slot = .i8) (mode : Mode) {x : Word} {s : Bool} {m : Nat} {e : ℤ} (hx : inF32 x = .fin s m e) :
    ∃ y : ℤ, RoundedInt mode (ratOf (inF32 x) / (2 : ℚ) ^ slotScale slot) y ∧ (cvtEncOp slot mode x).1.toNat = (BitVec.ofInt 8 (max (-128) (min 127 y))).toNat ∧
      ((0 : Nat) ∈ (cvtEncOp slot mode x).2 ↔ y < -128 ∨ 127 < y) ∧ (2 ∈ (cvtEncOp slot mode x).2 ↔ y = 0 ∧ (inF32 x).isZero = false) := by
  refine ⟨roundInt mode s m (e + -slotScale slot), ?_, ?_, ?_, ?_⟩
  · rw [hx, ← ratOf_unscaled]
    exact roundedInt_roundInt mode s m _
  · have := (BitVec.ofInt 8 (max (-128) (min 127 (roundInt mode s m (e + -slotScale slot))))).isLt
    rw [cvtEncOp, hx, encodeVal_i8 h, wd, BitVec.toNat_ofNat, Nat.mod_eq_of_lt (by omega)]
  · rw [cvtEncOp, hx, encodeVal_i8 h, clamped_events.1]
    omega
  · rw [cvtEncOp, hx, encodeVal_i8 h, clamped_events.2, isZero_fin, decide_eq_false_iff_not]

theorem encode_n8 {slot : Word} (h : slotFmt slot = .n8) (mode : Mode) {x : Word} {s : Bool} {m : Nat} {e : ℤ} (hx : inF32 x = .fin s m e) :
    ∃ y : ℤ, RoundedInt mode (ratOf (inF32 x) / (2 : ℚ) ^ slotScale slot) y ∧ (cvtEncOp slot mode x).1.toNat = (BitVec.ofInt 8 (max 0 (min 255 y))).toNat ∧
      ((0 : Nat) ∈ (cvtEncOp slot mode x).2 ↔ y < 0 ∨ 255 < y) ∧ (2 ∈ (cvtEncOp slot mode x).2 ↔ y = 0 ∧ (inF32 x).isZero = false) := by
  refine ⟨roundInt mode s m (e + -slotScale slot), ?_, ?_, ?_, ?_⟩
  · rw [hx, ← ratOf_unscaled]
    exact roundedInt_roundInt mode s m _
  · rw [cvtEncOp, hx, encodeVal_n8 h, wd, BitVec.toNat_ofNat, BitVec.toNat_ofInt]
    omega
  · rw [cvtEncOp, hx, encodeVal_n8 h, clamped_events.1]
    omega
  · rw [cvtEncOp, hx, encodeVal_n8 h, clamped_events.2, isZero_fin, decide_eq_false_iff_not]

/-! ### The tapered formats (R159) -/

theorem ratOf_positive (m : Nat) (e : ℤ) : ratOf (.fin false m e) = magOf m e := by simp [ratOf_fin]

theorem ratOf_one (k : ℤ) : ratOf (.fin false 1 k) = 2 ^ k := by rw [ratOf_positive, magOf, Nat.cast_one, one_mul]

/-- A number not below the largest of a tapered format goes to that one. -/
theorem taperedRound_top {n es : Nat} (mode : Mode) (s : Bool) {m : Nat} {e : ℤ} (hm : m ≠ 0) (h : (2 : ℚ) ^ taperMax n es ≤ magOf m e) (hn : 2 ^ (n - 1) - 1 ≠ 0) :
    taperedRound n es mode (.fin s m e) = (if s then 2 ^ n - (2 ^ (n - 1) - 1) else 2 ^ (n - 1) - 1, decide ((2 : ℚ) ^ taperMax n es < magOf m e)) := by
  have hbig : Val.lt (.fin false m e) (.fin false 1 (taperMax n es)) = false := by
    rw [Bool.eq_false_iff, ne_eq, Val.lt_fin_iff, ratOf_one, ratOf_positive, not_lt]
    exact h
  have hmore : Val.lt (.fin false 1 (taperMax n es)) (.fin false m e) = decide ((2 : ℚ) ^ taperMax n es < magOf m e) := by
    rw [Bool.eq_iff_iff, Val.lt_fin_iff, ratOf_one, ratOf_positive, decide_eq_true_iff]
  simp only [taperedRound, if_neg hm, hbig, hmore, Bool.not_false, if_true, hn, ne_eq, not_false_eq_true, and_true]

/-- A number not above the least of a tapered format goes to that one. -/
theorem taperedRound_low {n es : Nat} (mode : Mode) (s : Bool) {m : Nat} {e : ℤ} (hm : m ≠ 0) (hbig : magOf m e < 2 ^ taperMax n es) (h : magOf m e ≤ 2 ^ (-taperMax n es)) :
    taperedRound n es mode (.fin s m e) = (if s then 2 ^ n - 1 else 1, false) := by
  have hbig' : Val.lt (.fin false m e) (.fin false 1 (taperMax n es)) = true := by
    rw [Val.lt_fin_iff, ratOf_one, ratOf_positive]
    exact hbig
  have hlow : Val.lt (.fin false 1 (-taperMax n es)) (.fin false m e) = false := by
    rw [Bool.eq_false_iff, ne_eq, Val.lt_fin_iff, ratOf_one, ratOf_positive, not_lt]
    exact h
  simp only [taperedRound, if_neg hm, hbig', hlow, Bool.not_true, Bool.not_false, Bool.false_eq_true, if_false, if_true, ne_eq, one_ne_zero, not_false_eq_true, and_true]

theorem taperMax_eq {n : Nat} (hn : 2 ≤ n) (es : Nat) : (2 : ℚ) ^ taperMax n es = 2 ^ ((n - 2) * 2 ^ es) := by
  rw [← two_zpow_natCast, taperMax]
  congr 1
  push_cast [hn]
  rfl

theorem ratOf_fin_pos {s : Bool} {m : Nat} {e : ℤ} (hm : m ≠ 0) : 0 < ratOf (.fin s m e) ↔ s = false := by
  have := magOf_pos hm e
  rw [ratOf_fin]
  cases s
  · simpa using this
  · simp [this.le]

theorem IsTapered.width {slot : Word} {n es : Nat} (h : IsTapered slot n es) : n = 8 ∨ n = 6 := by
  obtain ⟨-, h⟩ | ⟨-, h⟩ := h
  · exact .inl h
  · exact .inr h

theorem cvtEnc_tapered {slot : Word} {n es : Nat} (h : IsTapered slot n es) (mode : Mode) {x : Word} {s : Bool} {m : Nat} {e : ℤ} (hx : inF32 x = .fin s m e) :
    cvtEncOp slot mode x = (wd (taperedRound n es mode (.fin s m (e + -slotScale slot))).1, if (taperedRound n es mode (.fin s m (e + -slotScale slot))).2 then [0] else []) := by
  rw [cvtEncOp, hx, encodeVal_tapered h mode false (by nofun)]
  rfl

theorem encode_tapered {slot : Word} {n es : Nat} (h : IsTapered slot n es) (mode : Mode) {x : Word} {s : Bool} {m : Nat} {e : ℤ} (hx : inF32 x = .fin s m e) :
    let u := ratOf (inF32 x) / (2 : ℚ) ^ slotScale slot
    let top : ℚ := 2 ^ ((n - 2) * 2 ^ es)
    (u = 0 → cvtEncOp slot mode x = (0, [])) ∧
    (top ≤ |u| → cvtEncOp slot mode x = (BitVec.ofNat 32 (if 0 < u then 2 ^ (n - 1) - 1 else 2 ^ (n - 1) + 1), if top < |u| then [0] else [])) ∧
    (u ≠ 0 → |u| * top ≤ 1 → cvtEncOp slot mode x = (BitVec.ofNat 32 (if 0 < u then 1 else 2 ^ n - 1), [])) := by
  intro u top
  have hn := h.width
  have hu : u = ratOf (.fin s m (e + -slotScale slot)) := by rw [ratOf_unscaled, ← hx]
  have htop : (2 : ℚ) ^ taperMax n es = top := taperMax_eq (by omega) es
  have htop1 : 1 < top := one_lt_pow₀ (by norm_num) (Nat.mul_ne_zero (by omega) (Nat.two_pow_pos es).ne')
  have habs : |u| = magOf m (e + -slotScale slot) := by rw [hu, abs_ratOf_fin]
  rw [cvtEnc_tapered h mode hx]
  refine ⟨fun h0 => ?_, fun hle => ?_, fun h0 hle => ?_⟩
  · rw [ratOf_fin_eq_zero.1 (hu.symm.trans h0)]
    rfl
  · have hm : m ≠ 0 := fun h0 => by
      rw [habs, h0, magOf_eq_zero.2 rfl] at hle
      linarith
    have hsign : (2 ^ n - (2 ^ (n - 1) - 1) = 2 ^ (n - 1) + 1) ∧ 2 ^ (n - 1) - 1 ≠ 0 := by obtain rfl | rfl := hn <;> decide
    rw [taperedRound_top mode s hm (by rw [htop, ← habs]; exact hle) hsign.2, hsign.1, htop, ← habs, hu]
    simp only [ratOf_fin_pos hm, decide_eq_true_eq]
    cases s <;> rfl
  · have hm : m ≠ 0 := fun hm => h0 (hu.trans (ratOf_fin_eq_zero.2 hm))
    have hsmall : |u| < top := by nlinarith [abs_nonneg u]
    have hle' : |u| ≤ top⁻¹ := by rwa [le_inv_comm₀ (abs_pos.2 h0) (by linarith), ← one_div, le_div_iff₀' (abs_pos.2 h0)]
    rw [taperedRound_low mode s hm (by rw [htop, ← habs]; exact hsmall) (by rw [zpow_neg, htop, ← habs]; exact hle'), hu]
    simp only [ratOf_fin_pos hm]
    cases s <;> rfl

/-! ### The floats of a slot -/

theorem encode_float {slot : Word} (h : slotFmt slot ∈ [.f32, .bf16, .f16]) (mode : Mode) {x : Word} {s : Bool} {m : Nat} {e : ℤ} (hx : inF32 x = .fin s m e) :
    let f := slotFmt slot
    let y := roundFloat f mode ((inF32 x).scale (-slotScale slot))
    let r := cvtEncOp slot mode x
    r.1.toNat = floatPattern f (if y.isInf = true ∧ slotSat slot = true then .fin y.sign (2 ^ (f.fracBits + 1) - 1) ((f.bias : Int) - f.fracBits) else y) ∧
    ((0 : Nat) ∈ r.2 ↔ y.isInf = true) ∧ (2 ∈ r.2 ↔ y.isZero = true ∧ (inF32 x).isZero = false) := by
  intro f y r
  have hf : f ∈ [Fmt.f32, .bf16, .f16] := h
  have hpow : 2 ^ f.width ≤ 2 ^ 32 := Nat.pow_le_pow_right (by decide) (width_le hf)
  have hyx : roundFloat f mode (.fin s m (e + -slotScale slot)) = y := by rw [show y = roundFloat f mode ((inF32 x).scale (-slotScale slot)) from rfl, hx]; rfl
  have hy := roundFloat_holds hf mode s m (e + -slotScale slot)
  have hr : r = (wd (floatPattern f (if slotSat slot && y.isInf then .fin y.sign f.maxFin.1 f.maxFin.2 else y)),
      (if y.isZero && !(inF32 x).isZero then [2] else []) ++ (if (slotSat slot && y.isInf) || (!false && y.isInf) then [0] else [])) := by
    show cvtEncOp slot mode x = _
    rw [cvtEncOp, hx, encodeVal_float (f := f) rfl h mode (v := .fin s m e) (y := y) nofun hyx, Val.scale, isZero_fin, isZero_fin]
    rfl
  rw [hyx] at hy
  rw [hr]
  obtain hinf | ⟨q, k, hfin, hh⟩ := hy
  · rw [hinf]
    have hmax : f.Holds f.maxFin.1 f.maxFin.2 := by
      obtain ⟨hfrac, hbias, -⟩ := fmt_facts hf
      refine holds_of_bounds ?_ le_rfl (Nat.sub_lt (Nat.two_pow_pos _) (by decide))
      show 1 - (f.bias : ℤ) - f.fracBits ≤ (f.bias : ℤ) - f.fracBits
      omega
    have hlt1 := (floatPattern_lt_of_holds hf s hmax).trans_le hpow
    have hlt2 := (floatPattern_inf_lt hf s).trans_le hpow
    cases slotSat slot
    · refine ⟨(BitVec.toNat_ofNat _ _).trans (Nat.mod_eq_of_lt hlt2), by simp, by simp [Val.isZero]⟩
    · refine ⟨(BitVec.toNat_ofNat _ _).trans (Nat.mod_eq_of_lt hlt1), by simp, by simp [Val.isZero]⟩
  · rw [hfin]
    have hlt := (floatPattern_lt_of_holds hf s hh).trans_le hpow
    refine ⟨?_, ?_, ?_⟩
    · simp only [Val.isInf_fin, Bool.and_false, Bool.false_eq_true, false_and, if_false]
      exact (BitVec.toNat_ofNat _ _).trans (Nat.mod_eq_of_lt hlt)
    · simp
    · simp

/-! ### NaN and infinities (R166, R167) -/

theorem cvtEnc_nan {slot : Word} {mode : Mode} {x : Word} (h : inF32 x = .nan) :
    (slotFmt slot ∈ [.i8, .n8] → cvtEncOp slot mode x = (0, [0])) ∧
    (∀ es, (slotFmt slot = .t8 es → cvtEncOp slot mode x = (0x80, [])) ∧ (slotFmt slot = .t6 es → cvtEncOp slot mode x = (0x20, []))) ∧
    (slotFmt slot = .f32 → cvtEncOp slot mode x = (0x7FC00000, [])) ∧ (slotFmt slot = .bf16 → cvtEncOp slot mode x = (0x7FC0, [])) ∧
    (slotFmt slot = .f16 → cvtEncOp slot mode x = (0x7E00, [])) := by
  simp only [cvtEncOp, h, List.mem_cons, List.not_mem_nil, or_false]
  refine ⟨?_, fun es => ⟨?_, ?_⟩, ?_, ?_, ?_⟩
  · rintro (hf | hf) <;> simp only [encodeVal, hf] <;> rfl
  all_goals
    intro hf
    simp only [encodeVal, hf]
    rfl

/-- An infinity in the floats of a slot: itself, or with saturation the largest number, which is one pattern below it. -/
theorem infinities_encoded : ∀ q ∈ [(Fmt.f32, (0x80000000 : Word), (0x7F800000 : Word)), (.bf16, 0x8000, 0x7F80), (.f16, 0x8000, 0x7C00)], ∀ neg sat : Bool,
    ((wd (floatPattern q.1 (if sat then .fin neg q.1.maxFin.1 q.1.maxFin.2 else .inf neg)), if sat then [0] else []) : FRes) =
      ((if neg then q.2.1 else 0) + q.2.2 - (if sat then 1 else 0), if sat then [0] else []) := by
  decide +kernel

theorem cvtEnc_inf {slot : Word} {mode : Mode} {x : Word} {neg : Bool} (h : inF32 x = .inf neg) :
    (slotFmt slot = .i8 → cvtEncOp slot mode x = (if neg then 0x80 else 0x7F, [0])) ∧ (slotFmt slot = .n8 → cvtEncOp slot mode x = (if neg then 0 else 0xFF, [0])) ∧
    (∀ es, (slotFmt slot = .t8 es → cvtEncOp slot mode x = (if neg then 0x81 else 0x7F, [0])) ∧
      (slotFmt slot = .t6 es → cvtEncOp slot mode x = (if neg then 0x21 else 0x1F, [0]))) ∧
    ∀ q ∈ [(Fmt.f32, (0x80000000 : Word), (0x7F800000 : Word)), (.bf16, 0x8000, 0x7F80), (.f16, 0x8000, 0x7C00)], slotFmt slot = q.1 →
      cvtEncOp slot mode x = ((if neg then q.2.1 else 0) + q.2.2 - (if slotSat slot then 1 else 0), if slotSat slot then [0] else []) := by
  refine ⟨fun hf => ?_, fun hf => ?_, fun es => ⟨fun hf => ?_, fun hf => ?_⟩, fun q hq hf => ?_⟩
  · simp only [cvtEncOp, h, encodeVal, hf, Val.scale]
    cases neg <;> rfl
  · simp only [cvtEncOp, h, encodeVal, hf, Val.scale]
    cases neg <;> rfl
  · rw [cvtEncOp, h, encodeVal_tapered (.inl ⟨hf, rfl⟩) mode false (by nofun)]
    cases neg <;> rfl
  · rw [cvtEncOp, h, encodeVal_tapered (.inr ⟨hf, rfl⟩) mode false (by nofun)]
    cases neg <;> rfl
  · have hmem : slotFmt slot ∈ [.f32, .bf16, .f16] := by
      rw [hf]
      exact List.mem_map_of_mem (f := Prod.fst) hq
    rw [cvtEncOp, h, encodeVal_float hf (hf ▸ hmem) mode (v := .inf neg) (y := .inf neg) nofun rfl]
    refine Eq.trans ?_ (infinities_encoded q hq neg (slotSat slot))
    cases slotSat slot <;> rfl

/-! ### What a slot's pattern stands for, and CVT.DEC (R159, R191) -/

theorem scale_scale_neg (v : Val) (k : ℤ) : (v.scale k).scale (-k) = v := by
  cases v with
  | fin s m e => rw [Val.scale, Val.scale, add_neg_cancel_right]
  | nan => rfl
  | inf s => rfl

theorem slotVal_tapered {slot : Word} {n es : Nat} (h : IsTapered slot n es) {x : Nat} (hx : x < 2 ^ n) : slotVal slot x = (taperedValue x n es).scale (slotScale slot) := by
  obtain ⟨hf, rfl⟩ | ⟨hf, rfl⟩ := h
  · simp only [slotVal, hf, decodeVal, Nat.mod_eq_of_lt (show x < 256 from hx)]
  · simp only [slotVal, hf, decodeVal, Nat.mod_eq_of_lt (show x < 64 from hx)]

theorem isNan_scale (v : Val) (k : ℤ) : (v.scale k).isNan = v.isNan := by cases v <;> rfl
theorem isInf_scale (v : Val) (k : ℤ) : (v.scale k).isInf = v.isInf := by cases v <;> rfl
theorem sign_scale (v : Val) (k : ℤ) : (v.scale k).sign = v.sign := by cases v <;> rfl

theorem taperedValue_isNan {p n es : Nat} : (taperedValue p n es).isNan = true ↔ p = 2 ^ (n - 1) := by
  rw [taperedValue]
  by_cases h0 : p = 0
  · have := Nat.two_pow_pos (n - 1)
    rw [if_pos h0]
    exact ⟨nofun, fun h => by omega⟩
  · rw [if_neg h0]
    by_cases h1 : p = 2 ^ (n - 1)
    · rw [if_pos h1]
      exact ⟨fun _ => h1, fun _ => rfl⟩
    · rw [if_neg h1]
      exact ⟨nofun, fun h => absurd h h1⟩

theorem taperedValue_isInf (p n es : Nat) : (taperedValue p n es).isInf = false := by
  rw [taperedValue]
  split
  · rfl
  split
  · rfl
  · rfl

theorem encode_slotVal_tapered {slot : Word} {mode : Mode} {x es n : Nat} (hes : es ≤ 2) (h : IsTapered slot n es) (hx : x < 2 ^ n) :
    encodeVal slot mode false (slotVal slot x) = (x, []) := by
  have hback : taperedRound n es mode (taperedValue x n es) = (x, false) := by
    refine taperedRound_taperedValue (q := (n, es)) ?_ mode hx
    obtain rfl | rfl := h.width <;> interval_cases es <;> decide
  by_cases hnan : taperedValue x n es = .nan
  · have hx' := taperedValue_isNan.1 (isNan_eq_true.2 hnan)
    rw [slotVal_tapered h hx, hnan]
    obtain ⟨hf, rfl⟩ | ⟨hf, rfl⟩ := h
    · simp only [Val.scale, encodeVal, hf, hx']; rfl
    · simp only [Val.scale, encodeVal, hf, hx']; rfl
  · have hnan' : (taperedValue x n es).scale (slotScale slot) ≠ .nan := by
      rw [← isNan_eq_false, isNan_scale, isNan_eq_false]
      exact hnan
    rw [slotVal_tapered h hx, encodeVal_tapered h mode false hnan', scale_scale_neg, hback]
    rfl

theorem decode_i8 {slot : Word} (h : slotFmt slot = .i8) (x : Nat) : (slotVal slot x).Finite ∧
    ratOf (slotVal slot x) = ((BitVec.ofNat 8 x).toInt : ℚ) * (2 : ℚ) ^ slotScale slot := by
  have hv : slotVal slot x = .fin (decide ((BitVec.ofNat 8 x).toInt < 0)) (BitVec.ofNat 8 x).toInt.natAbs (slotScale slot) := by simp only [slotVal, h, decodeVal]
  rw [hv]
  exact ⟨finite_fin _ _ _, ratOf_of_int _ _⟩

theorem decode_n8 {slot : Word} (h : slotFmt slot = .n8) {x : Nat} (hx : x < 2 ^ 8) : (slotVal slot x).Finite ∧ ratOf (slotVal slot x) = (x : ℚ) * (2 : ℚ) ^ slotScale slot := by
  have hv : slotVal slot x = .fin false x (slotScale slot) := by simp only [slotVal, h, decodeVal, Nat.mod_eq_of_lt (show x < 256 from hx)]
  rw [hv]
  exact ⟨finite_fin _ _ _, ratOf_positive _ _⟩

theorem decode_float {slot : Word} (h : slotFmt slot ∈ [.f32, .bf16, .f16]) (x : Nat) : slotVal slot x = (floatValue (slotFmt slot) x).scale (slotScale slot) := by
  simp only [List.mem_cons, List.not_mem_nil, or_false] at h
  obtain h | h | h := h <;> simp only [slotVal, h, decodeVal]

/-! ### Packing (R191) -/

theorem narrow_in_word {f : Fmt} {p : Nat} (h : narrowLegal f p = true) : f.width * p + f.width ≤ 32 ∧ 0 < f.width := by
  cases f <;> simp only [narrowLegal, decide_eq_true_eq] at h <;> simp only [Fmt.width] <;> omega

/-- The bits of a field of `w` bits at `lo`. -/
theorem getLsbD_mask (w lo j : Nat) (hj : j < 32) : ((wd (2 ^ w - 1)) <<< lo).getLsbD j = (decide (lo ≤ j) && decide (j < lo + w)) := by
  rw [BitVec.getLsbD_shiftLeft, wd, BitVec.getLsbD_ofNat, Nat.testBit_two_pow_sub_one]
  by_cases h : lo ≤ j
  · simp only [hj, h, decide_true, Bool.true_and, not_lt.2 h, decide_false, Bool.not_false, show j - lo < 32 by omega]
    exact decide_eq_decide.2 (by omega)
  · simp [h, not_le.1 h]

theorem getLsbD_field (x lo j : Nat) (hj : j < 32) : ((wd x) <<< lo).getLsbD j = (decide (lo ≤ j) && x.testBit (j - lo)) := by
  rw [BitVec.getLsbD_shiftLeft, wd, BitVec.getLsbD_ofNat]
  by_cases h : lo ≤ j
  · simp [hj, h, not_lt.2 h, show j - lo < 32 by omega]
  · simp [h, not_le.1 h]

/-- A word with the field of `w` bits at `lo` replaced. -/
theorem getLsbD_replace {w lo x j : Nat} (hx : x < 2 ^ w) (hj : j < 32) (d : Word) :
    ((d &&& ~~~((wd (2 ^ w - 1)) <<< lo)) ||| ((wd x) <<< lo)).getLsbD j = if lo ≤ j ∧ j < lo + w then x.testBit (j - lo) else d.getLsbD j := by
  rw [BitVec.getLsbD_or, BitVec.getLsbD_and, BitVec.getLsbD_not, getLsbD_mask w lo j hj, getLsbD_field x lo j hj]
  by_cases hlo : lo ≤ j
  · by_cases hhi : j < lo + w
    · simp [hlo, hhi]
    · have hbit := Nat.testBit_lt_two_pow (hx.trans_le (Nat.pow_le_pow_right (by decide) (show w ≤ j - lo by omega)))
      simp [hlo, hhi, hbit, hj]
  · simp [hlo, hj]

theorem getLsbD_narrowPack (slot : Word) (p : Nat) (d a : Word) {j : Nat} (hj : j < 32) :
    (narrowPackOp slot p d a).1.getLsbD j = if (slotFmt slot).width * p ≤ j ∧ j < (slotFmt slot).width * p + (slotFmt slot).width then
      ((encodeVal slot (slotMode slot) false (inF32 a)).1 % 2 ^ (slotFmt slot).width).testBit (j - (slotFmt slot).width * p) else d.getLsbD j := by
  have hlt : (encodeVal slot (slotMode slot) false (inF32 a)).1 % 2 ^ (slotFmt slot).width < 2 ^ (slotFmt slot).width := Nat.mod_lt _ (Nat.two_pow_pos _)
  rw [← getLsbD_replace hlt hj d]
  rfl

theorem narrowPack_field {slot : Word} {p : Nat} (h : narrowLegal (slotFmt slot) p = true) (d a : Word) :
    let w := (slotFmt slot).width
    (narrowPackOp slot p d a).1.toNat / 2 ^ (w * p) % 2 ^ w = (encodeVal slot (slotMode slot) false (inF32 a)).1 % 2 ^ w := by
  intro w
  obtain ⟨hin, -⟩ : w * p + w ≤ 32 ∧ 0 < w := narrow_in_word h
  refine Nat.eq_of_testBit_eq fun i => ?_
  rw [Nat.testBit_mod_two_pow, Nat.testBit_div_two_pow]
  by_cases hi : i < w
  · have hbit := getLsbD_narrowPack slot p d a (j := w * p + i) (by omega)
    rw [show (slotFmt slot).width = w from rfl] at hbit
    rw [if_pos ⟨by omega, by omega⟩, Nat.add_sub_cancel_left] at hbit
    rw [decide_eq_true hi, Bool.true_and, Nat.add_comm i]
    exact hbit
  · rw [decide_eq_false hi, Bool.false_and, Nat.testBit_mod_two_pow, decide_eq_false hi, Bool.false_and]

theorem narrowUnpack_eq (slot : Word) (p : Nat) (r : Word) (hw : (slotFmt slot).width ≤ 32) :
    narrowUnpackOp slot p r = cvtDecOp slot .rne (BitVec.ofNat 32 (r.toNat / 2 ^ ((slotFmt slot).width * p) % 2 ^ (slotFmt slot).width)) := by
  have hlt : r.toNat / 2 ^ ((slotFmt slot).width * p) % 2 ^ (slotFmt slot).width < 2 ^ (slotFmt slot).width := Nat.mod_lt _ (Nat.two_pow_pos _)
  have hlt' := hlt.trans_le (Nat.pow_le_pow_right (by decide) hw)
  rw [narrowUnpackOp, cvtDecOp, BitVec.toNat_ofNat, Nat.mod_eq_of_lt hlt', Nat.mod_eq_of_lt hlt]
  rfl

theorem cvtH2f_result (a : Word) : let v := floatValue .f16 (a.toNat % 2 ^ 16)
    let r := cvtH2fOp a
    r.2 = [] ∧ (v.isNan = true → r.1 = 0x7FC00000) ∧
    (v.isNan = false → (inF32 r.1).isNan = false ∧ (inF32 r.1).isInf = v.isInf ∧ (inF32 r.1).sign = v.sign ∧ ratOf (inF32 r.1) = ratOf v) := by
  intro v r
  cases hv : floatValue .f16 (a.toNat % 2 ^ 16) with
  | nan =>
    have hr : r = (0x7FC00000, []) := cvtH2f_nan hv
    rw [hr, show v = .nan from hv]
    exact ⟨rfl, fun _ => rfl, nofun⟩
  | inf s =>
    obtain ⟨hr, hev⟩ := cvtH2f_inf hv
    rw [show v = .inf s from hv, show inF32 r.1 = .inf s from hr]
    exact ⟨hev, nofun, fun _ => ⟨rfl, rfl, rfl, rfl⟩⟩
  | fin s m e =>
    obtain ⟨hev, q, k, hr, hmag⟩ := cvtH2f_fin hv
    rw [show v = .fin s m e from hv, show inF32 r.1 = .fin s q k from hr]
    exact ⟨hev, nofun, fun _ => ⟨rfl, rfl, rfl, by rw [ratOf_fin_sign, ratOf_fin_sign, hmag]⟩⟩

theorem cvtDec_result (slot : Word) (mode : Mode) (a : Word) : let f := slotFmt slot
    let x := a.toNat % 2 ^ f.width
    let sc : ℚ := (2 : ℚ) ^ (slotScale slot)
    ∃ v : Val, cvtDecOp slot mode a = (BitVec.ofNat 32 (outVal .f32 mode v).1, (outVal .f32 mode v).2) ∧
      (f = .i8 → v.isNan = false ∧ v.isInf = false ∧ ratOf v = ((BitVec.ofNat 8 x).toInt : ℚ) * sc) ∧
      (f = .n8 → v.isNan = false ∧ v.isInf = false ∧ ratOf v = (x : ℚ) * sc) ∧
      (∀ n es, f = .t8 es ∧ n = 8 ∨ f = .t6 es ∧ n = 6 → (v.isNan = true ↔ x = 2 ^ (n - 1)) ∧ v.isInf = false ∧ ratOf v = ratOf (taperedValue x n es) * sc) ∧
      (f ∈ [.f32, .bf16, .f16] → v.isNan = (floatValue f x).isNan ∧ v.isInf = (floatValue f x).isInf ∧ v.sign = (floatValue f x).sign ∧
        ratOf v = ratOf (floatValue f x) * sc) := by
  intro f x sc
  have hx : x < 2 ^ f.width := Nat.mod_lt _ (Nat.two_pow_pos _)
  refine ⟨slotVal slot x, rfl, fun h => ?_, fun h => ?_, fun n es h => ?_, fun h => ?_⟩
  · obtain ⟨⟨hn, hi⟩, hr⟩ := decode_i8 h x
    exact ⟨hn, hi, hr⟩
  · obtain ⟨⟨hn, hi⟩, hr⟩ := decode_n8 h (x := x) (by rwa [h] at hx)
    exact ⟨hn, hi, hr⟩
  · have hw : x < 2 ^ n := by
      obtain ⟨hf, hn⟩ | ⟨hf, hn⟩ := h <;> rw [hn] <;> rwa [hf] at hx
    rw [slotVal_tapered h hw, isNan_scale, isInf_scale, ratOf_scale]
    exact ⟨taperedValue_isNan, taperedValue_isInf _ _ _, rfl⟩
  · rw [decode_float h, isNan_scale, isInf_scale, sign_scale, ratOf_scale]
    exact ⟨rfl, rfl, rfl, rfl⟩

/-- Settles O26: every conversion is a value read, scaled and rounded; the widened floats are exact because f32 holds them. -/
theorem conversionResults : Obligations.ConversionResults := by
  refine ⟨fun mode a hn hi => ?_, fun mode a h => floats_nan (isNan_eq_true.1 h), fun mode a neg h => floats_inf h, int_to_f32, fun a h => cvtBf2f_eq h,
    fun a h => cvtBf2f_nan (isNan_eq_true.1 h), cvtH2f_result, fun slot mode x hn hi => ?_, fun slot mode x h r hr => ?_, fun slot mode x neg h r hr => ?_,
    fun slot mode x es n hes h hx => encode_slotVal_tapered hes h hx, cvtDec_result, fun slot p d a h => ?_⟩
  · obtain ⟨s, m, e, hx⟩ := eq_fin_of_finite hn hi
    obtain ⟨hfr, hsign, hev⟩ := cvtFrnd_fin (mode := mode) hx
    refine ⟨roundInt mode s m e, ?_, cvtF2i_fin hx, cvtF2n_fin hx, hfr, ?_, hev, toNat_cvtF2bf mode a, toNat_cvtF2h mode a⟩
    · rw [hx]
      exact roundedInt_roundInt mode s m e
    · rw [hsign, hx]
      rfl
  · obtain ⟨s, m, e, hx'⟩ := eq_fin_of_finite hn hi
    exact ⟨fun h => encode_i8 h mode hx', fun h => encode_n8 h mode hx', fun n es h => encode_tapered h mode hx', fun h => encode_float h mode hx'⟩
  · obtain rfl := List.mem_singleton.1 hr
    exact cvtEnc_nan (isNan_eq_true.1 h)
  · obtain rfl := List.mem_singleton.1 hr
    exact cvtEnc_inf h
  · obtain ⟨hin, -⟩ := narrow_in_word h
    refine ⟨fun j hj hout => ?_, narrowPack_field h d a, narrowUnpack_eq slot p _ (by omega)⟩
    have hbit := getLsbD_narrowPack slot p d a hj
    rwa [if_neg (by omega)] at hbit

end Sys2Proof.Machine
end

section
/-! PROOF. O44 fails: what a tile load waits for may write the scratchpad of another team. -/

namespace Sys2Proof.Machine

/-- A tile load of one row from the front of the scratchpad of team 1, started; its burin core had issued two queue entries before it. -/
def FarStore.tileLoad : MEntry := { id := 8, team := 1, word := 7, op := .load 0 0 1 7, started := true, row := 0, before := 2, held := none }

/-- The older entry of the burin core's queue: a store to the scratchpad of team 2, which has a window on it (R217). -/
def FarStore.store : QEntry := { tid := tidOf 1 32 0, word := 0, loc := .scratch 2 0, addr := 0, rt := 0, flags := 0, op := .store [0x55] }

/-- The younger entry: an atomic on the first word of the tile. -/
def FarStore.atomic : QEntry := { tid := tidOf 1 32 0, word := 0, loc := .scratch 1 0, addr := 0, rt := 0, flags := 0, op := .atomic 0 [] }

/-- Two teams; the format of slot 0 of the first is t8, and its matrix queue holds the load. -/
def FarStore.state : State :=
  { State.reset with
    boot := .running, teams := [(1, { noTeam with slots := [3], queue := [tileLoad] }), (2, noTeam)]
    groups := [(gidOf 1 32, { queue := [store, atomic] })] }

open FarStore

theorem entry_farStore : state.entry 8 = some ([], tileLoad) := by decide +kernel

theorem entryDone_farStore : entryDone state tileLoad = true := by decide +kernel

theorem scratch_farStore : mget 0 (state.team 2).scratch 0 = 0 := by decide +kernel

/-- Completing the load performs the atomic, whose value the tile takes, and so the store in front of it (R228, R229). -/
theorem completeEntry_farStore_scratch : mget 0 ((completeEntry state 8).team 2).scratch 0 = 0x55 := by decide +kernel

/-- Refutes O44: its clause on MATRIX_ENTRY_COMPLETE says that no team but the entry's own changes unless the entry is a drain, but a tile load first performs
the older entries of the burin core's queue up to an atomic on the tile, and a store among them may be to another team's scratchpad. -/
theorem not_matrixEngineSteps : ¬ Obligations.MatrixEngineSteps := by
  unfold Obligations.MatrixEngineSteps
  intro h
  obtain ⟨-, hcomplete, -⟩ := h
  obtain ⟨t, ht, hpost⟩ := hcomplete 8 state ⟨tileLoad, ⟨entry_farStore, rfl, .head _⟩, entryDone_farStore⟩
  obtain ⟨-, hothers, -⟩ := hpost tileLoad entry_farStore
  have hsame := hothers 2 (by decide) nofun
  have he : t = completeEntry state 8 := by
    rw [exec_matrixEntryComplete, execMatrixEntryComplete] at ht
    exact (Host.Outcome.next.inj ht).symm
  have hbyte := completeEntry_farStore_scratch
  rw [← he, hsame, scratch_farStore] at hbyte
  cases hbyte

end Sys2Proof.Machine
end

section
/-! PROOF. What the numeric events of a word change, and what they leave: a layer for O22, O27, O33 and O45. -/

namespace Sys2Proof.Machine

/-! ### Teams that differ in little -/

/-- The same teams stand in two states, each as a relation allows. -/
def TeamsDiffer (R : Team → Team → Prop) (s t : State) : Prop :=
  ∀ u, (mfind s.teams u = none ∧ mfind t.teams u = none) ∨ ∃ x y, mfind s.teams u = some x ∧ mfind t.teams u = some y ∧ R x y

theorem TeamsDiffer.of_teams {R : Team → Team → Prop} (hR : ∀ x, R x x) {s t : State} (h : t.teams = s.teams) : TeamsDiffer R s t := by
  intro u
  rw [h]
  cases hx : mfind s.teams u with
  | none => exact .inl ⟨rfl, rfl⟩
  | some x => exact .inr ⟨x, x, rfl, rfl, hR x⟩

theorem TeamsDiffer.trans {R : Team → Team → Prop} (hR : ∀ x y z, R x y → R y z → R x z) {s t r : State} (h : TeamsDiffer R s t) (k : TeamsDiffer R t r) :
    TeamsDiffer R s r := by
  intro u
  obtain ⟨hs, ht⟩ | ⟨x, y, hs, ht, hxy⟩ := h u
  · obtain ⟨-, hr⟩ | ⟨y, z, ht', -⟩ := k u
    · exact .inl ⟨hs, hr⟩
    · rw [ht] at ht'
      cases ht'
  · obtain ⟨ht', -⟩ | ⟨y', z, ht', hr, hyz⟩ := k u
    · rw [ht] at ht'
      cases ht'
    · rw [ht] at ht'
      obtain rfl := Option.some.inj ht'
      exact .inr ⟨x, z, hs, hr, hR _ _ _ hxy hyz⟩

theorem TeamsDiffer.mono {R Q : Team → Team → Prop} (hRQ : ∀ x y, R x y → Q x y) {s t : State} (h : TeamsDiffer R s t) : TeamsDiffer Q s t := by
  intro u
  obtain h | ⟨x, y, hs, ht, hxy⟩ := h u
  · exact .inl h
  · exact .inr ⟨x, y, hs, ht, hRQ _ _ hxy⟩

theorem TeamsDiffer.modTeam {R : Team → Team → Prop} {f : Team → Team} (hR : ∀ x, R x x) (hf : ∀ x, R x (f x)) (s : State) (u : Nat) : TeamsDiffer R s (s.modTeam u f) := by
  intro v
  rw [State.modTeam_teams, mfind_mmod]
  cases hx : mfind s.teams v with
  | none => exact .inl ⟨rfl, by split <;> rfl⟩
  | some x =>
    refine .inr ⟨x, if v = u then f x else x, rfl, by split <;> rfl, ?_⟩
    split
    · exact hf x
    · exact hR x

theorem TeamsDiffer.team {R : Team → Team → Prop} (hR : R noTeam noTeam) {s t : State} (h : TeamsDiffer R s t) (u : Nat) : R (s.team u) (t.team u) := by
  rw [State.team, State.team, mget, mget]
  obtain ⟨hs, ht⟩ | ⟨x, y, hs, ht, hxy⟩ := h u
  · rw [hs, ht]
    exact hR
  · rw [hs, ht]
    exact hxy

theorem TeamsDiffer.isSome {R : Team → Team → Prop} {s t : State} (h : TeamsDiffer R s t) (u : Nat) : (mfind t.teams u).isSome = (mfind s.teams u).isSome := by
  obtain ⟨hs, ht⟩ | ⟨x, y, hs, ht, -⟩ := h u
  · rw [hs, ht]
  · rw [hs, ht]
    rfl

/-- A team whose scratchpad alone may have changed. -/
def Team.ScratchOnly (x y : Team) : Prop := y = { x with scratch := y.scratch, scratchPoison := y.scratchPoison }

theorem Team.ScratchOnly.refl (x : Team) : x.ScratchOnly x := rfl
theorem Team.ScratchOnly.trans (x y z : Team) (h : x.ScratchOnly y) (k : y.ScratchOnly z) : x.ScratchOnly z := by
  unfold Team.ScratchOnly at *
  rw [k, h]

/-- A team whose numeric windows and scratchpad alone may have changed. -/
def Team.WindowsOnly (x y : Team) : Prop := y = { x with windows := y.windows, scratch := y.scratch, scratchPoison := y.scratchPoison }

theorem Team.WindowsOnly.refl (x : Team) : x.WindowsOnly x := rfl
theorem Team.WindowsOnly.trans (x y z : Team) (h : x.WindowsOnly y) (k : y.WindowsOnly z) : x.WindowsOnly z := by
  unfold Team.WindowsOnly at *
  rw [k, h]
theorem Team.ScratchOnly.windowsOnly (x y : Team) (h : x.ScratchOnly y) : x.WindowsOnly y := by
  unfold Team.ScratchOnly at h
  unfold Team.WindowsOnly
  rw [h]

/-! ### A record for the error ring (R418) -/

/-- What the device writes for itself when it logs an error: bytes of memory or scratchpad, the directory and the ring's registers. -/
structure Logged (s t : State) : Prop where
  rest : t = { s with teams := t.teams, mem := t.mem, poison := t.poison, confined := t.confined, dir := t.dir, sys := t.sys, errSeq := t.errSeq }
  teams : TeamsDiffer Team.ScratchOnly s t
  sys : ∀ r, r ≠ 0x6013 → r ≠ 0x6014 → t.sysReg r = s.sysReg r

theorem Logged.refl (s : State) : Logged s s := ⟨rfl, .of_teams .refl rfl, fun _ _ _ => rfl⟩

theorem Logged.trans {s t r : State} (h : Logged s t) (k : Logged t r) : Logged s r :=
  ⟨by rw [k.rest, h.rest], h.teams.trans .trans k.teams, fun x h1 h2 => (k.sys x h1 h2).trans (h.sys x h1 h2)⟩

theorem Logged.setSys (s : State) {n : Nat} (h : n = 0x6013 ∨ n = 0x6014) (v : DWord) : Logged s (s.setSys n v) := by
  refine ⟨rfl, .of_teams .refl rfl, fun r h1 h2 => State.sysReg_setSys_other s _ _ _ ?_⟩
  obtain rfl | rfl := h
  · exact h1
  · exact h2

theorem Logged.modTeam {f : Team → Team} (hf : ∀ x, Team.ScratchOnly x (f x)) (s : State) (u : Nat) : Logged s (s.modTeam u f) :=
  ⟨rfl, .modTeam .refl hf s u, fun _ _ _ => rfl⟩

/-- A state whose directory alone differs. -/
theorem Logged.of_dir {s t : State} (h : t = { s with dir := t.dir }) : Logged s t := by
  rw [h]
  exact ⟨rfl, .of_teams .refl rfl, fun _ _ _ => rfl⟩

theorem writeByte_logged (s : State) (l : Loc) (v : Byte) : Logged s (writeByte s l v) := by
  unfold writeByte rawSet
  cases resolve s l with
  | phys a =>
    simp only
    split
    · exact .refl s
    · exact ⟨rfl, .of_teams .refl rfl, fun _ _ _ => rfl⟩
  | scratch u o => exact .modTeam (f := fun x => { x with scratch := mset 0 x.scratch o v }) (fun _ => rfl) s u

theorem writeBytes_logged (s : State) (l : Loc) (vs : List Byte) : Logged s (writeBytes s l vs) := by
  induction vs generalizing s l with
  | nil => exact .refl s
  | cons v vs ih => exact (writeByte_logged s l v).trans (ih _ _)

theorem setPoison_logged (s : State) (l : Loc) (on : Bool) : Logged s (setPoison s l on) := by
  unfold setPoison
  split
  · exact ⟨rfl, .of_teams .refl rfl, fun _ _ _ => rfl⟩
  · exact .modTeam (f := fun x => { x with scratchPoison := if on then sadd x.scratchPoison (_ / 32) else sdel x.scratchPoison (_ / 32) }) (fun _ => rfl) s _

theorem writeBeat_logged (s : State) (l : Loc) (vs : List Byte) (bad : Bool) : Logged s (writeBeat s l vs bad) := by
  have hw := writeBytes_logged s l vs
  unfold writeBeat
  simp only
  split
  · exact hw.trans (setPoison_logged _ _ _)
  · split
    · exact hw.trans (setPoison_logged _ _ _)
    · exact hw

theorem writeBeats_logged (n : Nat) (s : State) (l : Loc) (vs : List Byte) : Logged s (writeBeats n s l vs) := by
  induction n generalizing s l vs with
  | zero => exact .refl s
  | succ n ih =>
    simp only [writeBeats]
    split
    · exact .refl s
    · exact (writeBeat_logged _ _ _ _).trans (ih _ _ _)

theorem writeOut_logged (s : State) (l : Loc) (vs : List Byte) : Logged s (writeOut s l vs) := writeBeats_logged _ s l vs

theorem modDir_logged (s : State) (l : Nat) (f : Dir → Dir) : Logged s (s.modDir l f) := .of_dir rfl
theorem fitL2_logged (s : State) (d l : Nat) : Logged s (fitL2 s d l) := .of_dir rfl

theorem noteHome_logged (s : State) (l : Loc) : Logged s (noteHome s l) := by
  unfold noteHome
  split
  · exact .refl s
  · exact ((modDir_logged s _ _).trans (fitL2_logged _ _ _)).trans (modDir_logged _ _ _)

theorem noteHomes_logged (s : State) (l : Loc) (n : Nat) : Logged s (noteHomes s l n) :=
  foldl_keeps (p := Logged s) (fun t x ht => ht.trans (noteHome_logged t x)) _ s (.refl s)

theorem deviceOut_logged (s : State) (l : Loc) (bs : List Byte) : Logged s (deviceOut s l bs) :=
  (noteHomes_logged s l bs.length).trans (writeOut_logged _ l bs)

/-- A record pushed on the error ring. -/
theorem ringPush_logged {s t : State} {r : List Byte} (e : ringPush s 0x6012 0x6013 32 r = some t) : Logged s t := by
  unfold ringPush at e
  split at e
  · cases e
  · simp only at e
    split at e
    · cases e
    · obtain rfl := Option.some.inj e
      exact Logged.trans (deviceOut_logged s _ r) (.setSys _ (.inl rfl) _)

theorem logError_logged (s : State) (k : Nat) (u : UnitId) (a : Nat) (c : Option Nat) (w : Word) : Logged s (logError s k u a c w) := by
  unfold logError
  simp only
  split
  · next e => exact (ringPush_logged e).trans ⟨rfl, .of_teams .refl rfl, fun _ _ _ => rfl⟩
  · exact .setSys s (.inr rfl) _

/-- Where the error ring is off, a record is counted in ERRLOST alone. -/
theorem logError_off {s : State} (h : ringBase s 0x6012 = none) (k : Nat) (u : UnitId) (a : Nat) (c : Option Nat) (w : Word) :
    logError s k u a c w = s.setSys 0x6014 (dw (min (2 ^ 32 - 1) ((s.sysReg 0x6014).toNat % 2 ^ 32 + 1))) := by
  simp only [logError, ringPush, h]

theorem Logged.threads {s t : State} (h : Logged s t) : t.threads = s.threads := by rw [h.rest]
theorem Logged.irqs {s t : State} (h : Logged s t) : t.irqs = s.irqs := by rw [h.rest]
theorem Logged.isSome {s t : State} (h : Logged s t) (u : Nat) : (mfind t.teams u).isSome = (mfind s.teams u).isSome := h.teams.isSome u
theorem Logged.team {s t : State} (h : Logged s t) (u : Nat) : (s.team u).ScratchOnly (t.team u) := h.teams.team (.refl _) u
theorem Logged.windows {s t : State} (h : Logged s t) (u : Nat) : (t.team u).windows = (s.team u).windows := by rw [h.team u]

/-! ### Faults that wait (R401) -/

/-- A thread with more faults that wait behind its others. -/
def Thread.addFaults (x : Thread) (fs : List TrapInfo) : Thread := { x with faults := x.faults ++ fs }

theorem Thread.addFaults_nil (x : Thread) : x.addFaults [] = x := by rw [Thread.addFaults, List.append_nil]
theorem Thread.addFaults_addFaults (x : Thread) (fs gs : List TrapInfo) : (x.addFaults fs).addFaults gs = x.addFaults (fs ++ gs) := by
  simp only [Thread.addFaults, List.append_assoc]

theorem mfind_pendFault (s : State) (x y : Nat) (f : TrapInfo) :
    mfind (pendFault s x f).threads y = (mfind s.threads y).map (fun t => t.addFaults (if y = x then [f] else [])) := by
  rw [pendFault, mfind_mmod]
  split
  · rfl
  · simp only [Thread.addFaults_nil, Option.map_id']

/-- The faults that `pendFaults` gives a thread. -/
def faultsFor (f : TrapInfo) (x : Nat) (ps : List (Nat × Nat)) : List TrapInfo := (ps.filter (fun p => decide (p.1 = x))).map (fun p => { f with trapNo := p.2 })

theorem mfind_pendFaults (f : TrapInfo) (ps : List (Nat × Nat)) (s : State) (x : Nat) :
    mfind (pendFaults s f ps).threads x = (mfind s.threads x).map (fun t => t.addFaults (faultsFor f x ps)) := by
  induction ps generalizing s with
  | nil => simp only [pendFaults, faultsFor, List.filter_nil, List.map_nil, Thread.addFaults_nil, Option.map_id']
  | cons p ps ih =>
    rw [pendFaults, ih, mfind_pendFault, Option.map_map]
    congr 1
    funext t
    rw [Function.comp_apply, Thread.addFaults_addFaults]
    by_cases h : p.1 = x
    · simp [faultsFor, h]
    · simp [faultsFor, h, Ne.symm h]

theorem pendFaults_rest (f : TrapInfo) (ps : List (Nat × Nat)) (s : State) : pendFaults s f ps = { s with threads := (pendFaults s f ps).threads } := by
  induction ps generalizing s with
  | nil => rfl
  | cons p ps ih =>
    rw [pendFaults, ih]
    rfl

/-- In a list of distinct threads each gets one fault. -/
theorem faultsFor_mem (f : TrapInfo) {ps : List (Nat × Nat)} (hn : (ps.map Prod.fst).Nodup) {p : Nat × Nat} (hp : p ∈ ps) : faultsFor f p.1 ps = [{ f with trapNo := p.2 }] := by
  induction ps with
  | nil => cases hp
  | cons q qs ih =>
    rw [List.map_cons, List.nodup_cons] at hn
    obtain ⟨hq, hqs⟩ := hn
    rcases List.mem_cons.1 hp with rfl | hp
    · have hnone : qs.filter (fun r => decide (r.1 = p.1)) = [] := by
        refine List.filter_eq_nil_iff.2 fun r hr he => hq ?_
        rw [← of_decide_eq_true he]
        exact List.mem_map_of_mem hr
      simp [faultsFor, hnone]
    · have hne : q.1 ≠ p.1 := fun he => hq (he ▸ List.mem_map_of_mem hp)
      rw [← ih hqs hp]
      simp [faultsFor, hne]

theorem faultsFor_not_mem (f : TrapInfo) {ps : List (Nat × Nat)} {x : Nat} (hx : x ∉ ps.map Prod.fst) : faultsFor f x ps = [] := by
  rw [faultsFor, List.map_eq_nil_iff, List.filter_eq_nil_iff]
  exact fun r hr he => hx (of_decide_eq_true he ▸ List.mem_map_of_mem hr)

end Sys2Proof.Machine
end

section
/-! PROOF. O27: one class of events of one word counted in its team's window, and what that makes of the rest. -/

namespace Sys2Proof.Machine

/-! ### The window of a class (R177, R180) -/

/-- The vector window of a class of a team: its events and its units. -/
def State.window (s : State) (uid c : Nat) : Nat × Nat := mget (0, 0) (s.team uid).windows c

/-- The control register of a class for a team. -/
def State.control (s : State) (uid c : Nat) : Nat := nevctl s (s.team uid).ctx c

/-- The event count of a class with `n` more, which saturates. -/
def State.counted (s : State) (uid c n : Nat) : Nat := min (2 ^ 32 - 1) ((s.window uid c).1 + n)

/-- Whether `n` more events take a class above its threshold. -/
def State.crossed (s : State) (uid c n : Nat) : Bool := decide (s.control uid c % 2 ^ 32 < s.counted uid c n)

/-- The action of a class that crosses its threshold. -/
def State.action (s : State) (uid c : Nat) : Nat := s.control uid c / 2 ^ 56 % 4

/-- The fault of action 1. -/
def numericTrap (word : Word) : TrapInfo := { cause := 0x20, addr := 0, word := word, flags := 1 }

/-- A team with one window set. -/
def Team.setWindow (t : Team) (c : Nat) (v : Nat × Nat) : Team := { t with windows := mset (0, 0) t.windows c v }

theorem Team.windowsOnly_setWindow (t : Team) (c : Nat) (v : Nat × Nat) : t.WindowsOnly (t.setWindow c v) := rfl

/-- The window of a class with `n` events counted, before any action. -/
def tally (s : State) (uid c n : Nat) : State :=
  s.modTeam uid (fun t => t.setWindow c (if s.crossed uid c n then 0 else s.counted uid c n, (s.window uid c).2))

theorem countEvents_eq {n : Nat} (hn : n ≠ 0) (s : State) (uid c : Nat) (tids : List (Nat × Nat)) (word : Word) :
    countEvents s uid false c n tids word = if s.crossed uid c n then fireAction (tally s uid c n) uid false c tids word else tally s uid c n := by
  have hlow (x : Nat) : bits x 31 0 = x % 2 ^ 32 := by simp [bits]
  simp only [countEvents, if_neg hn, hlow]
  rfl

theorem tally_windowsOnly (s : State) (uid c n : Nat) : TeamsDiffer Team.WindowsOnly s (tally s uid c n) :=
  .modTeam .refl (fun t => t.windowsOnly_setWindow c _) s uid

theorem ctx_tally (s : State) (uid c n : Nat) : ((tally s uid c n).team uid).ctx = (s.team uid).ctx := by
  rw [(tally_windowsOnly s uid c n).team (.refl _) uid]

theorem control_tally (s : State) (uid c n : Nat) : nevctl (tally s uid c n) ((tally s uid c n).team uid).ctx c = s.control uid c := by
  rw [ctx_tally]
  rfl

/-- What counting a class of one vector word does: it ends with the count, or a fault for each thread that raised the class, or an interrupt. -/
theorem countEvents_cases {n : Nat} (hn : n ≠ 0) (s : State) (uid c : Nat) (tids : List (Nat × Nat)) (word : Word) :
    (¬(s.crossed uid c n = true ∧ s.action uid c = 1) ∧ ¬(s.crossed uid c n = true ∧ s.action uid c = 2) ∧ countEvents s uid false c n tids word = tally s uid c n) ∨
    ((s.crossed uid c n = true ∧ s.action uid c = 1) ∧ countEvents s uid false c n tids word = pendFaults (tally s uid c n) (numericTrap word) tids) ∨
    ((s.crossed uid c n = true ∧ s.action uid c = 2) ∧ countEvents s uid false c n tids word = numericIrq (tally s uid c n) uid false c) := by
  have haction : bits (nevctl (tally s uid c n) ((tally s uid c n).team uid).ctx c) 57 56 = s.action uid c := by rw [control_tally]; rfl
  rw [countEvents_eq hn]
  by_cases hcross : s.crossed uid c n = true
  · rw [if_pos hcross, fireAction]
    simp only [haction]
    split
    · next h => exact .inr (.inl ⟨⟨hcross, h⟩, rfl⟩)
    · next h => exact .inr (.inr ⟨⟨hcross, h⟩, rfl⟩)
    · next h1 h2 => exact .inl ⟨fun h => h1 h.2, fun h => h2 h.2, rfl⟩
  · rw [if_neg hcross]
    exact .inl ⟨fun h => hcross h.1, fun h => hcross h.1, rfl⟩

theorem window_tally_same {s : State} {uid : Nat} (h : (mfind s.teams uid).isSome = true) (c n : Nat) :
    (tally s uid c n).window uid c = (if s.crossed uid c n then 0 else s.counted uid c n, (s.window uid c).2) := by
  rw [State.window, tally, State.team_modTeam_same s uid _ h, Team.setWindow, mget_mset_same]

theorem mfind_mset_other {β : Type} [DecidableEq β] (d : β) (m : SMap β) (j x : Nat) (v : β) (h : x ≠ j) : mfind (mset d m j v) x = mfind m x := by
  rw [mset]
  split
  · exact mfind_mdel_other m j x h
  · exact mfind_mput_other m j x v h

theorem mfind_window_tally_other {s : State} {uid : Nat} (h : (mfind s.teams uid).isSome = true) {c k : Nat} (hk : k ≠ c) (n : Nat) :
    mfind ((tally s uid c n).team uid).windows k = mfind (s.team uid).windows k := by
  rw [tally, State.team_modTeam_same s uid _ h, Team.setWindow, mfind_mset_other _ _ _ _ _ hk]

theorem numericIrq_eq (s : State) (u : Nat) (m : Bool) (c : Nat) :
    ∃ t, Logged s t ∧ numericIrq s u m c = { t with irqs := t.irqs ++ [.numeric (s.team u).ctx c m] } := ⟨_, logError_logged s _ _ _ _ _, rfl⟩

/-- The windows after a class has been counted. -/
theorem windows_countEvents {n : Nat} (hn : n ≠ 0) (s : State) (uid c : Nat) (tids : List (Nat × Nat)) (word : Word) :
    ((countEvents s uid false c n tids word).team uid).windows = ((tally s uid c n).team uid).windows := by
  obtain ⟨-, -, he⟩ | ⟨-, he⟩ | ⟨-, he⟩ := countEvents_cases hn s uid c tids word
  · rw [he]
  · rw [he, pendFaults_rest]
    rfl
  · obtain ⟨t, ht, hirq⟩ := numericIrq_eq (tally s uid c n) uid false c
    rw [he, hirq]
    exact ht.windows uid

/-- The threads after a class has been counted: with action 1 each thread that raised it has one more fault. -/
theorem mfind_threads_countEvents {n : Nat} (hn : n ≠ 0) (s : State) (uid c : Nat) (tids : List (Nat × Nat)) (word : Word) (x : Nat) :
    mfind (countEvents s uid false c n tids word).threads x =
      (mfind s.threads x).map (fun t => t.addFaults (if s.crossed uid c n = true ∧ s.action uid c = 1 then faultsFor (numericTrap word) x tids else [])) := by
  obtain ⟨hone, -, he⟩ | ⟨hone, he⟩ | ⟨htwo, he⟩ := countEvents_cases hn s uid c tids word
  · rw [he, if_neg hone]
    simp only [Thread.addFaults_nil, Option.map_id']
    rfl
  · rw [he, if_pos hone]
    exact mfind_pendFaults _ _ _ _
  · obtain ⟨t, ht, hirq⟩ := numericIrq_eq (tally s uid c n) uid false c
    rw [he, hirq, if_neg (fun h => by omega)]
    simp only [Thread.addFaults_nil, Option.map_id', ht.threads]
    rfl

/-- Counting changes no system register but those of the error ring. -/
theorem sysReg_countEvents {n : Nat} (hn : n ≠ 0) (s : State) (uid c : Nat) (tids : List (Nat × Nat)) (word : Word) {r : Nat} (h1 : r ≠ 0x6013) (h2 : r ≠ 0x6014) :
    (countEvents s uid false c n tids word).sysReg r = s.sysReg r := by
  obtain ⟨-, -, he⟩ | ⟨-, he⟩ | ⟨-, he⟩ := countEvents_cases hn s uid c tids word
  · rw [he]
    rfl
  · rw [he, pendFaults_rest]
    rfl
  · obtain ⟨t, ht, hirq⟩ := numericIrq_eq (tally s uid c n) uid false c
    rw [he, hirq]
    exact ht.sys r h1 h2

/-! ### Routed events and units (R177, R179) -/

theorem sumEvents_eq {n : Nat} (hn : n ≠ 0) (s : State) (uid c : Nat) :
    sumEvents s uid c n = s.setSys (0x4000 + 16 * (s.team uid).ctx + 4 + c) (s.sysReg (0x4000 + 16 * (s.team uid).ctx + 4 + c) + dw n) := by
  rw [sumEvents, if_neg hn]

theorem toNat_add_dw (x : DWord) (n : Nat) : (x + dw n).toNat = (x.toNat + n) % 2 ^ 64 := by
  rw [BitVec.toNat_add, dw, BitVec.toNat_ofNat, Nat.add_mod_mod]

theorem mem_sadd (m : List Nat) (j k : Nat) : k ∈ sadd m j ↔ k = j ∨ k ∈ m := by
  induction m with
  | nil => simp [sadd]
  | cons a m ih =>
    simp only [sadd]
    split
    · simp
    · split
      · next h => simp [h]
      · simp only [List.mem_cons, ih]
        tauto

/-- The windows of all four classes with their unit counts changed. -/
theorem mget_foldl_units (f : Nat → Nat) (ks : List Nat) (m : SMap (Nat × Nat)) (k : Nat) :
    mget (0, 0) (ks.foldl (fun m c => mset (0, 0) m c ((mget (0, 0) m c).1, f c)) m) k =
      if k ∈ ks then ((mget (0, 0) m k).1, f k) else mget (0, 0) m k := by
  induction ks generalizing m with
  | nil => simp
  | cons c ks ih =>
    rw [List.foldl_cons, ih, mget_mset]
    by_cases hk : k ∈ ks
    · simp only [hk, if_true, List.mem_cons, or_true]
      split
      · next h => rw [h]
      · rfl
    · by_cases hc : k = c
      · simp [hc]
      · simp [hk, hc]

theorem mem_foldl_sadd (p : Nat → Prop) [DecidablePred p] (ks l : List Nat) (k : Nat) :
    k ∈ ks.foldl (fun l c => if p c then sadd l c else l) l ↔ k ∈ l ∨ (k ∈ ks ∧ p k) := by
  induction ks generalizing l with
  | nil => simp
  | cons c ks ih =>
    rw [List.foldl_cons, ih, List.mem_cons]
    by_cases hp : p c
    · rw [if_pos hp, mem_sadd]
      constructor
      · rintro ((rfl | h) | h)
        · exact .inr ⟨.inl rfl, hp⟩
        · exact .inl h
        · exact .inr ⟨.inr h.1, h.2⟩
      · rintro (h | ⟨rfl | h, hk⟩)
        · exact .inl (.inr h)
        · exact .inl (.inl rfl)
        · exact .inr ⟨h, hk⟩
    · rw [if_neg hp]
      constructor
      · rintro (h | h)
        · exact .inl h
        · exact .inr ⟨.inr h.1, h.2⟩
      · rintro (h | ⟨rfl | h, hk⟩)
        · exact .inl h
        · exact absurd hk hp
        · exact .inr ⟨h, hk⟩

/-- The team whose vector word has executed for `n` lanes. -/
theorem team_countUnits {s : State} {uid n : Nat} (h : (mfind s.teams uid).isSome = true) (hn : n ≠ 0) {c : Nat} (hc : c < 4) :
    mget (0, 0) ((countUnits s uid false n).team uid).windows c = ((s.window uid c).1, (s.window uid c).2 + n) ∧
    (c ∈ ((countUnits s uid false n).team uid).winFull ↔
      c ∈ (s.team uid).winFull ∨ (windowLength s (s.team uid).ctx c ≠ 0 ∧ windowLength s (s.team uid).ctx c ≤ (s.window uid c).2 + n)) := by
  have hmem : c ∈ [0, 1, 2, 3] := by
    have : c = 0 ∨ c = 1 ∨ c = 2 ∨ c = 3 := by omega
    simpa using this
  rw [countUnits, if_neg hn, State.team_modTeam_same s uid _ h]
  simp only [winKey, Bool.false_eq_true, if_false]
  rw [mget_foldl_units (fun c => (mget (0, 0) (s.team uid).windows c).2 + n),
    mem_foldl_sadd (fun c => windowLength s (s.team uid).ctx c ≠ 0 ∧ windowLength s (s.team uid).ctx c ≤ (mget (0, 0) (s.team uid).windows c).2 + n), if_pos hmem]
  exact ⟨rfl, or_congr_right (and_iff_right hmem)⟩

theorem windowLength_eq (s : State) (uid c : Nat) : windowLength s (s.team uid).ctx c = (s.sysReg (0x4000 + 16 * (s.team uid).ctx + c)).toNat / 2 ^ 32 % 2 ^ 24 := rfl

/-- Settles O27: the three ways in which events and units are counted, each from what it writes. -/
theorem eventsAreCounted : Obligations.EventsAreCounted := by
  intro s uid c n tids word hc hn hteam _
  refine ⟨⟨?_, fun k hk => ?_, fun hless => ?_, fun hless hone hnodup htids => ?_, fun hless htwo => ?_⟩, ?_, ?_⟩
  · rw [windows_countEvents hn]
    refine (window_tally_same hteam c n).trans ?_
    rw [State.crossed]
    simp only [decide_eq_true_eq]
    exact apply_ite (·, (s.window uid c).2) _ _ _
  · rw [windows_countEvents hn, mget, mget, mfind_window_tally_other hteam hk]
  · rw [countEvents_eq hn, if_neg (show ¬s.crossed uid c n = true from fun h => hless (of_decide_eq_true h))]
    exact ⟨rfl, rfl, rfl, rfl⟩
  · obtain ⟨hno, -⟩ | ⟨-, he⟩ | ⟨⟨-, htwo⟩, -⟩ := countEvents_cases hn s uid c tids word
    · exact absurd ⟨decide_eq_true hless, hone⟩ hno
    · have hrest := pendFaults_rest (numericTrap word) tids (tally s uid c n)
      refine ⟨by rw [he, hrest]; rfl, by rw [he, hrest]; rfl, fun p hp => ?_⟩
      obtain ⟨th, hth⟩ := Option.isSome_iff_exists.1 (htids p hp)
      have hfind := mfind_threads_countEvents hn s uid c tids word p.1
      rw [if_pos ⟨decide_eq_true hless, hone⟩, faultsFor_mem _ hnodup hp, hth] at hfind
      rw [State.thread, State.thread, mget, mget, hfind, hth]
      rfl
    · exact absurd (hone.symm.trans htwo) (by decide)
  · obtain ⟨-, hno, -⟩ | ⟨⟨-, hone⟩, -⟩ | ⟨-, he⟩ := countEvents_cases hn s uid c tids word
    · exact absurd ⟨decide_eq_true hless, htwo⟩ hno
    · exact absurd (hone.symm.trans htwo) (by decide)
    · obtain ⟨t, ht, hirq⟩ := numericIrq_eq (tally s uid c n) uid false c
      rw [he, hirq]
      refine ⟨ht.threads, ?_⟩
      simp only [ht.irqs, ctx_tally]
      rfl
  · rw [sumEvents_eq hn]
    exact ⟨by rw [State.sysReg_setSys_same, toNat_add_dw], fun k hk => State.sysReg_setSys_other s _ _ _ hk, rfl⟩
  · obtain ⟨hwin, hfull⟩ := team_countUnits hteam hn hc
    refine ⟨?_, hwin, ?_⟩
    · rw [countUnits, if_neg hn]
      rfl
    · rw [hfull, windowLength_eq]
      rfl

end Sys2Proof.Machine
end

section
/-! PROOF. O22: a float word puts a result in each lane and then raises its events class by class. -/

namespace Sys2Proof.Machine

/-! ### What raising events may change -/

/-- Numeric events change windows, what an error record writes, interrupts, and the faults that wait of some threads. -/
structure Counted (own : Nat → Prop) (s t : State) : Prop where
  rest : t = { s with threads := t.threads, teams := t.teams, mem := t.mem, poison := t.poison, confined := t.confined, dir := t.dir, sys := t.sys, errSeq := t.errSeq, irqs := t.irqs }
  teams : TeamsDiffer Team.WindowsOnly s t
  others : ∀ x, ¬own x → mfind t.threads x = mfind s.threads x
  faults : ∀ x, ∃ fs, mfind t.threads x = (mfind s.threads x).map (fun y => y.addFaults fs)

section
variable {own : Nat → Prop}

theorem Counted.refl (s : State) : Counted own s s :=
  ⟨rfl, .of_teams .refl rfl, fun _ _ => rfl, fun _ => ⟨[], by simp only [Thread.addFaults_nil, Option.map_id']⟩⟩

theorem Counted.trans {s t r : State} (h : Counted own s t) (k : Counted own t r) : Counted own s r := by
  refine ⟨by rw [k.rest, h.rest], h.teams.trans .trans k.teams, fun x hx => (k.others x hx).trans (h.others x hx), fun x => ?_⟩
  obtain ⟨fs, hfs⟩ := h.faults x
  obtain ⟨gs, hgs⟩ := k.faults x
  refine ⟨fs ++ gs, ?_⟩
  rw [hgs, hfs, Option.map_map]
  congr 1
  funext y
  exact Thread.addFaults_addFaults y fs gs

/-- A change of teams and of what an error record writes, not of threads. -/
theorem Counted.of_threads {s t : State} (hrest : t = { s with teams := t.teams, mem := t.mem, poison := t.poison, confined := t.confined, dir := t.dir, sys := t.sys, errSeq := t.errSeq, irqs := t.irqs })
    (hteams : TeamsDiffer Team.WindowsOnly s t) : Counted own s t := by
  have hthreads : t.threads = s.threads := by rw [hrest]
  refine ⟨by rw [hrest], hteams, fun x _ => by rw [hthreads], fun x => ⟨[], ?_⟩⟩
  simp only [hthreads, Thread.addFaults_nil, Option.map_id']

theorem numericIrq_counted (s : State) (u : Nat) (m : Bool) (c : Nat) : Counted own s (numericIrq s u m c) := by
  obtain ⟨t, ht, he⟩ := numericIrq_eq s u m c
  rw [he]
  exact .of_threads (by rw [ht.rest]) (ht.teams.mono Team.ScratchOnly.windowsOnly)

theorem pendFault_counted (s : State) {x : Nat} (hx : own x) (f : TrapInfo) : Counted own s (pendFault s x f) := by
  refine ⟨rfl, .of_teams .refl rfl, fun y hy => ?_, fun y => ⟨_, mfind_pendFault s x y f⟩⟩
  have hne : y ≠ x := fun h => hy (h ▸ hx)
  rw [mfind_pendFault, if_neg hne]
  simp only [Thread.addFaults_nil, Option.map_id']

theorem pendFaults_counted (f : TrapInfo) {ps : List (Nat × Nat)} (h : ∀ p ∈ ps, own p.1) (s : State) : Counted own s (pendFaults s f ps) := by
  induction ps generalizing s with
  | nil => exact .refl s
  | cons p ps ih =>
    obtain ⟨hp, hps⟩ := List.forall_mem_cons.1 h
    exact (pendFault_counted s hp _).trans (ih hps _)

theorem fireAction_counted (s : State) (u : Nat) (m : Bool) (c : Nat) {ts : List (Nat × Nat)} (w : Word) (hts : ∀ p ∈ ts, own p.1) (hb : m = true → own (burinOf u)) :
    Counted own s (fireAction s u m c ts w) := by
  unfold fireAction
  simp only
  split
  · split
    · exact pendFaults_counted _ hts s
    · next hm =>
      split
      · exact pendFault_counted s (hb (by simpa using hm)) _
      · exact numericIrq_counted _ _ _ _
  · exact numericIrq_counted _ _ _ _
  · exact .refl s

theorem countEvents_counted (s : State) (u : Nat) (m : Bool) (c n : Nat) {ts : List (Nat × Nat)} (w : Word) (hts : ∀ p ∈ ts, own p.1) (hb : m = true → own (burinOf u)) :
    Counted own s (countEvents s u m c n ts w) := by
  unfold countEvents
  split
  · exact .refl s
  · have hset (v : Nat × Nat) : Counted own s (s.modTeam u (fun t => t.setWindow (winKey m c) v)) :=
      .of_threads rfl (.modTeam .refl (fun t => t.windowsOnly_setWindow _ v) s u)
    simp only
    split
    · exact (hset _).trans (fireAction_counted _ _ _ _ _ hts hb)
    · exact hset _

theorem sumEvents_counted (s : State) (u c n : Nat) : Counted own s (sumEvents s u c n) := by
  unfold sumEvents
  simp only
  split
  · exact .refl s
  · exact .of_threads rfl (.of_teams .refl rfl)

theorem Counted.team {s t : State} (h : Counted own s t) (u : Nat) : (s.team u).WindowsOnly (t.team u) := h.teams.team (.refl _) u

end

/-! ### Class by class (log 98) -/

/-- The numeric events of one word by class: which classes are routed, how many there are, which threads raised them. -/
structure Raised where
  routed : Nat → Bool
  number : Nat → Nat
  raisers : Nat → List (Nat × Nat)

/-- The classes of a list of events, each with its thread and handler run. -/
def Raised.of (slot : Option Word) (evs : List ((Nat × Nat) × List Nat)) : Raised where
  routed := routes slot
  number := fun c => (evs.map (fun p => classCount c p.2)).sum
  raisers := fun c => (evs.filter (fun p => decide (classCount c p.2 ≠ 0))).map Prod.fst

/-- One class of a word's events. -/
def Raised.step (e : Raised) (uid : Nat) (word : Word) (s : State) (c : Nat) : State :=
  if e.routed c then sumEvents s uid c (e.number c) else countEvents s uid false c (e.number c) (e.raisers c) word

theorem raiseEvents_eq (s : State) (uid : Nat) (slot : Option Word) (evs : List ((Nat × Nat) × List Nat)) (word : Word) :
    raiseEvents s uid slot evs word = eachLane ((Raised.of slot evs).step uid word) s [0, 1, 2, 3] := rfl

/-- The faults that one class gives a thread. -/
def Raised.faults (e : Raised) (uid : Nat) (word : Word) (s : State) (x c : Nat) : List TrapInfo :=
  if e.routed c = false ∧ e.number c ≠ 0 ∧ s.crossed uid c (e.number c) = true ∧ s.action uid c = 1 then faultsFor (numericTrap word) x (e.raisers c) else []

/-- The register that sums the routed events of a class. -/
def sumRegister (s : State) (uid c : Nat) : Nat := 0x4000 + 16 * (s.team uid).ctx + 4 + c

/-- What the events of some classes have done. -/
structure Raised.Took (e : Raised) (uid : Nat) (word : Word) (cs : List Nat) (s t : State) : Prop where
  ctx : (t.team uid).ctx = (s.team uid).ctx
  present : (mfind t.teams uid).isSome = true
  control : ∀ c < 4, t.control uid c = s.control uid c
  kept : ∀ c, c ∉ cs ∨ e.routed c = true ∨ e.number c = 0 → mfind (t.team uid).windows c = mfind (s.team uid).windows c
  windows : ∀ c ∈ cs, e.routed c = false → e.number c ≠ 0 →
    t.window uid c = (if s.crossed uid c (e.number c) then 0 else s.counted uid c (e.number c), (s.window uid c).2)
  threads : ∀ x, mfind t.threads x = (mfind s.threads x).map (fun y => y.addFaults (cs.flatMap (e.faults uid word s x)))

theorem Raised.Took.nil (e : Raised) {uid : Nat} {word : Word} {cs : List Nat} {s : State} (h : (mfind s.teams uid).isSome = true)
    (hcs : ∀ c ∈ cs, e.number c = 0) : e.Took uid word cs s s := by
  refine ⟨rfl, h, fun _ _ => rfl, fun _ _ => rfl, fun c hc _ hn => absurd (hcs c hc) hn, fun x => ?_⟩
  have hnone : cs.flatMap (e.faults uid word s x) = [] := by
    rw [List.flatMap_eq_nil_iff]
    exact fun c hc => if_neg fun hf => hf.2.1 (hcs c hc)
  simp only [hnone, Thread.addFaults_nil, Option.map_id']

theorem Raised.Took.append {e : Raised} {uid : Nat} {word : Word} {as bs : List Nat} {s t r : State} (h : e.Took uid word as s t) (k : e.Took uid word bs t r)
    (hdis : ∀ c ∈ bs, c ∉ as) (hlt : ∀ c ∈ bs, c < 4) : e.Took uid word (as ++ bs) s r := by
  have hwin {c : Nat} (hc : c ∈ bs) : t.window uid c = s.window uid c := by rw [State.window, State.window, mget, mget, h.kept c (.inl (hdis c hc))]
  have hcount {c : Nat} (hc : c ∈ bs) (n : Nat) : t.counted uid c n = s.counted uid c n := by rw [State.counted, State.counted, hwin hc]
  have hcross {c : Nat} (hc : c ∈ bs) (n : Nat) : t.crossed uid c n = s.crossed uid c n := by
    rw [State.crossed, State.crossed, hcount hc, h.control c (hlt c hc)]
  refine ⟨k.ctx.trans h.ctx, k.present, fun c hc => (k.control c hc).trans (h.control c hc), fun c hc => ?_, fun c hc hr hn => ?_, fun x => ?_⟩
  · rw [k.kept c (hc.imp_left fun hm hb => hm (List.mem_append_right _ hb)), h.kept c (hc.imp_left fun hm ha => hm (List.mem_append_left _ ha))]
  · by_cases hb : c ∈ bs
    · rw [k.windows c hb hr hn, hcross hb, hcount hb, hwin hb]
    · have ha : c ∈ as := (List.mem_append.1 hc).resolve_right hb
      rw [State.window, mget, k.kept c (.inl hb)]
      exact h.windows c ha hr hn
  · have hfaults : bs.flatMap (e.faults uid word t x) = bs.flatMap (e.faults uid word s x) := by
      refine List.flatMap_congr fun c hc => ?_
      rw [Raised.faults, Raised.faults, hcross hc, State.action, State.action, h.control c (hlt c hc)]
    rw [k.threads, h.threads, Option.map_map, List.flatMap_append, hfaults]
    congr 1
    funext y
    exact Thread.addFaults_addFaults y _ _

theorem Raised.step_counted (e : Raised) (uid : Nat) (word : Word) (s : State) (c : Nat) : Counted (fun _ => True) s (e.step uid word s c) := by
  unfold Raised.step
  split
  · exact sumEvents_counted _ _ _ _
  · exact countEvents_counted _ _ _ _ _ _ (fun _ _ => trivial) (fun _ => trivial)

/-- A class without events changes nothing. -/
theorem Raised.step_of_zero {e : Raised} {c : Nat} (h : e.number c = 0) (uid : Nat) (word : Word) (s : State) : e.step uid word s c = s := by
  rw [Raised.step, sumEvents, countEvents, if_pos h, if_pos h, ite_self]

/-- Classes without events change nothing. -/
theorem Raised.classes_of_zero {e : Raised} {cs : List Nat} (h : ∀ c ∈ cs, e.number c = 0) (uid : Nat) (word : Word) (s : State) : eachLane (e.step uid word) s cs = s := by
  induction cs with
  | nil => rfl
  | cons c cs ih =>
    obtain ⟨hc, hcs⟩ := List.forall_mem_cons.1 h
    rw [eachLane, Raised.step_of_zero hc, ih hcs]

/-- One class, where its step leaves the control registers as they are. -/
theorem Raised.took_step (e : Raised) (word : Word) {s : State} {uid c : Nat} (h : (mfind s.teams uid).isSome = true)
    (hctl : ∀ k < 4, (e.step uid word s c).control uid k = s.control uid k) : e.Took uid word [c] s (e.step uid word s c) := by
  have hframe := e.step_counted uid word s c
  have hctx : ((e.step uid word s c).team uid).ctx = (s.team uid).ctx := by rw [hframe.team uid]
  have hpresent := (hframe.teams.isSome uid).trans h
  by_cases hn : e.number c = 0
  · rw [Raised.step_of_zero hn]
    exact .nil e h (by simpa using hn)
  by_cases hr : e.routed c = true
  · have hstep : e.step uid word s c = s.setSys (sumRegister s uid c) (s.sysReg (sumRegister s uid c) + dw (e.number c)) := by
      rw [Raised.step, if_pos hr, sumEvents_eq hn]
      rfl
    refine ⟨hctx, hpresent, hctl, fun _ _ => by rw [hstep]; rfl, fun k hk hkr => ?_, fun x => ?_⟩
    · obtain rfl := List.mem_singleton.1 hk
      rw [hr] at hkr
      cases hkr
    · have hnone : e.faults uid word s x c = [] := if_neg fun hf => by
        rw [hr] at hf
        cases hf.1
      simp only [List.flatMap_cons, List.flatMap_nil, hnone, List.append_nil, Thread.addFaults_nil, Option.map_id', hstep]
      rfl
  · have hr' : e.routed c = false := Bool.eq_false_iff.2 hr
    have hstep : e.step uid word s c = countEvents s uid false c (e.number c) (e.raisers c) word := by rw [Raised.step, if_neg hr]
    refine ⟨hctx, hpresent, hctl, fun k hk => ?_, fun k hk _ _ => ?_, fun x => ?_⟩
    · have hkc : k ≠ c := by
        rintro rfl
        obtain hk | hk | hk := hk
        · exact hk (List.mem_singleton_self k)
        · exact hr hk
        · exact hn hk
      rw [hstep, windows_countEvents hn, mfind_window_tally_other h hkc]
    · obtain rfl := List.mem_singleton.1 hk
      rw [State.window, hstep, windows_countEvents hn]
      exact window_tally_same h k _
    · have hfaults : e.faults uid word s x c = if s.crossed uid c (e.number c) = true ∧ s.action uid c = 1 then faultsFor (numericTrap word) x (e.raisers c) else [] := by
        rw [Raised.faults]
        exact if_congr (by simp [hr', hn]) rfl rfl
      rw [hstep, mfind_threads_countEvents hn]
      simp only [List.flatMap_cons, List.flatMap_nil, hfaults, List.append_nil]

/-- Classes in turn, where a condition holds throughout under which no step changes a control register. -/
theorem Raised.took_classes (e : Raised) (word : Word) {uid : Nat} {P : State → Prop} (hP : ∀ s, ∀ c < 4, P s → P (e.step uid word s c))
    (hctl : ∀ s, ∀ c < 4, P s → ∀ k < 4, (e.step uid word s c).control uid k = s.control uid k)
    (cs : List Nat) {s : State} (hs : P s) (h : (mfind s.teams uid).isSome = true) (hcs : ∀ c ∈ cs, c < 4) (hn : cs.Nodup) :
    e.Took uid word cs s (eachLane (e.step uid word) s cs) := by
  induction cs generalizing s with
  | nil => exact .nil e h (fun c hc => absurd hc List.not_mem_nil)
  | cons c cs ih =>
    obtain ⟨hc, hcs⟩ := List.forall_mem_cons.1 hcs
    obtain ⟨hnot, hn⟩ := List.nodup_cons.1 hn
    have hone := e.took_step word h (hctl s c hc hs)
    exact hone.append (ih (hP s c hc hs) hone.present hcs hn) (fun x hx he => hnot (List.mem_singleton.1 he ▸ hx)) hcs

/-- One element for each class that a test names. -/
theorem flatMap_ite {β : Type} (p : Nat → Bool) (x : β) (cs : List Nat) : cs.flatMap (fun c => if p c = true then [x] else []) = (cs.filter p).map (fun _ => x) := by
  induction cs with
  | nil => rfl
  | cons c cs ih =>
    rw [List.flatMap_cons, ih]
    by_cases hp : p c = true
    · simp [hp]
    · simp [hp]

/-! ### Contexts of the device: the registers of events are not those of the error ring (R46, R178) -/

/-- A step leaves the context of a team. -/
theorem Raised.ctx_step (e : Raised) (uid : Nat) (word : Word) (s : State) (c : Nat) : ((e.step uid word s c).team uid).ctx = (s.team uid).ctx := by
  rw [(e.step_counted uid word s c).team uid]

/-- Of the registers below those of the error ring a step changes at most the one that sums its class. -/
theorem Raised.sysReg_step (e : Raised) (uid : Nat) (word : Word) (s : State) (c : Nat) {r : Nat} (hr : r < 0x6000) : (e.step uid word s c).sysReg r =
    s.sysReg r + if r = sumRegister s uid c ∧ e.routed c = true then dw (e.number c) else 0 := by
  by_cases hn : e.number c = 0
  · rw [Raised.step_of_zero hn, hn, show dw 0 = 0 from rfl, ite_self, add_zero]
  by_cases hrouted : e.routed c = true
  · rw [Raised.step, if_pos hrouted, sumEvents_eq hn]
    by_cases hreg : r = sumRegister s uid c
    · rw [if_pos ⟨hreg, hrouted⟩, hreg]
      exact State.sysReg_setSys_same s _ _
    · rw [if_neg fun h => hreg h.1, add_zero]
      exact State.sysReg_setSys_other s _ _ _ hreg
  · rw [Raised.step, if_neg hrouted, sysReg_countEvents hn s uid c _ word (by omega) (by omega), if_neg fun h => hrouted h.2, add_zero]

theorem Raised.control_step (e : Raised) (uid : Nat) (word : Word) {s : State} (hctx : (s.team uid).ctx < 512) {c k : Nat} (hk : k < 4) :
    (e.step uid word s c).control uid k = s.control uid k := by
  rw [State.control, State.control, nevctl, nevctl, e.ctx_step, e.sysReg_step uid word s c (by omega), if_neg, add_zero]
  rintro ⟨hreg, -⟩
  rw [sumRegister] at hreg
  omega

/-- The sums of the routed classes. -/
theorem Raised.sums_classes (e : Raised) (word : Word) {uid : Nat} (cs : List Nat) {s : State} (hctx : (s.team uid).ctx < 512) (hn : cs.Nodup) {k : Nat} (hk : k < 4) :
    (eachLane (e.step uid word) s cs).sysReg (sumRegister s uid k) = s.sysReg (sumRegister s uid k) + if k ∈ cs ∧ e.routed k = true then dw (e.number k) else 0 := by
  induction cs generalizing s with
  | nil =>
    rw [if_neg fun h => List.not_mem_nil h.1, add_zero]
    rfl
  | cons c cs ih =>
    obtain ⟨hnot, hn⟩ := List.nodup_cons.1 hn
    have hreg : sumRegister (e.step uid word s c) uid k = sumRegister s uid k := by rw [sumRegister, sumRegister, e.ctx_step]
    have hrest := ih (s := e.step uid word s c) ((e.ctx_step uid word s c).symm ▸ hctx) hn
    rw [hreg, e.sysReg_step uid word s c (by rw [sumRegister]; omega)] at hrest
    have heq : sumRegister s uid k = sumRegister s uid c ↔ k = c := by
      rw [sumRegister, sumRegister]
      omega
    rw [eachLane, hrest, add_assoc]
    congr 1
    by_cases hkc : k = c
    · subst hkc
      simp [hnot]
    · simp [heq, hkc]

end Sys2Proof.Machine
end

section
/-! PROOF. O22: every float, conversion and packing word. -/

namespace Sys2Proof.Machine

/-! ### The events of a float word -/

/-- The events of a word whose lanes have the results `f`. -/
def raisedOf (slot : Option Word) (f : State → Nat → FRes) (s : State) : Raised := .of slot (s.issue.lanes.map (fun l => ((l, s.runOf l), (f s l).2)))

theorem classCount_eq (c : Nat) (es : List Nat) : classCount c es = es.count c := by
  induction es with
  | nil => rfl
  | cons e es ih =>
    rw [classCount, ih, List.count_cons, Nat.add_comm]
    simp only [beq_iff_eq]

theorem number_raisedOf (slot : Option Word) (f : State → Nat → FRes) (s : State) (c : Nat) : (raisedOf slot f s).number c = raisedBy f s c := by
  simp only [raisedOf, Raised.of, raisedBy, List.map_map]
  congr 1
  exact List.map_congr_left fun l _ => classCount_eq c _

theorem raisers_raisedOf (slot : Option Word) (f : State → Nat → FRes) (s : State) (c : Nat) :
    (raisedOf slot f s).raisers c = (s.issue.lanes.filter (fun l => decide (c ∈ (f s l).2))).map (fun l => (l, s.runOf l)) := by
  simp only [raisedOf, Raised.of, List.filter_map, List.map_map]
  have hfilter : s.issue.lanes.filter ((fun p : (Nat × Nat) × List Nat => decide (classCount c p.2 ≠ 0)) ∘ fun l => ((l, s.runOf l), (f s l).2)) =
      s.issue.lanes.filter (fun l => decide (c ∈ (f s l).2)) := by
    refine List.filter_congr fun l _ => ?_
    rw [Function.comp_apply, classCount_eq]
    exact decide_eq_decide.2 (Nat.pos_iff_ne_zero.symm.trans List.count_pos_iff)
  rw [hfilter]
  rfl

theorem faultsFor_raisedOf (slot : Option Word) (f : State → Nat → FRes) {s : State} (hn : s.issue.lanes.Nodup) (t : TrapInfo) {l : Nat} (hl : l ∈ s.issue.lanes) (c : Nat) :
    faultsFor t l ((raisedOf slot f s).raisers c) = if c ∈ (f s l).2 then [{ t with trapNo := s.runOf l }] else [] := by
  rw [raisers_raisedOf]
  have hfst : ((s.issue.lanes.filter (fun l => decide (c ∈ (f s l).2))).map (fun l => (l, s.runOf l))).map Prod.fst = s.issue.lanes.filter (fun l => decide (c ∈ (f s l).2)) := by
    rw [List.map_map]
    exact List.map_id _
  split
  · next hc => exact faultsFor_mem t (by rw [hfst]; exact hn.filter _) (p := (l, s.runOf l)) (List.mem_map_of_mem (List.mem_filter.2 ⟨hl, decide_eq_true hc⟩))
  · next hc =>
    refine faultsFor_not_mem t ?_
    rw [hfst]
    exact fun hm => hc (of_decide_eq_true (List.mem_filter.1 hm).2)

/-! ### The lanes' results -/

theorem faults_withResult (s : State) (l : Nat) (p : Pipe) (n : Bool) (d : Code) (v : Word) : (withResult s l p n d v).faults = (s.thread l).faults := by
  unfold withResult
  split
  · unfold Thread.gdst Thread.setG
    split
    · rfl
    · split <;> rfl
  · have hlatch : ((s.thread l).toLatch p v).faults = (s.thread l).faults := by
      unfold Thread.toLatch
      split <;> rfl
    unfold Thread.dst Thread.setReg
    simp only
    split
    · exact hlatch
    · split
      · exact hlatch
      · exact hlatch

/-- The state with each lane's result put. -/
def withResults (p : Pipe) (n : Bool) (d : Code) (f : State → Nat → FRes) (s : State) : State :=
  eachLane (fun t l => t.put p l n d (f s l).1) s s.issue.lanes

theorem withResults_threads (p : Pipe) (n : Bool) (d : Code) (f : State → Nat → FRes) {s : State} (hn : s.issue.lanes.Nodup) :
    withResults p n d f s = { s with threads := (withResults p n d f s).threads } ∧
    (∀ x, x ∉ s.issue.lanes → mfind (withResults p n d f s).threads x = mfind s.threads x) ∧
    ∀ l ∈ s.issue.lanes, (withResults p n d f s).thread l = withResult s l p n d (f s l).1 :=
  eachLane_threads (fun t l => withResult t l p n d (f s l).1) (fun t l => t.put p l n d (f s l).1) s.issue.lanes hn (fun _ _ => rfl)
    (fun t l m hm x => by simp only [withResult, State.thread_setThread_other t m l x hm]) s

section
variable (p : Pipe) (n : Bool) (d : Code) (f : State → Nat → FRes) {s : State} (hn : s.issue.lanes.Nodup)
include hn

theorem teams_withResults : (withResults p n d f s).teams = s.teams := by rw [(withResults_threads p n d f hn).1]

theorem team_withResults (u : Nat) : (withResults p n d f s).team u = s.team u := by rw [State.team, State.team, teams_withResults p n d f hn]

theorem sysReg_withResults (r : Nat) : (withResults p n d f s).sysReg r = s.sysReg r := by
  rw [State.sysReg, State.sysReg, (withResults_threads p n d f hn).1]

theorem control_withResults (c : Nat) : (withResults p n d f s).control s.issueTeam c = controlOf s c := by
  rw [State.control, team_withResults p n d f hn, nevctl, sysReg_withResults p n d f hn]
  rfl

theorem window_withResults (c : Nat) : (withResults p n d f s).window s.issueTeam c = windowOf s c := by
  rw [State.window, team_withResults p n d f hn]
  rfl

theorem counted_withResults (c k : Nat) : (withResults p n d f s).counted s.issueTeam c k = min (2 ^ 32 - 1) ((windowOf s c).1 + k) := by
  rw [State.counted, window_withResults p n d f hn]

theorem crossed_withResults (c k : Nat) : (withResults p n d f s).crossed s.issueTeam c k = decide (controlOf s c % 2 ^ 32 < min (2 ^ 32 - 1) ((windowOf s c).1 + k)) := by
  rw [State.crossed, counted_withResults p n d f hn, control_withResults p n d f hn]

end

theorem isSome_setThread_fold {g : State → Nat → State} {f : State → Nat → Thread} (hg : ∀ s l, g s l = s.setThread l (f s l)) (ls : List Nat) (s : State) {x : Nat}
    (hx : x ∈ ls ∨ (mfind s.threads x).isSome = true) : (mfind (eachLane g s ls).threads x).isSome = true := by
  induction ls generalizing s with
  | nil => exact hx.resolve_left List.not_mem_nil
  | cons l ls ih =>
    refine ih (g s l) ?_
    rw [hg]
    by_cases hxl : x = l
    · exact .inr (by rw [hxl]; exact congrArg Option.isSome (mfind_mput_same _ _ _))
    · refine hx.imp (fun hm => (List.mem_cons.1 hm).resolve_left hxl) fun hs => ?_
      exact (congrArg Option.isSome (mfind_mput_other _ _ _ _ hxl)).trans hs

theorem isSome_withResults (p : Pipe) (n : Bool) (d : Code) (f : State → Nat → FRes) (s : State) {l : Nat} (hl : l ∈ s.issue.lanes) :
    (mfind (withResults p n d f s).threads l).isSome = true :=
  isSome_setThread_fold (f := fun t l => withResult t l p n d (f s l).1) (fun _ _ => rfl) s.issue.lanes s (.inl hl)

/-! ### A float word (R183) -/

/-- The state after a float word: the results, then the events. -/
def afterFloat (p : Pipe) (n : Bool) (d : Code) (slot : Option Word) (f : State → Nat → FRes) (s : State) : State :=
  eachLane ((raisedOf slot f s).step s.issueTeam s.issue.word) (withResults p n d f s) [0, 1, 2, 3]

theorem exec_floatWord {i : Instr} {p : Pipe} {n : Bool} {d : Code} {k : Option (BitVec 3)} {f g : State → Nat → FRes} {s : State} (hr : Runs i s)
    (hfg : ∀ l ∈ s.issue.lanes, g s l = f s l) :
    floatWord i p n d k g s = .next (afterFloat p n d (k.map (fun k => slotWord s s.issueTeam k.toNat)) f s) := by
  rw [floatWord, issued_eq hr]
  have hmap : s.issue.lanes.map (fun l => (l, g s l)) = s.issue.lanes.map (fun l => (l, f s l)) := List.map_congr_left fun l hl => by rw [hfg l hl]
  simp only [hmap, putAll_map, List.map_map]
  rfl

theorem afterFloat_counted (p : Pipe) (n : Bool) (d : Code) (slot : Option Word) (f : State → Nat → FRes) (s : State) :
    Counted (· ∈ s.issue.lanes) (withResults p n d f s) (afterFloat p n d slot f s) := by
  refine eachLane_keeps (p := Counted (· ∈ s.issue.lanes) (withResults p n d f s)) (fun t c ht => ht.trans ?_) _ _ (.refl _)
  unfold Raised.step
  split
  · exact sumEvents_counted _ _ _ _
  · refine countEvents_counted _ _ _ _ _ _ (fun q hq => ?_) nofun
    rw [raisers_raisedOf] at hq
    obtain ⟨l, hl, rfl⟩ := List.mem_map.1 hq
    exact (List.mem_filter.1 hl).1

theorem afterFloat_eventsTake (p : Pipe) (n : Bool) (d : Code) (slot : State → Option Word) (f : State → Nat → FRes) {s : State} (hn : s.issue.lanes.Nodup)
    (hteam : (mfind s.teams s.issueTeam).isSome = true) (hctx : (s.team s.issueTeam).ctx < 512) : EventsTake slot f s (afterFloat p n d (slot s) f s) := by
  have htm := team_withResults p n d f hn s.issueTeam
  have hctx' : ((withResults p n d f s).team s.issueTeam).ctx < 512 := htm ▸ hctx
  have htook := (raisedOf (slot s) f s).took_classes s.issue.word (P := fun t => (t.team s.issueTeam).ctx < 512)
    (fun t c _ h => ((raisedOf (slot s) f s).ctx_step s.issueTeam s.issue.word t c).symm ▸ h) (fun t c _ h k hk => Raised.control_step _ _ _ h hk)
    [0, 1, 2, 3] hctx' (teams_withResults p n d f hn ▸ hteam) (by decide) (by decide)
  have hmem {c : Nat} (hc : c < 4) : c ∈ [0, 1, 2, 3] := by
    have : c = 0 ∨ c = 1 ∨ c = 2 ∨ c = 3 := by omega
    simpa using this
  refine ⟨fun c _ hno => ?_, fun c hc hr hne => ?_, fun c hc => ?_, fun l hl => ?_⟩
  · rw [← htm]
    exact htook.kept c (.inr (hno.imp_right fun h => (number_raisedOf _ _ _ _).trans h))
  · have h := htook.windows c (hmem hc) hr (by rw [number_raisedOf]; exact hne)
    rw [number_raisedOf, crossed_withResults p n d f hn, counted_withResults p n d f hn, window_withResults p n d f hn] at h
    refine h.trans ?_
    rw [crosses]
    simp [hne]
  · have h := (raisedOf (slot s) f s).sums_classes s.issue.word [0, 1, 2, 3] hctx' (by decide) hc
    rw [sumRegister, htm, sysReg_withResults p n d f hn, number_raisedOf] at h
    refine h.trans ?_
    congr 1
    exact if_congr (and_iff_right (hmem hc)) rfl rfl
  · obtain ⟨th, hth⟩ := Option.isSome_iff_exists.1 (isSome_withResults p n d f s hl)
    have hthread := (withResults_threads p n d f hn).2.2 l hl
    rw [State.thread, mget, hth] at hthread
    have h := htook.threads l
    rw [hth] at h
    rw [State.thread, mget, afterFloat, h]
    have hfaults : th.faults = (s.thread l).faults := by
      rw [show th = _ from hthread]
      exact faults_withResult s l p n d _
    show th.faults ++ _ = _
    rw [hfaults, ← flatMap_ite]
    congr 1
    refine List.flatMap_congr fun c _ => ?_
    rw [Raised.faults, number_raisedOf, faultsFor_raisedOf _ _ hn _ hl, crossed_withResults p n d f hn, State.action, control_withResults p n d f hn]
    rw [← ite_and]
    refine if_congr ?_ rfl rfl
    rw [show (raisedOf (slot s) f s).routed c = routesClass slot s c from rfl, crosses]
    simp only [Bool.and_eq_true, Bool.not_eq_true', decide_eq_true_eq, ne_eq]
    tauto

/-- A word that computes `f` in each lane of its set and raises its events. -/
theorem floatWord_gives {i : Instr} {p : Pipe} {n : Bool} {d : Code} {k : Option (BitVec 3)} {slot : State → Option Word} {f g : State → Nat → FRes}
    (he : ∀ s, exec i s = floatWord i p n d k g s) (hslot : ∀ s, slot s = k.map (fun k => slotWord s s.issueTeam k.toNat))
    (hfg : ∀ s, s.SetOk → ∀ l ∈ s.issue.lanes, g s l = f s l) : FloatGives i p n d slot f := by
  intro s hr
  have hn := nodup_of_sorted hr.sorted
  obtain ⟨hput, hout, hlane⟩ := withResults_threads p n d f hn
  have hteams : (withResults p n d f s).teams = s.teams := by rw [hput]
  have hraise := afterFloat_counted p n d (slot s) f s
  have hrest := hraise.rest
  rw [hput] at hrest
  refine ⟨afterFloat p n d (slot s) f s, by rw [he, exec_floatWord hr (hfg s hr.1), hslot], fun hteam hctx => afterFloat_eventsTake p n d slot f hn hteam hctx,
    fun l hl => ?_, fun x hx => (hraise.others x hx).trans (hout x hx), fun u => ?_, hrest, fun hnone => ?_⟩
  · obtain ⟨th, hth⟩ := Option.isSome_iff_exists.1 (isSome_withResults p n d f s hl)
    obtain ⟨fs, hfs⟩ := hraise.faults l
    have hthread := hlane l hl
    rw [State.thread, mget, hth] at hthread
    refine ⟨th.faults ++ fs, ?_⟩
    rw [State.thread, mget, hfs, hth, ← show th = _ from hthread]
    rfl
  · have h := hraise.team u
    rw [show (withResults p n d f s).team u = s.team u by rw [State.team, State.team, hteams]] at h
    exact h
  · have hzero (c : Nat) : (raisedOf (slot s) f s).number c = 0 := by
      rw [number_raisedOf, raisedBy, List.sum_eq_zero]
      intro m hm
      obtain ⟨l, hl, rfl⟩ := List.mem_map.1 hm
      rw [hnone l hl]
      rfl
    have hsame : afterFloat p n d (slot s) f s = withResults p n d f s := Raised.classes_of_zero (fun c _ => hzero c) _ _ _
    rw [hsame]
    exact ⟨hput, hlane⟩

/-- A word that names no slot. -/
theorem plain_gives {i : Instr} {p : Pipe} {n : Bool} {d : Code} {f : State → Nat → FRes} (he : ∀ s, exec i s = floatWord i p n d none f s) :
    FloatGives i p n d (fun _ => none) f := floatWord_gives he (fun _ => rfl) (fun _ _ _ _ => rfl)

/-- A lane of the set belongs to the team that issues. -/
theorem teamOf_lane {s : State} (h : s.SetOk) {l : Nat} (hl : l ∈ s.issue.lanes) : teamOf l = s.issueTeam := by
  obtain ⟨-, -, hgroup⟩ := h
  rw [State.issueTeam, ← hgroup l hl, teamOf, grpOf, Nat.div_div_eq_div_mul]

/-- A word that names slot `k`. -/
theorem slotted_gives {i : Instr} {n : Bool} {d : Code} {k : BitVec 3} (f : Word → State → Nat → FRes)
    (he : ∀ s, exec i s = floatWord i .f n d (some k) (fun s l => f (slotWord s (teamOf l) k.toNat) s l) s) :
    FloatGives i .f n d (some ∘ fun s => (s.team s.issueTeam).slots.getD k.toNat 0) (fun s l => f ((s.team s.issueTeam).slots.getD k.toNat 0) s l) :=
  floatWord_gives he (fun _ => rfl) (fun s h l hl => by rw [teamOf_lane h hl]; rfl)

/-- Settles O22: each word is `floatWord` of its operation. -/
theorem floatWordsComplete : Obligations.FloatWordsComplete := by
  intro n d a b r p k
  refine ⟨fun q hq => ?_, fun q hq => ?_, fun q hq => ?_, fun q hq => ?_, plain_gives fun _ => rfl, plain_gives fun _ => rfl,
    slotted_gives (fun w s l => cvtEncOp w (modeOf r) (s.src l a)) fun _ => rfl, slotted_gives (fun w s l => cvtDecOp w (modeOf r) (s.src l a)) fun _ => rfl,
    slotted_gives (fun w s l => narrowPackOp w p.toNat (s.src l d) (s.src l a)) fun _ => rfl, slotted_gives (fun w s l => narrowUnpackOp w p.toNat (s.src l a)) fun _ => rfl⟩
  all_goals simp only [List.mem_cons, List.not_mem_nil, or_false] at hq
  · obtain rfl | rfl | rfl | rfl | rfl | rfl := hq <;> exact plain_gives fun _ => rfl
  · obtain rfl | rfl | rfl | rfl := hq <;> exact plain_gives fun _ => rfl
  · obtain rfl | rfl | rfl | rfl | rfl | rfl | rfl | rfl := hq <;> exact plain_gives fun _ => rfl
  · obtain rfl | rfl | rfl | rfl | rfl | rfl | rfl := hq <;> exact plain_gives fun _ => rfl

end Sys2Proof.Machine
end

section
/-! PROOF. O45: a contribution at its line, and a line that is evicted. -/

namespace Sys2Proof.Machine

/-! ### The events of a contribution -/

theorem raiseMatrix_counted (slot : Option Word) (uid : Nat) (word : Word) (cs : List Nat) (s : State) : Counted (· = burinOf uid) s (raiseMatrix slot uid word s cs) := by
  induction cs generalizing s with
  | nil => exact .refl s
  | cons c cs ih =>
    refine Counted.trans ?_ (ih _)
    split
    · exact sumEvents_counted _ _ _ _
    · exact countEvents_counted _ _ _ _ _ _ nofun (fun _ => rfl)

theorem Counted.acc {own : Nat → Prop} {s t : State} (h : Counted own s t) : t.acc = s.acc := by rw [h.rest]
theorem Counted.contributions {own : Nat → Prop} {s t : State} (h : Counted own s t) : t.contributions = s.contributions := by rw [h.rest]

/-- What an armed line becomes when values are given to it. -/
def accGiven (l : AccLine) (cs : List (Nat × Word)) : AccLine :=
  if l.poisoned then l else if l.float then (contributeFloat l cs).1 else (contributeExact l cs).1

theorem accGive_parts (s : State) (c : Contribution) (pa : Nat) (l : AccLine) (cs : List (Nat × Word)) :
    (accGive s c pa l cs).acc = mput s.acc (pa / 128) (accGiven l cs) ∧ (accGive s c pa l cs).contributions = s.contributions := by
  unfold accGive accGiven
  split
  · exact ⟨rfl, rfl⟩
  · have hraise := raiseMatrix_counted none c.team c.word (if l.float then contributeFloat l cs else contributeExact l cs).2 (setAcc s pa (if l.float then contributeFloat l cs else contributeExact l cs).1)
    refine ⟨hraise.acc.trans ?_, hraise.contributions⟩
    split <;> rfl

/-! ### One event of a contribution (R243, R271) -/

/-- The state in which a contribution takes its turn. -/
def State.taking (s : State) (id : Nat) : State := { s with contributions := s.contributions.filter (fun c => decide (c.id ≠ id)) }

theorem applyContribution_sent {s : State} {id : Nat} {c : Contribution} (h : s.contributions.find? (fun x => x.id = id) = some c)
    (hinc : c.inc = incarnation s ⟨1, (s.team c.team).coreId⟩) :
    applyContribution s id = { (accApply (s.taking id) c).1 with contributions := (accApply (s.taking id) c).1.contributions ++ (accApply (s.taking id) c).2.toList } := by
  rw [applyContribution, h]
  exact if_neg (not_not.2 hinc)

theorem applyContribution_stale {s : State} {id : Nat} {c : Contribution} (h : s.contributions.find? (fun x => x.id = id) = some c)
    (hinc : ¬c.inc = incarnation s ⟨1, (s.team c.team).coreId⟩) :
    applyContribution s id = logStale (s.taking id) ⟨1, (s.team c.team).coreId⟩ c.pa := by
  rw [applyContribution, h]
  exact if_pos hinc

theorem accLine_resident {s : State} {pa : Nat} {ln : AccLine} (h : mfind s.acc (pa / 128) = some ln) (record : Nat) : accLine s pa record = ln := by
  rw [accLine, h]
  rfl

theorem mfind_acc_other {s t : State} {pa : Nat} {m : AccLine} (h : t.acc = mput s.acc (pa / 128) m) {k : Nat} (hk : k ≠ pa / 128) : mfind t.acc k = mfind s.acc k := by
  rw [h, mfind_mput_other _ _ _ _ hk]

/-- An unarmed line takes no value, and the thread hears of it. -/
theorem accApply_unarmed {s : State} {c : Contribution} {ln : AccLine} (h : mfind s.acc (c.pa / 128) = some ln) (ha : ln.armed = false) (hp : ln.poisoned = false) :
    accApply s c = (accReport (setAcc s c.pa ln) c c.addr, none) := by
  simp [accApply, accLine_resident h, ha, accRefuse, hp]

/-- One ACCRED gives an armed line its value. -/
theorem accApply_single {s : State} {c : Contribution} {ln : AccLine} {w : Word} (h : mfind s.acc (c.pa / 128) = some ln) (ha : ln.armed = true) (hs : c.second = false)
    (hn : c.next = none) (hd : c.data = [w]) : accApply s c = (accGive (setAcc s c.pa ln) c c.pa ln [(if ln.float then c.offset / 4 else c.offset / 8, w)], none) := by
  simp [accApply, accLine_resident h, ha, hs, hn, hd]

/-- The first half of a row for an exact line. -/
theorem accApply_row {s : State} {c : Contribution} {ln : AccLine} {q : Nat × Nat} (h : mfind s.acc (c.pa / 128) = some ln) (ha : ln.armed = true) (hs : c.second = false)
    (hn : c.next = some q) (hf : ln.float = false) : accApply s c = (accGive (setAcc s c.pa ln) c c.pa ln (numbered 0 (c.data.take 16)),
      some { c with pa := q.1, record := q.2, addr := c.addr + 128, next := none, data := c.data.drop 16, second := true }) := by
  simp [accApply, accLine_resident h, ha, hs, hn, hf, secondHalf]

/-! ### What a value makes of a line (R172, R173) -/

theorem accGiven_full {l : AccLine} (hp : l.poisoned = false) (hc : l.count = 65535) (cs : List (Nat × Word)) : accGiven l cs = { l with overfull := true } := by
  rw [accGiven, if_neg (by simp [hp])]
  split
  · rw [contributeFloat, if_pos hc]
  · rw [contributeExact, if_pos hc]

theorem accGiven_float {l : AccLine} (hp : l.poisoned = false) (hc : l.count ≠ 65535) (hf : l.float = true) (j : Nat) (w : Word) :
    accGiven l [(j, w)] = { l with count := l.count + 1, elems := mset 0 l.elems j (faddOp (mget 0 l.elems j) w).1 } := by
  rw [accGiven, if_neg (by simp [hp]), if_pos hf, contributeFloat, if_neg hc]
  rfl

theorem accGiven_exact {l : AccLine} (hp : l.poisoned = false) (hc : l.count ≠ 65535) (hf : l.float = false) (j : Nat) (w : Word) :
    accGiven l [(j, w)] = (exactAdd { l with count := l.count + 1 } j w).1 := by
  rw [accGiven, if_neg (by simp [hp]), if_neg (by simp [hf]), contributeExact, if_neg hc]
  rfl

theorem exactAdd_fin {l : AccLine} {j : Nat} {w : Word} {neg : Bool} {m : Nat} {e : ℤ} (h : inF32 w = .fin neg m e) :
    (exactAdd l j w).1 = { l with
      clamps := if 2 ^ 54 - 1 < (roundInt .rne neg m (e + -l.q.toInt)).natAbs then min 65535 (l.clamps + 1) else l.clamps
      body := mset 0 l.body j (BitVec.ofInt 72 ((mget 0 l.body j).toInt + max (-(2 ^ 54 - 1)) (min (2 ^ 54 - 1) (roundInt .rne neg m (e + -l.q.toInt))))) } := by
  have hsign := signed_natAbs_roundInt .rne neg m (e + -l.q.toInt)
  simp only [exactAdd, h, sub_eq_add_neg]
  generalize roundInt .rne neg m (e + -l.q.toInt) = n at hsign
  have hbig : ((2 : ℤ) ^ 54 + -1 < n.natAbs) ↔ 2 ^ 54 - 1 < n.natAbs := by omega
  have hv : (if (2 : ℤ) ^ 54 + -1 < n.natAbs then (if neg = true then -((2 : ℤ) ^ 54 + -1) else 2 ^ 54 + -1) else n) = max (-(2 ^ 54 + -1)) (min (2 ^ 54 + -1) n) := by
    rw [signed] at hsign
    cases neg
    · simp only [Bool.false_eq_true, if_false] at hsign ⊢
      split <;> omega
    · simp only [if_true] at hsign ⊢
      split <;> omega
  simp only [decide_eq_true_eq]
  rw [hv]
  simp only [hbig]

theorem exactAdd_nan {l : AccLine} {j : Nat} {w : Word} (h : inF32 w = .nan) : (exactAdd l j w).1 = { l with special := mset 0 l.special j 3 } := by
  simp only [exactAdd, h]

theorem exactAdd_inf {l : AccLine} {j : Nat} {w : Word} {neg : Bool} (h : inF32 w = .inf neg) :
    (exactAdd l j w).1 = { l with special := mset 0 l.special j (if mget 0 l.special j = 0 ∨ mget 0 l.special j = (if neg then 2 else 1) then (if neg then 2 else 1) else 3) } := by
  have hsigns : ∀ sp : BitVec 2, (if sp = 2 then 3 else if sp = 0 then 1 else sp) = (if sp = 0 ∨ sp = 1 then 1 else 3 : BitVec 2) ∧
      (if sp = 1 then 3 else if sp = 3 then 3 else 2) = (if sp = 0 ∨ sp = 2 then 2 else 3 : BitVec 2) := by decide
  obtain ⟨hpos, hneg⟩ := hsigns (mget 0 l.special j)
  cases neg
  · simp only [exactAdd, h, hpos, Bool.false_eq_true, if_false]
  · simp only [exactAdd, h, hneg, if_true]

/-- A line that has taken one value of an armed exact line. -/
theorem exact_value {l : AccLine} {j : Nat} {w : Word} :
    (exactAdd l j w).1.armed = l.armed ∧ (exactAdd l j w).1.float = l.float ∧ (exactAdd l j w).1.q = l.q ∧ (exactAdd l j w).1.record = l.record ∧
    (exactAdd l j w).1.count = l.count ∧ (exactAdd l j w).1.overfull = l.overfull := by
  cases h : inF32 w with
  | nan => rw [exactAdd_nan h]; exact ⟨rfl, rfl, rfl, rfl, rfl, rfl⟩
  | inf neg => rw [exactAdd_inf h]; exact ⟨rfl, rfl, rfl, rfl, rfl, rfl⟩
  | fin neg m e => rw [exactAdd_fin h]; exact ⟨rfl, rfl, rfl, rfl, rfl, rfl⟩

/-- What R172 says of the element that takes a value. -/
theorem exact_element {l : AccLine} {i : Nat} {w : Word} :
    let m := (exactAdd l i w).1
    let sp := mget 0 l.special i
    ((inF32 w).isNan = true → mget 0 m.special i = 3 ∧ m.body = l.body) ∧
    (∀ neg : Bool, inF32 w = .inf neg → m.body = l.body ∧ m.clamps = l.clamps ∧
      let own : BitVec 2 := if neg then 2 else 1
      mget 0 m.special i = if sp = 0 ∨ sp = own then own else 3) ∧
    ((inF32 w).isNan = false → (inF32 w).isInf = false → m.special = l.special ∧ ∃ n : ℤ, RoundedInt .rne (ratOf (inF32 w) / (2 : ℚ) ^ l.q.toInt) n ∧
      m.clamps = (if 2 ^ 54 - 1 < n.natAbs then min 65535 (l.clamps + 1) else l.clamps) ∧
      ∀ j, mget 0 m.body j = if j = i then BitVec.ofInt 72 ((mget 0 l.body j).toInt + max (-(2 ^ 54 - 1)) (min (2 ^ 54 - 1) n)) else mget 0 l.body j) := by
  refine ⟨fun h => ?_, fun neg h => ?_, fun hn hi => ?_⟩
  · rw [exactAdd_nan (isNan_eq_true.1 h)]
    exact ⟨mget_mset_same 0 l.special i 3, rfl⟩
  · rw [exactAdd_inf h]
    exact ⟨rfl, rfl, mget_mset_same 0 l.special i _⟩
  · obtain ⟨neg, m, e, h⟩ := eq_fin_of_finite hn hi
    rw [exactAdd_fin h]
    refine ⟨rfl, roundInt .rne neg m (e + -l.q.toInt), ?_, rfl, fun j => ?_⟩
    · rw [h, ← ratOf_unscaled]
      exact roundedInt_roundInt .rne neg m _
    · rw [mget_mset]
      split
      · next hj => rw [hj]
      · rfl

/-! ### A line that is evicted (R328, R332) -/

theorem writeBytes_phys_teams {s : State} (h : s.binds = []) (a : Nat) (vs : List Byte) : (writeBytes s (.phys a) vs).teams = s.teams := by
  induction vs generalizing s a with
  | nil => rfl
  | cons v vs ih =>
    have hone : (writeByte s (.phys a) v).teams = s.teams := by
      rw [writeByte, resolve_phys h, rawSet]
      split <;> rfl
    rw [writeBytes]
    exact (ih ((writeByte_only s _ v).binds.trans h) _).trans hone

theorem setPoison_phys_teams {s : State} (h : s.binds = []) (a : Nat) (on : Bool) : (setPoison s (.phys a) on).teams = s.teams := by
  unfold setPoison
  rw [resolve_phys h]

theorem writeBeat_phys_teams {s : State} (h : s.binds = []) (a : Nat) (vs : List Byte) (bad : Bool) : (writeBeat s (.phys a) vs bad).teams = s.teams := by
  have hw := writeBytes_phys_teams h a vs
  have hb : (writeBytes s (.phys a) vs).binds = [] := (writeBytes_only s _ vs).binds.trans h
  unfold writeBeat
  simp only
  split
  · exact (setPoison_phys_teams hb a true).trans hw
  · split
    · exact (setPoison_phys_teams hb a false).trans hw
    · exact hw

theorem writeBeats_phys_teams (n : Nat) {s : State} (h : s.binds = []) (a : Nat) (vs : List Byte) : (writeBeats n s (.phys a) vs).teams = s.teams := by
  induction n generalizing s a vs with
  | zero => rfl
  | succ n ih =>
    simp only [writeBeats]
    split
    · rfl
    · exact (ih ((writeBeat_only s _ _ _).binds.trans h) _ _).trans (writeBeat_phys_teams h a _ _)

theorem writeOut_phys_teams {s : State} (h : s.binds = []) (a : Nat) (vs : List Byte) : (writeOut s (.phys a) vs).teams = s.teams := writeBeats_phys_teams _ h a vs

/-- Chunks of `k` bytes in a row. -/
theorem length_chunks {k : Nat} {g : Nat → List Byte} (hg : ∀ j, (g j).length = k) (n : Nat) : ((List.range n).flatMap g).length = k * n := by
  rw [List.length_flatMap, List.map_congr_left fun j _ => hg j]
  simp [Nat.mul_comm]

theorem getD_chunks {k : Nat} {g : Nat → List Byte} (hg : ∀ j, (g j).length = k) {n j i : Nat} (hj : j < n) (hi : i < k) :
    ((List.range n).flatMap g).getD (k * j + i) 0 = (g j).getD i 0 := by
  induction n with
  | zero => omega
  | succ n ih =>
    rw [List.range_succ, List.flatMap_append, List.flatMap_singleton]
    have hlen := length_chunks hg n
    rcases Nat.lt_succ_iff_lt_or_eq.1 hj with hlt | rfl
    · have hmul : k * (j + 1) ≤ k * n := Nat.mul_le_mul_left k hlt
      rw [List.getD_append _ _ _ _ (by rw [hlen]; rw [Nat.mul_add] at hmul; omega), ih hlt]
    · rw [List.getD_append_right _ _ _ _ (by omega), hlen, Nat.add_sub_cancel_left]

/-- A number read from a run of bytes just written, from the chunk in which it stands. -/
theorem readNat_chunk {s : State} {a k : Nat} {g : Nat → List Byte} (hg : ∀ j, (g j).length = k) {n j : Nat} (hj : j < n) (rest : List Byte)
    (h : ∀ i, i < k * n → readByte s (.phys (a + i)) = ((List.range n).flatMap g ++ rest).getD i 0) : readNat s (.phys (a + k * j)) k = leNat (g j) := by
  refine congrArg leNat (readBytes_eq_of _ _ _ (hg j) fun i hi => ?_)
  have hlt : k * j + i < k * n := by
    have hmul : k * (j + 1) ≤ k * n := Nat.mul_le_mul_left k hj
    rw [Nat.mul_add] at hmul
    omega
  rw [Nat.add_assoc, h _ hlt, List.getD_append _ _ _ _ (by rw [length_chunks hg]; exact hlt), getD_chunks hg hj hi]

theorem length_accBody (l : AccLine) : (accBody l).length = 128 := by
  unfold accBody
  split
  · exact length_chunks (k := 4) (fun _ => leBytes_length _ _) 32
  · exact length_chunks (k := 8) (fun _ => leBytes_length _ _) 16

/-- The guard bytes of a record and what stands behind them. -/
theorem accRecord_eq (l : AccLine) : ∃ rest : List Byte, rest.length = 16 ∧
    accRecord l = (List.range 16).flatMap (fun j => leBytes 1 (if l.float then 0 else (mget 0 l.body j).toNat / 2 ^ 64)) ++ rest := by
  refine ⟨_, ?_, by rw [accRecord, List.append_assoc, List.append_assoc, List.append_assoc, List.append_assoc, List.append_assoc]⟩
  simp only [List.length_append, leBytes_length]

theorem length_accRecord (l : AccLine) : (accRecord l).length = 32 := by
  obtain ⟨rest, hrest, he⟩ := accRecord_eq l
  rw [he, List.length_append, hrest, length_chunks (k := 1) (fun _ => leBytes_length _ _)]

/-- The same state with other resident lines. -/
def State.withAcc (s : State) (acc : SMap AccLine) : State := { s with acc := acc }

theorem readByte_withAcc (s : State) (acc : SMap AccLine) (p : Loc) : readByte (s.withAcc acc) p = readByte s p := readByte_congr (s := s) rfl rfl rfl p
theorem readNat_withAcc (s : State) (acc : SMap AccLine) (p : Loc) (n : Nat) : readNat (s.withAcc acc) p n = readNat s p n :=
  congrArg leNat (readBytes_same (s := s) (t := s.withAcc acc) rfl rfl rfl p n)

/-- The state after a line has been written out. -/
def lineOut (s : State) (line : Nat) (l : AccLine) : State :=
  if l.record < noRecord then writeOut (writeOut s (.phys (line * 128)) (accBody l)) (.phys l.record) (accRecord l) else writeOut s (.phys (line * 128)) (accBody l)

theorem lineOut_only (s : State) (line : Nat) (l : AccLine) : OnlyBytes s (lineOut s line l) := by
  unfold lineOut
  split
  · exact (writeOut_only _ _ _).trans (writeOut_only _ _ _)
  · exact writeOut_only _ _ _

theorem accEvict_eq {s : State} {line : Nat} {l : AccLine} (h : mfind s.acc line = some l) :
    accEvict s line = (lineOut s line l).withAcc (mdel s.acc line) := by
  have hacc : (lineOut s line l).acc = s.acc := by rw [lineOut_only s line l]
  rw [← hacc, accEvict, h]
  rfl

theorem lineOut_teams {s : State} (h : s.binds = []) (line : Nat) (l : AccLine) : (lineOut s line l).teams = s.teams := by
  have hw := writeOut_phys_teams h (line * 128) (accBody l)
  unfold lineOut
  split
  · exact (writeOut_phys_teams ((writeOut_only s _ _).binds.trans h) _ _).trans hw
  · exact hw

/-- What memory reads as after a line has been written out: the record where it has a place, the line's page, else what stood there. -/
theorem readByte_lineOut {s : State} (h : s.Plain) (line : Nat) (l : AccLine) (b : Nat) :
    readByte (lineOut s line l) (.phys b) =
      if l.record < noRecord ∧ l.record ≤ b ∧ b < l.record + 32 then (accRecord l).getD (b - l.record) 0
      else if line * 128 ≤ b ∧ b < line * 128 + 128 then (accBody l).getD (b - line * 128) 0 else readByte s (.phys b) := by
  have hp : (writeOut s (.phys (line * 128)) (accBody l)).Plain := h.only (writeOut_only _ _ _)
  unfold lineOut
  by_cases hr : l.record < noRecord
  · rw [if_pos hr, readByte_writeOut hp, readByte_writeOut h, length_accBody, length_accRecord]
    simp only [hr, true_and]
  · rw [if_neg hr, readByte_writeOut h, length_accBody]
    simp only [hr, false_and, if_false]

/-- A number of the page of a line that has been written out. -/
theorem readNat_lineOut_body {s : State} (h : s.Plain) {line : Nat} {l : AccLine} (hd : l.record + 32 ≤ line * 128 ∨ line * 128 + 128 ≤ l.record)
    {k n : Nat} {g : Nat → List Byte} (hg : ∀ j, (g j).length = k) (hkn : k * n = 128) (hbody : accBody l = (List.range n).flatMap g) {j : Nat} (hj : j < n) :
    readNat (lineOut s line l) (.phys (line * 128 + k * j)) k = leNat (g j) := by
  refine readNat_chunk hg hj [] fun i hi => ?_
  rw [readByte_lineOut h, if_neg (by omega), if_pos (by omega), hbody, List.append_nil, Nat.add_sub_cancel_left]

/-- A guard byte of the record of a line that has been written out. -/
theorem readNat_lineOut_guard {s : State} (h : s.Plain) {line : Nat} {l : AccLine} (hr : l.record < noRecord) (hf : l.float = false) {j : Nat} (hj : j < 16) :
    readNat (lineOut s line l) (.phys (l.record + j)) 1 = (mget 0 l.body j).toNat / 2 ^ 64 := by
  obtain ⟨rest, -, he⟩ := accRecord_eq l
  have hread := readNat_chunk (s := lineOut s line l) (a := l.record) (k := 1) (g := fun j => leBytes 1 (if l.float then 0 else (mget 0 l.body j).toNat / 2 ^ 64))
    (fun _ => leBytes_length _ _) hj rest (fun i hi => by rw [readByte_lineOut h, if_pos (by omega), Nat.add_sub_cancel_left, he])
  rw [Nat.one_mul] at hread
  have hlt := (mget 0 l.body j).isLt
  rw [hread, leNat_leBytes, hf, if_neg Bool.false_ne_true]
  omega

theorem accLineEvict_gives (line : Nat) : EventGives (.accLineEvict line) (fun s => ∃ ln, mfind s.acc line = some ln ∧ s.binds = [] ∧ s.lost = [] ∧
      (ln.record + 32 ≤ line * 128 ∨ line * 128 + 128 ≤ ln.record))
    (fun s t => ∀ ln, mfind s.acc line = some ln → t.acc = mdel s.acc line ∧ t.threads = s.threads ∧ t.teams = s.teams ∧
      (ln.float = false → ∀ j, j < 16 → readNat t (.phys (line * 128 + 8 * j)) 8 = (mget 0 ln.body j).toNat % 2 ^ 64 ∧
        (ln.record < 2 ^ 57 → readNat t (.phys (ln.record + j)) 1 = (mget 0 ln.body j).toNat / 2 ^ 64)) ∧
      (ln.float = true → ∀ j, j < 32 → readNat t (.phys (line * 128 + 4 * j)) 4 = (mget 0 ln.elems j).toNat) ∧
      (∀ a, (a < line * 128 ∨ line * 128 + 128 ≤ a) → (a < ln.record ∨ ln.record + 32 ≤ a) → readByte t (.phys a) = readByte s (.phys a))) := by
  rintro s ⟨ln, hln, hbinds, hlost, hd⟩
  have hplain : s.Plain := ⟨hbinds, hlost⟩
  refine ⟨accEvict s line, rfl, fun ln' hln' => ?_⟩
  obtain rfl := Option.some.inj (hln.symm.trans hln')
  rw [accEvict_eq hln]
  refine ⟨rfl, (lineOut_only s line ln).threads, lineOut_teams hbinds line ln, fun hf j hj => ⟨?_, fun hr => ?_⟩, fun hf j hj => ?_, fun a hpage hrec => ?_⟩
  · have hbody : accBody ln = (List.range 16).flatMap (fun j => leBytes 8 (mget 0 ln.body j).toNat) := by rw [accBody, hf, if_neg Bool.false_ne_true]
    rw [readNat_withAcc, readNat_lineOut_body hplain hd (fun _ => leBytes_length _ _) rfl hbody hj, leNat_leBytes]
  · rw [readNat_withAcc, readNat_lineOut_guard hplain hr hf hj]
  · have hbody : accBody ln = (List.range 32).flatMap (fun j => leBytes 4 (mget 0 ln.elems j).toNat) := by rw [accBody, hf, if_pos rfl]
    rw [readNat_withAcc, readNat_lineOut_body hplain hd (fun _ => leBytes_length _ _) rfl hbody hj, leNat_leBytes, Nat.mod_eq_of_lt (mget 0 ln.elems j).isLt]
  · rw [readByte_withAcc, readByte_lineOut hplain, if_neg (by omega), if_neg (by omega)]

/-! ### The statement -/

theorem contribution_stale {s : State} {id : Nat} {c : Contribution} (h : s.contributions.find? (fun x => x.id = id) = some c)
    (hinc : ¬c.inc = incarnation s ⟨1, (s.team c.team).coreId⟩) : (applyContribution s id).acc = s.acc ∧
    (applyContribution s id).contributions = s.contributions.filter (fun x => decide (x.id ≠ id)) ∧ (applyContribution s id).threads = s.threads := by
  have hlog := logError_logged (s.taking id) 5 ⟨1, (s.team c.team).coreId⟩ c.pa none 0
  rw [applyContribution_stale h hinc, logStale, hlog.rest]
  exact ⟨rfl, rfl, rfl⟩

/-- The first half of a row for an exact line (R243). -/
theorem contribution_row {s : State} {id : Nat} {c : Contribution} {ln : AccLine} {q : Nat × Nat} (h : s.contributions.find? (fun x => x.id = id) = some c)
    (hinc : c.inc = incarnation s ⟨1, (s.team c.team).coreId⟩) (hn : c.next = some q) (hs : c.second = false) (hln : mfind s.acc (c.pa / 128) = some ln)
    (ha : ln.armed = true) (hf : ln.float = false) : (∀ k, k ≠ c.pa / 128 → mfind (applyContribution s id).acc k = mfind s.acc k) ∧
      (applyContribution s id).contributions = s.contributions.filter (fun x => decide (x.id ≠ id)) ++
        [{ c with pa := q.1, record := q.2, addr := c.addr + 128, next := none, data := c.data.drop 16, second := true }] := by
  obtain ⟨hacc, hcontrib⟩ := accGive_parts (setAcc (s.taking id) c.pa ln) c c.pa ln (numbered 0 (c.data.take 16))
  rw [applyContribution_sent h hinc, accApply_row (s := s.taking id) hln ha hs hn hf]
  refine ⟨fun k hk => ?_, ?_⟩
  · exact (mfind_acc_other hacc hk).trans (mfind_mput_other _ _ _ _ hk)
  · simp only [hcontrib]
    rfl

/-- One ACCRED at an armed line. -/
theorem contribution_armed {s : State} {id : Nat} {c : Contribution} {ln : AccLine} {w : Word} (h : s.contributions.find? (fun x => x.id = id) = some c)
    (hinc : c.inc = incarnation s ⟨1, (s.team c.team).coreId⟩) (hn : c.next = none) (hs : c.second = false) (hd : c.data = [w])
    (hln : mfind s.acc (c.pa / 128) = some ln) (ha : ln.armed = true) :
    (applyContribution s id).contributions = s.contributions.filter (fun x => decide (x.id ≠ id)) ∧
    (∀ k, k ≠ c.pa / 128 → mfind (applyContribution s id).acc k = mfind s.acc k) ∧
    mfind (applyContribution s id).acc (c.pa / 128) = some (accGiven ln [(if ln.float then c.offset / 4 else c.offset / 8, w)]) := by
  obtain ⟨hacc, hcontrib⟩ := accGive_parts (setAcc (s.taking id) c.pa ln) c c.pa ln [(if ln.float then c.offset / 4 else c.offset / 8, w)]
  rw [applyContribution_sent h hinc, accApply_single (s := s.taking id) hln ha hs hn hd]
  refine ⟨?_, fun k hk => ?_, ?_⟩
  · simp only [hcontrib, Option.toList_none, List.append_nil]
    rfl
  · exact (mfind_acc_other hacc hk).trans (mfind_mput_other _ _ _ _ hk)
  · rw [hacc, mfind_mput_same]

/-- One ACCRED at an unarmed line. -/
theorem contribution_unarmed {s : State} {id : Nat} {c : Contribution} {ln : AccLine} (h : s.contributions.find? (fun x => x.id = id) = some c)
    (hinc : c.inc = incarnation s ⟨1, (s.team c.team).coreId⟩) (hln : mfind s.acc (c.pa / 128) = some ln) (ha : ln.armed = false) (hp : ln.poisoned = false) :
    (applyContribution s id).contributions = s.contributions.filter (fun x => decide (x.id ≠ id)) ∧ (applyContribution s id).acc = mput s.acc (c.pa / 128) ln ∧
    ((mfind s.threads c.tid).isSome = true → ∃ f : TrapInfo, f.cause = 0x14 ∧ ((applyContribution s id).thread c.tid).faults = (s.thread c.tid).faults ++ [f]) := by
  rw [applyContribution_sent h hinc, accApply_unarmed (s := s.taking id) hln ha hp]
  refine ⟨List.append_nil _, rfl, fun ht => ?_⟩
  obtain ⟨th, hth⟩ := Option.isSome_iff_exists.1 ht
  have hfind (f : TrapInfo) : mfind (pendFault (setAcc (s.taking id) c.pa ln) c.tid f).threads c.tid = some (th.addFaults [f]) := by
    rw [mfind_pendFault, if_pos rfl]
    exact congrArg (Option.map _) hth
  rw [accReport, State.thread, State.thread, mget, mget, hth]
  dsimp only
  rw [hfind]
  exact ⟨_, rfl, rfl⟩

/-- Settles O45: a contribution is given to its line by the kind of the line, and an evicted line is written where its fields are read back. -/
theorem accumulatorLines : Obligations.AccumulatorLines := by
  refine ⟨fun id s hpre => ?_, fun id pa rec2 s hpre => ?_, fun id s hpre => ?_, accLineEvict_gives⟩
  · obtain ⟨c, w, ln, hc, hinc, hn, hs, hd, hln, hp⟩ := hpre
    refine ⟨applyContribution s id, rfl, fun c' w' ln' hc' hd' hln' => ?_⟩
    obtain rfl := Option.some.inj (hc.symm.trans hc')
    obtain rfl := Option.some.inj (hln.symm.trans hln')
    obtain rfl := List.singleton_injective (hd.symm.trans hd')
    by_cases ha : ln.armed = true
    · obtain ⟨hcontrib, hothers, hline⟩ := contribution_armed hc hinc hn hs hd hln ha
      refine ⟨hcontrib, hothers, _, hline, ?_⟩
      by_cases hfull : ln.count = 65535
      · rw [accGiven_full hp hfull]
        exact ⟨rfl, rfl, rfl, rfl, fun hno => absurd ha (by simp [hno]), fun _ _ => rfl, fun _ hno => absurd hfull hno⟩
      · cases hf : ln.float
        · rw [if_neg Bool.false_ne_true, accGiven_exact hp hfull hf]
          obtain ⟨harmed, hfloat, hq, hrecord, hcount, hover⟩ := exact_value (l := { ln with count := ln.count + 1 }) (j := c.offset / 8) (w := w)
          refine ⟨harmed, hfloat.trans hf, hq, hrecord, fun hno => absurd ha (by simp [hno]), fun _ hno => absurd hno hfull, fun _ _ => ⟨hcount, hover, nofun, fun _ => ?_⟩⟩
          exact exact_element (l := { ln with count := ln.count + 1 }) (i := c.offset / 8) (w := w)
        · rw [if_pos rfl, accGiven_float hp hfull hf]
          refine ⟨rfl, hf, rfl, rfl, fun hno => absurd ha (by simp [hno]), fun _ hno => absurd hno hfull, fun _ _ => ⟨rfl, rfl, fun _ => ⟨rfl, fun j => ?_⟩, nofun⟩⟩
          rw [mget_mset]
          split
          · next hj => rw [hj]
          · rfl
    · have ha' : ln.armed = false := Bool.eq_false_iff.2 ha
      obtain ⟨hcontrib, hacc, hfault⟩ := contribution_unarmed hc hinc hln ha' hp
      refine ⟨hcontrib, fun k hk => mfind_acc_other hacc hk, ln, by rw [hacc, mfind_mput_same], rfl, rfl, rfl, rfl, fun _ => ⟨rfl, hfault⟩, fun hyes => absurd hyes ha,
        fun hyes => absurd hyes ha⟩
  · obtain ⟨c, ln, hc, hinc, hn, hs, hln, ha, hf⟩ := hpre
    refine ⟨applyContribution s id, rfl, fun c' hc' => ?_⟩
    obtain rfl := Option.some.inj (hc.symm.trans hc')
    obtain ⟨hothers, hcontrib⟩ := contribution_row hc hinc hn hs hln ha hf
    have hid : c.id = id := by simpa using List.find?_some hc
    exact ⟨hothers, _, hcontrib, hid, rfl, rfl, rfl, rfl⟩
  · obtain ⟨c, hc, hinc⟩ := hpre
    exact ⟨applyContribution s id, rfl, contribution_stale hc hinc⟩

end Sys2Proof.Machine
end

section
/-! PROOF. A layer for O33: writes at one place, of memory or of a scratchpad, and words that change there one after another. -/

namespace Sys2Proof.Machine

/-! ### What a write at a place leaves -/

/-- The team whose scratchpad a place lies in; none for memory. -/
def Loc.pad : Loc → Option Nat
  | .phys _ => none
  | .scratch u _ => some u

theorem Loc.pad_plus (l : Loc) (n : Nat) : (l.plus n).pad = l.pad := by cases l <;> rfl

/-- Two states of which nothing differs but the bytes of memory, or of one scratchpad, and what the directory and the loads know. -/
structure Performs (w : Option Nat) (s t : State) : Prop where
  rest : t = { s with teams := t.teams, mem := t.mem, dir := t.dir, homeWords := t.homeWords, loads := t.loads }
  teams : w = none → t.teams = s.teams
  mem : w.isSome = true → t.mem = s.mem
  others : ∀ u v, w = some u → v ≠ u → t.team v = s.team v
  scratch : ∀ u, w = some u → t.team u = { (s.team u) with scratch := (t.team u).scratch }
  present : ∀ u, (mfind t.teams u).isSome = (mfind s.teams u).isSome

theorem Performs.refl (w : Option Nat) (s : State) : Performs w s s := ⟨rfl, fun _ => rfl, fun _ => rfl, fun _ _ _ _ => rfl, fun _ _ => rfl, fun _ => rfl⟩

theorem Performs.trans {w : Option Nat} {s t r : State} (h : Performs w s t) (k : Performs w t r) : Performs w s r :=
  ⟨by rw [k.rest, h.rest], fun hw => (k.teams hw).trans (h.teams hw), fun hw => (k.mem hw).trans (h.mem hw),
    fun u v hw hv => (k.others u v hw hv).trans (h.others u v hw hv), fun u hw => by rw [k.scratch u hw, h.scratch u hw], fun u => (k.present u).trans (h.present u)⟩

/-- Nothing but the directory and the loads differ. -/
theorem Performs.of_bytes {s t : State} (h : t = { s with dir := t.dir, homeWords := t.homeWords, loads := t.loads }) (w : Option Nat) : Performs w s t := by
  have hteams : t.teams = s.teams := by rw [h]
  have hmem : t.mem = s.mem := by rw [h]
  have hteam (u : Nat) : t.team u = s.team u := by rw [State.team, State.team, hteams]
  exact ⟨by rw [h], fun _ => hteams, fun _ => hmem, fun _ v _ _ => hteam v, fun u _ => by rw [hteam], fun u => by rw [hteams]⟩

theorem Performs.binds {w : Option Nat} {s t : State} (h : Performs w s t) : t.binds = s.binds := by rw [h.rest]
theorem Performs.lost {w : Option Nat} {s t : State} (h : Performs w s t) : t.lost = s.lost := by rw [h.rest]
theorem Performs.groups {w : Option Nat} {s t : State} (h : Performs w s t) : t.groups = s.groups := by rw [h.rest]
theorem Performs.threads {w : Option Nat} {s t : State} (h : Performs w s t) : t.threads = s.threads := by rw [h.rest]
theorem Performs.sys {w : Option Nat} {s t : State} (h : Performs w s t) : t.sys = s.sys := by rw [h.rest]

theorem writeByte_performs {s : State} (h : s.binds = []) (l : Loc) (v : Byte) : Performs l.pad s (writeByte s l v) := by
  rw [writeByte, resolve_phys h]
  cases l with
  | phys a =>
    rw [rawSet]
    split
    · exact .refl _ s
    · exact ⟨rfl, fun _ => rfl, nofun, nofun, nofun, fun _ => rfl⟩
  | scratch u o =>
    refine ⟨rfl, nofun, fun _ => rfl, fun x v hx hv => ?_, fun x hx => ?_, fun x => isSome_modTeam s u x _⟩
    · obtain rfl := Option.some.inj hx
      exact State.team_modTeam_other s u v _ hv
    · obtain rfl := Option.some.inj hx
      have hteam := (TeamsDiffer.modTeam (R := fun a b => b = { a with scratch := b.scratch }) (f := fun x => { x with scratch := mset 0 x.scratch o v }) (fun _ => rfl) (fun _ => rfl) s u).team
        (R := fun a b => b = { a with scratch := b.scratch }) rfl u
      exact hteam

theorem writeBytes_performs {s : State} (h : s.binds = []) (l : Loc) (vs : List Byte) : Performs l.pad s (writeBytes s l vs) := by
  induction vs generalizing s l with
  | nil => exact .refl _ s
  | cons v vs ih =>
    have hone := writeByte_performs h l v
    exact hone.trans (l.pad_plus 1 ▸ ih (hone.binds.trans h) (l.plus 1))

/-! ### Reading at the place and elsewhere -/

/-- A place that a queue entry may write, where nothing is bound or lost: memory, or the scratchpad of a team in the table. -/
def GoodPlace (s : State) (l : Loc) : Prop := s.Plain ∧ ∀ u o, l = .scratch u o → (mfind s.teams u).isSome = true

theorem GoodPlace.of_performs {w : Option Nat} {s t : State} {l : Loc} (h : GoodPlace s l) (k : Performs w s t) : GoodPlace t l :=
  ⟨⟨k.binds.trans h.1.1, k.lost.trans h.1.2⟩, fun u o hl => (k.present u).trans (h.2 u o hl)⟩

theorem readByte_of_scratch {s t : State} (hb : t.binds = s.binds) (hm : t.mem = s.mem) (ht : ∀ u, (t.team u).scratch = (s.team u).scratch) (x : Loc) : readByte t x = readByte s x := by
  unfold readByte
  rw [resolve_congr hb]
  cases resolve s x with
  | phys a => rw [rawByte, rawByte, hm]
  | scratch u o => rw [rawByte, rawByte, ht]

theorem readByte_writeBytes_off {s : State} {l : Loc} (h : GoodPlace s l) (vs : List Byte) {x : Loc} (hx : ∀ i, i < vs.length → x ≠ l.plus i) :
    readByte (writeBytes s l vs) x = readByte s x := by
  obtain ⟨hplain, hpad⟩ := h
  have hw := writeBytes_performs hplain.1 l vs
  cases l with
  | phys a =>
    cases x with
    | phys b =>
      rw [readByte_writeBytes hplain, if_neg]
      rintro ⟨h1, h2⟩
      refine hx (b - a) (by omega) ?_
      rw [Loc.plus, Nat.add_sub_of_le h1]
    | scratch v b => rw [readByte_scratch, readByte_scratch, State.team, State.team, hw.teams rfl]
  | scratch u o =>
    cases x with
    | phys b => rw [readByte_phys hplain.1, readByte_phys (hw.binds.trans hplain.1), hw.mem rfl]
    | scratch v b =>
      by_cases hv : v = u
      · subst hv
        rw [readByte_writeBytes_scratch v o b vs (hpad v o rfl), if_neg]
        rintro ⟨h1, h2⟩
        refine hx (b - o) (by omega) ?_
        rw [Loc.plus, Nat.add_sub_of_le h1]
      · rw [readByte_scratch, readByte_scratch, hw.others u v rfl hv]

theorem readBytes_writeBytes_at {s : State} {l : Loc} (h : GoodPlace s l) (vs : List Byte) : readBytes (writeBytes s l vs) l vs.length = vs := by
  obtain ⟨hplain, hpad⟩ := h
  cases l with
  | phys a => exact readBytes_writeBytes hplain a vs
  | scratch u o =>
    refine List.ext_getElem (readBytes_length _ _ _) fun i h1 h2 => ?_
    have hread := readBytes_getD (writeBytes s (.scratch u o) vs) (.scratch u o) vs.length i h2
    rw [List.getD_eq_getElem?_getD, List.getElem?_eq_getElem h1, Option.getD_some] at hread
    rw [hread, Loc.plus, readByte_writeBytes_scratch u o _ vs (hpad u o rfl), if_pos (by omega), Nat.add_sub_cancel_left, List.getD_eq_getElem?_getD, List.getElem?_eq_getElem h2,
      Option.getD_some]

/-- A word written is read back. -/
theorem word_writeNat {s : State} {l : Loc} (h : GoodPlace s l) (w : Word) : wd (readNat (writeNat s l 4 w.toNat) l 4) = w := by
  have hbytes := readBytes_writeBytes_at h (leBytes 4 w.toNat)
  rw [leBytes_length] at hbytes
  rw [readNat, writeNat, hbytes, leNat_leBytes, wd, Nat.mod_eq_of_lt w.isLt, BitVec.ofNat_toNat, BitVec.setWidth_eq]

theorem readNat_of_bytes {s t : State} (h : ∀ x, readByte t x = readByte s x) (l : Loc) (n : Nat) : readNat t l n = readNat s l n :=
  congrArg leNat (readBytes_congr l l n fun _ _ => h _)

/-! ### Poison -/

theorem poisonAt_performs {w : Option Nat} {s t : State} (h : Performs w s t) (l : Loc) : poisonAt t l = poisonAt s l := by
  have hscratch (u : Nat) : (t.team u).scratchPoison = (s.team u).scratchPoison := by
    cases w with
    | none => rw [State.team, State.team, h.teams rfl]
    | some v =>
      by_cases hu : u = v
      · subst hu
        rw [h.scratch u rfl]
      · rw [h.others v u rfl hu]
  unfold poisonAt
  rw [resolve_congr h.binds]
  split
  · rw [h.rest]
    rfl
  · rw [hscratch]

/-! ### Words in turn (R280) -/

/-- What a word has become after the first `k` of some requests. -/
def inTurn {α : Type} (step : Word → α → Word) (m : Word) (xs : List α) (k : Nat) : Word := (xs.take k).foldl step m

theorem inTurn_succ {α : Type} (step : Word → α → Word) (m : Word) {xs : List α} {k : Nat} (h : k < xs.length) : inTurn step m xs (k + 1) = step (inTurn step m xs k) xs[k] := by
  rw [inTurn, inTurn, List.take_succ_eq_append_getElem h, List.foldl_append]
  rfl

theorem inTurn_length {α : Type} (step : Word → α → Word) (m : Word) (xs : List α) : inTurn step m xs xs.length = xs.foldl step m := by
  rw [inTurn, List.take_length]

theorem inTurn_cons {α : Type} (step : Word → α → Word) (m : Word) (x : α) (xs : List α) (k : Nat) : inTurn step m (x :: xs) (k + 1) = inTurn step (step m x) xs k := rfl

theorem takesInTurn_of {α : Type} {s t : State} {loc : Loc} {step : Word → α → Word} {xs : List α} {rel : (k : Nat) → k < xs.length → Word → Word → Prop}
    (hrel : ∀ k (h : k < xs.length) m, rel k h m (step m xs[k])) (hend : wd (readNat t loc 4) = xs.foldl step (wd (readNat s loc 4))) :
    TakesInTurn s t loc xs.length (inTurn step (wd (readNat s loc 4)) xs) rel :=
  ⟨rfl, fun k h => by rw [inTurn_succ _ _ h]; exact hrel k h _, by rw [inTurn_length]; exact hend⟩

end Sys2Proof.Machine
end

section
/-! PROOF. O33: what the oldest entry of a store queue does when it leaves. -/

namespace Sys2Proof.Machine

/-! ### The directory's notes -/

/-- Two states whose directories alone differ. -/
def DirOnly (s t : State) : Prop := t = { s with dir := t.dir }

theorem DirOnly.refl (s : State) : DirOnly s s := rfl
theorem DirOnly.trans {s t r : State} (h : DirOnly s t) (k : DirOnly t r) : DirOnly s r := by
  unfold DirOnly at *
  rw [k, h]

theorem modDir_dirOnly (s : State) (n : Nat) (f : Dir → Dir) : DirOnly s (s.modDir n f) := rfl
theorem fitL1_dirOnly (s : State) (c n : Nat) : DirOnly s (fitL1 s c n) := rfl
theorem fitL2_dirOnly (s : State) (d n : Nat) : DirOnly s (fitL2 s d n) := rfl

theorem noteHome_dirOnly (s : State) (l : Loc) : DirOnly s (noteHome s l) := by
  unfold noteHome
  split
  · exact .refl s
  · exact ((modDir_dirOnly s _ _).trans (fitL2_dirOnly _ _ _)).trans (modDir_dirOnly _ _ _)

theorem noteHomes_dirOnly (s : State) (l : Loc) (n : Nat) : DirOnly s (noteHomes s l n) :=
  foldl_keeps (p := DirOnly s) (fun t x ht => ht.trans (noteHome_dirOnly t x)) _ s (.refl s)

theorem noteStore_dirOnly (s : State) (core : Nat) (rt : BitVec 2) (normal atHome : Bool) (l : Loc) (n : Nat) : DirOnly s (noteStore s core rt normal atHome l n) := by
  unfold noteStore
  split
  · exact .refl s
  · split
    · exact noteHomes_dirOnly s _ _
    · exact ((modDir_dirOnly s _ _).trans (fitL2_dirOnly _ _ _)).trans (fitL1_dirOnly _ _ _)

theorem noteAtomic_dirOnly (s : State) (l : Loc) : DirOnly s (noteAtomic s l) := by
  unfold noteAtomic
  split
  · exact .refl s
  · split
    · exact modDir_dirOnly s _ _
    · exact noteHome_dirOnly s _

theorem DirOnly.performs {s t : State} (h : DirOnly s t) (w : Option Nat) : Performs w s t := .of_bytes (by unfold DirOnly at h; rw [h]) w
theorem DirOnly.loads {s t : State} (h : DirOnly s t) : t.loads = s.loads := by unfold DirOnly at h; rw [h]
theorem DirOnly.readByte {s t : State} (h : DirOnly s t) (x : Loc) : readByte t x = readByte s x := by
  have hk := h.performs none
  have hmem : t.mem = s.mem := by unfold DirOnly at h; rw [h]
  exact readByte_congr hk.binds hmem (hk.teams rfl) x

/-- What the home still holds beside the directory. -/
theorem noteHeld_held (s t : State) (rt : BitVec 2) (l : Loc) (bs : List Byte) : noteHeld s t rt l bs = { t with homeWords := (noteHeld s t rt l bs).homeWords } := by
  unfold noteHeld
  split <;> rfl

/-! ### The lanes of an atomic and of a reduction (R279 to R281) -/

theorem redfLanes_performs (fn : BitVec 3) (loc : Loc) {s : State} (h : s.binds = []) (xs : List (Nat × Word)) :
    Performs loc.pad s (redfLanes fn loc s xs).1 ∧ (redfLanes fn loc s xs).1.loads = s.loads := by
  induction xs generalizing s with
  | nil => exact ⟨.refl _ s, rfl⟩
  | cons x xs ih =>
    have hw := writeBytes_performs h loc (leBytes 4 (redfNew fn (wd (readNat s loc 4)) x.2).1.toNat)
    have honly := writeBytes_only s loc (leBytes 4 (redfNew fn (wd (readNat s loc 4)) x.2).1.toNat)
    obtain ⟨hp, hl⟩ := ih (hw.binds.trans h)
    refine ⟨hw.trans hp, hl.trans ?_⟩
    rw [honly]

/-- The new value of a word for one lane of a reduction. -/
def redfStep (fn : BitVec 3) (m : Word) (x : Nat × Word) : Word := (redfNew fn m x.2).1

theorem redfLanes_bytes (fn : BitVec 3) {loc : Loc} {s : State} (h : GoodPlace s loc) (xs : List (Nat × Word)) :
    wd (readNat (redfLanes fn loc s xs).1 loc 4) = xs.foldl (redfStep fn) (wd (readNat s loc 4)) ∧
    ∀ x, (∀ i, i < 4 → x ≠ loc.plus i) → readByte (redfLanes fn loc s xs).1 x = readByte s x := by
  induction xs generalizing s with
  | nil => exact ⟨rfl, fun _ _ => rfl⟩
  | cons y xs ih =>
    have hw := writeBytes_performs h.1.1 loc (leBytes 4 (redfNew fn (wd (readNat s loc 4)) y.2).1.toNat)
    obtain ⟨hword, hoff⟩ := ih (h.of_performs hw)
    refine ⟨?_, fun x hx => (hoff x hx).trans (readByte_writeBytes_off h _ (by rwa [leBytes_length]))⟩
    have hread := word_writeNat h (redfNew fn (wd (readNat s loc 4)) y.2).1
    rw [writeNat] at hread
    rw [hread] at hword
    exact hword

/-- The new value of a word for one lane of an atomic. -/
def atomicStep (fn : BitVec 3) (m : Word) (x : Nat × Word × Word) : Word := atomicNew fn m x.2.1 x.2.2

/-- What the lanes of an atomic make of a load, each with the value that its word held just before. -/
def answered (fn : BitVec 3) (p : Bool) : Word → List (Nat × Word × Word) → Load → Load
  | _, [], l => l
  | m, x :: xs, l => answered fn p (atomicStep fn m x) xs (if l.id = x.1 then { l with value := some m.toNat, poison := p } else l)

theorem answered_other (fn : BitVec 3) (p : Bool) {xs : List (Nat × Word × Word)} {l : Load} (h : l.id ∉ xs.map Prod.fst) (m : Word) : answered fn p m xs l = l := by
  induction xs generalizing m with
  | nil => rfl
  | cons x xs ih =>
    rw [List.map_cons, List.mem_cons, not_or] at h
    obtain ⟨hx, hxs⟩ := h
    rw [answered, if_neg hx, ih hxs]

theorem answered_at (fn : BitVec 3) (p : Bool) {xs : List (Nat × Word × Word)} (hn : (xs.map Prod.fst).Nodup) {l : Load} {k : Nat} (h : k < xs.length) (hk : xs[k].1 = l.id)
    (m : Word) : answered fn p m xs l = { l with value := some (inTurn (atomicStep fn) m xs k).toNat, poison := p } := by
  induction xs generalizing m k with
  | nil => exact absurd h (Nat.not_lt_zero k)
  | cons x xs ih =>
    rw [List.map_cons, List.nodup_cons] at hn
    obtain ⟨hx, hxs⟩ := hn
    cases k with
    | zero =>
      have hid : l.id = x.1 := hk.symm
      rw [answered, if_pos hid, answered_other]
      · rfl
      · show l.id ∉ xs.map Prod.fst
        rw [hid]
        exact hx
    | succ k =>
      have hlt : k < xs.length := Nat.lt_of_succ_lt_succ h
      have hk' : xs[k].1 = l.id := hk
      have hne : l.id ≠ x.1 := fun he => hx (he ▸ hk' ▸ List.mem_map_of_mem (List.getElem_mem hlt))
      rw [answered, if_neg hne, ih hxs hlt hk', inTurn_cons]

/-- One lane of an atomic: its load has its value, and the word is written. -/
def atomicLane (fn : BitVec 3) (loc : Loc) (s : State) (x : Nat × Word × Word) : State :=
  writeNat (s.modLoad x.1 (fun l => { l with value := some (wd (readNat s loc 4)).toNat, poison := poisonAt s loc })) loc 4 (atomicStep fn (wd (readNat s loc 4)) x).toNat

theorem modLoad_performs (s : State) (i : Nat) (f : Load → Load) (w : Option Nat) : Performs w s (s.modLoad i f) := .of_bytes rfl w

theorem atomicLane_performs (fn : BitVec 3) (loc : Loc) {s : State} (h : s.binds = []) (x : Nat × Word × Word) : Performs loc.pad s (atomicLane fn loc s x) :=
  (modLoad_performs s x.1 (fun l => { l with value := some (wd (readNat s loc 4)).toNat, poison := poisonAt s loc }) loc.pad).trans (writeBytes_performs (s := s.modLoad _ _) h loc _)

theorem atomicLane_loads (fn : BitVec 3) (loc : Loc) (s : State) (x : Nat × Word × Word) :
    (atomicLane fn loc s x).loads = s.loads.map (fun l => if l.id = x.1 then { l with value := some (wd (readNat s loc 4)).toNat, poison := poisonAt s loc } else l) := by
  rw [atomicLane, writeNat_only]
  rfl

theorem atomicLane_word (fn : BitVec 3) {loc : Loc} {s : State} (h : GoodPlace s loc) (x : Nat × Word × Word) :
    wd (readNat (atomicLane fn loc s x) loc 4) = atomicStep fn (wd (readNat s loc 4)) x := word_writeNat (h.of_performs (modLoad_performs s _ _ none)) _

theorem atomicLane_off (fn : BitVec 3) {loc : Loc} {s : State} (h : GoodPlace s loc) (x : Nat × Word × Word) {y : Loc} (hy : ∀ i, i < 4 → y ≠ loc.plus i) :
    readByte (atomicLane fn loc s x) y = readByte s y :=
  readByte_writeBytes_off (s := s.modLoad x.1 _) (h.of_performs (modLoad_performs s _ _ none)) _ (by rwa [leBytes_length])

theorem atomicLanes_performs (fn : BitVec 3) (loc : Loc) {s : State} (h : s.binds = []) (xs : List (Nat × Word × Word)) : Performs loc.pad s (atomicLanes fn loc s xs) := by
  induction xs generalizing s with
  | nil => exact .refl _ s
  | cons x xs ih =>
    have hone := atomicLane_performs fn loc h x
    exact hone.trans (ih (hone.binds.trans h))

theorem atomicLanes_bytes (fn : BitVec 3) {loc : Loc} {s : State} (h : GoodPlace s loc) (xs : List (Nat × Word × Word)) :
    wd (readNat (atomicLanes fn loc s xs) loc 4) = xs.foldl (atomicStep fn) (wd (readNat s loc 4)) ∧
    (∀ x, (∀ i, i < 4 → x ≠ loc.plus i) → readByte (atomicLanes fn loc s xs) x = readByte s x) ∧
    (atomicLanes fn loc s xs).loads = s.loads.map (answered fn (poisonAt s loc) (wd (readNat s loc 4)) xs) := by
  induction xs generalizing s with
  | nil => exact ⟨rfl, fun _ _ => rfl, (List.map_id _).symm⟩
  | cons x xs ih =>
    have hone := atomicLane_performs fn loc h.1.1 x
    obtain ⟨hword, hoff, hloads⟩ := ih (h.of_performs hone)
    rw [atomicLane_word fn h] at hword hloads
    rw [poisonAt_performs hone, atomicLane_loads, List.map_map] at hloads
    exact ⟨hword, fun y hy => (hoff y hy).trans (atomicLane_off fn h x hy), hloads⟩

theorem atomicNew_gives (fn : BitVec 3) (m b c : Word) : AtomicGives fn m b c (atomicNew fn m b c) := by
  unfold AtomicGives atomicNew
  refine ⟨fun h => ?_, fun h => ?_, fun h => ?_, fun h => ?_, fun h => ?_, fun h => ?_, fun h => ?_, fun h => ?_⟩ <;> rw [h]
  · exact BitVec.toNat_add m b
  · simp only [BitVec.sle, decide_eq_true_eq]
  · simp only [BitVec.sle, decide_eq_true_eq]
  all_goals rfl

theorem redfNew_gives (fn : BitVec 3) (m b : Word) : RedfGives fn m b (redfNew fn m b).1 := by
  unfold RedfGives
  refine ⟨?_, ?_, ?_, ?_, ?_⟩ <;> rintro rfl
  · rfl
  · rfl
  · rfl
  · rfl
  · exact BitVec.toNat_add m b

end Sys2Proof.Machine
end

section
/-! PROOF. O33: the statement, operation by operation. -/

namespace Sys2Proof.Machine

/-! ### The oldest entry leaves -/

/-- The state in which the oldest entry of a queue has left it and is yet to be performed. -/
def State.popped (s : State) (g : Nat) (q : List QEntry) : State := s.modGroup g (fun x => { x with queue := q, left := x.left + 1 })

/-- An entry of O33's kinds: a store, an atomic or a reduction. -/
def QEntry.Writes (e : QEntry) : Prop := (∃ bs, e.op = .store bs) ∨ (∃ fn lanes, e.op = .atomic fn lanes) ∨ ∃ fn lanes b, e.op = .redf fn lanes b

theorem leaves_eq {s : State} {g : Nat} {e : QEntry} {q : List QEntry} (hq : (s.group g).queue = e :: q) (he : e.Writes) :
    exec (.storeQueueLeave g) s = .next (performEntry (s.popped g q) g e) := by
  have hmark : headMark s g = false := by
    obtain ⟨bs, h⟩ | ⟨fn, xs, h⟩ | ⟨fn, xs, b, h⟩ := he <;> simp [headMark, hq, h, QOp.isMark]
  rw [exec_storeQueueLeave, execStoreQueueLeave, hmark, leaveHead, hq]
  rfl

theorem performEntry_fresh {s : State} {g : Nat} {e : QEntry} {q : List QEntry} (h : e.inc = incarnation s ⟨1, (s.team (g / 64)).coreId⟩) :
    performEntry (s.popped g q) g e = performLive (s.popped g q) g e := by
  rw [performEntry]
  refine if_neg fun hs => ?_
  rw [Bool.and_eq_true, decide_eq_true_eq] at hs
  exact hs.2 h

/-- Where an entry starts: it is the oldest of its queue, sent under the present incarnation, and its place is good. -/
def Starts (g : Nat) (e : QEntry) (q : List QEntry) (s : State) : Prop :=
  ((s.group g).queue = e :: q ∧ s.binds = [] ∧ s.lost = []) ∧ e.inc = incarnation s ⟨1, (s.team (g / 64)).coreId⟩ ∧
    ∀ u o, e.loc = .scratch u o → (mfind s.teams u).isSome = true

theorem Starts.good {g : Nat} {e : QEntry} {q : List QEntry} {s : State} (h : Starts g e q s) : GoodPlace (s.popped g q) e.loc := by
  obtain ⟨⟨-, hb, hl⟩, -, hpad⟩ := h
  exact ⟨⟨hb, hl⟩, hpad⟩

theorem Starts.exec {g : Nat} {e : QEntry} {q : List QEntry} {s : State} (h : Starts g e q s) (he : e.Writes) :
    Machine.exec (.storeQueueLeave g) s = .next (performLive (s.popped g q) g e) := by
  obtain ⟨⟨hq, -⟩, hinc, -⟩ := h
  rw [leaves_eq hq he, performEntry_fresh hinc]

theorem readByte_popped (s : State) (g : Nat) (q : List QEntry) (x : Loc) : readByte (s.popped g q) x = readByte s x := readByte_congr (s := s) rfl rfl rfl x
theorem readNat_popped (s : State) (g : Nat) (q : List QEntry) (x : Loc) (n : Nat) : readNat (s.popped g q) x n = readNat s x n := readNat_of_bytes (readByte_popped s g q) x n

theorem queue_popped (s : State) (g : Nat) (q : List QEntry) : ((s.popped g q).group g).queue = q := by rw [State.popped, State.group_modGroup_same]

/-- The entry has left its queue, and beside the bytes at its place nothing of threads, registers, queues or memory differs. -/
def HasLeft (g : Nat) (e : QEntry) (q : List QEntry) (s t : State) : Prop :=
  (t.group g).queue = q ∧ (∀ x, x ≠ g → t.group x = s.group x) ∧ t.threads = s.threads ∧ t.sys = s.sys ∧
    ((∃ a, e.loc = .phys a) → t.teams = s.teams) ∧
    ∀ u o, e.loc = .scratch u o → t.mem = s.mem ∧ (∀ v, v ≠ u → t.team v = s.team v) ∧ t.team u = { (s.team u) with scratch := (t.team u).scratch }

theorem hasLeft_of_performs {g : Nat} {e : QEntry} {q : List QEntry} {s t : State} (h : Performs e.loc.pad (s.popped g q) t) : HasLeft g e q s t := by
  have hgroup (x : Nat) : t.group x = (s.popped g q).group x := by rw [State.group, State.group, h.groups]
  refine ⟨?_, fun x hx => ?_, h.threads, h.sys, fun ⟨a, ha⟩ => ?_, fun u o ho => ?_⟩
  · rw [hgroup, queue_popped]
  · rw [hgroup]
    exact State.group_modGroup_other s g x _ hx
  · exact h.teams (by rw [ha]; rfl)
  · have hpad : e.loc.pad = some u := by rw [ho]; rfl
    exact ⟨h.mem (by rw [hpad]; rfl), fun v hv => h.others u v hpad hv, h.scratch u hpad⟩

/-! ### Stores -/

/-- The state in which a store of a queue has been noted. -/
def storeNoted (s : State) (g : Nat) (e : QEntry) (bs : List Byte) : State :=
  noteHeld s (noteStore s (s.team (g / 64)).coreId e.rt e.normal e.atHome e.loc bs.length) e.rt e.loc bs

theorem performLive_store {e : QEntry} {bs : List Byte} (he : e.op = .store bs) (s : State) (g : Nat) :
    performLive s g e = writeBytes (storeNoted s g e bs) e.loc bs := by
  simp only [performLive, he]
  rfl

theorem storeNoted_parts (s : State) (g : Nat) (e : QEntry) (bs : List Byte) : Performs e.loc.pad s (storeNoted s g e bs) ∧ (storeNoted s g e bs).loads = s.loads ∧
    ∀ x, readByte (storeNoted s g e bs) x = readByte s x := by
  have hdir := noteStore_dirOnly s (s.team (g / 64)).coreId e.rt e.normal e.atHome e.loc bs.length
  have hheld := noteHeld_held s (noteStore s (s.team (g / 64)).coreId e.rt e.normal e.atHome e.loc bs.length) e.rt e.loc bs
  unfold storeNoted
  refine ⟨(hdir.performs _).trans (.of_bytes (by rw [hheld]) _), ?_, fun x => ?_⟩
  · rw [hheld]
    exact hdir.loads
  · rw [hheld, ← hdir.readByte x]
    exact readByte_congr rfl rfl rfl x

theorem store_leaves (g : Nat) (e : QEntry) (q : List QEntry) (bs : List Byte) (he : e.op = .store bs) : EventGives (.storeQueueLeave g) (Starts g e q) (fun s t =>
    HasLeft g e q s t ∧ t.loads = s.loads ∧ readBytes t e.loc bs.length = bs ∧ ∀ x, (∀ i, i < bs.length → x ≠ e.loc.plus i) → readByte t x = readByte s x) := by
  intro s hs
  obtain ⟨hnote, hloads, hbytes⟩ := storeNoted_parts (s.popped g q) g e bs
  have hgood := hs.good.of_performs hnote
  refine ⟨_, hs.exec (.inl ⟨bs, he⟩), ?_⟩
  rw [performLive_store he]
  refine ⟨hasLeft_of_performs (hnote.trans (writeBytes_performs hgood.1.1 _ _)), ?_, readBytes_writeBytes_at hgood bs, fun x hx => ?_⟩
  · rw [writeBytes_only]
    exact hloads
  · rw [readByte_writeBytes_off hgood bs hx, hbytes, readByte_popped]

/-! ### What the home holds of a line that stays in an L1 (R248) -/

/-- The words of a line that a store touches, as they were. -/
theorem mfind_touched (f : Nat → Word) (P : Nat → Prop) [DecidablePred P] (n : Nat) (k : Nat) :
    mfind ((List.range n).foldl (fun m k => if P k ∧ mfind m k = none then mput m k (f k) else m) []) k = if k < n ∧ P k then some (f k) else none := by
  induction n with
  | zero => simp
  | succ n ih =>
    rw [List.range_succ, List.foldl_append, List.foldl_cons, List.foldl_nil]
    generalize (List.range n).foldl (fun m k => if P k ∧ mfind m k = none then mput m k (f k) else m) [] = m at ih
    by_cases hk : k = n
    · subst hk
      rw [if_neg (by omega)] at ih
      by_cases hP : P k
      · rw [if_pos ⟨hP, ih⟩, mfind_mput_same, if_pos ⟨Nat.lt_succ_self k, hP⟩]
      · rw [if_neg (fun h => hP h.1), ih, if_neg (fun h => hP h.2)]
    · have hm : mfind (if P n ∧ mfind m n = none then mput m n (f n) else m) k = mfind m k := by
        split
        · exact mfind_mput_other _ _ _ _ hk
        · rfl
      rw [hm, ih]
      exact if_congr (and_congr_left fun _ => by omega) rfl rfl

theorem homeAfter_clean {s : State} {d : Dir} {pa : Nat} (hd : (s.dirOf (pa / 128)).ahead = false) (hdirty : d.dirty = true) (bs : List Byte) (k : Nat) :
    mfind (homeAfter s d false pa bs) k = if k < 32 ∧ pa % 128 < 4 * k + 4 ∧ 4 * k < pa % 128 + bs.length then some (memWord s (pa / 128) k) else none := by
  have hkeeps : (s.dirOf (pa / 128)).keeps d = false := by simp [Dir.keeps, hd]
  have hahead : d.ahead = true := by simp [Dir.ahead, hdirty]
  rw [← mfind_touched (memWord s (pa / 128)) (fun k => pa % 128 < 4 * k + 4 ∧ 4 * k < pa % 128 + bs.length) 32 k]
  simp only [homeAfter, hkeeps, hahead, hdirty, Bool.false_eq_true, if_false, Bool.true_or, Bool.and_true, if_true, and_assoc]

theorem store_keeps_home (g p : Nat) (e : QEntry) (q : List QEntry) (bs : List Byte) (he : e.op = .store bs) (hloc : e.loc = .phys p) (hrt : e.rt = 0) :
    EventGives (.storeQueueLeave g) (fun s => Starts g e q s ∧ (s.dirOf (p / 128)).dirty = false ∧ (s.dirOf (p / 128)).privatised = []) (fun s t =>
      (t.dirOf (p / 128)).dirty = true → ∀ k, k < 32 → homeWord t (p / 128) k = BitVec.ofNat 32 (readNat s (.phys (p / 128 * 128 + 4 * k)) 4)) := by
  rintro s ⟨hs, hclean, hpriv⟩
  refine ⟨_, hs.exec (.inl ⟨bs, he⟩), fun hdirty k hk => ?_⟩
  obtain ⟨hnote, -, hbytes⟩ := storeNoted_parts (s.popped g q) g e bs
  have hgood := hs.good.of_performs hnote
  have honly := writeBytes_only (storeNoted (s.popped g q) g e bs) e.loc bs
  rw [performLive_store he] at hdirty ⊢
  generalize ht : writeBytes (storeNoted (s.popped g q) g e bs) e.loc bs = t at hdirty honly ⊢
  -- the directory as the store has left it, and what has been held back of the line
  obtain ⟨⟨-, hbinds, -⟩, -, -⟩ := hs
  have hd : ((s.popped g q).dirOf (p / 128)).ahead = false := by
    show (s.dirOf (p / 128)).ahead = false
    rw [Dir.ahead, hclean, hpriv]
    rfl
  have hheld : (storeNoted (s.popped g q) g e bs).homeWords = mset [] (noteStore (s.popped g q) ((s.popped g q).team (g / 64)).coreId e.rt e.normal e.atHome e.loc bs.length).homeWords
      (p / 128) (homeAfter (s.popped g q) (t.dirOf (p / 128)) false p bs) := by
    have hdir : t.dirOf (p / 128) = (noteStore (s.popped g q) ((s.popped g q).team (g / 64)).coreId e.rt e.normal e.atHome e.loc bs.length).dirOf (p / 128) := by
      rw [State.dirOf, honly, storeNoted, noteHeld_held]
      rfl
    rw [hdir, storeNoted, noteHeld, resolve_phys (s := s.popped g q) hbinds, hloc, hrt]
    rfl
  have hwords : t.homeWords = (storeNoted (s.popped g q) g e bs).homeWords := by rw [honly]
  have hfind : ((mfind t.homeWords (p / 128)).bind (fun ws => mfind ws k)) = mfind (homeAfter (s.popped g q) (t.dirOf (p / 128)) false p bs) k := by
    rw [hwords, hheld, mset]
    split
    · next hnil => rw [mfind_mdel_same, hnil]; rfl
    · rw [mfind_mput_same]; rfl
  rw [homeWord, hfind, homeAfter_clean hd hdirty, Dir.ahead, hdirty]
  by_cases htouched : p % 128 < 4 * k + 4 ∧ 4 * k < p % 128 + bs.length
  · rw [if_pos ⟨hk, htouched⟩]
    exact congrArg wd (readNat_popped s g q _ _)
  · rw [if_neg fun h => htouched h.2]
    refine congrArg wd (congrArg leNat (readBytes_congr _ _ _ fun i hi => ?_))
    rw [← ht, readByte_writeBytes_off hgood bs, hbytes, readByte_popped]
    intro j hj
    rw [hloc]
    simp only [Loc.plus, ne_eq, Loc.phys.injEq]
    omega

/-! ### Atomics -/

theorem performLive_atomic {e : QEntry} {fn : BitVec 3} {xs : List (Nat × Word × Word)} (he : e.op = .atomic fn xs) (s : State) (g : Nat) :
    performLive s g e = atomicLanes fn e.loc (noteAtomic s e.loc) xs := by simp only [performLive, he]

theorem atomic_leaves (g : Nat) (e : QEntry) (q : List QEntry) (fn : BitVec 3) (xs : List (Nat × Word × Word)) (he : e.op = .atomic fn xs) (hn : (xs.map Prod.fst).Nodup) :
    EventGives (.storeQueueLeave g) (Starts g e q) (fun s t => HasLeft g e q s t ∧ (∀ x, (∀ i, i < 4 → x ≠ e.loc.plus i) → readByte t x = readByte s x) ∧
      ∃ m, TakesInTurn s t e.loc xs.length m (fun k h old new => AtomicGives fn old xs[k].2.1 xs[k].2.2 new) ∧
        ∃ f : Load → Load, t.loads = s.loads.map f ∧ (∀ x, x.id ∉ xs.map Prod.fst → f x = x) ∧
          ∀ x k (h : k < xs.length), xs[k].1 = x.id → f x = { x with value := some (m k).toNat, poison := poisonAt s e.loc }) := by
  intro s hs
  have hdir := noteAtomic_dirOnly (s.popped g q) e.loc
  have hgood := hs.good.of_performs (hdir.performs none)
  have hread (x : Loc) : readByte (noteAtomic (s.popped g q) e.loc) x = readByte s x := (hdir.readByte x).trans (readByte_popped s g q x)
  have hpoison : poisonAt (noteAtomic (s.popped g q) e.loc) e.loc = poisonAt s e.loc := (poisonAt_performs (hdir.performs none) e.loc).trans rfl
  obtain ⟨hword, hoff, hloads⟩ := atomicLanes_bytes fn hgood xs
  rw [readNat_of_bytes hread] at hword hloads
  rw [hpoison, hdir.loads] at hloads
  refine ⟨_, hs.exec (.inr (.inl ⟨fn, xs, he⟩)), ?_⟩
  rw [performLive_atomic he]
  refine ⟨hasLeft_of_performs ((hdir.performs _).trans (atomicLanes_performs fn e.loc hgood.1.1 xs)), fun x hx => (hoff x hx).trans (hread x),
    inTurn (atomicStep fn) (wd (readNat s e.loc 4)) xs, takesInTurn_of (fun k h m => atomicNew_gives fn m _ _) hword,
    answered fn (poisonAt s e.loc) (wd (readNat s e.loc 4)) xs, hloads, fun x hx => answered_other fn _ hx _, fun x k h hk => answered_at fn _ hn h hk _⟩

/-! ### Reductions -/

/-- The events of a group's reduction word with those of one more request. -/
def redfEvents (s : State) (g : Nat) (e : QEntry) (fn : BitVec 3) (xs : List (Nat × Word)) : List ((Nat × Nat) × List Nat) :=
  (s.group g).events ++ (redfLanes fn e.loc (noteAtomic s e.loc) xs).2.map (fun p => ((p.1, e.trapNo), p.2))

theorem performLive_redf {e : QEntry} {fn : BitVec 3} {xs : List (Nat × Word)} {last : Bool} (he : e.op = .redf fn xs last) (s : State) (g : Nat) :
    performLive s g e = if last then raiseEvents ((redfLanes fn e.loc (noteAtomic s e.loc) xs).1.modGroup g (fun g => { g with events := [] })) (g / 64) none (redfEvents s g e fn xs) e.word
      else (redfLanes fn e.loc (noteAtomic s e.loc) xs).1.modGroup g (fun x => { x with events := redfEvents s g e fn xs }) := by
  simp only [performLive, he]
  rfl

/-- The state with the word of a reduction written, before its events. -/
def redfWritten (s : State) (g : Nat) (e : QEntry) (q : List QEntry) (fn : BitVec 3) (xs : List (Nat × Word)) : State :=
  (redfLanes fn e.loc (noteAtomic (s.popped g q) e.loc) xs).1

theorem redfWritten_parts {g : Nat} {e : QEntry} {q : List QEntry} {s : State} (hs : Starts g e q s) (fn : BitVec 3) (xs : List (Nat × Word)) :
    Performs e.loc.pad (s.popped g q) (redfWritten s g e q fn xs) ∧ (redfWritten s g e q fn xs).loads = s.loads ∧
    wd (readNat (redfWritten s g e q fn xs) e.loc 4) = xs.foldl (redfStep fn) (wd (readNat s e.loc 4)) ∧
    ∀ x, (∀ i, i < 4 → x ≠ e.loc.plus i) → readByte (redfWritten s g e q fn xs) x = readByte s x := by
  have hdir := noteAtomic_dirOnly (s.popped g q) e.loc
  have hgood := hs.good.of_performs (hdir.performs none)
  have hread (x : Loc) : readByte (noteAtomic (s.popped g q) e.loc) x = readByte s x := (hdir.readByte x).trans (readByte_popped s g q x)
  obtain ⟨hword, hoff⟩ := redfLanes_bytes fn hgood xs
  obtain ⟨hperf, hloads⟩ := redfLanes_performs fn e.loc hgood.1.1 xs
  rw [readNat_of_bytes hread] at hword
  exact ⟨(hdir.performs _).trans hperf, hloads.trans hdir.loads, hword, fun x hx => (hoff x hx).trans (hread x)⟩

/-- A group whose events alone have been set. -/
theorem readByte_modGroup (s : State) (g : Nat) (f : Group → Group) (x : Loc) : readByte (s.modGroup g f) x = readByte s x := readByte_congr (s := s) rfl rfl rfl x

theorem hasLeft_withEvents {g : Nat} {e : QEntry} {q : List QEntry} {s t : State} (h : Performs e.loc.pad (s.popped g q) t) (evs : List ((Nat × Nat) × List Nat)) :
    HasLeft g e q s (t.modGroup g (fun x => { x with events := evs })) := by
  obtain ⟨hqueue, hothers, hthreads, hsys, hphys, hpad⟩ := hasLeft_of_performs h
  refine ⟨?_, fun x hx => ?_, hthreads, hsys, hphys, hpad⟩
  · rw [State.group_modGroup_same]
    exact hqueue
  · rw [State.group_modGroup_other _ _ _ _ hx]
    exact hothers x hx

/-! ### Events where the error ring is off (R177, R180, R418) -/

/-- What the events of a vector word of a team change where the error ring is off. -/
structure Offline (uid : Nat) (s t : State) : Prop where
  rest : t = { s with threads := t.threads, teams := t.teams, sys := t.sys, irqs := t.irqs }
  own : t.team uid = { (s.team uid) with windows := (t.team uid).windows }
  others : ∀ u, u ≠ uid → t.team u = s.team u
  sys : ∀ r, r ≠ 0x6014 → t.sysReg r = s.sysReg r

theorem Offline.refl (uid : Nat) (s : State) : Offline uid s s := ⟨rfl, rfl, fun _ _ => rfl, fun _ _ => rfl⟩

theorem Offline.trans {uid : Nat} {s t r : State} (h : Offline uid s t) (k : Offline uid t r) : Offline uid s r :=
  ⟨by rw [k.rest, h.rest], by rw [k.own, h.own], fun u hu => (k.others u hu).trans (h.others u hu), fun x hx => (k.sys x hx).trans (h.sys x hx)⟩

theorem Offline.ring {uid : Nat} {s t : State} (h : Offline uid s t) (hoff : ringBase s 0x6012 = none) : ringBase t 0x6012 = none := by
  rw [← hoff, ringBase, ringBase, h.sys 0x6012 (by decide)]

theorem tally_offline (s : State) (uid c n : Nat) : Offline uid s (tally s uid c n) :=
  ⟨rfl, (TeamsDiffer.modTeam (R := fun a b => b = { a with windows := b.windows }) (f := fun t => t.setWindow c (if s.crossed uid c n then 0 else s.counted uid c n, (s.window uid c).2))
    (fun _ => rfl) (fun _ => rfl) s uid).team (R := fun a b => b = { a with windows := b.windows }) rfl uid, fun u hu => State.team_modTeam_other s uid u _ hu, fun _ _ => rfl⟩

theorem pendFaults_offline (uid : Nat) (s : State) (f : TrapInfo) (ps : List (Nat × Nat)) : Offline uid s (pendFaults s f ps) := by
  rw [pendFaults_rest]
  exact ⟨rfl, rfl, fun _ _ => rfl, fun _ _ => rfl⟩

theorem numericIrq_offline {s : State} (hoff : ringBase s 0x6012 = none) (uid : Nat) (m : Bool) (c : Nat) : Offline uid s (numericIrq s uid m c) := by
  rw [numericIrq]
  simp only [logError_off hoff]
  exact ⟨rfl, rfl, fun _ _ => rfl, fun r hr => State.sysReg_setSys_other s _ _ _ hr⟩

theorem countEvents_offline {s : State} (hoff : ringBase s 0x6012 = none) (uid c n : Nat) (tids : List (Nat × Nat)) (word : Word) :
    Offline uid s (countEvents s uid false c n tids word) := by
  by_cases hn : n = 0
  · rw [countEvents, if_pos hn]
    exact .refl uid s
  have htally := tally_offline s uid c n
  obtain ⟨-, -, he⟩ | ⟨-, he⟩ | ⟨-, he⟩ := countEvents_cases hn s uid c tids word
  · rw [he]
    exact htally
  · rw [he]
    exact htally.trans (pendFaults_offline _ _ _ _)
  · rw [he]
    exact htally.trans (numericIrq_offline (htally.ring hoff) _ _ _)

/-- One class of a word that names no slot. -/
theorem step_offline {s : State} (hoff : ringBase s 0x6012 = none) (evs : List ((Nat × Nat) × List Nat)) (uid : Nat) (word : Word) (c : Nat) :
    Offline uid s ((Raised.of none evs).step uid word s c) := countEvents_offline hoff _ _ _ _ _

theorem raiseEvents_offline {s : State} (hoff : ringBase s 0x6012 = none) (uid : Nat) (evs : List ((Nat × Nat) × List Nat)) (word : Word) :
    Offline uid s (raiseEvents s uid none evs word) := by
  rw [raiseEvents_eq]
  refine (eachLane_keeps (p := fun t => Offline uid s t ∧ ringBase t 0x6012 = none) (fun t c ht => ?_) s _ ⟨.refl uid s, hoff⟩).1
  have hstep := step_offline ht.2 evs uid word c
  exact ⟨ht.1.trans hstep, hstep.ring ht.2⟩

theorem Offline.readByte {uid : Nat} {s t : State} (h : Offline uid s t) (x : Loc) : readByte t x = readByte s x := by
  refine readByte_of_scratch (by rw [h.rest]) (by rw [h.rest]) (fun u => ?_) x
  by_cases hu : u = uid
  · rw [hu, h.own]
  · rw [h.others u hu]

theorem Offline.group {uid : Nat} {s t : State} (h : Offline uid s t) (x : Nat) : t.group x = s.group x := by
  rw [State.group, State.group, h.rest]

theorem Offline.loads {uid : Nat} {s t : State} (h : Offline uid s t) : t.loads = s.loads := by rw [h.rest]

/-- The registers of the windows are not ERRLOST: their last four bits differ. -/
theorem Offline.control {uid : Nat} {s t : State} (h : Offline uid s t) {k : Nat} (hk : k < 4) : t.control uid k = s.control uid k := by
  rw [State.control, State.control, nevctl, nevctl, h.own, h.sys _ (by omega)]

/-- A reduction whose word is done has written its word and then counted the events. -/
theorem redf_leaves (g : Nat) (e : QEntry) (q : List QEntry) (fn : BitVec 3) (xs : List (Nat × Word)) (last : Bool) (he : e.op = .redf fn xs last) :
    EventGives (.storeQueueLeave g) (fun s => Starts g e q s ∧ (last = true → ringBase s 0x6012 = none)) (fun s t =>
      (last = false → HasLeft g e q s t) ∧ (t.group g).queue = q ∧ (∀ x, x ≠ g → t.group x = s.group x) ∧ t.loads = s.loads ∧
      (∀ x, (∀ i, i < 4 → x ≠ e.loc.plus i) → readByte t x = readByte s x) ∧
      ∃ m, TakesInTurn s t e.loc xs.length m (fun k h old new => RedfGives fn old xs[k].2 new)) := by
  rintro s ⟨hs, hring⟩
  obtain ⟨hperf, hloads, hword, hoff⟩ := redfWritten_parts hs fn xs
  refine ⟨_, hs.exec (.inr (.inr ⟨fn, xs, last, he⟩)), ?_⟩
  rw [performLive_redf he]
  have hturn {t : State} (ht : ∀ x, readByte t x = readByte (redfWritten s g e q fn xs) x) :
      TakesInTurn s t e.loc xs.length (inTurn (redfStep fn) (wd (readNat s e.loc 4)) xs) (fun k h old new => RedfGives fn old xs[k].2 new) :=
    takesInTurn_of (fun k h m => redfNew_gives fn m _) ((congrArg wd (readNat_of_bytes ht _ _)).trans hword)
  cases last with
  | false =>
    have hleft := hasLeft_withEvents hperf (redfEvents (s.popped g q) g e fn xs)
    have hread := readByte_modGroup (redfWritten s g e q fn xs) g (fun x => { x with events := redfEvents (s.popped g q) g e fn xs })
    rw [if_neg Bool.false_ne_true]
    exact ⟨fun _ => hleft, hleft.1, hleft.2.1, hloads, fun x hx => (hread x).trans (hoff x hx), _, hturn hread⟩
  | true =>
    obtain ⟨hqueue, hothers, -⟩ := hasLeft_withEvents hperf []
    have hoffline := raiseEvents_offline (s := (redfWritten s g e q fn xs).modGroup g (fun x => { x with events := [] }))
      (by rw [← hring rfl, ringBase, ringBase, State.sysReg, State.sysReg, State.modGroup_sys, hperf.sys]; rfl) (g / 64) (redfEvents (s.popped g q) g e fn xs) e.word
    have hread (x : Loc) := (hoffline.readByte x).trans (readByte_modGroup (redfWritten s g e q fn xs) g (fun x => { x with events := [] }) x)
    rw [if_pos rfl]
    exact ⟨nofun, (congrArg Group.queue (hoffline.group g)).trans hqueue, fun x hx => (hoffline.group x).trans (hothers x hx), hoffline.loads.trans hloads,
      fun x hx => (hread x).trans (hoff x hx), _, hturn hread⟩

/-! ### The last request of its word counts the events (log 35) -/

/-- The events of a word of one lane. -/
def laneEvents (x trapNo : Nat) (es : List Nat) : List ((Nat × Nat) × List Nat) := [((x, trapNo), es)]

theorem number_laneEvents (x trapNo : Nat) (es : List Nat) (c : Nat) : (Raised.of none (laneEvents x trapNo es)).number c = classCount c es := by
  simp [Raised.of, laneEvents]

theorem faultsFor_laneEvents (f : TrapInfo) (x trapNo : Nat) (es : List Nat) {c : Nat} (hc : classCount c es ≠ 0) (y : Nat) :
    faultsFor f y ((Raised.of none (laneEvents x trapNo es)).raisers c) = if y = x then [{ f with trapNo := trapNo }] else [] := by
  have hraisers : (Raised.of none (laneEvents x trapNo es)).raisers c = [(x, trapNo)] := by simp [Raised.of, laneEvents, hc]
  rw [hraisers]
  by_cases hy : y = x
  · simp [faultsFor, hy]
  · simp [faultsFor, hy, Ne.symm hy]

/-- What the events of a word of one lane do, class by class, where the error ring is off. -/
theorem laneEvents_took {s : State} (hoff : ringBase s 0x6012 = none) {uid : Nat} (hteam : (mfind s.teams uid).isSome = true) (x trapNo : Nat) (es : List Nat) (word : Word) :
    (Raised.of none (laneEvents x trapNo es)).Took uid word [0, 1, 2, 3] s (raiseEvents s uid none (laneEvents x trapNo es) word) :=
  (Raised.of none (laneEvents x trapNo es)).took_classes word (P := fun t => ringBase t 0x6012 = none) (fun _ c _ h => (step_offline h _ uid word c).ring h)
    (fun _ c _ h _ hk => (step_offline h _ uid word c).control hk) [0, 1, 2, 3] hoff hteam (by decide) (by decide)

/-- The classes that trap the thread of a word of one lane. -/
def trapClasses (s : State) (uid : Nat) (es : List Nat) : List Nat :=
  ([0, 1, 2, 3] : List Nat).filter (fun c => decide (classCount c es ≠ 0 ∧ s.control uid c % 2 ^ 32 < s.counted uid c (classCount c es) ∧ s.action uid c = 1))

theorem faults_laneEvents (s : State) (uid x trapNo : Nat) (es : List Nat) (word : Word) (y : Nat) :
    ([0, 1, 2, 3] : List Nat).flatMap ((Raised.of none (laneEvents x trapNo es)).faults uid word s y) =
      if y = x then (trapClasses s uid es).map (fun _ => { numericTrap word with trapNo := trapNo }) else [] := by
  have hone (c : Nat) : (Raised.of none (laneEvents x trapNo es)).faults uid word s y c =
      if decide (classCount c es ≠ 0 ∧ s.control uid c % 2 ^ 32 < s.counted uid c (classCount c es) ∧ s.action uid c = 1) = true then
        (if y = x then [{ numericTrap word with trapNo := trapNo }] else []) else [] := by
    rw [Raised.faults, number_laneEvents]
    simp only [State.crossed, decide_eq_true_eq]
    by_cases hc : classCount c es = 0
    · rw [if_neg fun h => h.2.1 hc, if_neg fun h => h.1 hc]
    · rw [faultsFor_laneEvents _ _ _ _ hc]
      exact if_congr (and_iff_right rfl) rfl rfl
  rw [show (Raised.of none (laneEvents x trapNo es)).faults uid word s y = _ from funext hone]
  by_cases hy : y = x
  · simp only [if_pos hy]
    exact flatMap_ite _ _ _
  · simp only [if_neg hy, ite_self]
    rfl

/-- A reduction of one lane, the last of its word, in memory. -/
theorem last_redf_leaves (g p : Nat) (e : QEntry) (q : List QEntry) (fn : BitVec 3) (x : Nat) (b : Word) (he : e.op = .redf fn [(x, b)] true) {s : State} (hs : Starts g e q s)
    (hloc : e.loc = .phys p) (hring : ringBase s 0x6012 = none) (hteam : (mfind s.teams (g / 64)).isSome = true) (hevents : (s.group g).events = []) :
    let es := (redfNew fn (wd (readNat s (.phys p) 4)) b).2
    ∃ r t, exec (.storeQueueLeave g) s = .next t ∧ HasLeft g e q s r ∧ (r.group g).events = [] ∧ r.loads = s.loads ∧
      wd (readNat r (.phys p) 4) = (redfNew fn (wd (readNat s (.phys p) 4)) b).1 ∧ (∀ y, (∀ i, i < 4 → y ≠ e.loc.plus i) → readByte r y = readByte s y) ∧
      Offline (g / 64) r t ∧ (Raised.of none (laneEvents x e.trapNo es)).Took (g / 64) e.word [0, 1, 2, 3] r t ∧ ((∀ c, c < 4 → classCount c es = 0) → t = r) := by
  intro es
  obtain ⟨hperf, hloads, hword, hoff⟩ := redfWritten_parts hs fn [(x, b)]
  have hread (y : Loc) : readByte (noteAtomic (s.popped g q) e.loc) y = readByte s y := ((noteAtomic_dirOnly (s.popped g q) e.loc).readByte y).trans (readByte_popped s g q y)
  have hevs : redfEvents (s.popped g q) g e fn [(x, b)] = laneEvents x e.trapNo es := by
    rw [redfEvents, redfLanes, readNat_of_bytes hread, hloc, State.popped, State.group_modGroup_same, hevents]
    rfl
  have hlast : performLive (s.popped g q) g e =
      raiseEvents ((redfWritten s g e q fn [(x, b)]).modGroup g (fun y => { y with events := [] })) (g / 64) none (laneEvents x e.trapNo es) e.word := by
    rw [performLive_redf he, if_pos rfl, hevs]
    rfl
  have hoffring : ringBase ((redfWritten s g e q fn [(x, b)]).modGroup g (fun y => { y with events := [] })) 0x6012 = none := by
    rw [← hring, ringBase, ringBase, State.sysReg, State.sysReg, State.modGroup_sys, hperf.sys]
    rfl
  have hpresent : (mfind ((redfWritten s g e q fn [(x, b)]).modGroup g (fun y => { y with events := [] })).teams (g / 64)).isSome = true := (hperf.present (g / 64)).trans hteam
  refine ⟨_, _, hs.exec (.inr (.inr ⟨fn, _, true, he⟩)), hasLeft_withEvents hperf [], congrArg Group.events (State.group_modGroup_same _ _ _), hloads, ?_, ?_, ?_, ?_, fun hnone => ?_⟩
  · rw [hloc] at hword
    rw [readNat_of_bytes (readByte_modGroup _ _ _), hword]
    rfl
  · exact fun y hy => (readByte_modGroup _ _ _ y).trans (hoff y hy)
  · rw [hlast]
    exact raiseEvents_offline hoffring _ _ _
  · rw [hlast]
    exact laneEvents_took hoffring hpresent x e.trapNo es e.word
  · rw [hlast, raiseEvents_eq]
    refine Raised.classes_of_zero (fun c hc => (number_laneEvents _ _ _ _).trans (hnone c ?_)) _ _ _
    revert c
    decide

/-! ### A stale entry (R271) -/

theorem stale_leaves (g : Nat) (e : QEntry) (q : List QEntry) (he : e.Writes) : EventGives (.storeQueueLeave g)
    (fun s => ((s.group g).queue = e :: q ∧ s.binds = [] ∧ s.lost = []) ∧ ¬e.inc = incarnation s ⟨1, (s.team (g / 64)).coreId⟩ ∧ ringBase s 0x6012 = none ∧
      ∀ o, e.loc ≠ .scratch (g / 64) o) (fun s t =>
      (t.group g).queue = q ∧ t.mem = s.mem ∧ t.poison = s.poison ∧ t.threads = s.threads ∧ t.teams = s.teams ∧
      (∀ n, n ≠ 0x6014 → t.sysReg n = s.sysReg n) ∧ (t.sysReg 0x6014).toNat = min (2 ^ 32 - 1) ((s.sysReg 0x6014).toNat % 2 ^ 32 + 1)) := by
  rintro s ⟨⟨hq, -, -⟩, hinc, hring, hown⟩
  have hmessage : e.isMessage (g / 64) = true := by
    have hplace : (match e.loc with
        | .scratch t _ => decide (t ≠ g / 64)
        | .phys _ => true) = true := by
      cases hl : e.loc with
      | phys a => rfl
      | scratch u o => exact decide_eq_true fun hu => hown o (by rw [hl, hu])
    obtain ⟨bs, h⟩ | ⟨fn, xs, h⟩ | ⟨fn, xs, b, h⟩ := he <;> simp only [QEntry.isMessage, h] <;> exact hplace
  have hdrop : dropLoads (s.popped g q) e = { (s.popped g q) with loads := (dropLoads (s.popped g q) e).loads } := by
    rw [dropLoads]
    split <;> rfl
  have hring' : ringBase (dropLoads (s.popped g q) e) 0x6012 = none := by
    rw [hdrop]
    exact hring
  have hperform : performEntry (s.popped g q) g e =
      (dropLoads (s.popped g q) e).setSys 0x6014 (dw (min (2 ^ 32 - 1) (((dropLoads (s.popped g q) e).sysReg 0x6014).toNat % 2 ^ 32 + 1))) := by
    rw [performEntry]
    refine (if_pos ?_).trans (logError_off hring' _ _ _ _ _)
    rw [Bool.and_eq_true, decide_eq_true_eq]
    exact ⟨hmessage, hinc⟩
  refine ⟨_, leaves_eq hq he, ?_⟩
  rw [hperform, hdrop]
  refine ⟨queue_popped s g q, rfl, rfl, rfl, rfl, fun n hn => State.sysReg_setSys_other _ _ _ _ hn, ?_⟩
  rw [State.sysReg_setSys_same, dw, BitVec.toNat_ofNat, Nat.mod_eq_of_lt (by omega)]
  rfl

/-- Settles O33: a store, an atomic and a reduction each write at their place and nowhere else, whatever the directory notes of them. -/
theorem storeQueueLeaves : Obligations.StoreQueueLeaves := by
  intro g p e q
  refine ⟨fun bs he => store_leaves g e q bs he, fun bs he hloc hrt _ _ => store_keeps_home g p e q bs he hloc hrt, fun fn xs he hn => atomic_leaves g e q fn xs he hn,
    fun fn xs last he => redf_leaves g e q fn xs last he, fun fn x b he => ?_, fun he => stale_leaves g e q he⟩
  rintro s ⟨hs, hloc, hring, hteam, hevents⟩
  obtain ⟨r, t, ht, hleft, hnone, hloads, hword, hoff, hoffline, htook, hsame⟩ := last_redf_leaves g p e q fn x b he hs hloc hring hteam hevents
  obtain ⟨hqueue, hothers, hthreads, hsys, hphys, -⟩ := id hleft
  have hteams : r.teams = s.teams := hphys ⟨p, hloc⟩
  have htm (u : Nat) : r.team u = s.team u := by rw [State.team, State.team, hteams]
  have hreg (n : Nat) : r.sysReg n = s.sysReg n := by rw [State.sysReg, State.sysReg, hsys]
  have hthread (y : Nat) := htook.threads y
  simp only [faults_laneEvents, hthreads] at hthread
  have hwindow (c : Nat) : r.window (g / 64) c = s.window (g / 64) c := by rw [State.window, State.window, htm]
  have hcontrol (c : Nat) : r.control (g / 64) c = s.control (g / 64) c := by rw [State.control, State.control, nevctl, nevctl, htm, hreg]
  refine ⟨t, ht, ?_⟩
  refine ⟨(congrArg Group.queue (hoffline.group g)).trans hqueue, (congrArg Group.events (hoffline.group g)).trans hnone, fun y hy => (hoffline.group y).trans (hothers y hy),
    hoffline.loads.trans hloads, fun y hy => (hoffline.readByte y).trans (hoff y hy), ?_, fun c hc => ?_, fun c hc => ?_, ?_, fun u hu => (hoffline.others u hu).trans (htm u),
    fun n hn => (hoffline.sys n hn).trans (hreg n), fun y hy => ?_, fun hx => ?_, fun hzero => ?_⟩
  · have hv : BitVec.ofNat 32 (readNat t (.phys p) 4) = (redfNew fn (wd (readNat s (.phys p) 4)) b).1 := (congrArg wd (readNat_of_bytes hoffline.readByte _ _)).trans hword
    rw [hv]
    exact redfNew_gives fn _ b
  · by_cases hn : classCount c (redfNew fn (wd (readNat s (.phys p) 4)) b).2 = 0
    · have hk := htook.kept c (.inr (.inr ((number_laneEvents _ _ _ _).trans hn)))
      exact (congrArg (fun o => o.getD (0, 0)) hk).trans ((hwindow c).trans (if_pos hn).symm)
    · have hmem : c ∈ [0, 1, 2, 3] := by
        have : c = 0 ∨ c = 1 ∨ c = 2 ∨ c = 3 := by omega
        simpa using this
      have hw := htook.windows c hmem rfl (by rw [number_laneEvents]; exact hn)
      rw [number_laneEvents, State.crossed, State.counted, hwindow, hcontrol] at hw
      simp only [decide_eq_true_eq] at hw
      exact hw.trans (if_neg hn).symm
  · have hnot : c ∉ [0, 1, 2, 3] := by
      have : ¬(c = 0 ∨ c = 1 ∨ c = 2 ∨ c = 3) := by omega
      simpa using this
    exact (congrArg (fun o => o.getD (0, 0)) (htook.kept c (.inl hnot))).trans (hwindow c)
  · have hown := hoffline.own
    rw [htm] at hown
    exact hown
  · have hy' := hthread y
    rw [if_neg hy] at hy'
    simp only [Thread.addFaults_nil, Option.map_id'] at hy'
    rw [State.thread, State.thread, mget, mget, hy']
  · obtain ⟨th, hth⟩ := Option.isSome_iff_exists.1 hx
    have hx' := hthread x
    rw [if_pos rfl, hth, trapClasses] at hx'
    simp only [State.counted, State.action, hwindow, hcontrol] at hx'
    rw [State.thread, State.thread, mget, mget, hx', hth]
    rfl
  · rw [hsame hzero]
    exact hleft

end Sys2Proof.Machine
end

section
/-! PROOF. O28: what the crossbar words take from the lanes of their set (R192 to R195). -/

namespace Sys2Proof.Machine

/-! ### The crossbar (R192 to R195) -/

theorem laneOf_inj {s : State} (h : s.SetOk) {l m : Nat} (hl : l ∈ s.issue.lanes) (hm : m ∈ s.issue.lanes) (he : laneOf l = laneOf m) : l = m := by
  obtain ⟨-, -, hgroup⟩ := h
  have hg : l / 32 = m / 32 := (hgroup l hl).trans (hgroup m hm).symm
  have he' : l % 32 = m % 32 := he
  omega

/-- What a crossbar word takes from a lane is what the active thread there has, else zero. -/
theorem fromLane_laneSrc {s : State} (h : s.SetOk) (m : Nat) (c : Code) : FromLane s m c (laneSrc s s.issue.lanes m c) := by
  unfold laneSrc
  cases hfind : s.issue.lanes.find? (fun l => decide (laneOf l = m)) with
  | some y =>
    have hy : laneOf y = m := of_decide_eq_true (List.find?_some hfind :)
    have hmem := List.mem_of_find?_eq_some hfind
    exact ⟨fun x hx hxm => congrArg (s.src · c) (laneOf_inj h hmem hx (hy.trans hxm.symm)), fun hnone => absurd hy (hnone y hmem)⟩
  | none => exact ⟨fun x hx hxm => absurd (decide_eq_true hxm) (List.find?_eq_none.1 hfind x hx), fun _ => rfl⟩

/-- The first lane of a set has the lowest lane number. -/
theorem exists_lowest {s : State} (h : s.SetOk) (b : Code) :
    ∃ m ∈ s.issue.lanes, (∀ x ∈ s.issue.lanes, laneOf m ≤ laneOf x) ∧ lowestSrc s s.issue.lanes b = (s.src m b).toNat % 32 := by
  obtain ⟨hne, hsorted, hgroup⟩ := h
  obtain ⟨m, ls, hls⟩ := List.exists_cons_of_ne_nil hne
  rw [hls] at hsorted hgroup ⊢
  refine ⟨m, List.mem_cons_self, fun x hx => ?_, rfl⟩
  have hg : m / 32 = x / 32 := (hgroup m List.mem_cons_self).trans (hgroup x hx).symm
  have hle : m ≤ x := by
    rcases List.mem_cons.1 hx with rfl | hx
    · exact le_rfl
    · exact (List.rel_of_pairwise_cons hsorted hx).le
  show m % 32 ≤ x % 32
  omega

/-- A crossbar word, from what it computes for a set that is in order. -/
theorem crossWord_gives_of_set (i : Instr) (n : Bool) (d : Code) (f : State → List Nat → Nat → Word) (he : ∀ s, exec i s = crossWord i n d f s)
    {rel : State → Nat → Word → Prop} (hr : ∀ s l, s.SetOk → rel s l (f s s.issue.lanes l)) : WordGives i .x n d rel := by
  intro s h
  obtain ⟨t, hexec, honly, hlanes⟩ := crossWord_gives i n d f he (fun s l v => v = f s s.issue.lanes l) (fun _ _ => rfl) s h
  refine ⟨t, hexec, honly, fun l hl => ?_⟩
  obtain ⟨v, rfl, hv⟩ := hlanes l hl
  exact ⟨_, hr s l h.1, hv⟩

/-- Bit 7 of a pattern entry says that the destination takes zero (R193). -/
theorem getLsbD_seven (e : Byte) : e.getLsbD 7 = true ↔ 128 ≤ e.toNat := by
  rw [← BitVec.testBit_toNat, Nat.testBit_eq_decide_div_mod_eq, decide_eq_true_iff]
  have := e.isLt
  omega

/-- A byte of a number that is written low byte first (R3). -/
theorem leNat_map_range_div (f : Nat → Byte) {n j : Nat} (hj : j < n) : leNat ((List.range n).map f) / 256 ^ j % 256 = (f j).toNat := by
  induction n generalizing f j with
  | zero => omega
  | succ n ih =>
    rw [List.range_succ_eq_map, List.map_cons, List.map_map, leNat]
    have hb := (f 0).isLt
    cases j with
    | zero => omega
    | succ j =>
      rw [pow_succ', ← Nat.div_div_eq_div_mul, Nat.add_mul_div_left _ _ (by decide), Nat.div_eq_of_lt hb, Nat.zero_add]
      exact ih (f ∘ Nat.succ) (by omega)

theorem leNat_lt (bs : List Byte) : leNat bs < 256 ^ bs.length := by
  induction bs with
  | nil => exact one_pos
  | cons b bs ih =>
    have hb := b.isLt
    rw [leNat, List.length_cons, pow_succ']
    omega

/-- A byte of the word that XB.TRN puts together. -/
theorem trnValue_byte (a b : Code) (s : State) (ls : List Nat) (l : Nat) {j : Nat} (hj : j < 4) :
    let e := (patternEntry s (teamOf l) b.toNat (4 * laneOf l + j)).toNat
    (trnValue a b s ls l).toNat / 256 ^ j % 256 = if 128 ≤ e then 0 else (laneSrc s ls (e % 32) a).toNat / 256 ^ (e / 32 % 4) % 256 := by
  rw [trnValue, wd, BitVec.toNat_ofNat, Nat.mod_eq_of_lt ((leNat_lt _).trans_eq (by simp)), leNat_map_range_div _ hj]
  simp only [getLsbD_seven]
  split
  · rfl
  · exact Nat.mod_eq_of_lt (Nat.mod_lt _ (by decide))

/-- Settles O28: each word takes what its control names from the lanes of its set. -/
theorem crossbarResults : Obligations.CrossbarResults := by
  intro n d a b
  have hentry (s : State) (l j : Nat) : patternEntry s (teamOf l) b.toNat (4 * laneOf l + j) =
      mget 0x80 ((s.issue.pt).getD (s.team (teamOf l)).pt) (128 * b.toNat + 4 * laneOf l + j) := by
    rw [patternEntry, Nat.add_assoc]
  refine ⟨crossWord_gives_of_set _ n d _ (fun _ => rfl) fun s l h => ?_, crossWord_gives_of_set _ n d _ (fun _ => rfl) fun s l h => ?_,
    crossWord_gives_of_set _ n d _ (fun _ => rfl) fun s l h => fromLane_laneSrc h _ a, crossWord_gives_of_set _ n d _ (fun _ => rfl) fun s l h => ?_,
    crossWord_gives_of_set _ n d _ (fun _ => rfl) fun s l h => ?_, crossWord_gives_of_set _ n d _ (fun _ => rfl) fun s l h j hj => ?_⟩
  · have hzero := hentry s l 0
    rw [Nat.add_zero] at hzero
    simp only [permValue, hzero, getLsbD_seven]
    split
    · rfl
    · exact fromLane_laneSrc h _ a
  · refine ⟨fun hi => ?_, fun hlow hhigh => ?_, fun hi => ?_⟩
    · rw [perm2Value, if_pos hi]
      exact fromLane_laneSrc h _ a
    · rw [perm2Value, if_neg (by omega), if_pos hhigh]
      exact fromLane_laneSrc h _ d
    · rw [perm2Value, if_neg (by omega), if_neg (by omega)]
  · obtain ⟨m, hm, hleast, heq⟩ := exists_lowest h b
    exact ⟨_, ⟨m, hm, hleast, heq⟩, fromLane_laneSrc h _ a⟩
  · obtain ⟨m, hm, hleast, heq⟩ := exists_lowest h b
    exact ⟨_, ⟨m, hm, hleast, heq⟩, fromLane_laneSrc h _ a⟩
  · have hbyte := trnValue_byte a b s s.issue.lanes l hj
    simp only [hentry] at hbyte ⊢
    split
    case isTrue hz => rwa [if_pos hz] at hbyte
    case isFalse hz =>
      rw [if_neg hz] at hbyte
      exact ⟨_, fromLane_laneSrc h _ a, hbyte⟩

end Sys2Proof.Machine
end

section
/-! PROOF. O25: float patterns stand in the order of their values; the words that compare, classify and re-sign them (R184 to R186, R188). -/

namespace Sys2Proof.Machine

/-! ### Float words that raise no event -/

/-- A float word that raises no event is a word of one result. -/
theorem FloatGives.wordGives {i : Instr} {p : Pipe} {n : Bool} {d : Code} {slot : State → Option Word} {f : State → Nat → FRes} {rel : State → Nat → Word → Prop}
    (h : FloatGives i p n d slot f) (hnone : ∀ s l, (f s l).2 = []) (hrel : ∀ s l, rel s l (f s l).1) : WordGives i p n d rel := by
  intro s hr
  obtain ⟨t, hexec, -, -, hother, -, -, hquiet⟩ := h s hr
  obtain ⟨ht, hlane⟩ := hquiet fun l _ => hnone s l
  exact ⟨t, hexec, ⟨ht, hother⟩, fun l hl => ⟨(f s l).1, hrel s l, hlane l hl⟩⟩

theorem plain_wordGives {i : Instr} {p : Pipe} {n : Bool} {d : Code} (f : State → Nat → FRes) {rel : State → Nat → Word → Prop} (he : ∀ s, exec i s = floatWord i p n d none f s)
    (hnone : ∀ s l, (f s l).2 = []) (hrel : ∀ s l, rel s l (f s l).1) : WordGives i p n d rel := (plain_gives he).wordGives hnone hrel

/-! ### The order of patterns (R155) -/

/-- The pattern of a magnitude, without its sign: its mantissa, above the steps of its last place. -/
def Fmt.code (f : Fmt) (q : Nat) (k : ℤ) : Nat := (k - f.low).toNat * 2 ^ f.fracBits + q

/-- The bits of a pattern below its sign. -/
def Fmt.mag (f : Fmt) (x : Nat) : Nat := x % 2 ^ (f.fracBits + f.expBits)

/-- The pattern of infinity. -/
def Fmt.infCode (f : Fmt) : Nat := (2 ^ f.expBits - 1) * 2 ^ f.fracBits

/-- The sign bit of a pattern is set. -/
def Fmt.Neg (f : Fmt) (x : Nat) : Prop := 2 ^ (f.fracBits + f.expBits) ≤ x

theorem code_le_of_place_lt {f : Fmt} {q q' : Nat} {k k' : ℤ} (hlow : f.low ≤ k) (hk : k < k') (hq : q ≤ 2 ^ (f.fracBits + 1)) (hq' : 2 ^ f.fracBits ≤ q') :
    f.code q k ≤ f.code q' k' := by
  have hstep : ((k - f.low).toNat + 1) * 2 ^ f.fracBits ≤ (k' - f.low).toNat * 2 ^ f.fracBits := Nat.mul_le_mul_right _ (by omega)
  rw [pow_succ] at hq
  rw [Nat.add_mul, one_mul] at hstep
  unfold Fmt.code
  omega

theorem code_eq_fields {f : Fmt} {q : Nat} {k : ℤ} (hc : f.Canonical q k) : (f.fields q k).1 * 2 ^ f.fracBits + (f.fields q k).2 = f.code q k := by
  obtain ⟨hlow, -, hk⟩ := hc
  unfold Fmt.fields Fmt.code
  split
  · rw [hk.resolve_right (by omega), sub_self, Int.toNat_zero]
  · rw [show (k - f.low + 1).toNat = (k - f.low).toNat + 1 by omega, Nat.add_mul, one_mul]
    simp only
    omega

theorem code_eq_zero {f : Fmt} {q : Nat} {k : ℤ} (hc : f.Canonical q k) : f.code q k = 0 ↔ q = 0 := by
  obtain ⟨hlow, -, hk⟩ := hc
  have hpos := Nat.two_pow_pos f.fracBits
  unfold Fmt.code
  constructor
  · omega
  · rintro rfl
    rw [hk.resolve_right (by omega), sub_self, Int.toNat_zero, Nat.zero_mul]

theorem magOf_lt_of_place_lt {f : Fmt} {q q' : Nat} {k k' : ℤ} (hk : k < k') (hq : q < 2 ^ (f.fracBits + 1)) (hq' : 2 ^ f.fracBits ≤ q') : magOf q k < magOf q' k' := by
  calc (q : ℚ) * 2 ^ k < 2 ^ (f.fracBits + 1) * 2 ^ k := mul_lt_mul_of_pos_right (by exact_mod_cast hq) (two_zpow_pos k)
    _ = 2 ^ f.fracBits * 2 ^ (k + 1) := by rw [two_zpow_add, pow_succ]; ring
    _ ≤ q' * 2 ^ k' := mul_le_mul (by exact_mod_cast hq') (two_zpow_le.2 hk) (two_zpow_pos _).le (Nat.cast_nonneg _)

/-- Magnitudes stand in the order of their patterns. -/
theorem magOf_lt_iff_code_lt {f : Fmt} {q q' : Nat} {k k' : ℤ} (h : f.Canonical q k) (h' : f.Canonical q' k') : magOf q k < magOf q' k' ↔ f.code q k < f.code q' k' := by
  obtain ⟨hlow, hq, hk⟩ := h
  obtain ⟨hlow', hq', hk'⟩ := h'
  have hcode {q q' : Nat} {k k' : ℤ} (hlow : f.low ≤ k) (hkk : k < k') (hq : q < 2 ^ (f.fracBits + 1)) (hq' : 2 ^ f.fracBits ≤ q') : f.code q k < f.code q' k' := by
    have := code_le_of_place_lt hlow hkk (q := q + 1) hq hq'
    unfold Fmt.code at this ⊢
    omega
  rcases lt_trichotomy k k' with hlt | rfl | hgt
  · have hbig := hk'.resolve_left (by omega)
    exact iff_of_true (magOf_lt_of_place_lt hlt hq hbig) (hcode hlow hlt hq hbig)
  · rw [magOf, magOf, mul_lt_mul_iff_left₀ (two_zpow_pos k), Nat.cast_lt, Fmt.code, Fmt.code, Nat.add_lt_add_iff_left]
  · have hbig := hk.resolve_left (by omega)
    exact iff_of_false (magOf_lt_of_place_lt hgt hq' hbig).asymm (hcode hlow' hgt hq' hbig).asymm

/-- What a pattern's fields say of the value that it stands for. -/
def Fmt.Reads (f : Fmt) (x : Nat) : Val → Prop
  | .nan => f.infCode < f.mag x
  | .inf s => f.mag x = f.infCode ∧ (s = true ↔ f.Neg x)
  | .fin s m e => f.mag x < f.infCode ∧ (s = true ↔ f.Neg x) ∧ f.Canonical m e ∧ f.mag x = f.code m e

theorem mag_pattern {f : Fmt} (s : Bool) {e m : Nat} (he : e < 2 ^ f.expBits) (hm : m < 2 ^ f.fracBits) :
    f.mag (f.pattern s e m) = e * 2 ^ f.fracBits + m ∧ (s = true ↔ f.Neg (f.pattern s e m)) := by
  have hlt := fields_lt he hm
  unfold Fmt.mag Fmt.Neg Fmt.pattern
  refine ⟨by rw [Nat.mul_comm (b1 s), Nat.mul_add_mod, Nat.mod_eq_of_lt hlt], ?_⟩
  cases s
  · simp [b1, hlt]
  · simp [b1]

theorem infCode_pos {f : Fmt} (hf : f ∈ [Fmt.f32, .bf16, .f16]) : 0 < f.infCode := by
  obtain ⟨-, -, -, -, hexp⟩ := fmt_facts hf
  have h2 : 2 ≤ 2 ^ f.expBits := Nat.le_self_pow (by omega) 2
  exact Nat.mul_pos (by omega) (Nat.two_pow_pos _)

theorem reads_fin {f : Fmt} (hf : f ∈ [Fmt.f32, .bf16, .f16]) {x : Nat} (hx : x < 2 ^ f.width) {s : Bool} {m : Nat} {e : ℤ} (hv : floatValue f x = .fin s m e) :
    f.Reads x (.fin s m e) := by
  obtain ⟨hc, hk, hp⟩ := canonical_of_floatValue hf hx hv
  obtain ⟨h1, h2⟩ := fields_bounds hf hc hk
  obtain ⟨hmag, hneg⟩ := mag_pattern s (f := f) (h1.trans_le (Nat.sub_le _ _)) h2
  rw [← hp] at hmag hneg
  have hstep : ((f.fields m e).1 + 1) * 2 ^ f.fracBits ≤ (2 ^ f.expBits - 1) * 2 ^ f.fracBits := Nat.mul_le_mul_right _ h1
  rw [Nat.add_mul, one_mul] at hstep
  exact ⟨by unfold Fmt.infCode; omega, hneg, hc, hmag.trans (code_eq_fields hc)⟩

theorem reads_floatValue {f : Fmt} (hf : f ∈ [Fmt.f32, .bf16, .f16]) {x : Nat} (hx : x < 2 ^ f.width) : f.Reads x (floatValue f x) := by
  obtain ⟨s, e, m, he, hm, rfl⟩ := exists_fields hf hx
  by_cases hmax : e = 2 ^ f.expBits - 1
  · obtain ⟨hmag, hneg⟩ := mag_pattern s he hm
    rw [floatValue_pattern f s he hm, if_pos hmax]
    split
    case isTrue h0 => exact ⟨by rw [hmag, hmax, h0]; rfl, hneg⟩
    case isFalse h0 =>
      show f.infCode < f.mag _
      rw [hmag, hmax]
      exact Nat.lt_add_of_pos_right (Nat.pos_of_ne_zero h0)
  · have hfin : ∃ t q k, floatValue f (f.pattern s e m) = .fin t q k := by
      rw [floatValue_pattern f s he hm, if_neg hmax]
      split <;> exact ⟨_, _, _, rfl⟩
    obtain ⟨t, q, k, hv⟩ := hfin
    rw [hv]
    exact reads_fin hf hx hv

/-- A pattern as a number in the order of the values: the magnitude bits with the sign. -/
def Fmt.order (f : Fmt) (x : Nat) : ℤ := if 2 ^ (f.fracBits + f.expBits) ≤ x then -(f.mag x : ℤ) else f.mag x

/-- The order of patterns with -0 below +0 (R184). -/
def Fmt.Below (f : Fmt) (x y : Nat) : Prop := f.order x < f.order y ∨ (f.order x = f.order y ∧ f.Neg x ∧ ¬f.Neg y)

/-- A signed magnitude of a sign that a pattern has. -/
theorem order_of_sign {f : Fmt} {x : Nat} {s : Bool} (h : s = true ↔ f.Neg x) : f.order x = if s then -(f.mag x : ℤ) else f.mag x :=
  if_congr h.symm rfl rfl

/-- Signed numbers stand in the order of signed numbers whose magnitudes stand in theirs. -/
theorem signed_lt_iff {A B : ℚ} {a b : Nat} (hA : 0 ≤ A) (hB : 0 ≤ B) (h1 : A < B ↔ a < b) (h2 : B < A ↔ b < a) (h3 : A = 0 ↔ a = 0) (h4 : B = 0 ↔ b = 0) (s t : Bool) :
    (if s then -A else A) < (if t then -B else B) ↔ (if s then -(a : ℤ) else a) < (if t then -(b : ℤ) else b) := by
  have hzero : -A < B ↔ ¬(A = 0 ∧ B = 0) := by
    constructor
    · rintro h ⟨rfl, rfl⟩
      simp at h
    · intro h
      rcases hA.eq_or_lt with rfl | hpos
      · have := hB.lt_of_ne fun h0 => h ⟨rfl, h0.symm⟩
        simpa
      · linarith
  cases s <;> cases t
  · simpa using h1
  · simp only [if_true, Bool.false_eq_true, if_false]
    exact iff_of_false (by linarith) (by omega)
  · simp only [if_true, Bool.false_eq_true, if_false]
    rw [hzero, h3, h4]
    omega
  · simpa using h2

/-- Values that are not NaN stand in the order of their patterns. -/
theorem lt_iff_order {f : Fmt} (hf : f ∈ [Fmt.f32, .bf16, .f16]) {x y : Nat} {v w : Val} (hx : f.Reads x v) (hy : f.Reads y w) (hv : v ≠ .nan) (hw : w ≠ .nan) :
    v.lt w = true ↔ f.order x < f.order y := by
  have hpos := infCode_pos hf
  cases v with
  | nan => exact absurd rfl hv
  | inf s =>
    obtain ⟨hmx, hsx⟩ := hx
    rw [order_of_sign hsx, hmx]
    cases w with
    | nan => exact absurd rfl hw
    | inf t =>
      obtain ⟨hmy, hsy⟩ := hy
      rw [order_of_sign hsy, hmy]
      cases s <;> cases t <;> simp [Val.lt, hpos]
    | fin t m e =>
      obtain ⟨hmy, hsy, -, -⟩ := hy
      rw [order_of_sign hsy]
      cases s <;> cases t <;> simp [Val.lt] <;> omega
  | fin s m e =>
    obtain ⟨hmx, hsx, hcx, hx⟩ := hx
    rw [order_of_sign hsx]
    cases w with
    | nan => exact absurd rfl hw
    | inf t =>
      obtain ⟨hmy, hsy⟩ := hy
      rw [order_of_sign hsy, hmy]
      cases s <;> cases t <;> simp [Val.lt] <;> omega
    | fin t m' e' =>
      obtain ⟨hmy, hsy, hcy, hy⟩ := hy
      rw [order_of_sign hsy, Val.lt_fin_iff, ratOf_fin, ratOf_fin, hx, hy]
      exact signed_lt_iff (magOf_nonneg _ _) (magOf_nonneg _ _) (magOf_lt_iff_code_lt hcx hcy) (magOf_lt_iff_code_lt hcy hcx)
        (magOf_eq_zero.trans (code_eq_zero hcx).symm) (magOf_eq_zero.trans (code_eq_zero hcy).symm) s t

theorem eq_iff_order {f : Fmt} (hf : f ∈ [Fmt.f32, .bf16, .f16]) {x y : Nat} {v w : Val} (hx : f.Reads x v) (hy : f.Reads y w) (hv : v ≠ .nan) (hw : w ≠ .nan) :
    v.eq w = true ↔ f.order x = f.order y := by
  have h1 := not_congr (lt_iff_order hf hx hy hv hw)
  have h2 := not_congr (lt_iff_order hf hy hx hw hv)
  simp only [Bool.not_eq_true] at h1 h2
  simp only [Val.eq, isNan_eq_false.2 hv, isNan_eq_false.2 hw, Bool.not_false, Bool.true_and, Bool.and_eq_true, Bool.not_eq_true', h1, h2]
  omega

theorem sign_iff_neg {f : Fmt} {x : Nat} {v : Val} (hx : f.Reads x v) (hv : v ≠ .nan) : v.sign = true ↔ f.Neg x := by
  cases v with
  | nan => exact absurd rfl hv
  | inf s => exact hx.2
  | fin s m e => exact hx.2.1

theorem below_iff {f : Fmt} (hf : f ∈ [Fmt.f32, .bf16, .f16]) {x y : Nat} {v w : Val} (hx : f.Reads x v) (hy : f.Reads y w) (hv : v ≠ .nan) (hw : w ≠ .nan) :
    v.below w = true ↔ f.Below x y := by
  have hsign := not_congr (sign_iff_neg hy hw)
  rw [Bool.not_eq_true] at hsign
  simp only [Val.below, Bool.or_eq_true, Bool.and_eq_true, Bool.not_eq_true', lt_iff_order hf hx hy hv hw, eq_iff_order hf hx hy hv hw, sign_iff_neg hx hv, hsign,
    Fmt.Below, and_assoc]

theorem isNan_iff {f : Fmt} {x : Nat} {v : Val} (hx : f.Reads x v) : v.isNan = true ↔ f.infCode < f.mag x := by
  cases v with
  | nan => exact iff_of_true rfl hx
  | inf s => exact iff_of_false nofun (by rw [hx.1]; exact lt_irrefl _)
  | fin s m e => exact iff_of_false nofun hx.1.asymm

/-! ### The lesser and the greater of two patterns (R184, R188) -/

theorem toNat_lt_width {f : Fmt} {w : Nat} (hw : w = f.width) (a : BitVec w) : a.toNat < 2 ^ f.width := hw ▸ a.isLt

section
variable {f : Fmt} (hf : f ∈ [Fmt.f32, .bf16, .f16]) {w : Nat} (hw : w = f.width) (a b : BitVec w)
include hf hw

theorem isNan_or_iff : ((floatValue f a.toNat).isNan || (floatValue f b.toNat).isNan) = true ↔ f.infCode < f.mag a.toNat ∨ f.infCode < f.mag b.toNat := by
  rw [Bool.or_eq_true]
  exact or_congr (isNan_iff (reads_floatValue hf (toNat_lt_width hw a))) (isNan_iff (reads_floatValue hf (toNat_lt_width hw b)))

theorem below_floatValue_iff (h : ¬(f.infCode < f.mag a.toNat ∨ f.infCode < f.mag b.toNat)) :
    (floatValue f a.toNat).below (floatValue f b.toNat) = true ↔ f.Below a.toNat b.toNat := by
  obtain ⟨ha, hb⟩ := not_or.1 h
  have hra := reads_floatValue hf (toNat_lt_width hw a)
  have hrb := reads_floatValue hf (toNat_lt_width hw b)
  exact below_iff hf hra hrb (fun hv => ha ((isNan_iff hra).1 (isNan_eq_true.2 hv))) (fun hv => hb ((isNan_iff hrb).1 (isNan_eq_true.2 hv)))

theorem minPat_nan (h : f.infCode < f.mag a.toNat ∨ f.infCode < f.mag b.toNat) : minPat f a b = BitVec.ofNat w (floatPattern f .nan) :=
  if_pos ((isNan_or_iff hf hw a b).2 h)

theorem maxPat_nan (h : f.infCode < f.mag a.toNat ∨ f.infCode < f.mag b.toNat) : maxPat f a b = BitVec.ofNat w (floatPattern f .nan) :=
  if_pos ((isNan_or_iff hf hw a b).2 h)

theorem minPat_of_numbers [Decidable (f.Below b.toNat a.toNat)] (h : ¬(f.infCode < f.mag a.toNat ∨ f.infCode < f.mag b.toNat)) : minPat f a b = if f.Below b.toNat a.toNat then b else a :=
  (if_neg (mt (isNan_or_iff hf hw a b).1 h)).trans (if_congr (below_floatValue_iff hf hw b a (mt Or.symm h)) rfl rfl)

theorem maxPat_of_numbers [Decidable (f.Below a.toNat b.toNat)] (h : ¬(f.infCode < f.mag a.toNat ∨ f.infCode < f.mag b.toNat)) : maxPat f a b = if f.Below a.toNat b.toNat then b else a :=
  (if_neg (mt (isNan_or_iff hf hw a b).1 h)).trans (if_congr (below_floatValue_iff hf hw a b h) rfl rfl)

end

theorem Fmt.Below.asymm {f : Fmt} {x y : Nat} (h : f.Below x y) : ¬f.Below y x := by
  unfold Fmt.Below Fmt.Neg at h ⊢
  omega

/-- Patterns of which neither is below the other are the same. -/
theorem eq_of_not_below {f : Fmt} {x y : Nat} (hx : x < 2 ^ (f.fracBits + f.expBits + 1)) (hy : y < 2 ^ (f.fracBits + f.expBits + 1)) (h1 : ¬f.Below x y) (h2 : ¬f.Below y x) :
    x = y := by
  unfold Fmt.Below Fmt.order Fmt.Neg Fmt.mag at *
  rw [pow_succ] at hx hy
  have hmod {z : Nat} (hz : z < 2 ^ (f.fracBits + f.expBits) * 2) :
      z % 2 ^ (f.fracBits + f.expBits) = if 2 ^ (f.fracBits + f.expBits) ≤ z then z - 2 ^ (f.fracBits + f.expBits) else z := by
    split
    · next h => rw [Nat.mod_eq_sub_mod h, Nat.mod_eq_of_lt (by omega)]
    · exact Nat.mod_eq_of_lt (by omega)
  rw [hmod hx, hmod hy] at h1 h2
  generalize 2 ^ (f.fracBits + f.expBits) = p at *
  split_ifs at h1 h2 <;> omega

/-- What FMIN and FMAX give of two patterns that are not NaN: the first where `first` holds, the second where `second` does, either where neither does. -/
def Chosen (first second : Prop) (x y v : Word) : Prop := (first → v = x) ∧ (second → v = y) ∧ (¬first → ¬second → v = x ∧ v = y)

theorem chosen_ite {first second : Prop} [Decidable second] {x y : Word} (hnot : first → ¬second) (hsame : ¬first → ¬second → x = y) : Chosen first second x y (if second then y else x) := by
  refine ⟨fun h => if_neg (hnot h), fun h => if_pos h, fun h1 h2 => ?_⟩
  rw [if_neg h2]
  exact ⟨rfl, hsame h1 h2⟩

theorem fmin_chooses {x y : Word} (hx : ¬Fmt.f32.infCode < Fmt.f32.mag x.toNat) (hy : ¬Fmt.f32.infCode < Fmt.f32.mag y.toNat) :
    Chosen (Fmt.f32.Below x.toNat y.toNat) (Fmt.f32.Below y.toNat x.toNat) x y (fminOp x y).1 := by
  classical
  rw [fminOp, minPat_of_numbers (w := 32) f32_mem rfl x y (not_or.2 ⟨hx, hy⟩)]
  exact chosen_ite Fmt.Below.asymm fun h1 h2 => BitVec.eq_of_toNat_eq (eq_of_not_below (f := .f32) x.isLt y.isLt h1 h2)

theorem fmax_chooses {x y : Word} (hx : ¬Fmt.f32.infCode < Fmt.f32.mag x.toNat) (hy : ¬Fmt.f32.infCode < Fmt.f32.mag y.toNat) :
    Chosen (Fmt.f32.Below y.toNat x.toNat) (Fmt.f32.Below x.toNat y.toNat) x y (fmaxOp x y).1 := by
  classical
  rw [fmaxOp, maxPat_of_numbers (w := 32) f32_mem rfl x y (not_or.2 ⟨hx, hy⟩)]
  exact chosen_ite Fmt.Below.asymm fun h1 h2 => BitVec.eq_of_toNat_eq (eq_of_not_below (f := .f32) x.isLt y.isLt h2 h1)

/-! ### Sign bits (R184, R185) -/

theorem toNat_and_low31 (x : Word) : (x &&& 0x7FFFFFFF).toNat = x.toNat % 2 ^ 31 := by
  rw [BitVec.toNat_and]
  exact Nat.and_two_pow_sub_one_eq_mod x.toNat 31

/-- A number of 32 bits from its two parts. -/
theorem eq_of_div_mod31 {x y h l : Nat} (hx : x / 2 ^ 31 = h) (hl : x % 2 ^ 31 = l) (hy : y = l + h * 2 ^ 31) : x = y := by omega

theorem toNat_xor_sign (x : Word) : (x ^^^ 0x80000000).toNat = (x.toNat + 2 ^ 31) % 2 ^ 32 := by
  have hlt := x.isLt
  have hhigh : (x.toNat ^^^ 0x80000000) / 2 ^ 31 = x.toNat / 2 ^ 31 ^^^ 1 := Nat.xor_div_two_pow
  have hlow : (x.toNat ^^^ 0x80000000) % 2 ^ 31 = x.toNat % 2 ^ 31 := (Nat.xor_mod_two_pow).trans (Nat.xor_zero _)
  rw [BitVec.toNat_xor]
  refine eq_of_div_mod31 hhigh hlow ?_
  obtain h | h : x.toNat / 2 ^ 31 = 0 ∨ x.toNat / 2 ^ 31 = 1 := by omega
  all_goals
    rw [h]
    norm_num
    omega

theorem toNat_copy_sign (x y : Word) : (x &&& 0x7FFFFFFF ||| y &&& 0x80000000).toNat = x.toNat % 2 ^ 31 + y.toNat / 2 ^ 31 * 2 ^ 31 := by
  have hlt := y.isLt
  have hx : (x &&& 0x7FFFFFFF).toNat = x.toNat % 2 ^ 31 := toNat_and_low31 x
  have hyhigh : (y &&& 0x80000000).toNat / 2 ^ 31 = y.toNat / 2 ^ 31 := by
    rw [BitVec.toNat_and, Nat.and_div_two_pow, show (0x80000000 : Word).toNat / 2 ^ 31 = 2 ^ 1 - 1 from rfl, Nat.and_two_pow_sub_one_eq_mod]
    omega
  have hylow : (y &&& 0x80000000).toNat % 2 ^ 31 = 0 := by
    rw [BitVec.toNat_and, Nat.and_mod_two_pow]
    exact Nat.and_zero _
  rw [BitVec.toNat_or]
  refine eq_of_div_mod31 (l := x.toNat % 2 ^ 31) (h := y.toNat / 2 ^ 31) ?_ ?_ rfl
  · rw [Nat.or_div_two_pow, hyhigh, hx, Nat.div_eq_of_lt (Nat.mod_lt _ (by decide)), Nat.zero_or]
  · rw [Nat.or_mod_two_pow, hylow, hx, Nat.or_zero, Nat.mod_mod]

/-! ### Comparisons and classes (R185, R186) -/

theorem flag_gives (c : Bool) : (wd (b1 c) = 1 ∨ wd (b1 c) = 0) ∧ (wd (b1 c) = 1 ↔ c = true) := by
  cases c <;> decide

theorem reads_inF32 (x : Word) : Fmt.f32.Reads x.toNat (inF32 x) := reads_floatValue f32_mem x.isLt

/-- A comparison that holds of no NaN and is one of the order of patterns. -/
theorem compare_iff {P : Val → Val → Bool} {R : ℤ → ℤ → Prop} (hnan : ∀ v w, P v w = true → v ≠ .nan ∧ w ≠ .nan)
    (hord : ∀ x y v w, Fmt.f32.Reads x v → Fmt.f32.Reads y w → v ≠ .nan → w ≠ .nan → (P v w = true ↔ R (Fmt.f32.order x) (Fmt.f32.order y))) (x y : Word) :
    P (inF32 x) (inF32 y) = true ↔
      ¬Fmt.f32.infCode < Fmt.f32.mag x.toNat ∧ ¬Fmt.f32.infCode < Fmt.f32.mag y.toNat ∧ R (Fmt.f32.order x.toNat) (Fmt.f32.order y.toNat) := by
  have hx := reads_inF32 x
  have hy := reads_inF32 y
  rw [← isNan_iff hx, ← isNan_iff hy, isNan_eq_true, isNan_eq_true]
  constructor
  · intro h
    obtain ⟨h1, h2⟩ := hnan _ _ h
    exact ⟨h1, h2, (hord _ _ _ _ hx hy h1 h2).1 h⟩
  · rintro ⟨h1, h2, h⟩
    exact (hord _ _ _ _ hx hy h1 h2).2 h

theorem not_nan_of_lt (v w : Val) (h : v.lt w = true) : v ≠ .nan ∧ w ≠ .nan := by
  cases v <;> cases w <;> simp_all [Val.lt]

theorem not_nan_of_eq (v w : Val) (h : v.eq w = true) : v ≠ .nan ∧ w ≠ .nan := by
  simp only [Val.eq, Bool.and_eq_true, Bool.not_eq_true'] at h
  obtain ⟨⟨⟨hv, hw⟩, -⟩, -⟩ := h
  exact ⟨isNan_eq_false.1 hv, isNan_eq_false.1 hw⟩

theorem feq_iff (x y : Word) : (inF32 x).eq (inF32 y) = true ↔
    ¬Fmt.f32.infCode < Fmt.f32.mag x.toNat ∧ ¬Fmt.f32.infCode < Fmt.f32.mag y.toNat ∧ Fmt.f32.order x.toNat = Fmt.f32.order y.toNat :=
  compare_iff (R := fun x y => x = y) not_nan_of_eq (fun _ _ _ _ => eq_iff_order f32_mem) x y

theorem flt_iff (x y : Word) : (inF32 x).lt (inF32 y) = true ↔
    ¬Fmt.f32.infCode < Fmt.f32.mag x.toNat ∧ ¬Fmt.f32.infCode < Fmt.f32.mag y.toNat ∧ Fmt.f32.order x.toNat < Fmt.f32.order y.toNat :=
  compare_iff (R := fun x y => x < y) not_nan_of_lt (fun _ _ _ _ => lt_iff_order f32_mem) x y

theorem fle_iff (x y : Word) : ((inF32 x).lt (inF32 y) || (inF32 x).eq (inF32 y)) = true ↔
    ¬Fmt.f32.infCode < Fmt.f32.mag x.toNat ∧ ¬Fmt.f32.infCode < Fmt.f32.mag y.toNat ∧ Fmt.f32.order x.toNat ≤ Fmt.f32.order y.toNat := by
  rw [Bool.or_eq_true, flt_iff, feq_iff, le_iff_lt_or_eq]
  tauto

theorem funord_iff (x y : Word) : ((inF32 x).isNan || (inF32 y).isNan) = true ↔ Fmt.f32.infCode < Fmt.f32.mag x.toNat ∨ Fmt.f32.infCode < Fmt.f32.mag y.toNat :=
  isNan_or_iff (w := 32) f32_mem rfl x y

/-- The class of magnitude bits and a sign (R186). -/
def classOfBits (neg : Bool) (m : Nat) : Nat :=
  if m = 0 then (if neg then 3 else 4) else if m < 0x800000 then (if neg then 2 else 5) else if m < 0x7F800000 then (if neg then 1 else 6)
  else if m = 0x7F800000 then (if neg then 0 else 7) else if m < 0x7FC00000 then 8 else 9

theorem getLsbD_eq_decide (x : Word) (k : Nat) : x.getLsbD k = decide (x.toNat / 2 ^ k % 2 = 1) := by
  rw [← BitVec.testBit_toNat, Nat.testBit_eq_decide_div_mod_eq]

theorem classOf_eq (x : Word) : classOf x = classOfBits (decide (2 ^ 31 ≤ x.toNat)) (x.toNat % 2 ^ 31) := by
  have hlt := x.isLt
  have hm := Nat.mod_lt x.toNat (show 2 ^ 31 > 0 by decide)
  have hexp : bits x.toNat 30 23 = x.toNat % 2 ^ 31 / 8388608 := by unfold bits; omega
  have hfrac : bits x.toNat 22 0 = x.toNat % 2 ^ 31 % 8388608 := by unfold bits; omega
  have hneg : x.getLsbD 31 = decide (2 ^ 31 ≤ x.toNat) := by rw [getLsbD_eq_decide]; exact decide_eq_decide.2 (by omega)
  have hquiet : x.getLsbD 22 = decide (4194304 ≤ x.toNat % 2 ^ 31 % 8388608) := by rw [getLsbD_eq_decide]; exact decide_eq_decide.2 (by omega)
  simp only [classOf, hexp, hfrac, hneg, hquiet]
  generalize x.toNat % 2 ^ 31 = m at *
  generalize decide (2 ^ 31 ≤ x.toNat) = neg at *
  unfold classOfBits
  simp only [decide_eq_true_eq]
  split_ifs <;> omega

/-- The bits that a class sets (R186). -/
theorem classOfBits_gives (neg : Bool) (m : Nat) :
    let v := wd (2 ^ classOfBits neg m)
    (m = 0 → (neg = true → v = 8) ∧ (¬neg = true → v = 16)) ∧ (0 < m → m < 2 ^ 23 → (neg = true → v = 4) ∧ (¬neg = true → v = 32)) ∧
    (2 ^ 23 ≤ m → m < 0x7F800000 → (neg = true → v = 2) ∧ (¬neg = true → v = 64)) ∧ (m = 0x7F800000 → (neg = true → v = 1) ∧ (¬neg = true → v = 128)) ∧
    (0x7F800000 < m → m < 0x7FC00000 → v = 256) ∧ (0x7FC00000 ≤ m → v = 512) := by
  have hclass {c : Nat} (h : classOfBits neg m = c) : wd (2 ^ classOfBits neg m) = wd (2 ^ c) := by rw [h]
  refine ⟨fun h => ⟨fun hn => hclass (c := 3) ?_, fun hn => hclass (c := 4) ?_⟩, fun h1 h2 => ⟨fun hn => hclass (c := 2) ?_, fun hn => hclass (c := 5) ?_⟩,
    fun h1 h2 => ⟨fun hn => hclass (c := 1) ?_, fun hn => hclass (c := 6) ?_⟩, fun h => ⟨fun hn => hclass (c := 0) ?_, fun hn => hclass (c := 7) ?_⟩,
    fun h1 h2 => hclass (c := 8) ?_, fun h => hclass (c := 9) ?_⟩
  all_goals
    unfold classOfBits
    split_ifs <;> omega

theorem fclassOp_eq (x : Word) : (fclassOp x).1 = wd (2 ^ classOfBits (decide (2 ^ 31 ≤ x.toNat)) (x.toNat % 2 ^ 31)) := by rw [fclassOp, classOf_eq]

/-! ### Pairs (R188) -/

theorem toNat_highHalf (a : Word) : (highHalf a).toNat = a.toNat / 2 ^ 16 % 2 ^ 16 := by rw [highHalf, BitVec.extractLsb'_toNat, Nat.shiftRight_eq_div_pow]

/-- A bf16 pattern as a number in the order of the values, with -0 below +0. -/
def halfOrder (x : Nat) : ℤ := if 2 ^ 15 ≤ x then -(x % 2 ^ 15 : Nat) - 1 else x

theorem below_bf16_iff {x y : Nat} (hx : x < 2 ^ 16) (hy : y < 2 ^ 16) : Fmt.bf16.Below x y ↔ halfOrder x < halfOrder y := by
  unfold Fmt.Below Fmt.order Fmt.Neg Fmt.mag halfOrder
  rw [show Fmt.bf16.fracBits + Fmt.bf16.expBits = 15 from rfl]
  split_ifs <;> omega

/-- The lesser or the greater of two bf16 patterns, as R188 says. -/
def halfChoice (least : Bool) (x y : Nat) : Nat :=
  if 0x7F80 < x % 2 ^ 15 ∨ 0x7F80 < y % 2 ^ 15 then 0x7FC0
  else if (least = true ∧ halfOrder x ≤ halfOrder y) ∨ (least = false ∧ halfOrder y ≤ halfOrder x) then x else y

theorem toNat_minPat_bf16 (a b : BitVec 16) : (minPat .bf16 a b).toNat = halfChoice true a.toNat b.toNat := by
  unfold halfChoice
  split
  case isTrue h => rw [minPat_nan (w := 16) bf16_mem rfl a b h]; rfl
  case isFalse h =>
    classical
    rw [minPat_of_numbers (w := 16) bf16_mem rfl a b h, apply_ite BitVec.toNat, ← ite_not]
    exact if_congr ((not_congr (below_bf16_iff b.isLt a.isLt)).trans (by simp)) rfl rfl

theorem toNat_maxPat_bf16 (a b : BitVec 16) : (maxPat .bf16 a b).toNat = halfChoice false a.toNat b.toNat := by
  unfold halfChoice
  split
  case isTrue h => rw [maxPat_nan (w := 16) bf16_mem rfl a b h]; rfl
  case isFalse h =>
    classical
    rw [maxPat_of_numbers (w := 16) bf16_mem rfl a b h, apply_ite BitVec.toNat, ← ite_not]
    exact if_congr ((not_congr (below_bf16_iff a.isLt b.isLt)).trans (by simp)) rfl rfl

/-- A word that joins a function of its operands' high halves and of their low halves has that function in each half. -/
theorem joined_half {g : BitVec 16 → BitVec 16 → BitVec 16} {f : Nat → Nat → Nat} (h : ∀ x y, (g x y).toNat = f x.toNat y.toNat) (a b : Word) :
    ∀ k ∈ [0, 16], (g (highHalf a) (highHalf b) ++ g (lowHalf a) (lowHalf b) : Word).toNat / 2 ^ k % 2 ^ 16 = f (a.toNat / 2 ^ k % 2 ^ 16) (b.toNat / 2 ^ k % 2 ^ 16) := by
  simp only [List.mem_cons, List.not_mem_nil, or_false]
  rintro k (rfl | rfl)
  · simp only [Nat.pow_zero, Nat.div_one, ← toNat_lowHalf, lowHalf_append, h]
  · simp only [← toNat_highHalf, highHalf_append, h]

/-- R184 to R186, R188: the words that compare, classify and re-sign patterns. -/
theorem floatOrderAndClass : FloatOrderAndClass := by
  intro n d a b
  refine ⟨?_, ?_, ?_, ?_, ?_, ?_, ?_, ?_, ?_⟩
  · refine plain_wordGives (fun s l => fminOp (s.src l a) (s.src l b)) (fun _ => rfl) (fun _ _ => rfl) fun s l => ⟨fun h => ?_, fun hx hy => fmin_chooses hx hy⟩
    exact minPat_nan (w := 32) f32_mem rfl _ _ h
  · refine plain_wordGives (fun s l => fmaxOp (s.src l a) (s.src l b)) (fun _ => rfl) (fun _ _ => rfl) fun s l => ⟨fun h => ?_, fun hx hy => ?_⟩
    · exact maxPat_nan (w := 32) f32_mem rfl _ _ h
    · obtain ⟨h1, h2, h3⟩ := fmax_chooses hx hy
      exact ⟨h2, h1, fun h h' => h3 h' h⟩
  · exact plain_wordGives (fun s l => fcpsgnOp (s.src l a) (s.src l b)) (fun _ => rfl) (fun _ _ => rfl) fun s l => toNat_copy_sign _ _
  · intro q hq
    simp only [List.mem_cons, List.not_mem_nil, or_false] at hq
    obtain rfl | rfl | rfl := hq
    · exact plain_wordGives (fun s l => feqOp (s.src l a) (s.src l b)) (fun _ => rfl) (fun _ _ => rfl) fun s l => (flag_gives _).imp_right fun h => h.trans (feq_iff _ _)
    · exact plain_wordGives (fun s l => fltOp (s.src l a) (s.src l b)) (fun _ => rfl) (fun _ _ => rfl) fun s l => (flag_gives _).imp_right fun h => h.trans (flt_iff _ _)
    · exact plain_wordGives (fun s l => fleOp (s.src l a) (s.src l b)) (fun _ => rfl) (fun _ _ => rfl) fun s l => (flag_gives _).imp_right fun h => h.trans (fle_iff _ _)
  · exact plain_wordGives (fun s l => funordOp (s.src l a) (s.src l b)) (fun _ => rfl) (fun _ _ => rfl) fun s l => (flag_gives _).imp_right fun h => h.trans (funord_iff _ _)
  · refine plain_wordGives (fun s l => fclassOp (s.src l a)) (fun _ => rfl) (fun _ _ => rfl) fun s l => ?_
    have h := classOfBits_gives (decide (2 ^ 31 ≤ (s.src l a).toNat)) ((s.src l a).toNat % 2 ^ 31)
    rw [← fclassOp_eq] at h
    simp only [decide_eq_true_eq] at h
    exact h
  · exact plain_wordGives (fun s l => fabsOp (s.src l a)) (fun _ => rfl) (fun _ _ => rfl) fun s l => toNat_and_low31 _
  · exact plain_wordGives (fun s l => fnegOp (s.src l a)) (fun _ => rfl) (fun _ _ => rfl) fun s l => toNat_xor_sign _
  · intro q hq
    simp only [List.mem_cons, List.not_mem_nil, or_false] at hq
    obtain rfl | rfl := hq
    · exact plain_wordGives (fun s l => hmin2Op (s.src l a) (s.src l b)) (fun _ => rfl) (fun _ _ => rfl) fun s l => joined_half toNat_minPat_bf16 _ _
    · exact plain_wordGives (fun s l => hmax2Op (s.src l a) (s.src l b)) (fun _ => rfl) (fun _ _ => rfl) fun s l => joined_half toNat_maxPat_bf16 _ _

end Sys2Proof.Machine
end

section
/-! PROOF. O25: real numbers rounded to f32, by the code of the nearest f32 number, and numbers that round alike (R162, R163, R183). -/

namespace Sys2Proof.Machine

/-! ### The nearest integer, ties to even (R162) -/

/-- A whole number nearest to a number, the even one of two. -/
def NearestEven (t : ℝ) (q : ℕ) : Prop := 2 * |t - q| ≤ 1 ∧ (2 * |t - q| = 1 → q % 2 = 0)

theorem NearestEven.bounds {t : ℝ} {q : ℕ} (h : NearestEven t q) : 2 * (q : ℝ) - 1 ≤ 2 * t ∧ 2 * t ≤ 2 * q + 1 := by
  have h1 := neg_abs_le (t - q)
  have h2 := le_abs_self (t - q)
  obtain ⟨h, -⟩ := h
  constructor <;> linarith

theorem exists_nearestEven {t : ℝ} (h : 0 ≤ t) : ∃ q, NearestEven t q := by
  have hlow := Nat.floor_le h
  have hhigh := Nat.lt_floor_add_one t
  have hdown : |t - ⌊t⌋₊| = t - ⌊t⌋₊ := abs_of_nonneg (by linarith)
  have hup : |t - (⌊t⌋₊ + 1 : ℕ)| = ⌊t⌋₊ + 1 - t := by rw [abs_of_nonpos (by push_cast; linarith)]; push_cast; ring
  rcases lt_trichotomy (2 * (t - ⌊t⌋₊)) 1 with hlt | heq | hgt
  · exact ⟨⌊t⌋₊, by rw [hdown]; exact hlt.le, by rw [hdown]; exact fun h => absurd h hlt.ne⟩
  · rcases Nat.mod_two_eq_zero_or_one ⌊t⌋₊ with heven | hodd
    · exact ⟨⌊t⌋₊, by rw [hdown]; exact heq.le, fun _ => heven⟩
    · exact ⟨⌊t⌋₊ + 1, by rw [hup]; linarith, fun _ => by omega⟩
  · exact ⟨⌊t⌋₊ + 1, by rw [hup]; linarith, by rw [hup]; exact fun h => by linarith⟩

theorem NearestEven.mono {t u : ℝ} {q r : ℕ} (htu : t ≤ u) (ht : NearestEven t q) (hu : NearestEven u r) : q ≤ r := by
  by_contra hlt
  have hstep : (r : ℝ) + 1 ≤ q := by exact_mod_cast not_le.1 hlt
  obtain ⟨hlow, -⟩ := ht.bounds
  obtain ⟨-, hhigh⟩ := hu.bounds
  have ht' : t - q = -(1 / 2) := by linarith
  have hu' : u - r = 1 / 2 := by linarith
  have hq := ht.2 (by rw [ht']; norm_num)
  have hr := hu.2 (by rw [hu']; norm_num)
  have : (q : ℝ) = r + 1 := by linarith
  have : q = r + 1 := by exact_mod_cast this
  omega

/-! ### Powers of two, as real numbers -/

theorem real_zpow_pos (k : ℤ) : (0 : ℝ) < 2 ^ k := zpow_pos (by norm_num) k

theorem real_zpow_le {a b : ℤ} : (2 : ℝ) ^ a ≤ 2 ^ b ↔ a ≤ b := zpow_le_zpow_iff_right₀ (by norm_num)

theorem real_zpow_lt {a b : ℤ} : (2 : ℝ) ^ a < 2 ^ b ↔ a < b := zpow_lt_zpow_iff_right₀ (by norm_num)

theorem real_zpow_add (a b : ℤ) : (2 : ℝ) ^ (a + b) = 2 ^ a * 2 ^ b := zpow_add₀ (by norm_num) a b

theorem real_zpow_natCast (n : ℕ) : (2 : ℝ) ^ (n : ℤ) = 2 ^ n := zpow_natCast 2 n

theorem cast_magOf (m : Nat) (e : ℤ) : ((magOf m e : ℚ) : ℝ) = m * 2 ^ e := by
  rw [magOf]
  push_cast
  rfl

/-! ### The code to which a real number rounds in f32 -/

/-- The last place of a real number's magnitude in f32. -/
def PlaceOf (x : ℝ) (k : ℤ) : Prop := -149 ≤ k ∧ |x| < (2 : ℝ) ^ (k + 24) ∧ (k = -149 ∨ (2 : ℝ) ^ (k + 23) ≤ |x|)

/-- The pattern, without its sign and with infinity as its largest, of the f32 number nearest to a real number. -/
def NearestCode (x : ℝ) (n : ℕ) : Prop := ∃ k q, PlaceOf x k ∧ NearestEven (|x| / 2 ^ k) q ∧ n = Fmt.f32.code q k

theorem exists_placeOf (x : ℝ) : ∃ k, PlaceOf x k := by
  rcases eq_or_ne x 0 with rfl | hx
  · exact ⟨-149, le_rfl, by rw [abs_zero]; exact real_zpow_pos _, .inl rfl⟩
  have hpos := abs_pos.2 hx
  have hlow : (2 : ℝ) ^ Int.log 2 |x| ≤ |x| := by exact_mod_cast Int.zpow_log_le_self (b := 2) (by norm_num) hpos
  have hhigh : |x| < (2 : ℝ) ^ (Int.log 2 |x| + 1) := by exact_mod_cast Int.lt_zpow_succ_log_self (b := 2) (by norm_num) |x|
  refine ⟨max (-149) (Int.log 2 |x| - 23), le_max_left _ _, hhigh.trans_le (real_zpow_le.2 (by omega)), ?_⟩
  rcases max_choice (-149) (Int.log 2 |x| - 23) with h | h
  · exact .inl h
  · rw [h, Int.sub_add_cancel]
    exact .inr hlow

theorem exists_nearestCode (x : ℝ) : ∃ n, NearestCode x n := by
  obtain ⟨k, hk⟩ := exists_placeOf x
  obtain ⟨q, hq⟩ := exists_nearestEven (div_nonneg (abs_nonneg x) (real_zpow_pos k).le)
  exact ⟨_, k, q, hk, hq, rfl⟩

/-- A mantissa at a last place, of at most one bit beyond those of f32 and of fewer only at the lowest place. -/
def Placed (q : ℕ) (k : ℤ) : Prop := -149 ≤ k ∧ q ≤ 2 ^ 24 ∧ (k = -149 ∨ 2 ^ 23 ≤ q)

theorem PlaceOf.placed {x : ℝ} {k : ℤ} {q : ℕ} (h : PlaceOf x k) (hq : NearestEven (|x| / 2 ^ k) q) : Placed q k := by
  obtain ⟨hk, hlt, hge⟩ := h
  obtain ⟨hlow, hhigh⟩ := hq.bounds
  refine ⟨hk, ?_, hge.imp_right fun hge => ?_⟩
  · have hx : |x| / 2 ^ k < 2 ^ 24 := by
      rw [div_lt_iff₀ (real_zpow_pos k), mul_comm]
      rwa [real_zpow_add] at hlt
    have : (q : ℝ) < 2 ^ 24 + 1 := by linarith
    exact Nat.lt_succ_iff.1 (by exact_mod_cast this)
  · have hx : 2 ^ 23 ≤ |x| / 2 ^ k := by
      rw [le_div_iff₀ (real_zpow_pos k), mul_comm]
      rwa [real_zpow_add] at hge
    have : (2 : ℝ) ^ 23 < q + 1 := by linarith
    exact Nat.lt_succ_iff.1 (by exact_mod_cast this)

theorem code_f32 (q : ℕ) (k : ℤ) : Fmt.f32.code q k = (k + 149).toNat * 8388608 + q := rfl

/-- Rounding keeps the order of magnitudes. -/
theorem NearestCode.mono {x y : ℝ} {n r : ℕ} (hxy : |x| ≤ |y|) (hx : NearestCode x n) (hy : NearestCode y r) : n ≤ r := by
  obtain ⟨k, q, hk, hq, rfl⟩ := hx
  obtain ⟨k', q', hk', hq', rfl⟩ := hy
  obtain ⟨hlow, hle, -⟩ := hk.placed hq
  obtain ⟨-, -, hge'⟩ := hk'.placed hq'
  have hkk : k ≤ k' := by
    rcases hk.2.2 with h | h
    · exact h.trans_le hk'.1
    · have := real_zpow_lt.1 ((h.trans hxy).trans_lt hk'.2.1)
      omega
  rcases hkk.lt_or_eq with hlt | rfl
  · exact code_le_of_place_lt hlow hlt hle (hge'.resolve_left (by omega))
  · exact Nat.add_le_add_left (hq.mono (div_le_div_of_nonneg_right hxy (real_zpow_pos k).le) hq') _

theorem NearestCode.unique {x : ℝ} {n r : ℕ} (hx : NearestCode x n) (hy : NearestCode x r) : n = r := le_antisymm (hx.mono le_rfl hy) (hy.mono le_rfl hx)

/-! ### The result of a code (R163, R183) -/

/-- The result with a sign and a code: saturated from infinity on, and an underflow where a number that is not zero gives zero. -/
def codeResult (neg zero : Bool) (n : ℕ) : FRes :=
  (BitVec.ofNat 32 (b1 neg * 2 ^ 31 + min n 0x7F800000), if 0x7F800000 ≤ n then [0] else if n = 0 ∧ zero = false then [2] else [])

theorem codeResult_of_le {n : ℕ} (h : 0x7F800000 ≤ n) (neg zero : Bool) : codeResult neg zero n = (if neg then 0xFF800000 else 0x7F800000, [0]) := by
  rw [codeResult, min_eq_right h, if_pos h]
  cases neg <;> rfl

theorem codeResult_of_lt {n : ℕ} (h : ¬0x7F800000 ≤ n) (neg zero : Bool) :
    codeResult neg zero n = (BitVec.ofNat 32 (b1 neg * 2 ^ 31 + n), if n = 0 ∧ zero = false then [2] else []) := by
  rw [codeResult, min_eq_left (not_le.1 h).le, if_neg h]

/-- A mantissa of one bit more is that of half its size a place higher. -/
theorem Placed.canonical {q : ℕ} {k : ℤ} (h : Placed q k) : ∃ q' k', Fmt.f32.Canonical q' k' ∧ magOf q k = magOf q' k' ∧ Fmt.f32.code q k = Fmt.f32.code q' k' := by
  obtain ⟨hlow, hq, hk⟩ := h
  rcases hq.lt_or_eq with hlt | rfl
  · exact ⟨q, k, ⟨hlow, hlt, hk⟩, rfl, rfl⟩
  · refine ⟨2 ^ 23, k + 1, ⟨?_, by decide, .inr le_rfl⟩, ?_, ?_⟩
    · exact hlow.trans (by omega)
    · rw [magOf, magOf, two_zpow_add]
      push_cast
      ring
    · rw [code_f32, code_f32]
      omega

theorem Placed.saturates_iff {q : ℕ} {k : ℤ} (h : Placed q k) : (2 : ℚ) ^ 128 ≤ (q : ℚ) * 2 ^ k ↔ 0x7F800000 ≤ Fmt.f32.code q k := by
  obtain ⟨q', k', hc, hmag, hcode⟩ := h.canonical
  have htop : Fmt.f32.Canonical (2 ^ 23) 105 := ⟨by decide, by decide, .inr le_rfl⟩
  have hlt := magOf_lt_iff_code_lt hc htop
  rw [show magOf (2 ^ 23) 105 = 2 ^ 128 by norm_num [magOf], show Fmt.f32.code (2 ^ 23) 105 = 0x7F800000 from rfl, ← hmag, ← hcode] at hlt
  rw [← not_lt, ← not_lt]
  exact not_congr hlt

theorem Placed.pattern_eq {q : ℕ} {k : ℤ} (h : Placed q k) (s : Bool) : floatPattern .f32 (.fin s q k) = b1 s * 2 ^ 31 + Fmt.f32.code q k := by
  obtain ⟨q', k', hc, hmag, hcode⟩ := h.canonical
  rw [floatPattern_of_canonical hc s hmag, hcode, ← code_eq_fields hc]
  rfl

theorem Placed.code_eq_zero {q : ℕ} {k : ℤ} (h : Placed q k) : Fmt.f32.code q k = 0 ↔ q = 0 := by
  obtain ⟨hlow, -, hk⟩ := h
  rw [code_f32]
  omega

/-- The clause of `RoundsTo` that says what the result is. -/
theorem Placed.result_iff {q : ℕ} {k : ℤ} (h : Placed q k) (neg zero : Bool) (r : FRes) {x : ℝ} (hx : zero = true ↔ x = 0) :
    (if (2 : ℚ) ^ 128 ≤ (q : ℚ) * 2 ^ k then r = (if neg then 0xFF800000 else 0x7F800000, [0])
      else r.1 = BitVec.ofNat 32 (floatPattern .f32 (.fin neg q k)) ∧ (q = 0 → x ≠ 0 → r.2 = [2]) ∧ (q ≠ 0 ∨ x = 0 → r.2 = [])) ↔
    r = codeResult neg zero (Fmt.f32.code q k) := by
  have hsat := h.saturates_iff
  have hzero := h.code_eq_zero
  rw [h.pattern_eq]
  by_cases hs : (2 : ℚ) ^ 128 ≤ (q : ℚ) * 2 ^ k
  · rw [if_pos hs, codeResult_of_le (hsat.1 hs)]
  · rw [if_neg hs, codeResult_of_lt (mt hsat.2 hs)]
    simp only [Prod.ext_iff, hzero]
    refine and_congr_right fun _ => ?_
    cases zero <;> by_cases hq : q = 0 <;> simp_all

theorem roundsTo_iff {x : ℝ} {neg zero : Bool} (hneg : neg = true ↔ x < 0) (hzero : zero = true ↔ x = 0) (r : FRes) :
    RoundsTo x r ↔ ∃ n, NearestCode x n ∧ r = codeResult neg zero n := by
  constructor
  · rintro ⟨k, q, s, hk, hlt, hge, hnear, heven, hs, hr⟩
    obtain rfl : s = neg := Bool.eq_iff_iff.2 (hs.trans hneg.symm)
    exact ⟨_, ⟨k, q, ⟨hk, hlt, hge⟩, ⟨hnear, heven⟩, rfl⟩, (PlaceOf.placed ⟨hk, hlt, hge⟩ ⟨hnear, heven⟩).result_iff s zero r hzero |>.1 hr⟩
  · rintro ⟨n, ⟨k, q, hp, hq, rfl⟩, hr⟩
    exact ⟨k, q, neg, hp.1, hp.2.1, hp.2.2, hq.1, hq.2, hneg, ((hp.placed hq).result_iff neg zero r hzero).2 hr⟩

/-- The sign and the zero of a real number. -/
theorem exists_signs (x : ℝ) : ∃ neg zero : Bool, (neg = true ↔ x < 0) ∧ (zero = true ↔ x = 0) := by
  classical exact ⟨decide (x < 0), decide (x = 0), decide_eq_true_iff, decide_eq_true_iff⟩

theorem roundsTo_unique {x : ℝ} {r r' : FRes} (h : RoundsTo x r) (h' : RoundsTo x r') : r = r' := by
  obtain ⟨neg, zero, hneg, hzero⟩ := exists_signs x
  obtain ⟨n, hn, rfl⟩ := (roundsTo_iff hneg hzero r).1 h
  obtain ⟨n', hn', rfl⟩ := (roundsTo_iff hneg hzero r').1 h'
  rw [hn.unique hn']

/-! ### Numbers that round alike -/

theorem codeResult_inj {neg neg' zero zero' : Bool} {n n' : ℕ} (h : codeResult neg zero n = codeResult neg' zero' n') :
    neg = neg' ∧ min n 0x7F800000 = min n' 0x7F800000 ∧ (n = 0 → zero = zero') := by
  obtain ⟨hword, hevents⟩ := Prod.ext_iff.1 h
  have hnat := congrArg BitVec.toNat hword
  simp only [codeResult, BitVec.toNat_ofNat] at hnat hevents
  have hboth : neg = neg' ∧ min n 0x7F800000 = min n' 0x7F800000 := by
    cases neg <;> cases neg' <;> simp [b1] at hnat ⊢ <;> omega
  refine ⟨hboth.1, hboth.2, fun h0 => ?_⟩
  obtain rfl : n' = 0 := by omega
  cases zero <;> cases zero' <;> simp_all

theorem codeResult_congr {neg zero zero' : Bool} {n n' : ℕ} (h : min n 0x7F800000 = min n' 0x7F800000) (hzero : n = 0 → zero = zero') :
    codeResult neg zero n = codeResult neg zero' n' := by
  by_cases hn : 0x7F800000 ≤ n
  · rw [codeResult_of_le hn, codeResult_of_le (by omega)]
  · obtain rfl : n = n' := by omega
    rw [codeResult_of_lt hn, codeResult_of_lt hn]
    by_cases h0 : n = 0
    · rw [hzero h0]
    · simp only [h0, false_and, if_false]

/-- What lies between two numbers that round alike rounds as they do. -/
theorem roundsTo_between {lo hi y : ℝ} {r : FRes} (hlo : RoundsTo lo r) (hhi : RoundsTo hi r) (h1 : lo ≤ y) (h2 : y ≤ hi) : RoundsTo y r := by
  obtain ⟨neg, zero, hneg, hzero⟩ := exists_signs lo
  obtain ⟨neg', zero', hneg', hzero'⟩ := exists_signs hi
  obtain ⟨negy, zeroy, hnegy, hzeroy⟩ := exists_signs y
  obtain ⟨n, hn, rfl⟩ := (roundsTo_iff hneg hzero r).1 hlo
  obtain ⟨n', hn', hr⟩ := (roundsTo_iff hneg' hzero' _).1 hhi
  obtain ⟨rfl, hmin, hz⟩ := codeResult_inj hr
  obtain ⟨ny, hny⟩ := exists_nearestCode y
  rw [roundsTo_iff hnegy hzeroy]
  refine ⟨ny, hny, ?_⟩
  cases neg with
  | true =>
    have hlt : hi < 0 := hneg'.1 rfl
    have hylt : y < 0 := h2.trans_lt hlt
    have hle := hn'.mono (by rw [abs_of_neg hlt, abs_of_neg hylt]; linarith) hny
    have hge := hny.mono (by rw [abs_of_neg hylt, abs_of_neg (h1.trans_lt hylt)]; linarith) hn
    obtain rfl : negy = true := hnegy.2 hylt
    refine codeResult_congr (by omega) fun _ => ?_
    rw [Bool.eq_iff_iff, hzero, hzeroy]
    exact iff_of_false (h1.trans_lt hylt).ne hylt.ne
  | false =>
    have hpos : 0 ≤ lo := not_lt.1 fun h => Bool.noConfusion (hneg.2 h)
    have hypos : 0 ≤ y := hpos.trans h1
    have hle := hn.mono (by rwa [abs_of_nonneg hpos, abs_of_nonneg hypos]) hny
    have hge := hny.mono (by rwa [abs_of_nonneg hypos, abs_of_nonneg (hypos.trans h2)]) hn'
    obtain rfl : negy = false := Bool.eq_false_iff.2 fun h => not_lt.2 hypos (hnegy.1 h)
    refine codeResult_congr (by omega) fun h0 => ?_
    have hzz := Bool.eq_iff_iff.1 (hz h0)
    rw [Bool.eq_iff_iff, hzero, hzeroy]
    rw [hzero, hzero'] at hzz
    exact ⟨fun h => le_antisymm (h2.trans (hzz.1 h).le) hypos, fun h => le_antisymm (h1.trans h.le) hpos⟩

/-- Two magnitudes lie strictly between the same neighbours of a grid. -/
structure SameCell (x y : ℝ) (c : ℕ) (j : ℤ) : Prop where
  low : (c : ℝ) * 2 ^ j < x
  high : x < (c + 1) * 2 ^ j
  low' : (c : ℝ) * 2 ^ j < y
  high' : y < (c + 1) * 2 ^ j

/-- A point of a coarser grid, in units of the finer one. -/
theorem coarse_eq {p j : ℤ} (h : j ≤ p) (N : ℤ) : (N : ℝ) * 2 ^ p = ((N * 2 ^ (p - j).toNat : ℤ) : ℝ) * 2 ^ j := by
  have hp : p = ((p - j).toNat : ℤ) + j := by omega
  conv_lhs => rw [hp, real_zpow_add, real_zpow_natCast]
  push_cast
  ring

section
variable {x y : ℝ} {c : ℕ} {j p : ℤ} (h : SameCell x y c j) (hp : j ≤ p)
include h hp

theorem SameCell.lt_of_le (N : ℤ) (hx : (N : ℝ) * 2 ^ p ≤ x) : (N : ℝ) * 2 ^ p < y := by
  rw [coarse_eq hp] at hx ⊢
  have hlt := lt_of_mul_lt_mul_right (hx.trans_lt h.high) (real_zpow_pos j).le
  have hle : N * 2 ^ (p - j).toNat ≤ c := Int.lt_add_one_iff.1 (by exact_mod_cast hlt)
  exact (mul_le_mul_of_nonneg_right (by exact_mod_cast hle) (real_zpow_pos j).le).trans_lt h.low'

theorem SameCell.gt_of_ge (N : ℤ) (hx : x ≤ (N : ℝ) * 2 ^ p) : y < (N : ℝ) * 2 ^ p := by
  rw [coarse_eq hp] at hx ⊢
  have hlt := lt_of_mul_lt_mul_right (h.low.trans_le hx) (real_zpow_pos j).le
  have hle : (c : ℤ) + 1 ≤ N * 2 ^ (p - j).toNat := by exact_mod_cast hlt
  exact h.high'.trans_le (mul_le_mul_of_nonneg_right (by exact_mod_cast hle) (real_zpow_pos j).le)

end

/-- Magnitudes in the same cell of a grid finer than f32 round to the same code. -/
theorem NearestCode.of_cell {x y : ℝ} {c : ℕ} {j : ℤ} {n : ℕ} (h : SameCell |x| |y| c j) (hc : 2 ^ 24 ≤ c) (hn : NearestCode x n) : NearestCode y n := by
  obtain ⟨k, q, ⟨hk, hlt, hge⟩, hq, rfl⟩ := hn
  have hjk : j ≤ k - 1 := by
    have hlow : (2 : ℝ) ^ (j + 24) ≤ c * 2 ^ j := by
      rw [real_zpow_add, mul_comm]
      exact mul_le_mul_of_nonneg_right (by exact_mod_cast hc) (real_zpow_pos j).le
    have := real_zpow_lt.1 ((hlow.trans_lt h.low).trans hlt)
    omega
  have hhalf : (2 : ℝ) ^ k = 2 * 2 ^ (k - 1) := by rw [← zpow_one_add₀ (by norm_num)]; congr 1; omega
  obtain ⟨hb1, hb2⟩ := hq.bounds
  have hpos := real_zpow_pos k
  rw [← mul_div_assoc, le_div_iff₀ hpos] at hb1
  rw [← mul_div_assoc, div_le_iff₀ hpos] at hb2
  have hy1 := h.lt_of_le hjk (2 * q - 1) (by push_cast; rw [hhalf] at hb1 hb2; linarith)
  have hy2 := h.gt_of_ge hjk (2 * q + 1) (by push_cast; rw [hhalf] at hb1 hb2; linarith)
  push_cast at hy1 hy2
  refine ⟨k, q, ⟨hk, ?_, hge.imp_right fun hge => ?_⟩, ?_, rfl⟩
  · have := h.gt_of_ge (p := k + 24) (by omega) 1 (by rw [Int.cast_one, one_mul]; exact hlt.le)
    rwa [Int.cast_one, one_mul] at this
  · have := h.lt_of_le (p := k + 23) (by omega) 1 (by rwa [Int.cast_one, one_mul])
    rw [Int.cast_one, one_mul] at this
    exact this.le
  · have hstrict : 2 * |(|y| / 2 ^ k - q)| < 1 := by
      have h1 : (2 * (q : ℝ) - 1) < 2 * (|y| / 2 ^ k) := by rw [← mul_div_assoc, lt_div_iff₀ hpos, hhalf]; linarith
      have h2 : 2 * (|y| / 2 ^ k) < 2 * q + 1 := by rw [← mul_div_assoc, div_lt_iff₀ hpos, hhalf]; linarith
      have := abs_lt.2 (⟨by linarith, by linarith⟩ : -(1 / 2) < |y| / 2 ^ k - q ∧ |y| / 2 ^ k - q < 1 / 2)
      linarith
    exact ⟨hstrict.le, fun he => absurd he hstrict.ne⟩

/-- A result depends on its number by its code and its sign alone. -/
theorem roundsTo_of_code {x y : ℝ} {r : FRes} (hx : RoundsTo x r) (hcode : ∀ n, NearestCode x n → NearestCode y n) (hneg : x < 0 ↔ y < 0) (hzero : x = 0 ↔ y = 0) : RoundsTo y r := by
  obtain ⟨neg, zero, hn, hz⟩ := exists_signs x
  obtain ⟨n, hcx, hr⟩ := (roundsTo_iff hn hz r).1 hx
  exact (roundsTo_iff (hn.trans hneg) (hz.trans hzero) r).2 ⟨n, hcode n hcx, hr⟩

/-! ### The rounding of the model -/

theorem abs_cast_ratOf_fin (s : Bool) (m : Nat) (e : ℤ) : |((ratOf (.fin s m e) : ℚ) : ℝ)| = m * 2 ^ e := by
  rw [← Rat.cast_abs, abs_ratOf_fin, cast_magOf]

theorem ratOf_fin_neg {s : Bool} {m : Nat} {e : ℤ} (hm : m ≠ 0) : s = true ↔ ((ratOf (.fin s m e) : ℚ) : ℝ) < 0 := by
  have hpos := magOf_pos hm e
  rw [Rat.cast_lt_zero, ratOf_fin]
  cases s <;> simp <;> linarith

/-- The last place that the model gives a number is that of its magnitude. -/
theorem placeOf_place (s : Bool) {m : Nat} (hm : m ≠ 0) (e : ℤ) : PlaceOf ((ratOf (.fin s m e) : ℚ) : ℝ) (Fmt.f32.place m e) := by
  have hlt := magOf_lt_place .f32 m e
  have hge := place_le_magOf .f32 hm e
  rw [show (Fmt.f32.place m e + (Fmt.f32.fracBits : ℤ) + 1) = Fmt.f32.place m e + 24 from add_assoc _ _ _] at hlt
  refine ⟨place_low_le .f32 m e, ?_, hge.imp_right fun h => ?_⟩
  · rw [abs_cast_ratOf_fin, ← cast_magOf]
    exact ((Rat.cast_lt (K := ℝ)).2 hlt).trans_eq (by push_cast; rfl)
  · rw [abs_cast_ratOf_fin, ← cast_magOf]
    exact Eq.trans_le (by push_cast; rfl) ((Rat.cast_le (K := ℝ)).2 h)

theorem nearestEven_roundAt (s : Bool) (m : Nat) (e k : ℤ) : NearestEven (|((ratOf (.fin s m e) : ℚ) : ℝ)| / 2 ^ k) (roundAt .rne s m e k) := by
  have h := roundedInt_roundAt .rne s m e k
  simp only [RoundedInt] at h
  have hdist : |ratOf (.fin s m e) / 2 ^ k - (signed s (roundAt .rne s m e k) : ℚ)| = |magOf m e / 2 ^ k - (roundAt .rne s m e k : ℚ)| := by
    rw [ratOf_fin_sign, cast_signed, mul_div_assoc, ← mul_sub, abs_mul]
    cases s <;> simp
  rw [hdist] at h
  have hcast : |((magOf m e : ℚ) : ℝ) / 2 ^ k - (roundAt .rne s m e k : ℝ)| = ((|magOf m e / 2 ^ k - (roundAt .rne s m e k : ℚ)| : ℚ) : ℝ) := by push_cast; rfl
  rw [abs_cast_ratOf_fin, ← cast_magOf, NearestEven, hcast]
  refine ⟨by exact_mod_cast h.1, fun he => ?_⟩
  have := h.2 (by exact_mod_cast he)
  cases s <;> simp only [signed, if_true, Bool.false_eq_true, if_false] at this <;> omega

theorem Placed.beyond_iff {q : ℕ} {k : ℤ} (h : Placed q k) : Fmt.f32.beyond q k = true ↔ 0x7F800000 ≤ Fmt.f32.code q k := by
  obtain ⟨hlow, hq, hk⟩ := h
  rw [code_f32, Fmt.beyond, show Fmt.f32.maxFin = (16777215, 104) from rfl]
  simp only [Bool.or_eq_true, Bool.and_eq_true, decide_eq_true_eq]
  omega

/-- What the model rounds to nearest is rounded to nearest: a number that is not zero, or zero without a sign. -/
theorem roundsTo_outRes {s : Bool} {m : Nat} {e : ℤ} (hs : m = 0 → s = false) : RoundsTo ((ratOf (.fin s m e) : ℚ) : ℝ) (outRes .f32 .rne (.fin s m e, [])) := by
  by_cases hm : m = 0
  · obtain rfl := hs hm
    subst hm
    have hx : ((ratOf (.fin false 0 e) : ℚ) : ℝ) = 0 := by rw [ratOf_fin_eq_zero.2 rfl, Rat.cast_zero]
    rw [hx, roundsTo_iff (neg := false) (zero := true) (by simp) (by simp)]
    refine ⟨0, ⟨-149, 0, ⟨le_rfl, by rw [abs_zero]; exact real_zpow_pos _, .inl rfl⟩, ⟨by simp, fun _ => rfl⟩, rfl⟩, rfl⟩
  · have hp := placeOf_place s hm e
    have hq := nearestEven_roundAt s m e (Fmt.f32.place m e)
    have hplaced := hp.placed hq
    have hzero : false = true ↔ ((ratOf (.fin s m e) : ℚ) : ℝ) = 0 := by
      rw [Rat.cast_eq_zero, ratOf_fin_eq_zero]
      simp [hm]
    rw [roundsTo_iff (ratOf_fin_neg hm) hzero]
    refine ⟨_, ⟨_, _, hp, hq, rfl⟩, ?_⟩
    rw [outRes, outVal_fin, roundFloat_fin _ _ _ hm]
    by_cases hb : 0x7F800000 ≤ Fmt.f32.code (roundAt .rne s m e (Fmt.f32.place m e)) (Fmt.f32.place m e)
    · rw [codeResult_of_le hb, if_pos (hplaced.beyond_iff.2 hb), show Fmt.f32.overflow .rne s = .inf s by cases s <;> rfl,
        Val.isInf_inf, if_pos rfl, show (Val.inf s).isZero = false from rfl, Bool.and_false]
      cases s <;> rfl
    · rw [codeResult_of_lt hb, if_neg (mt hplaced.beyond_iff.1 hb), hplaced.pattern_eq, isZero_fin, isZero_fin]
      simp [hm, hplaced.code_eq_zero, wd]

end Sys2Proof.Machine
end

section
/-! PROOF. O25: the special functions: reciprocals and roots by a sticky bit, the ends of their ranges, and the series (R187). -/

namespace Sys2Proof.Machine

/-! ### A magnitude with a sticky bit -/

theorem ratOf_sticky (neg : Bool) (q : Nat) (whole : Bool) (j : ℤ) :
    |((ratOf (sticky neg q whole j) : ℚ) : ℝ)| = (q + if whole then 0 else 1 / 2) * 2 ^ j := by
  have hj : (2 : ℝ) ^ j = 2 * 2 ^ (j - 1) := by rw [← zpow_one_add₀ (by norm_num)]; congr 1; omega
  rw [sticky, abs_cast_ratOf_fin, hj]
  cases whole <;> simp [b1] <;> ring

/-- A number with `q` whole units of 2^`j` and a sticky bit for what is left rounds as they do. -/
theorem roundsTo_sticky {x ρ : ℝ} {neg whole : Bool} {q : Nat} {j : ℤ} (hq : 2 ^ 24 ≤ q) (hneg : neg = true ↔ x < 0) (hx : |x| = ρ * 2 ^ j)
    (hwhole : whole = true → ρ = q) (hleft : whole = false → q < ρ ∧ ρ < q + 1) : RoundsTo x (outRes .f32 .rne (sticky neg q whole j, [])) := by
  have hq0 : 2 * q + b1 (!whole) ≠ 0 := by omega
  have hround : RoundsTo ((ratOf (sticky neg q whole j) : ℚ) : ℝ) (outRes .f32 .rne (sticky neg q whole j, [])) := roundsTo_outRes fun h => absurd h hq0
  have hsign : ((ratOf (sticky neg q whole j) : ℚ) : ℝ) < 0 ↔ x < 0 := (ratOf_fin_neg hq0).symm.trans hneg
  have hj := real_zpow_pos j
  have habs := ratOf_sticky neg q whole j
  cases whole with
  | true =>
    rw [if_pos rfl, add_zero, ← hwhole rfl, ← hx] at habs
    obtain heq | heq := abs_eq_abs.1 habs
    · rwa [heq] at hround
    · have hpos : 0 < |x| := by
        rw [hx, hwhole rfl]
        exact mul_pos (by exact_mod_cast (by omega : 0 < q)) hj
      have := abs_pos.1 hpos
      rcases this.lt_or_gt with h | h
      · exact absurd (hsign.2 h) (by rw [heq]; linarith)
      · exact absurd (hsign.1 (by rw [heq]; linarith)) h.not_gt
  | false =>
    obtain ⟨h1, h2⟩ := hleft rfl
    simp only [Bool.false_eq_true, if_false] at habs
    have hcell : SameCell |((ratOf (sticky neg q false j) : ℚ) : ℝ)| |x| q j := by
      rw [habs, hx]
      constructor <;> exact mul_lt_mul_of_pos_right (by linarith) hj
    have hpos : (0 : ℝ) ≤ q * 2 ^ j := by positivity
    refine roundsTo_of_code hround (fun n => NearestCode.of_cell hcell hq) hsign (iff_of_false ?_ ?_)
    · exact abs_pos.1 (hpos.trans_lt hcell.low)
    · exact abs_pos.1 (hpos.trans_lt hcell.low')

/-! ### Reciprocals and roots (R187) -/

theorem isqrtFrom_bounds {x : Nat} (k r : Nat) (hr : r * r ≤ x) (hx : x < (r + 2 ^ k) * (r + 2 ^ k)) :
    isqrtFrom k x r * isqrtFrom k x r ≤ x ∧ x < (isqrtFrom k x r + 1) * (isqrtFrom k x r + 1) := by
  induction k generalizing r with
  | zero => exact ⟨hr, hx⟩
  | succ k ih =>
    rw [isqrtFrom]
    split
    case isTrue h => exact ih _ h (by rw [pow_succ] at hx; rwa [show r + 2 ^ k + 2 ^ k = r + 2 ^ k * 2 by ring])
    case isFalse h => exact ih _ hr (not_le.1 h)

theorem isqrt_bounds (x : Nat) : isqrt x * isqrt x ≤ x ∧ x < (isqrt x + 1) * (isqrt x + 1) := by
  refine isqrtFrom_bounds _ _ (Nat.zero_le _) ?_
  rw [Nat.zero_add, ← pow_add]
  exact Nat.lt_log2_self.trans_le (Nat.pow_le_pow_right (by decide) (by omega))

theorem le_isqrt {x : Nat} (h : 2 ^ 128 ≤ x) : 2 ^ 24 ≤ isqrt x := by
  obtain ⟨-, hlt⟩ := isqrt_bounds x
  by_contra hsmall
  have : (isqrt x + 1) * (isqrt x + 1) ≤ 2 ^ 24 * 2 ^ 24 := Nat.mul_le_mul (by omega) (by omega)
  omega

theorem cast_ratOf_fin (s : Bool) (m : Nat) (e : ℤ) : ((ratOf (.fin s m e) : ℚ) : ℝ) = if s then -((m : ℝ) * 2 ^ e) else (m : ℝ) * 2 ^ e := by
  rw [ratOf_fin, ← cast_magOf]
  split <;> push_cast <;> rfl

theorem real_two_pow_toNat {t : ℤ} (h : 0 ≤ t) : (2 : ℝ) ^ t.toNat = 2 ^ t := by
  rw [← real_zpow_natCast, Int.toNat_of_nonneg h]

theorem recip_roundsTo (s : Bool) {m : Nat} (hm : m ≠ 0) (e : ℤ) : RoundsTo (1 / ((ratOf (.fin s m e) : ℚ) : ℝ)) (outRes .f32 .rne (recip s m e, [])) := by
  have hm0 : (0 : ℝ) < m := by exact_mod_cast Nat.pos_of_ne_zero hm
  have hdiv := Nat.div_add_mod (2 ^ (bitLen m + 60)) m
  have hmod := Nat.mod_lt (2 ^ (bitLen m + 60)) (Nat.pos_of_ne_zero hm)
  have hbig : 2 ^ 24 ≤ 2 ^ (bitLen m + 60) / m := by
    rw [Nat.le_div_iff_mul_le (Nat.pos_of_ne_zero hm), pow_add, mul_comm]
    exact Nat.mul_le_mul (lt_two_pow_bitLen m).le (by decide)
  refine roundsTo_sticky (ρ := 2 ^ (bitLen m + 60) / m) hbig ?_ ?_ (fun h => ?_) fun h => ?_
  · rw [one_div, inv_lt_zero, ← ratOf_fin_neg hm]
  · rw [abs_div, abs_one, abs_cast_ratOf_fin, show (-e - ((bitLen m + 60 : ℕ) : ℤ)) = -(e + ((bitLen m + 60 : ℕ) : ℤ)) by omega, zpow_neg, real_zpow_add, real_zpow_natCast]
    have := real_zpow_pos e
    field_simp
  · rw [div_eq_iff hm0.ne']
    rw [of_decide_eq_true h, Nat.add_zero] at hdiv
    rw [mul_comm]
    exact_mod_cast hdiv.symm
  · have h0 := of_decide_eq_false h
    rw [lt_div_iff₀ hm0, div_lt_iff₀ hm0]
    constructor
    · exact_mod_cast (by rw [Nat.mul_comm]; omega : 2 ^ (bitLen m + 60) / m * m < 2 ^ (bitLen m + 60))
    · exact_mod_cast (by rw [Nat.add_mul, one_mul, Nat.mul_comm (_ / _)]; omega : 2 ^ (bitLen m + 60) < (2 ^ (bitLen m + 60) / m + 1) * m)

/-- A square root by its whole part. -/
theorem sqrt_of_whole {y : ℝ} {q : ℕ} (h : (q : ℝ) * q = y) : √y = q := by
  rw [← h]
  exact Real.sqrt_mul_self (Nat.cast_nonneg q)

theorem sqrt_between {y : ℝ} {q : ℕ} (h1 : (q : ℝ) * q < y) (h2 : y < (q + 1) * (q + 1)) : q < √y ∧ √y < q + 1 :=
  ⟨Real.lt_sqrt_of_sq_lt (by rwa [sq]), (Real.sqrt_lt' (by positivity)).2 (by rwa [sq])⟩

/-- The root of a number, as the root of its multiple by an even power of two. -/
theorem sqrt_scaled {a y : ℝ} {k : ℤ} (h : a = y * (2 ^ (-k) * 2 ^ (-k))) : √a = √y * 2 ^ (-k) := by
  have hk := (real_zpow_pos (-k)).le
  rw [h, Real.sqrt_mul' _ (mul_nonneg hk hk), Real.sqrt_mul_self hk]

theorem sqrt_not_neg (a : ℝ) : false = true ↔ √a < 0 := iff_of_false nofun (Real.sqrt_nonneg a).not_gt

theorem rootOf_roundsTo {m : Nat} (hm : m ≠ 0) (e : ℤ) : RoundsTo (√(m * 2 ^ e)) (outRes .f32 .rne (rootOf m e, [])) := by
  have hexp : 129 ≤ e + 2 * ((130 - e) / 2) := by omega
  have hbig : 2 ^ 128 ≤ m * powInt (e + 2 * ((130 - e) / 2)) :=
    (Nat.pow_le_pow_right (by decide) (by omega)).trans (Nat.le_mul_of_pos_left _ (Nat.pos_of_ne_zero hm))
  have hval : (m : ℝ) * 2 ^ e = ((m * powInt (e + 2 * ((130 - e) / 2)) : ℕ) : ℝ) * (2 ^ (-((130 - e) / 2)) * 2 ^ (-((130 - e) / 2))) := by
    rw [Nat.cast_mul, powInt, Nat.cast_pow, Nat.cast_ofNat, real_two_pow_toNat (by omega), mul_assoc, ← real_zpow_add, ← real_zpow_add]
    congr 2
    omega
  obtain ⟨hlow, hhigh⟩ := isqrt_bounds (m * powInt (e + 2 * ((130 - e) / 2)))
  refine roundsTo_sticky (le_isqrt hbig) (sqrt_not_neg _) (by rw [abs_of_nonneg (Real.sqrt_nonneg _), sqrt_scaled hval]) (fun h => ?_) fun h => ?_
  · exact sqrt_of_whole (by exact_mod_cast of_decide_eq_true h)
  · have hne := of_decide_eq_false h
    exact sqrt_between (by exact_mod_cast hlow.lt_of_ne hne) (by exact_mod_cast hhigh)

theorem recipRoot_roundsTo {m : Nat} (hm : m ≠ 0) (e : ℤ) : RoundsTo (1 / √(m * 2 ^ e)) (outRes .f32 .rne (recipRoot m e, [])) := by
  have hm0 : (0 : ℝ) < m := by exact_mod_cast Nat.pos_of_ne_zero hm
  obtain ⟨k, hk⟩ : ∃ k : ℤ, k = (e + bitLen m + 130) / 2 := ⟨_, rfl⟩
  obtain ⟨t, ht⟩ : ∃ t : ℕ, t = (2 * k - e).toNat := ⟨_, rfl⟩
  have hroot : recipRoot m e = sticky false (isqrt (2 ^ t / m)) (decide (isqrt (2 ^ t / m) * isqrt (2 ^ t / m) * m = 2 ^ t)) (-k) := by
    subst ht hk
    rfl
  have htk : (t : ℤ) = 2 * k - e := by omega
  have hbig : 2 ^ 128 ≤ 2 ^ t / m := by
    rw [Nat.le_div_iff_mul_le (Nat.pos_of_ne_zero hm)]
    calc 2 ^ 128 * m ≤ 2 ^ 128 * 2 ^ bitLen m := Nat.mul_le_mul_left _ (lt_two_pow_bitLen m).le
      _ = 2 ^ (128 + bitLen m) := (pow_add _ _ _).symm
      _ ≤ 2 ^ t := Nat.pow_le_pow_right (by decide) (by omega)
  have hval : 1 / ((m : ℝ) * 2 ^ e) = (2 ^ t / m) * (2 ^ (-k) * 2 ^ (-k)) := by
    rw [← real_zpow_natCast, htk, div_mul_eq_mul_div, ← real_zpow_add, ← real_zpow_add, one_div, mul_inv, ← zpow_neg, mul_comm, div_eq_mul_inv]
    congr 2
    omega
  obtain ⟨hlow, hhigh⟩ := isqrt_bounds (2 ^ t / m)
  rw [hroot]
  refine roundsTo_sticky (le_isqrt hbig) (iff_of_false nofun (not_lt.2 (by positivity))) (ρ := √(2 ^ t / m)) ?_ (fun h => sqrt_of_whole ?_) fun h => sqrt_between ?_ ?_
  · rw [abs_of_nonneg (by positivity), ← sqrt_scaled hval, Real.sqrt_div' _ (by positivity), Real.sqrt_one]
  · rw [eq_div_iff hm0.ne']
    exact_mod_cast of_decide_eq_true h
  · rw [lt_div_iff₀ hm0]
    have hle : isqrt (2 ^ t / m) * isqrt (2 ^ t / m) * m ≤ 2 ^ t := (Nat.mul_le_mul_right m hlow).trans (Nat.div_mul_le_self _ _)
    exact_mod_cast hle.lt_of_ne (of_decide_eq_false h)
  · rw [div_lt_iff₀ hm0]
    have hlt := (Nat.div_lt_iff_lt_mul (Nat.pos_of_ne_zero hm)).1 hhigh
    exact_mod_cast hlt

/-! ### Ends of the range -/

theorem roundsTo_iff_of_pos {x : ℝ} (h : 0 < x) (r : FRes) : RoundsTo x r ↔ ∃ n, NearestCode x n ∧ r = codeResult false false n :=
  roundsTo_iff (iff_of_false Bool.false_ne_true h.not_gt) (iff_of_false Bool.false_ne_true h.ne') r

/-- From 2^128 on, a number saturates. -/
theorem roundsTo_of_large {x : ℝ} (h : 2 ^ 128 ≤ x) : RoundsTo x (0x7F800000, [0]) := by
  have hpos : (0 : ℝ) < x := lt_of_lt_of_le (by positivity) h
  have htop : NearestCode (2 ^ 128) 0x7F800000 := by
    refine ⟨105, 2 ^ 23, ⟨by decide, ?_, .inr ?_⟩, ?_, rfl⟩
    · rw [abs_of_pos (by positivity), ← zpow_natCast]
      exact real_zpow_lt.2 (by decide)
    · rw [abs_of_pos (by positivity), ← zpow_natCast]
      exact real_zpow_le.2 (by decide)
    · have : |(2 : ℝ) ^ 128| / 2 ^ (105 : ℤ) - ((2 ^ 23 : ℕ) : ℝ) = 0 := by
        rw [abs_of_pos (by positivity)]
        norm_num
      rw [NearestEven, this]
      norm_num
  obtain ⟨n, hn⟩ := exists_nearestCode x
  have hle := htop.mono (by rwa [abs_of_pos (by positivity), abs_of_pos hpos]) hn
  exact (roundsTo_iff_of_pos hpos _).2 ⟨n, hn, (codeResult_of_le hle false false).symm⟩

/-- A number that is at most half of the least one rounds to zero. -/
theorem roundsTo_of_tiny {x : ℝ} (hpos : 0 < x) (h : x ≤ 2 ^ (-150 : ℤ)) : RoundsTo x (0, [2]) := by
  refine (roundsTo_iff_of_pos hpos _).2 ⟨0, ⟨-149, 0, ⟨le_rfl, ?_, .inl rfl⟩, ⟨?_, fun _ => rfl⟩, rfl⟩, rfl⟩
  · rw [abs_of_pos hpos]
    exact h.trans_lt (real_zpow_lt.2 (by decide))
  · have hhalf : x / 2 ^ (-149 : ℤ) ≤ 1 / 2 := by
      rw [div_le_iff₀ (real_zpow_pos _)]
      exact h.trans_eq (by rw [show (-149 : ℤ) = 1 + -150 by decide, real_zpow_add]; ring)
    rw [Nat.cast_zero, sub_zero, abs_of_pos hpos, abs_of_pos (div_pos hpos (real_zpow_pos _))]
    linarith

theorem roundsTo_valOf (a s : ℤ) : RoundsTo ((a : ℝ) * 2 ^ s) (outRes .f32 .rne (valOf a s, [])) := by
  have h : ((ratOf (valOf a s) : ℚ) : ℝ) = a * 2 ^ s := by
    rw [ratOf_valOf]
    push_cast
    rfl
  rw [← h]
  exact roundsTo_outRes fun h0 => decide_eq_false (by omega)

theorem nearest_of_below {x δ : ℝ} {q : ℕ} {k : ℤ} (hx : |x| = (q - δ) * 2 ^ k) (h0 : 0 < δ) (h1 : δ < 1 / 2) (hk : -149 ≤ k) (hq : q ≤ 2 ^ 24) (hlow : k = -149 ∨ 2 ^ 23 < q) :
    PlaceOf x k ∧ NearestEven (|x| / 2 ^ k) q := by
  have hpos := real_zpow_pos k
  have hq' : (q : ℝ) ≤ 2 ^ 24 := by exact_mod_cast hq
  have hdist : |(|x| / 2 ^ k - q)| = δ := by
    rw [hx, mul_div_cancel_right₀ _ hpos.ne', sub_sub_cancel_left, abs_neg, abs_of_pos h0]
  refine ⟨⟨hk, ?_, hlow.imp_right fun h => ?_⟩, by rw [hdist]; linarith, fun h => by rw [hdist] at h; linarith⟩
  · rw [hx, real_zpow_add, mul_comm ((2 : ℝ) ^ k)]
    exact mul_lt_mul_of_pos_right (by norm_num; linarith) hpos
  · have h' : ((2 ^ 23 + 1 : ℕ) : ℝ) ≤ q := Nat.cast_le.2 h
    push_cast at h'
    rw [hx, real_zpow_add, mul_comm ((2 : ℝ) ^ k)]
    exact mul_le_mul_of_nonneg_right (by norm_num only [zpow_ofNat]; linarith) hpos.le

/-- Just below a magnitude that f32 holds, a number rounds to it. -/
theorem roundsTo_justBelow (s : Bool) {m : Nat} {e : ℤ} (hc : Fmt.f32.Canonical m e) (hm : m ≠ 0) :
    RoundsTo ((ratOf (justBelow s m e) : ℚ) : ℝ) (codeResult s false (Fmt.f32.code m e)) := by
  have hm' : m * 2 ^ 60 - 1 ≠ 0 := by omega
  have habs : |((ratOf (justBelow s m e) : ℚ) : ℝ)| = (m - 2⁻¹ ^ 60) * 2 ^ e := by
    rw [justBelow, abs_cast_ratOf_fin, Nat.cast_sub (by omega), sub_eq_add_neg e, real_zpow_add]
    push_cast
    rw [show (2 : ℝ) ^ (-60 : ℤ) = 2⁻¹ ^ 60 by norm_num]
    ring
  have hzero : false = true ↔ ((ratOf (justBelow s m e) : ℚ) : ℝ) = 0 := by
    rw [Rat.cast_eq_zero, justBelow, ratOf_fin_eq_zero]
    exact iff_of_false Bool.false_ne_true hm'
  have hneg : s = true ↔ ((ratOf (justBelow s m e) : ℚ) : ℝ) < 0 := ratOf_fin_neg hm'
  refine (roundsTo_iff hneg hzero _).2 ⟨_, ?_, rfl⟩
  obtain ⟨hlow, hlt, hk⟩ := hc
  have hlow' : -149 ≤ e := hlow
  have hlt' : m < 2 ^ 24 := hlt
  have hk' : e = -149 ∨ 2 ^ 23 ≤ m := hk
  by_cases hbig : e = -149 ∨ 2 ^ 23 < m
  · obtain ⟨h1, h2⟩ := nearest_of_below habs (by positivity) (by norm_num) hlow' hlt'.le hbig
    exact ⟨e, m, h1, h2, rfl⟩
  · obtain rfl : m = 2 ^ 23 := by omega
    have hhalf : (2 : ℝ) ^ e = 2 * 2 ^ (e - 1) := by rw [← zpow_one_add₀ (by norm_num)]; congr 1; omega
    have habs' : |((ratOf (justBelow s (2 ^ 23) e) : ℚ) : ℝ)| = (((2 ^ 24 : ℕ) : ℝ) - 2 * 2⁻¹ ^ 60) * 2 ^ (e - 1) := by
      rw [habs, hhalf]
      push_cast
      ring
    obtain ⟨h1, h2⟩ := nearest_of_below habs' (by positivity) (by norm_num) (by omega) le_rfl (.inr (by decide))
    refine ⟨e - 1, 2 ^ 24, h1, h2, ?_⟩
    rw [code_f32, code_f32]
    omega

/-! ### The eight functions, by the kind of their operand (R187) -/

theorem special_nan {x : Word} (h : inF32 x = .nan) (fn : Nat) : fspecOp fn x = (0x7FC00000, []) := by
  rw [fspecOp, special, h]
  rfl

theorem special_neg {x : Word} (h : (∃ e m, inF32 x = .fin true m e ∧ m ≠ 0) ∨ inF32 x = .inf true) : ∀ fn ∈ [1, 2, 4], fspecOp fn x = (0x7FC00000, [1]) := by
  simp only [List.mem_cons, List.not_mem_nil, or_false]
  rintro fn (rfl | rfl | rfl)
  all_goals
    rw [fspecOp, special]
    obtain ⟨e, m, h, hm⟩ | h := h
    · rw [h]
      simp only [if_neg hm]
      rfl
    · rw [h]
      rfl

theorem specialOperands : SpecialOperands := by
  refine ⟨fun fn _ x hx => special_nan (isNan_eq_true.1 ((isNan_iff (reads_inF32 x)).2 hx)) fn, fun fn hfn x h1 h2 => special_neg ?_ fn hfn, ?_, ?_, ?_, ?_⟩
  · have hx := reads_inF32 x
    have hneg : Fmt.f32.Neg x.toNat := h1.le
    cases hv : inF32 x with
    | nan =>
      rw [hv] at hx
      have : 0x7F800000 < x.toNat % 2 ^ 31 := hx
      omega
    | inf s =>
      rw [hv] at hx
      obtain ⟨-, hs⟩ := hx
      exact .inr (by rw [hs.2 hneg])
    | fin s m e =>
      rw [hv] at hx
      obtain ⟨-, hs, hc, hmag⟩ := hx
      refine .inl ⟨e, m, by rw [hs.2 hneg], fun h0 => ?_⟩
      have : x.toNat % 2 ^ 31 = 0 := hmag.trans ((code_eq_zero hc).2 h0)
      omega
  · decide +kernel
  · decide +kernel
  · decide +kernel
  · decide +kernel

/-- The value of a function where its series decides it, and the free one where it does not. -/
def seriesOr (fn : Nat) (x : Word) (v : Option (Nat × List Nat)) : FRes :=
  (wd (v.getD ((Config.specialResult fn x).toNat, [])).1, (v.getD ((Config.specialResult fn x).toNat, [])).2)

theorem fspecOp_of_value {fn : Nat} {x : Word} {v : Val} (h : special fn x = outVal .f32 .rne v) : fspecOp fn x = outRes .f32 .rne (v, []) := by
  rw [fspecOp, outRes, h, List.nil_append]

theorem fspecOp_of_series {fn : Nat} {x : Word} {v : Option (Nat × List Nat)} (h : special fn x = v.getD ((Config.specialResult fn x).toNat, [])) :
    fspecOp fn x = seriesOr fn x v := by
  rw [fspecOp, seriesOr, h]

/-! Each function on an ordinary operand. -/

section
variable {x : Word} {s : Bool} {m : Nat} {e : ℤ} (h : inF32 x = .fin s m e) (hm : m ≠ 0)
include h hm

theorem special_recip : special 0 x = outVal .f32 .rne (recip s m e) := by
  simp only [special, h, if_neg hm]

theorem special_recipRoot (hs : s = false) : special 1 x = outVal .f32 .rne (recipRoot m e) := by
  simp only [special, h, hs, Bool.false_eq_true, if_false, if_neg hm]

theorem special_root (hs : s = false) : special 2 x = outVal .f32 .rne (rootOf m e) := by
  simp only [special, h, hs, Bool.false_eq_true, if_false, if_neg hm]

theorem special_exp2_int {k : ℤ} (hk : asInt s m e = some k) : special 3 x = outVal .f32 .rne (.fin false 1 (max (-400) (min 400 k))) := by
  simp only [special, h, if_neg hm, hk]

theorem special_exp2_low (hk : asInt s m e = none) (hlow : Val.lt (.fin s m e) (.fin true 151 0) = true) : special 3 x = outVal .f32 .rne (.fin false 1 (-400)) := by
  simp only [special, h, if_neg hm, hk, if_pos hlow]

theorem special_exp2_high (hk : asInt s m e = none) (hlow : ¬Val.lt (.fin s m e) (.fin true 151 0) = true) (hhigh : Val.lt (.fin false 129 0) (.fin s m e) = true) :
    special 3 x = outVal .f32 .rne (.fin false 1 400) := by
  simp only [special, h, if_neg hm, hk, if_neg hlow, if_pos hhigh]

theorem special_exp2_series (hk : asInt s m e = none) (hlow : ¬Val.lt (.fin s m e) (.fin true 151 0) = true) (hhigh : ¬Val.lt (.fin false 129 0) (.fin s m e) = true) :
    special 3 x = (exp2Fix s m e).getD ((Config.specialResult 3 x).toNat, []) := by
  simp only [special, h, if_neg hm, hk, if_neg hlow, if_neg hhigh]

theorem special_log2_power (hs : s = false) (hp : m = 2 ^ (bitLen m - 1)) : special 4 x = outVal .f32 .rne (valOf (e + bitLen m - 1) 0) := by
  simp only [special, h, hs, Bool.false_eq_true, if_false, if_neg hm, if_pos hp]

theorem special_log2_series (hs : s = false) (hp : ¬m = 2 ^ (bitLen m - 1)) : special 4 x = (log2Fix m e).getD ((Config.specialResult 4 x).toNat, []) := by
  simp only [special, h, hs, Bool.false_eq_true, if_false, if_neg hm, if_neg hp]

theorem special_tanh_low (hlow : Val.lt (.fin false m e) (.fin false 1 (-30)) = true) : special 5 x = outVal .f32 .rne (justBelow s m e) := by
  simp only [special, h, if_neg hm, if_pos hlow]

theorem special_tanh_high (hlow : ¬Val.lt (.fin false m e) (.fin false 1 (-30)) = true) (hhigh : Val.lt (.fin false 16 0) (.fin false m e) = true) :
    special 5 x = outVal .f32 .rne (justBelow s 1 0) := by
  simp only [special, h, if_neg hm, if_neg hlow, if_pos hhigh]

theorem special_tanh_series (hlow : ¬Val.lt (.fin false m e) (.fin false 1 (-30)) = true) (hhigh : ¬Val.lt (.fin false 16 0) (.fin false m e) = true) :
    special 5 x = (tanhFix s m e).getD ((Config.specialResult 5 x).toNat, []) := by
  simp only [special, h, if_neg hm, if_neg hlow, if_neg hhigh]

theorem special_sin_low (hlow : Val.lt (.fin false m e) (.fin false 1 (-30)) = true) : special 6 x = outVal .f32 .rne (justBelow s m e) := by
  simp only [special, h, if_neg hm, if_pos hlow]

theorem special_sin_series (hlow : ¬Val.lt (.fin false m e) (.fin false 1 (-30)) = true) : special 6 x = (trigFix false s m e).getD ((Config.specialResult 6 x).toNat, []) := by
  simp only [special, h, if_neg hm, if_neg hlow]

theorem special_cos_low (hlow : Val.lt (.fin false m e) (.fin false 1 (-14)) = true) : special 7 x = outVal .f32 .rne (justBelow false 1 0) := by
  simp only [special, h, if_neg hm, if_pos hlow]

theorem special_cos_series (hlow : ¬Val.lt (.fin false m e) (.fin false 1 (-14)) = true) : special 7 x = (trigFix true s m e).getD ((Config.specialResult 7 x).toNat, []) := by
  simp only [special, h, if_neg hm, if_neg hlow]

end

/-- A series that the model decides by its two ends. -/
theorem seriesGives_of_decided {fn : Nat} {x : Word} {a : ℤ} {err : Nat} {sc : ℤ} (h : fspecOp fn x = seriesOr fn x (decided a err sc)) : SeriesGives fn x a err sc := by
  have hlo := roundsTo_valOf (a - err) sc
  have hhi := roundsTo_valOf (a + err) sc
  push_cast at hlo hhi
  have hword {n n' : Nat × List Nat} (hn : n.1 < 2 ^ 32) (hn' : n'.1 < 2 ^ 32) (he : (wd n.1, n.2) = (wd n'.1, n'.2)) : n = n' := by
    obtain ⟨h1, h2⟩ := Prod.ext_iff.1 he
    have := congrArg BitVec.toNat h1
    simp only [wd, BitVec.toNat_ofNat, Nat.mod_eq_of_lt hn, Nat.mod_eq_of_lt hn'] at this
    exact Prod.ext this h2
  have hlt (v : Val) : (outVal .f32 .rne v).1 < 2 ^ 32 := outVal_lt f32_mem .rne v
  unfold SeriesGives
  by_cases heq : outVal .f32 .rne (valOf (a - err) sc) = outVal .f32 .rne (valOf (a + err) sc)
  · have hval : fspecOp fn x = outRes .f32 .rne (valOf (a - err) sc, []) := by
      rw [h, decided]
      simp only [if_pos heq]
      rfl
    have hhi' : RoundsTo (((a : ℝ) + err) * 2 ^ sc) (outRes .f32 .rne (valOf (a - err) sc, [])) := by
      rw [outRes, heq]
      exact hhi
    refine ⟨fun _ y h1 h2 => ?_, fun hno => absurd ⟨_, hlo, hhi'⟩ hno⟩
    rw [hval]
    exact roundsTo_between hlo hhi' h1 h2
  · have hno : ¬∃ r, RoundsTo (((a : ℝ) - err) * 2 ^ sc) r ∧ RoundsTo (((a : ℝ) + err) * 2 ^ sc) r := by
      rintro ⟨r, h1, h2⟩
      exact heq (hword (hlt _) (hlt _) ((roundsTo_unique hlo h1).trans (roundsTo_unique h2 hhi)))
    refine ⟨fun hex => absurd hex hno, fun _ => ?_⟩
    rw [h, decided]
    simp only [if_neg heq]
    exact Prod.ext (BitVec.ofNat_toNat _ _) rfl

/-! ### Integers and powers of two among the operands -/

theorem asInt_eq_some {s : Bool} {m : Nat} {e k : ℤ} (h : asInt s m e = some k) : ratOf (.fin s m e) = k := by
  unfold asInt at h
  split at h
  case isTrue he =>
    obtain rfl := Option.some.inj h
    rw [← mantAt_mul he, zpow_zero, mul_one]
  case isFalse he =>
    split at h
    case isTrue hmod =>
      obtain rfl := Option.some.inj h
      have hmag : magOf m e = ((m / powInt (-e) : Nat) : ℚ) := by
        rw [Nat.cast_div (Nat.dvd_of_mod_eq_zero hmod) (by rw [cast_powInt (by omega)]; exact (two_zpow_pos _).ne'), cast_powInt (by omega), zpow_neg, div_inv_eq_mul, magOf]
      rw [ratOf_fin, hmag]
      cases s
      · exact (Int.cast_natCast _).symm
      · exact (by rw [Int.cast_neg, Int.cast_natCast] : -((m / powInt (-e) : ℕ) : ℚ) = ((-((m / powInt (-e) : ℕ) : ℤ) : ℤ) : ℚ))
    case isFalse => cases h

theorem not_int_of_asInt_eq_none {s : Bool} {m : Nat} {e : ℤ} (h : asInt s m e = none) : ¬∃ k : ℤ, ratOf (.fin s m e) = k := by
  rintro ⟨k, hk⟩
  unfold asInt at h
  split at h
  case isTrue => cases h
  case isFalse he =>
    split at h
    case isTrue => cases h
    case isFalse hmod =>
      have hmag : magOf m e = ((k.natAbs : ℕ) : ℚ) := by rw [← abs_ratOf_fin s, hk, Nat.cast_natAbs, Int.cast_abs]
      have hm : (m : ℚ) = ((k.natAbs * powInt (-e) : ℕ) : ℚ) := by
        rw [Nat.cast_mul, ← hmag, cast_powInt (by omega), magOf, mul_assoc, ← two_zpow_add, add_neg_cancel, zpow_zero, mul_one]
      exact hmod (by rw [Nat.cast_injective hm, Nat.mul_mod_left])

theorem asInt_eq_none_iff {s : Bool} {m : Nat} {e : ℤ} : asInt s m e = none ↔ ¬∃ k : ℤ, ratOf (.fin s m e) = k := by
  refine ⟨not_int_of_asInt_eq_none, fun h => ?_⟩
  cases hk : asInt s m e with
  | none => rfl
  | some k => exact absurd ⟨k, asInt_eq_some hk⟩ h

theorem magOf_of_power {m : Nat} (hm : m ≠ 0) (e : ℤ) (h : m = 2 ^ (bitLen m - 1)) : magOf m e = 2 ^ (e + bitLen m - 1) := by
  have hb := bitLen_ne_zero hm
  conv_lhs => rw [magOf, h]
  rw [Nat.cast_pow, Nat.cast_ofNat, ← two_zpow_natCast, ← two_zpow_add]
  congr 1
  omega

theorem power_of_magOf {m : Nat} (hm : m ≠ 0) {e k : ℤ} (h : magOf m e = 2 ^ k) : k = e + bitLen m - 1 ∧ m = 2 ^ (bitLen m - 1) := by
  have hb := bitLen_ne_zero hm
  have hk : k = e + bitLen m - 1 :=
    leading_unique h.ge (by rw [h]; exact two_zpow_lt.2 (by omega)) (two_zpow_le_magOf hm e) (by rw [Int.sub_add_cancel]; exact magOf_lt_two_zpow m e)
  refine ⟨hk, ?_⟩
  have hcast : (m : ℚ) = ((2 ^ (bitLen m - 1) : ℕ) : ℚ) := by
    rw [magOf, hk, show e + (bitLen m : ℤ) - 1 = ((bitLen m - 1 : ℕ) : ℤ) + e by omega, two_zpow_add, two_zpow_natCast] at h
    rw [mul_right_cancel₀ (two_zpow_pos e).ne' h]
    push_cast
    rfl
  exact Nat.cast_injective hcast

theorem sign_of_ratOf_pos {s : Bool} {m : Nat} {e : ℤ} (h : 0 < ratOf (.fin s m e)) : s = false := by
  rw [ratOf_fin] at h
  cases s with
  | false => rfl
  | true => exact absurd h (not_lt.2 (neg_nonpos.2 (magOf_nonneg m e)))

/-! ### The range of FEXP2 -/

theorem lt_low_iff {s : Bool} {m : Nat} {e : ℤ} : Val.lt (.fin s m e) (.fin true 151 0) = true ↔ ratOf (.fin s m e) < -151 := by
  rw [Val.lt_fin_iff, show ratOf (.fin true 151 0) = -151 by norm_num [ratOf]]

theorem high_lt_iff {s : Bool} {m : Nat} {e : ℤ} : Val.lt (.fin false 129 0) (.fin s m e) = true ↔ 129 < ratOf (.fin s m e) := by
  rw [Val.lt_fin_iff, show ratOf (.fin false 129 0) = 129 by norm_num [ratOf]]

/-- The model's ends of FEXP2 saturate and underflow. -/
theorem exp2_ends : outRes .f32 .rne (.fin false 1 400, []) = (0x7F800000, [0]) ∧ outRes .f32 .rne (.fin false 1 (-400), []) = (0, [2]) := by decide +kernel

theorem rpow_large {a : ℝ} (ha : 128 ≤ a) : (2 : ℝ) ^ 128 ≤ (2 : ℝ) ^ a := by
  rw [← Real.rpow_natCast]
  exact Real.rpow_le_rpow_of_exponent_le (by norm_num) (by exact_mod_cast ha)

theorem rpow_tiny {a : ℝ} (ha : a ≤ -150) : (2 : ℝ) ^ a ≤ (2 : ℝ) ^ (-150 : ℤ) := by
  rw [← Real.rpow_intCast]
  exact Real.rpow_le_rpow_of_exponent_le (by norm_num) (by exact_mod_cast ha)

/-! ### The clauses of R187 on ordinary operands -/

section
variable {x : Word} {s : Bool} {m : Nat} {e : ℤ} (h : inF32 x = .fin s m e) (hm : m ≠ 0)
include h hm

theorem frcp_rounds : RoundsTo (1 / ((ratOf (.fin s m e) : ℚ) : ℝ)) (fspecOp 0 x) := by
  rw [fspecOp_of_value (special_recip h hm)]
  exact recip_roundsTo s hm e

theorem roots_round (hpos : 0 < ratOf (.fin s m e)) :
    RoundsTo (1 / √((ratOf (.fin s m e) : ℚ) : ℝ)) (fspecOp 1 x) ∧ RoundsTo √((ratOf (.fin s m e) : ℚ) : ℝ) (fspecOp 2 x) := by
  have hs := sign_of_ratOf_pos hpos
  have ha : ((ratOf (.fin s m e) : ℚ) : ℝ) = m * 2 ^ e := by rw [cast_ratOf_fin, hs, if_neg Bool.false_ne_true]
  rw [fspecOp_of_value (special_recipRoot h hm hs), fspecOp_of_value (special_root h hm hs), ha]
  exact ⟨recipRoot_roundsTo hm e, rootOf_roundsTo hm e⟩

theorem fexp2_int_rounds {k : ℤ} (hk : ratOf (.fin s m e) = k) : RoundsTo ((2 : ℝ) ^ ((ratOf (.fin s m e) : ℚ) : ℝ)) (fspecOp 3 x) := by
  obtain ⟨hhigh, hlow⟩ := exp2_ends
  have hint : asInt s m e = some k := by
    cases hi : asInt s m e with
    | none => exact absurd ⟨k, hk⟩ (not_int_of_asInt_eq_none hi)
    | some j => rw [Int.cast_injective ((asInt_eq_some hi).symm.trans hk)]
  rw [fspecOp_of_value (special_exp2_int h hm hint), hk, Rat.cast_intCast]
  rcases lt_or_ge 400 k with hbig | hbig
  · rw [show max (-400) (min 400 k) = 400 by omega, hhigh]
    exact roundsTo_of_large (rpow_large (by exact_mod_cast (by omega : 128 ≤ k)))
  · rcases lt_or_ge k (-400) with hsmall | hsmall
    · rw [show max (-400) (min 400 k) = -400 by omega, hlow]
      exact roundsTo_of_tiny (by positivity) (rpow_tiny (by exact_mod_cast (by omega : k ≤ -150)))
    · have hval : (2 : ℝ) ^ (k : ℝ) = ((ratOf (.fin false 1 k) : ℚ) : ℝ) := by rw [Real.rpow_intCast, cast_ratOf_fin, if_neg Bool.false_ne_true, Nat.cast_one, one_mul]
      rw [show max (-400) (min 400 k) = k by omega, hval]
      exact roundsTo_outRes fun _ => rfl

theorem fexp2_rounds (hk : (∃ k : ℤ, ratOf (.fin s m e) = k) ∨ ratOf (.fin s m e) < -151 ∨ 129 < ratOf (.fin s m e)) :
    RoundsTo ((2 : ℝ) ^ ((ratOf (.fin s m e) : ℚ) : ℝ)) (fspecOp 3 x) := by
  by_cases hint : ∃ k : ℤ, ratOf (.fin s m e) = k
  · obtain ⟨k, hk⟩ := hint
    exact fexp2_int_rounds h hm hk
  · have hnone := asInt_eq_none_iff.2 hint
    obtain ⟨hhigh, hlow⟩ := exp2_ends
    rcases hk.resolve_left hint with hl | hg
    · rw [fspecOp_of_value (special_exp2_low h hm hnone (lt_low_iff.2 hl)), hlow]
      have hl' : ((ratOf (.fin s m e) : ℚ) : ℝ) < -151 := by exact_mod_cast hl
      exact roundsTo_of_tiny (by positivity) (rpow_tiny (by linarith))
    · rw [fspecOp_of_value (special_exp2_high h hm hnone (mt lt_low_iff.1 (by linarith)) (high_lt_iff.2 hg)), hhigh]
      have hg' : (129 : ℝ) < ((ratOf (.fin s m e) : ℚ) : ℝ) := by exact_mod_cast hg
      exact roundsTo_of_large (rpow_large (by linarith))

theorem flog2_power_rounds {k : ℤ} (hk : ratOf (.fin s m e) = (2 : ℚ) ^ k) : RoundsTo (k : ℝ) (fspecOp 4 x) := by
  have hs := sign_of_ratOf_pos (hk ▸ two_zpow_pos k)
  have hmag : magOf m e = 2 ^ k := by rw [← hk, ratOf_fin, hs, if_neg Bool.false_ne_true]
  obtain ⟨rfl, hp⟩ := power_of_magOf hm hmag
  rw [fspecOp_of_value (special_log2_power h hm hs hp)]
  simpa only [zpow_zero, mul_one] using roundsTo_valOf (e + bitLen m - 1) 0

end

/-! ### The series (R187, log 10) -/

theorem exp2Fix_eq (s : Bool) (m : Nat) (e : ℤ) : exp2Fix s m e = decided (expFix (fixOf s m e % 2 ^ P * ln2Fix / 2 ^ P)) seriesErr (fixOf s m e / 2 ^ P - P) := by
  unfold exp2Fix
  rfl

/-- The model's logarithm to base 2 of m × 2^e. -/
def log2Series (m : Nat) (e : ℤ) : ℤ :=
  let l := bitLen m - 1
  let y := fixOf false m (-l)
  let ln := 2 * atanhFix ((y - 2 ^ P) * 2 ^ P / (y + 2 ^ P))
  (e + l) * 2 ^ P + ln * 2 ^ P / ln2Fix

theorem log2Fix_eq (m : Nat) (e : ℤ) : log2Fix m e = decided (log2Series m e) seriesErr (-P) := by
  unfold log2Fix log2Series
  rfl

/-- The model's hyperbolic tangent of m × 2^e, with a sign. -/
def tanhSeries (s : Bool) (m : Nat) (e : ℤ) : ℤ :=
  let n := 2 * fixOf false m e / ln2Fix
  let y := expFix (2 * fixOf false m e - n * ln2Fix) * powInt n
  let t := (y - 2 ^ P) * 2 ^ P / (y + 2 ^ P)
  if s then -t else t

theorem tanhFix_eq (s : Bool) (m : Nat) (e : ℤ) : tanhFix s m e = decided (tanhSeries s m e) seriesErr (-P) := by
  unfold tanhFix tanhSeries
  rfl

/-- The model's sine or cosine of m × 2^e, with a sign. -/
def trigSeries (cosine s : Bool) (m : Nat) (e : ℤ) : ℤ :=
  let h := piFix / 2
  let n := (2 * fixOf false m e + h) / (2 * h)
  let r := fixOf false m e - n * h
  let v := match (((if cosine then n + 1 else n) % 4).toNat) with
    | 0 => sinFix r
    | 1 => cosFix r
    | 2 => -sinFix r
    | _ => -cosFix r
  if s && !cosine then -v else v

theorem trigFix_eq (cosine s : Bool) (m : Nat) (e : ℤ) : trigFix cosine s m e = decided (trigSeries cosine s m e) (2 ^ 400) (-P) := by
  unfold trigFix trigSeries
  rfl

section
variable {x : Word} {s : Bool} {m : Nat} {e : ℤ} (h : inF32 x = .fin s m e) (hm : m ≠ 0)
include h

/-- The sign and the magnitude bits of an ordinary operand. -/
theorem bits_of_fin : x.toNat % 2 ^ 31 = Fmt.f32.code m e ∧ x.toNat % 2 ^ 31 < 0x7F800000 ∧ (s = true ↔ 2 ^ 31 ≤ x.toNat) ∧ Fmt.f32.Canonical m e := by
  have hx := reads_inF32 x
  rw [h] at hx
  obtain ⟨hlt, hs, hc, hmag⟩ := hx
  exact ⟨hmag, hlt, hs, hc⟩

theorem lt_canonical_iff {q i : Nat} {j k : ℤ} (hc : Fmt.f32.Canonical q k) (hq : magOf q k = magOf i j) :
    (Val.lt (.fin false m e) (.fin false i j) = true ↔ x.toNat % 2 ^ 31 < Fmt.f32.code q k) ∧ (Val.lt (.fin false i j) (.fin false m e) = true ↔ Fmt.f32.code q k < x.toNat % 2 ^ 31) := by
  obtain ⟨hmag, -, -, hcx⟩ := bits_of_fin h
  rw [hmag, ← magOf_lt_iff_code_lt hcx hc, ← magOf_lt_iff_code_lt hc hcx, hq, Val.lt_fin_iff, Val.lt_fin_iff, ratOf_fin, ratOf_fin]
  exact ⟨Iff.rfl, Iff.rfl⟩

theorem lt_sine_iff : Val.lt (.fin false m e) (.fin false 1 (-30)) = true ↔ x.toNat % 2 ^ 31 < 0x30800000 :=
  (lt_canonical_iff h (q := 2 ^ 23) (k := -53) ⟨by decide, by decide, .inr le_rfl⟩ (by norm_num [magOf])).1

theorem lt_cosine_iff : Val.lt (.fin false m e) (.fin false 1 (-14)) = true ↔ x.toNat % 2 ^ 31 < 0x38800000 :=
  (lt_canonical_iff h (q := 2 ^ 23) (k := -37) ⟨by decide, by decide, .inr le_rfl⟩ (by norm_num [magOf])).1

theorem tanh_lt_iff : Val.lt (.fin false 16 0) (.fin false m e) = true ↔ 0x41800000 < x.toNat % 2 ^ 31 :=
  (lt_canonical_iff h (q := 2 ^ 23) (k := -19) ⟨by decide, by decide, .inr le_rfl⟩ (by norm_num [magOf])).2

include hm

/-- Just below a pattern's number the model rounds to the pattern. -/
theorem outRes_justBelow : outRes .f32 .rne (justBelow s m e, []) = (x, []) := by
  obtain ⟨hmag, hlt, hs, hc⟩ := bits_of_fin h
  have hround : RoundsTo ((ratOf (justBelow s m e) : ℚ) : ℝ) (outRes .f32 .rne (justBelow s m e, [])) := roundsTo_outRes fun h0 => absurd h0 (by omega)
  rw [roundsTo_unique hround (roundsTo_justBelow s hc hm)]
  have hne : ¬Fmt.f32.code m e = 0 := mt (code_eq_zero hc).1 hm
  rw [codeResult_of_lt (by omega), if_neg (by tauto)]
  refine Prod.ext (BitVec.eq_of_toNat_eq ?_) rfl
  have hxlt := x.isLt
  rw [BitVec.toNat_ofNat]
  cases s
  · simp only [b1, Bool.false_eq_true, if_false, false_iff] at hs ⊢
    omega
  · simp only [b1, if_true, true_iff] at hs ⊢
    omega

theorem fexp2_series (hint : ¬∃ k : ℤ, ratOf (.fin s m e) = k) (hlow : -151 ≤ ratOf (.fin s m e)) (hhigh : ratOf (.fin s m e) ≤ 129) :
    SeriesGives 3 x (expFix (fixOf s m e % 2 ^ P * ln2Fix / 2 ^ P)) seriesErr (fixOf s m e / 2 ^ P - P) := by
  have hval := special_exp2_series h hm (asInt_eq_none_iff.2 hint) (mt lt_low_iff.1 hlow.not_gt) (mt high_lt_iff.1 hhigh.not_gt)
  rw [exp2Fix_eq] at hval
  exact seriesGives_of_decided (fspecOp_of_series hval)

theorem flog2_series (hpos : 0 < ratOf (.fin s m e)) (hk : ¬∃ k : ℤ, ratOf (.fin s m e) = (2 : ℚ) ^ k) : SeriesGives 4 x (log2Series m e) seriesErr (-P) := by
  have hs := sign_of_ratOf_pos hpos
  have hp : ¬m = 2 ^ (bitLen m - 1) := fun hp => hk ⟨_, by rw [ratOf_fin, hs, if_neg Bool.false_ne_true]; exact magOf_of_power hm e hp⟩
  have hval := special_log2_series h hm hs hp
  rw [log2Fix_eq] at hval
  exact seriesGives_of_decided (fspecOp_of_series hval)

theorem ftanh_near_zero (hx : x.toNat % 2 ^ 31 < 0x30800000) : fspecOp 5 x = (x, []) := by
  rw [fspecOp_of_value (special_tanh_low h hm ((lt_sine_iff h).2 hx)), outRes_justBelow h hm]

theorem fsin_near_zero (hx : x.toNat % 2 ^ 31 < 0x30800000) : fspecOp 6 x = (x, []) := by
  rw [fspecOp_of_value (special_sin_low h hm ((lt_sine_iff h).2 hx)), outRes_justBelow h hm]

theorem fcos_near_zero (hx : x.toNat % 2 ^ 31 < 0x38800000) : fspecOp 7 x = (0x3F800000, []) := by
  rw [fspecOp_of_value (special_cos_low h hm ((lt_cosine_iff h).2 hx))]
  decide +kernel

theorem ftanh_large (hx : 0x41800000 < x.toNat % 2 ^ 31) : fspecOp 5 x = (if s then 0xBF800000 else 0x3F800000, []) := by
  rw [fspecOp_of_value (special_tanh_high h hm (mt (lt_sine_iff h).1 (by omega)) ((tanh_lt_iff h).2 hx))]
  cases s <;> decide +kernel

theorem ftanh_series (h1 : 0x30800000 ≤ x.toNat % 2 ^ 31) (h2 : x.toNat % 2 ^ 31 ≤ 0x41800000) : SeriesGives 5 x (tanhSeries s m e) seriesErr (-P) := by
  have hval := special_tanh_series h hm (mt (lt_sine_iff h).1 (by omega)) (mt (tanh_lt_iff h).1 (by omega))
  rw [tanhFix_eq] at hval
  exact seriesGives_of_decided (fspecOp_of_series hval)

theorem fsin_series (hx : 0x30800000 ≤ x.toNat % 2 ^ 31) : SeriesGives 6 x (trigSeries false s m e) (2 ^ 400) (-P) := by
  have hval := special_sin_series h hm (mt (lt_sine_iff h).1 (by omega))
  rw [trigFix_eq] at hval
  exact seriesGives_of_decided (fspecOp_of_series hval)

theorem fcos_series (hx : 0x38800000 ≤ x.toNat % 2 ^ 31) : SeriesGives 7 x (trigSeries true s m e) (2 ^ 400) (-P) := by
  have hval := special_cos_series h hm (mt (lt_cosine_iff h).1 (by omega))
  rw [trigFix_eq] at hval
  exact seriesGives_of_decided (fspecOp_of_series hval)

end

/-- R187 on ordinary operands. -/
theorem specialsRounded : SpecialsRounded := by
  intro x s m e h hm a mag fixed size
  have ha : a = ratOf (.fin s m e) := congrArg ratOf h
  clear_value a
  subst ha
  refine ⟨frcp_rounds h hm, roots_round h hm, fexp2_rounds h hm, fexp2_series h hm, fun k => flog2_power_rounds h hm, flog2_series h hm,
    fun hx => ⟨ftanh_near_zero h hm hx, fsin_near_zero h hm hx⟩, ftanh_large h hm, ftanh_series h hm, fcos_near_zero h hm, fun q hq hx => ?_⟩
  simp only [List.mem_cons, List.not_mem_nil, or_false] at hq
  obtain rfl | rfl := hq
  · exact fsin_series h hm hx
  · exact fcos_series h hm hx

/-- Settles O25: the order and class of patterns, the special operands, and the values of the special functions on ordinary ones. -/
theorem floatOrderClassSpecial : Obligations.FloatOrderClassSpecial := ⟨floatOrderAndClass, specialOperands, specialsRounded⟩

end Sys2Proof.Machine
end

section
/-! SUPPORT. The operations of words, of moves and of the bookkeeping that leave memory alone. -/

namespace Sys2Proof.Machine

/-! ### Lists of lanes and of anything else -/

/-- An operation that leaves memory alone for the lanes in turn, each with its own argument. -/
theorem recursion_mem {β : Type} {f : State → List β → State} {g : State → β → State} (hnil : ∀ s, f s [] = s) (hcons : ∀ s x xs, f s (x :: xs) = f (g s x) xs)
    (hg : ∀ s x, (g s x).mem = s.mem) (s : State) (xs : List β) : (f s xs).mem = s.mem := by
  induction xs generalizing s with
  | nil => rw [hnil]
  | cons x xs ih => rw [hcons, ih, hg]

/-! ### Threads and registers -/

@[simp] theorem State.put_mem (s : State) (p : Pipe) (tid : Nat) (n : Bool) (d : Code) (v : Word) : (s.put p tid n d v).mem = s.mem := rfl
@[simp] theorem State.put64_mem (s : State) (p : Pipe) (tid : Nat) (n : Bool) (d : Code) (v : DWord) : (s.put64 p tid n d v).mem = s.mem := rfl
@[simp] theorem State.goto_mem (s : State) (tid : Nat) (pc : DWord) : (s.goto tid pc).mem = s.mem := rfl
@[simp] theorem State.modBar_mem (s : State) (u k : Nat) (f : Barrier → Barrier) : (s.modBar u k f).mem = s.mem := rfl
@[simp] theorem State.modGrid_mem (s : State) (g : Nat) (f : Grid → Grid) : (s.modGrid g f).mem = s.mem := rfl
@[simp] theorem State.modEntry_mem (s : State) (u id : Nat) (f : MEntry → MEntry) : (s.modEntry u id f).mem = s.mem := rfl
@[simp] theorem State.setQd_mem (s : State) (q w v : Nat) : (s.setQd q w v).mem = s.mem := State.setSys_mem _ _ _
@[simp] theorem State.dropNode_mem (s : State) (n : Node) : (s.dropNode n).mem = s.mem := rfl
@[simp] theorem State.setConn_mem (s : State) (c w : Nat) (v : DWord) : (s.setConn c w v).mem = s.mem := rfl
@[simp] theorem State.answer_mem (s : State) (r : Reply) : (s.answer r).mem = s.mem := rfl
@[simp] theorem State.await_mem (s : State) (m : Move) : (s.await m).mem = s.mem := rfl

@[simp] theorem captureCycles_mem (s : State) (tid k : Nat) : (captureCycles s tid k).mem = s.mem := by
  unfold captureCycles
  split <;> rfl
@[simp] theorem retLane_mem (s : State) (l : Nat) : (retLane s l).mem = s.mem := by
  unfold retLane
  simp only
  split <;> simp
@[simp] theorem stpLane_mem (d a : Code) (sz : BitVec 3) (off : BitVec 5) (s : State) (l : Nat) : (stpLane d a sz off s l).mem = s.mem := rfl
@[simp] theorem stsLane_mem (d a : Code) (sz : BitVec 3) (off : BitVec 5) (s : State) (l : Nat) : (stsLane d a sz off s l).mem = s.mem := rfl
@[simp] theorem branchLanes_mem (h : BitVec 2) (a : Code) (slot : BitVec 5) (dline : BitVec 11) (z : Bool) (s : State) (ls : List Nat) : (branchLanes h a slot dline z s ls).mem = s.mem := by
  refine eachLane_mem ?_ s ls
  exact fun _ _ => rfl
@[simp] theorem putAll_mem (p : Pipe) (n : Bool) (d : Code) (s : State) (rs : List (Nat × FRes)) : (putAll p n d s rs).mem = s.mem :=
  recursion_mem (fun _ => rfl) (fun _ _ _ => rfl) (fun s r => State.put_mem s p r.1 n d r.2.1) s rs
@[simp] theorem waitLanes_mem (k : Nat) (s : State) (ls : List Nat) : (waitLanes k s ls).mem = s.mem := by
  unfold waitLanes
  rw [releaseTest_mem, arriveMask_mem]
  refine eachLane_mem ?_ s ls
  exact fun _ _ => rfl
@[simp] theorem exitLanes_mem (s : State) (ls : List Nat) : (exitLanes s ls).mem = s.mem := by
  unfold exitLanes
  rw [exitThreads_mem]
  exact eachLane_mem (fun t l => State.goto_mem t l t.issue.addr) s ls

/-! ### Loads, atomics, barriers, copies -/

@[simp] theorem noteTrans_mem (s : State) (tid : Nat) (va : DWord) : (noteTrans s tid va).mem = s.mem := fillTrans_mem _ _ _ _
@[simp] theorem beginLoad_mem (s : State) (l : Load) : (beginLoad s l).mem = s.mem := by
  unfold beginLoad
  simp only
  split <;> rfl
@[simp] theorem ldpLane_mem (n : Bool) (d a : Code) (sz : BitVec 3) (off : BitVec 5) (s : State) (l : Nat) : (ldpLane n d a sz off s l).mem = s.mem := beginLoad_mem _ _
@[simp] theorem stgLane_mem (s0 : State) (d a : Code) (rt : BitVec 2) (sz : BitVec 3) (off : BitVec 5) (s : State) (l : Nat) : (stgLane s0 d a rt sz off s l).mem = s.mem :=
  noteTrans_mem _ _ _
@[simp] theorem atomicIssue_mem (s0 : State) (gl n : Bool) (fn : BitVec 3) (d a b : Code) (s : State) (es : List QEntry) (ls : List Nat) :
    (atomicIssue s0 gl n fn d a b s es ls).1.mem = s.mem := by
  induction ls generalizing s es with
  | nil => rfl
  | cons l ls ih =>
    simp only [atomicIssue, ih, beginLoad_mem]
    split <;> simp
@[simp] theorem phInitLane_mem (d a : Code) (k : Nat) (s : State) (l : Nat) : (phInitLane d a k s l).mem = s.mem := by
  unfold phInitLane
  simp only
  split
  · rfl
  · split <;> rfl
@[simp] theorem arriveLane_mem (d : Code) (k : Nat) (b : Bool) (s : State) (l : Nat) : (arriveLane d k b s l).mem = s.mem := by
  unfold arriveLane
  simp only [enqueue_mem, State.put_mem]
  split <;> rfl
@[simp] theorem waitPhase_mem (a : Code) (k : Nat) (s : State) (l : Nat) : (waitPhase a k s l).mem = s.mem := by
  unfold waitPhase
  split <;> simp
@[simp] theorem testPhase_mem (d a : Code) (k : Nat) (s : State) (l : Nat) : (testPhase d a k s l).mem = s.mem := by
  unfold testPhase
  split <;> simp
@[simp] theorem invalPhase_mem (d : Code) (k : Nat) (s : State) (l : Nat) : (invalPhase d k s l).mem = s.mem := by
  unfold invalPhase
  simp only
  split
  · rfl
  · split <;> rfl
@[simp] theorem notePoison_mem (s : State) (tid : Nat) (l : Loc) (a : DWord) (n : Nat) (sp : MemSpace) (e : Bool) : (notePoison s tid l a n sp e).mem = s.mem := by
  unfold notePoison
  split <;> rfl
@[simp] theorem register_mem (k : Nat) (s : State) (ps : List (Nat × Nat)) : (register k s ps).mem = s.mem :=
  recursion_mem (fun _ => rfl) (fun _ _ _ => rfl) (fun s p => State.modBar_mem s p.1 k (fun b => { b with pending := b.pending + p.2 })) s ps
@[simp] theorem addRequest_mem (s : State) (tid : Nat) (bar : Option Nat) (p : Plan) : (addRequest s tid bar p).mem = s.mem := by
  cases bar with
  | none => rfl
  | some k => exact register_mem k s p.targets
@[simp] theorem copyLane_mem (d a : Code) (x : BitVec 6) (ks : List Nat) (s : State) (l : Nat) : (copyLane d a x ks s l).mem = s.mem := by
  unfold copyLane
  simp only
  split
  · rfl
  · simp only [State.put_mem, addRequest_mem]
    split <;> simp
@[simp] theorem cancelRequest_mem (s : State) (u : Nat) (rid : Word) : (cancelRequest s u rid).1.mem = s.mem := by
  unfold cancelRequest
  split
  · rfl
  · split <;> simp

/-! ### Scratchpads and views -/

@[simp] theorem dropUnits_mem (s : State) (us : List Nat) : (dropUnits s us).mem = s.mem := rfl
@[simp] theorem fillBytesFrom_mem (s : State) (u off pa n : Nat) : (fillBytesFrom s u off pa n).mem = s.mem := by
  induction n with
  | zero => rfl
  | succ n ih => exact ih
@[simp] theorem fillPoison_mem (s : State) (u off pa n : Nat) : (fillPoison s u off pa n).mem = s.mem := by
  induction n with
  | zero => rfl
  | succ n ih => exact ih
@[simp] theorem fillUnits_mem (s : State) (u off : Nat) (us : List Nat) : (fillUnits s u off us).mem = s.mem := by
  induction us generalizing s off with
  | nil => rfl
  | cons v us ih =>
    unfold fillUnits
    rw [ih, fillPoison_mem, fillBytesFrom_mem]
@[simp] theorem makeBind_mem (s : State) (u e : Nat) (w : DWord) (fill : Bool) (off : Nat) (us : List Nat) : (makeBind s u e w fill off us).mem = s.mem := by
  cases fill
  · rfl
  · exact fillUnits_mem s u off us
@[simp] theorem viewAcquire_mem (s : State) (u : Nat) (v : ViewReg) : (viewAcquire s u v).mem = s.mem := by
  unfold viewAcquire
  split <;> simp
@[simp] theorem readMatrix_mem (s : State) (tid : Nat) (v : ViewReg) : (readMatrix s tid v).1.mem = s.mem := by
  unfold readMatrix
  simp only
  split <;> simp
@[simp] theorem bindView_mem (s : State) (tid k : Nat) (v : ViewReg) : (bindView s tid k v).1.mem = s.mem := by
  have h (c : Prop) [Decidable c] (x y : State × Word) (hx : x.1.mem = s.mem) (hy : y.1.mem = s.mem) : (if c then x else y).1.mem = s.mem := by
    split
    · exact hx
    · exact hy
  exact h _ _ _ rfl (h _ _ _ rfl (by simp))
@[simp] theorem setViews_mem (d : Code) (k : Nat) (s : State) (rs : List (Nat × ViewReg)) : (setViews d k s rs).mem = s.mem :=
  recursion_mem (fun _ => rfl) (fun _ _ _ => rfl) (fun s r => (State.put_mem (bindView s r.1 k r.2).1 .m r.1 false d (bindView s r.1 k r.2).2).trans (bindView_mem s r.1 k r.2)) s rs
@[simp] theorem refreshView_mem (s : State) (tid k : Nat) : (refreshView s tid k).1.mem = s.mem := by
  unfold refreshView
  simp only
  split <;> simp
@[simp] theorem noteLookup_mem (tid : Nat) (b : TSlot) (span : Nat) (s : State) (k : Nat) : (noteLookup tid b span s k).mem = s.mem := by
  unfold noteLookup
  simp only
  split
  · simp
  · split <;> simp
@[simp] theorem noteBlocks_mem (tid : Nat) (b : TSlot) (span : Nat) (s : State) (ks : List Nat) : (noteBlocks tid b span s ks).mem = s.mem := by
  induction ks generalizing s with
  | nil => rfl
  | cons k ks ih =>
    unfold noteBlocks
    simp only
    split <;> simp [ih]
@[simp] theorem noteView_mem (s : State) (tid : Nat) (va : DWord) (n : Nat) : (noteView s tid va n).mem = s.mem := by
  unfold noteView
  split
  · rfl
  · split <;> simp
@[simp] theorem noteWalk_mem (s : State) (tid off : Nat) : (noteWalk s tid off).mem = s.mem := by
  unfold noteWalk
  simp only
  split <;> simp
@[simp] theorem fillTokens_mem (s : State) (tid : Nat) (v : ViewReg) (ts : List Nat) : (fillTokens s tid v ts).mem = s.mem := by
  induction ts generalizing s with
  | nil => rfl
  | cons t ts ih =>
    simp only [fillTokens, ih]
    split
    · rfl
    · split <;> simp
@[simp] theorem fillView_mem (n : Nat) (s : State) (tid : Nat) (va : DWord) : (fillView n s tid va).mem = s.mem := by
  unfold fillView
  split <;> simp
@[simp] theorem fillBlocks_mem (core ctx : Nat) (b : TSlot) (s : State) (es : List (Nat × DWord)) : (fillBlocks core ctx b s es).mem = s.mem :=
  recursion_mem (fun _ => rfl) (fun _ _ _ => rfl) (fun s e => fillBlock_mem s core ctx b e.1 e.2) s es
@[simp] theorem addWalk_mem (s : State) (tid : Nat) (bar : Option Nat) (w : WalkPlan) : (addWalk s tid bar w).mem = s.mem := by simp [addWalk]
@[simp] theorem walkLane_mem (d a : Code) (x : BitVec 6) (s : State) (l : Nat) : (walkLane d a x s l).mem = s.mem := by
  unfold walkLane
  simp only
  split <;> simp

/-! ### The matrix queue -/

@[simp] theorem pushMatrix_mem (s : State) (tid : Nat) (op : MOp) : (pushMatrix s tid op).mem = s.mem := rfl
@[simp] theorem pushLoad_mem (s : State) (tid off : Nat) : (pushLoad s tid off).mem = s.mem := by simp [pushLoad]
@[simp] theorem pushStream_mem (s : State) (tid off : Nat) : (pushStream s tid off).mem = s.mem := by simp [pushStream]
@[simp] theorem pushDrain_mem (s : State) (tid off f : Nat) : (pushDrain s tid off f).mem = s.mem := by simp [pushDrain]
@[simp] theorem pushSwap_mem (s : State) (tid : Nat) : (pushSwap s tid).mem = s.mem := rfl
@[simp] theorem pinRun_mem (s : State) (u : Nat) (run : AccRun) : (pinRun s u run).mem = s.mem := by
  refine foldl_mem (fun t x => ?_) run s
  split <;> rfl
@[simp] theorem pushArm_mem (s : State) (tid : Nat) (c a : DWord) : (pushArm s tid c a).mem = s.mem := by simp [pushArm]
@[simp] theorem unpinRun_mem (s : State) (u : Nat) (run : AccRun) : (unpinRun s u run).mem = s.mem := rfl
@[simp] theorem entryFault_mem (s : State) (e : MEntry) (c : Nat) (a : DWord) (sp : MemSpace) : (entryFault s e c a sp).mem = s.mem := rfl
@[simp] theorem reportBank_mem (s : State) (e : MEntry) (off : Nat) (rows : List (List Byte × Bool)) : (reportBank s e off rows).mem = s.mem := by
  unfold reportBank
  split <;> rfl
@[simp] theorem rowPoison_mem (s : State) (e : MEntry) (d : StreamDesc) (p : Plate) : (rowPoison s e d p).mem = s.mem := by
  unfold rowPoison
  simp only
  split <;> simp
@[simp] theorem sendRow_mem (s : State) (u e : Nat) (w : Word) (acc : DWord) (pa r pa2 r2 : Nat) (ds : List Word) : (sendRow s u e w acc pa r pa2 r2 ds).mem = s.mem := rfl
@[simp] theorem nextWindow_mem (s : State) (c : Nat) : (nextWindow s c).mem = s.mem := by
  unfold nextWindow
  split <;> rfl

/-! ### Registers, queues, nodes, placement -/

@[simp] theorem setHead_mem (s : State) (q h : Nat) : (setHead s q h).mem = s.mem := State.setQd_mem _ _ _ _
@[simp] theorem setTail_mem (s : State) (q t : Nat) : (setTail s q t).mem = s.mem := State.setQd_mem _ _ _ _
@[simp] theorem setEnable_mem (s : State) (q : Nat) (on : Bool) : (setEnable s q on).mem = s.mem := State.setQd_mem _ _ _ _
@[simp] theorem addCompletion_mem (s : State) (q : Nat) (w : Word) (st k : Nat) (f : Bool) : (addCompletion s q w st k f).mem = s.mem := by
  unfold addCompletion
  split <;> rfl
@[simp] theorem walkerRelease_mem (s : State) : (walkerRelease s).mem = s.mem := rfl
@[simp] theorem walkerAcquire_mem (s : State) : (walkerAcquire s).mem = s.mem := rfl
@[simp] theorem nodeCopy_mem (s : State) (ctx die : Nat) (a : DWord) (c : CopyRec) : (nodeCopy s ctx die a c).mem = s.mem := rfl
@[simp] theorem plainWrite_mem (s : State) (n : Nat) (v : DWord) : (plainWrite s n v).mem = s.mem := State.setSys_mem _ _ _
@[simp] theorem writeContext_mem (s : State) (n : Nat) (v : DWord) : (writeContext s n v).mem = s.mem := by
  unfold writeContext
  simp only
  split <;> simp
@[simp] theorem discardSlots_mem (s : State) (q : Nat) : (discardSlots s q).mem = s.mem := by
  have h (t : State) (f : SMap (Nat × DWord)) (g : List Nat) (n : Nat) : (setTail { t with feeds := f, systemFeed := g } q n).mem = t.mem := setTail_mem _ _ _
  exact (h _ _ _ _).trans (foldl_mem (fun t i => addCompletion_mem t q (wd (qTail s q + i)) 0x11 0 true) (List.range (qCount s q)) s)
@[simp] theorem writeQd1_mem (s : State) (q : Nat) (v : DWord) : (writeQd1 s q v).mem = s.mem := by
  unfold writeQd1
  simp only
  split <;> split <;> simp
@[simp] theorem writeQueue_mem (s : State) (q w : Nat) (v : DWord) : (writeQueue s q w v).mem = s.mem := by
  unfold writeQueue
  split
  · split <;> simp
  · exact writeQd1_mem _ _ _
  · split <;> simp
  · exact State.setQd_mem _ _ _ _
  · split <;> simp
  · rfl
@[simp] theorem dropReplay_mem (s : State) (u e : Nat) : (dropReplay s u e).mem = s.mem := rfl
@[simp] theorem placeDgev_mem (s : State) (die : Nat) (v : DWord) : (placeDgev s die v).mem = s.mem := rfl
@[simp] theorem evictStatus_mem (s : State) (f st : Nat) : (evictStatus s f st).mem = s.mem := State.setSys_mem _ _ _
@[simp] theorem writeEvictreq_mem (s : State) (v : DWord) : (writeEvictreq s v).mem = s.mem := by
  unfold writeEvictreq
  simp only
  split
  · rfl
  · split
    · split <;> simp
    · exact evictStatus_mem _ _ _
@[simp] theorem endEvictreq_mem (s : State) (u st : Nat) : (endEvictreq s u st).mem = s.mem := by
  unfold endEvictreq
  split <;> simp
@[simp] theorem dropAll_mem (s : State) (f : Trans → Bool) : (dropAll s f).mem = s.mem := rfl
@[simp] theorem haltLane_mem (on : Bool) (d a : Code) (s : State) (l : Nat) : (haltLane on d a s l).mem = s.mem := by
  unfold haltLane
  simp only
  split <;> rfl
@[simp] theorem takeSlot_mem (s : State) (q : Nat) : (takeSlot s q).mem = s.mem := setTail_mem _ _ _
@[simp] theorem passTurn_mem (s : State) (die p q : Nat) : (passTurn s die p q).mem = s.mem := rfl
@[simp] theorem dropTargets_mem (s : State) : (dropTargets s).mem = s.mem := rfl
@[simp] theorem settleAgain_mem (s : State) (die : Nat) (c : Claim) (u : Nat) : (settleAgain s die c u).mem = s.mem := by
  unfold settleAgain
  simp only
  split
  · rfl
  · split <;> rfl
@[simp] theorem settleTarget_mem (s : State) (die : Nat) (c : Claim) : (settleTarget s die c).mem = s.mem := by
  unfold settleTarget
  split
  · rfl
  · split
    · rfl
    · split <;> rfl
@[simp] theorem settleClaim_mem (die : Nat) (s : State) (c : Claim) : (settleClaim die s c).mem = s.mem := by
  unfold settleClaim
  split <;> simp
@[simp] theorem settleTargets_mem (s : State) : (settleTargets s).mem = s.mem := by
  unfold settleTargets
  simp only
  rw [foldl_mem (settleClaim_mem 1), foldl_mem (settleClaim_mem 0), dropTargets_mem]
@[simp] theorem fixTarget_mem (s : State) (g : Nat) : (fixTarget s g).mem = s.mem := by
  unfold fixTarget
  split
  · rfl
  · split
    · rfl
    · split <;> rfl
@[simp] theorem addGroups_mem (u core : Nat) (s : State) (gs : List Nat) : (addGroups u core s gs).mem = s.mem := by
  induction gs generalizing s with
  | nil => rfl
  | cons g gs ih => simp [addGroups, ih]
@[simp] theorem addThreads_mem (e : DWord) (sp : Word) (s : State) (ts : List Nat) : (addThreads e sp s ts).mem = s.mem := rfl
@[simp] theorem dropStale_mem (s : State) (c : Nat) : (dropStale s c).mem = s.mem := rfl
@[simp] theorem dropStack_mem (s : State) (u : Nat) : (dropStack s u).mem = s.mem := rfl
@[simp] theorem endInGrid_mem (s : State) (g : Nat) (k : Bool) : (endInGrid s g k).mem = s.mem := by
  unfold endInGrid
  split
  · rfl
  · simp only
    split <;> rfl
@[simp] theorem activate_mem (s : State) (g : Nat) : (activate s g).mem = s.mem := rfl
@[simp] theorem placeGroups_mem (u core : Nat) (s : State) : (placeGroups u core s).mem = s.mem := by
  unfold placeGroups
  simp only
  refine (foldl_mem (fun t g => ?_) _ _).trans (foldl_mem (fun t g => State.modGroup_mem t g _) _ s)
  split <;> rfl

/-! ### Reliability, the network, heat -/

@[simp] theorem clearUnit_mem (s : State) (u : UnitId) : (clearUnit s u).mem = s.mem := by
  unfold clearUnit
  simp only
  split
  · rfl
  · split <;> rfl
@[simp] theorem poisonGranule_mem (s : State) (g : Nat) : (poisonGranule s g).mem = s.mem := rfl
@[simp] theorem poisonGranules_mem (s : State) (gs : List Nat) : (poisonGranules s gs).mem = s.mem := foldl_mem poisonGranule_mem gs s
@[simp] theorem capPins_mem (s : State) : (capPins s).mem = s.mem := rfl
@[simp] theorem followMove_mem (s : State) (old size new : Nat) (e f : DWord) : (followMove s old size new e f).mem = s.mem := rfl
@[simp] theorem carryLost_mem (s : State) (old size new : Nat) : (carryLost s old size new).mem = s.mem := by
  unfold carryLost
  split <;> simp
@[simp] theorem carryHome_mem (s : State) (k old size new : Nat) : (carryHome s k old size new).mem = s.mem := rfl
@[simp] theorem noteMove_mem (s : State) (a : Nat) (m : MoveRec) (ks : List Nat) : (noteMove s a m ks).mem = s.mem := by
  unfold noteMove
  simp only
  split <;> simp
@[simp] theorem repackPage_mem (s : State) (ctx : Nat) (p : DWord) : (repackPage s ctx p).mem = s.mem := rfl
@[simp] theorem declareDead_mem (s : State) (u : UnitId) : (declareDead s u).mem = s.mem := by
  unfold declareDead
  simp only [poisonGranules_mem]
  split <;> rfl
@[simp] theorem dropCopy_mem (s : State) (u : UnitId) (l : Nat) : (dropCopy s u l).mem = s.mem := by
  unfold dropCopy
  split <;> rfl
@[simp] theorem confineError_mem (s : State) (a low : Nat) : (confineError s a low).mem = s.mem := by
  unfold confineError
  split <;> rfl
@[simp] theorem recallCopies_mem (s : State) (l : Nat) : (recallCopies s l).mem = s.mem := rfl
@[simp] theorem errorEffect_mem (s : State) (u : UnitId) (p : ErrPlace) : (errorEffect s u p).1.mem = s.mem := by
  cases p with
  | data a only => cases only <;> simp only [errorEffect, Bool.false_eq_true, if_true, if_false, poisonGranule_mem, dropCopy_mem]
  | line a only => cases only <;> simp only [errorEffect, Bool.false_eq_true, if_true, if_false, poisonGranules_mem, recallCopies_mem]
  | acc a =>
    simp only [errorEffect]
    split <;> rfl
  | payload a low => exact confineError_mem _ _ _
  | _ => rfl
@[simp] theorem evictLine_mem (s : State) (c : CacheId) (l : Nat) : (evictLine s c l).mem = s.mem := by
  unfold evictLine
  split
  · rfl
  · split <;> rfl
@[simp] theorem countDropped_mem (s : State) (c : Nat) : (countDropped s c).mem = s.mem := State.setConn_mem _ _ _ _
@[simp] theorem countRefused_mem (s : State) (c : Nat) : (countRefused s c).mem = s.mem := State.setConn_mem _ _ _ _
@[simp] theorem writeFar_mem (s : State) (pa n : Nat) : (writeFar s pa n).mem = s.mem := by
  refine foldl_mem (fun t l => ?_) _ s
  split
  · split <;> rfl
  · rfl
@[simp] theorem hostHolds_mem (s0 s : State) (a : OutsideAccess) : (hostHolds s0 s a).mem = s.mem := by
  refine foldl_mem (fun t l => ?_) _ s
  split <;> rfl
@[simp] theorem measure_mem (s : State) (k : Nat) (f : Firmware) : (measure s k f).mem = s.mem := rfl
@[simp] theorem bootStages_mem (named : List (List Byte)) (k : Nat) (s : State) (fs : List Firmware) : (bootStages named k s fs).mem = s.mem := by
  induction fs generalizing named k s with
  | nil => rfl
  | cons f fs ih =>
    simp only [bootStages]
    split
    · rw [ih, measure_mem]
    · rfl
@[simp] theorem closeHbm_mem (s : State) : (closeHbm s).mem = s.mem := by
  refine foldl_mem ?_ _ s
  exact fun _ _ => rfl
@[simp] theorem writeConn_mem (s : State) (c w : Nat) (v : DWord) : (writeConn s c w v).mem = s.mem := by
  unfold writeConn
  split
  · rfl
  · split
    · rfl
    · rfl
    · split <;> rfl
@[simp] theorem pageFull_mem (s : State) (ctx va : Nat) : (pageFull s ctx va).mem = s.mem := by
  unfold pageFull
  split
  · rfl
  · split
    · simp only
      split <;> rfl
    · rfl

/-! ### Chains, cycles, fetches, the bookkeeping of a step -/

@[simp] theorem failedReads_mem (k : Nat) (i : Instr) (s : State) (tid : Nat) : (failedReads k i s tid).mem = s.mem := by
  unfold failedReads
  split
  · simp only
    split <;> simp
  · simp
  · rfl
@[simp] theorem runChecks_mem (s : State) (cs : List (Nat × DWord × Word)) : (runChecks s cs).1.mem = s.mem := by
  induction cs generalizing s with
  | nil => rfl
  | cons c cs ih =>
    obtain ⟨k, a, w⟩ := c
    simp only [runChecks, ih]
    exact eachLane_mem (failedReads_mem k (decodeWord w)) (s.atWord a w) _
@[simp] theorem beginIssue_mem (s : State) (g : Nat) (ls : List Nat) (pc next : DWord) : (beginIssue s g ls pc next).mem = s.mem := rfl
@[simp] theorem noteStack_mem (s : State) (i : Instr) : (noteStack s i).mem = s.mem := by
  unfold noteStack
  simp only
  split <;> rfl
@[simp] theorem wordDone_mem (s : State) (i : Instr) : (wordDone s i).mem = s.mem := by
  unfold wordDone
  simp only
  split <;> simp
@[simp] theorem noteReady_mem (s : State) (c q : Nat) : (noteReady s c q).mem = s.mem := by
  refine foldl_mem ?_ _ s
  exact fun _ _ => rfl
@[simp] theorem exchange_mem (s : State) (g : Nat) (y : Bool) : (exchange s g y).mem = s.mem := by
  unfold exchange
  simp only
  split
  · rfl
  · split
    · simp
    · split <;> simp
@[simp] theorem tickTeam_mem (s : State) (u : Nat) : (tickTeam s u).mem = s.mem := by
  unfold tickTeam
  simp only
  split <;> rfl
@[simp] theorem tickCore_mem (s : State) (c : Nat) : (tickCore s c).mem = s.mem := rfl
@[simp] theorem tick_mem (s : State) (die : Nat) : (tick s die).mem = s.mem := by
  unfold tick
  exact (eachLane_mem tickCore_mem _ _).trans (eachLane_mem tickTeam_mem s _)
@[simp] theorem cycle_mem (s : State) (c : Nat) : (cycle s c).mem = s.mem := by
  unfold cycle
  split
  · exact eachLane_mem tickTeam_mem s _
  · rfl
@[simp] theorem fitCode_mem (l : Nat) (s : State) (c : Nat) : (fitCode l s c).mem = s.mem := rfl
@[simp] theorem fetchAhead_mem (s : State) (c l : Nat) : (fetchAhead s c l).mem = s.mem := by
  unfold fetchAhead
  split
  · rfl
  · simp only
    split <;> rfl
@[simp] theorem fetchWord_mem (s : State) (c l k : Nat) : (fetchWord s c l k).mem = s.mem := by
  unfold fetchWord
  split
  · split <;> rfl
  · rfl
@[simp] theorem aheadWord_mem (s : State) (tid w : Nat) : (aheadWord s tid w).mem = s.mem := by
  unfold aheadWord
  split <;> rfl
@[simp] theorem aheadDrop_mem (s : State) (tid : Nat) : (aheadDrop s tid).mem = s.mem := rfl
@[simp] theorem dropTrans_mem (s : State) (die : Nat) (c : Option Nat) (i : Nat) : (dropTrans s die c i).mem = s.mem := by
  cases c <;> rfl
@[simp] theorem noteRoom_mem (s : State) : (noteRoom s).mem = s.mem := by
  unfold noteRoom
  split
  · rfl
  · refine eachLane_mem ?_ s _
    exact fun _ _ => rfl
@[simp] theorem fillPlaces_mem (n : Nat) (s : State) (c q : Nat) : (fillPlaces n s c q).mem = s.mem := by
  induction n generalizing s with
  | zero => rfl
  | succ n ih =>
    unfold fillPlaces
    split
    · rfl
    · split
      · rfl
      · rw [ih, activate_mem]
@[simp] theorem settleQuad_mem (s : State) (c q : Nat) : (settleQuad s c q).mem = s.mem := by
  unfold settleQuad
  split <;> simp
@[simp] theorem settleSchedule_mem (s : State) : (settleSchedule s).mem = s.mem := by
  unfold settleSchedule
  refine (foldl_mem (fun t c => foldl_mem (fun t q => settleQuad_mem t c q) _ t) _ _).trans ((noteRoom_mem _).trans (foldl_mem (fun t g => ?_) _ s))
  split <;> simp
@[simp] theorem restartRuns_mem (s : State) : (restartRuns s).mem = s.mem := by
  refine eachLane_mem ?_ s _
  exact fun _ _ => rfl

end Sys2Proof.Machine
end

section
/-! SUPPORT. The canonical form of memory is kept by what words do: to their lanes, to nodes, queues and registers. -/

namespace Sys2Proof.Machine

theorem eachLane_inv {f : State → Nat → State} (hf : ∀ s, s.MemInv → ∀ l, (f s l).MemInv) {s : State} (h : s.MemInv) (ls : List Nat) : (eachLane f s ls).MemInv :=
  eachLane_keeps (p := State.MemInv) (fun _ l ht => hf _ ht l) s ls h

theorem foldl_inv {β : Type} {f : State → β → State} (hf : ∀ s, s.MemInv → ∀ x, (f s x).MemInv) {s : State} (h : s.MemInv) (xs : List β) : (xs.foldl f s).MemInv :=
  foldl_keeps (p := State.MemInv) (fun _ x ht => hf _ ht x) xs s h

/-- What every branch keeps, a choice keeps. -/
theorem ite_inv {c : Prop} [Decidable c] {s t : State} (hs : s.MemInv) (ht : t.MemInv) : (if c then s else t).MemInv := by
  split
  · exact hs
  · exact ht

/-! ### Queues, fences, loads -/

theorem leaveThrough_inv {s : State} (h : s.MemInv) (g : Nat) (f : QEntry → Bool) : (leaveThrough s g f).MemInv := leaveN_inv _ h g
theorem settleUnits_inv {s : State} (h : s.MemInv) (g off : Nat) (us : List Nat) : (settleUnits s g off us).MemInv := leaveThrough_inv h _ _
theorem fenceGroup_inv {s : State} (h : s.MemInv) (kind scope : Nat) : (fenceGroup s kind scope).MemInv := by
  have h1 : (if kind = 0 then performAtomics s else releaseGroup s s.issue.group scope).MemInv := ite_inv (leaveThrough_inv h _ _) (releaseGroup_inv h _ _)
  exact ite_inv h1 (h1.of_mem (acquire_mem _ _ _))
theorem ldgLane_inv (s0 : State) (n : Bool) (d a : Code) (rt : BitVec 2) (sz : BitVec 3) (off : BitVec 5) {s : State} (h : s.MemInv) (l : Nat) :
    (ldgLane s0 n d a rt sz off s l).MemInv := by
  have ht (va : DWord) : (noteTrans s l va).MemInv := h.of_mem (noteTrans_mem _ _ _)
  unfold ldgLane
  simp only
  split
  · exact ((settleLoad_inv (ht _) _ _ _).of_mem (noteLoad_mem _ _ _ _ _ _)).of_mem (beginLoad_mem _ _)
  · exact (drainQueue_inv (ht _) _).of_mem (beginLoad_mem _ _)
  · exact h
theorem ldsLane_inv (n : Bool) (d a : Code) (sz : BitVec 3) (off : BitVec 5) {s : State} (h : s.MemInv) (l : Nat) : (ldsLane n d a sz off s l).MemInv :=
  returnLoad_inv ((settleLoad_inv h _ _ _).of_mem (beginLoad_mem _ _)) _
theorem tloadLane_inv (a : Code) (k : BitVec 4) {s : State} (h : s.MemInv) (l : Nat) : (tloadLane a k s l).MemInv :=
  ((settleLoad_inv h _ _ _).of_mem (notePoison_mem _ _ _ _ _ _ _)).of_mem (State.modTeam_mem _ _ _)

/-! ### Records of malformed entries, pins, bindings -/

theorem prefLane_inv (a : Code) (x : BitVec 1) {s : State} (h : s.MemInv) (l : Nat) : (prefLane a x s l).MemInv := by
  unfold prefLane
  simp only
  split
  · exact ite_inv ((h.of_mem (noteTrans_mem _ _ _)).of_mem (noteLoad_mem _ _ _ _ _ _)) h
  · exact logWalk_inv h _ _ _
theorem pinLines_inv (core ctx n : Nat) {s : State} (h : s.MemInv) (va : DWord) : (pinLines core ctx n s va).1.MemInv := by
  induction n generalizing s va with
  | zero => exact h
  | succ n ih =>
    unfold pinLines
    refine ih ?_ _
    split
    · exact ite_inv h h
    · exact logWalk_inv h _ _ _
theorem pinLane_inv (d a : Code) (x : BitVec 6) {s : State} (h : s.MemInv) (l : Nat) : (pinLane d a x s l).MemInv := (pinLines_inv _ _ _ h _).of_mem (State.put_mem _ _ _ _ _ _)
theorem unpinLines_inv (core ctx n : Nat) {s : State} (h : s.MemInv) (va : DWord) : (unpinLines core ctx n s va).MemInv := by
  induction n generalizing s va with
  | zero => exact h
  | succ n ih =>
    unfold unpinLines
    refine ih ?_ _
    split
    · exact h
    · exact logWalk_inv h _ _ _
theorem unpinLane_inv (a : Code) (x : BitVec 6) {s : State} (h : s.MemInv) (l : Nat) : (unpinLane a x s l).MemInv := unpinLines_inv _ _ _ h _
theorem logUnits_inv {s : State} (h : s.MemInv) (core ctx va n : Nat) : (logUnits s core ctx va n).MemInv := logEntry_inv h _ _ _
theorem spmapLane_inv (d a : Code) {s : State} (h : s.MemInv) (l : Nat) : (spmapLane d a s l).MemInv := by
  have hp {t u : State} (ht : t.MemInv) (e : u.mem = t.mem) (v : Word) : (u.put .m l false d v).MemInv := ht.of_mem ((State.put_mem _ _ _ _ _ _).trans e)
  have hs (o : Option (List Nat)) (off : Nat) : (match o with
    | some us => settleUnits s (grpOf l) off us
    | none => s).MemInv := by
    cases o with
    | none => exact h
    | some us => exact settleUnits_inv h _ _ _
  unfold spmapLane
  simp only
  split
  · exact hp (hs _ _) (makeBind_mem _ _ _ _ _ _ _) _
  · exact hp (ite_inv (logUnits_inv (hs _ _) _ _ _ _) (hs _ _)) rfl _
theorem mapLane_inv {act : State → Bind → State} (hact : ∀ {s : State}, s.MemInv → ∀ b, (act s b).MemInv) (d : Code) {s : State} (h : s.MemInv) (l : Nat) : (mapLane act d s l).MemInv := by
  unfold mapLane
  split
  · exact (hact (settleUnits_inv h _ _ _) _).of_mem (State.put_mem _ _ _ _ _ _)
  · exact h.of_mem (State.put_mem _ _ _ _ _ _)

/-! ### Queues of the device and the dependence graph -/

theorem deviceSees_inv (u : UnitId) {s : State} (h : s.MemInv) (ctx : Nat) (va : DWord) (n : Nat) : (deviceSees u s ctx va n).MemInv := by
  unfold deviceSees
  split
  · exact h.of_mem (noteHomeReads_mem _ _ _)
  · exact logDevice_inv h _ _ _
theorem deviceReads_inv (u : UnitId) {s : State} (h : s.MemInv) (ctx : Nat) (va : DWord) (n : Nat) : (deviceReads u s ctx va n).MemInv :=
  foldl_inv (fun _ ht p => deviceSees_inv u ht ctx (dw p.1) p.2) h _
theorem appendSlot_inv {s : State} (h : s.MemInv) (q : Nat) (f : Feed) (ctx : Nat) (bs : List Byte) (n : Option (Nat × DWord)) : (appendSlot s q f ctx bs n).1.MemInv := by
  have hh {t : State} (ht : t.MemInv) (fs : SMap (Nat × DWord)) (ks : List Nat) (k : Nat) : (setHead { t with feeds := fs, systemFeed := ks } q k).MemInv :=
    State.MemInv.of_mem ht (setHead_mem { t with feeds := fs, systemFeed := ks } q k)
  unfold appendSlot
  simp only
  split
  · exact h
  · refine hh ?_ _ _ _
    exact deviceWrite_inv h _ _ _ _
theorem noteVirt_inv {s : State} (h : s.MemInv) (pl : Places) (home : DWord → Bool) (die : Nat) (ps : List (Nat × Nat)) : (noteVirt pl home die s ps).MemInv :=
  h.of_mem (noteVirt_mem _ _ _ _ _)
theorem launchLane_inv (d a : Code) {s : State} (h : s.MemInv) (l : Nat) : (launchLane d a s l).MemInv := by
  unfold launchLane
  refine State.MemInv.of_mem (appendSlot_inv ?_ _ _ _ _ _) (State.put_mem _ _ _ _ _ _)
  split
  · exact (noteVirt_inv h _ _ _ _).of_mem (pendFault_mem _ _ _)
  · exact noteVirt_inv h _ _ _ _
theorem setStatus_inv (die : Nat) {s : State} (h : s.MemInv) (ctx : Nat) (a : DWord) (st : Nat) : (setStatus die s ctx a st).MemInv := deviceWrite_inv h _ _ _ _
theorem failNode_inv {s : State} (h : s.MemInv) (n : Node) (st : Nat) : (failNode s n st).MemInv :=
  ((setStatus_inv n.die h n.ctx n.addr st).of_mem (State.dropNode_mem _ n)).of_mem (addCompletion_mem _ _ _ _ _ _)
theorem failSuccessor_inv {s : State} (h : s.MemInv) (n : Node) (a : DWord) : (failSuccessor s n a).MemInv := by
  unfold failSuccessor
  split
  · exact failNode_inv h _ _
  · exact (setStatus_inv _ h _ _ _).of_mem (addCompletion_mem _ _ _ _ _ _)
/-- The node's record is written and the node kept. -/
theorem startNode_inv {s : State} (h : s.MemInv) (ctx die q : Nat) (w : Word) (a : DWord) (root : Bool) : (startNode s ctx die q w a root).MemInv := by
  have hadd {t : State} (ht : t.MemInv) (n : Node) : { (setStatus die t ctx a 1) with nodes := t.nodes ++ [n] }.MemInv := setStatus_inv die ht ctx a 1
  unfold startNode
  simp only
  split
  · exact ite_inv ((logDevice_inv h _ _ _).of_mem (addCompletion_mem _ _ _ _ _ _)) (logDevice_inv h _ _ _)
  · have hs := deviceSees_inv (walkerUnit die) (h.of_mem (walkerAcquire_mem s)) ctx a 64
    generalize deviceSees (walkerUnit die) (walkerAcquire s) ctx a 64 = t at hs ⊢
    split
    · exact hadd hs _
    · split
      · split
        · exact (hadd (deviceReads_inv _ hs _ _ _) _).of_mem (nodeCopy_mem _ _ _ _ _)
        · exact hadd (deviceReads_inv _ hs _ _ _) _
      · split
        · exact hadd (appendSlot_inv (deviceReads_inv _ hs _ _ _) _ _ _ _ _) _
        · exact hadd hs _
      · exact hadd (deviceWrite_inv hs _ _ _ _) _
      · exact hadd hs _
      · exact hadd hs _
theorem lowerCount_inv (n : Node) {s : State} (h : s.MemInv) (a : DWord) : (lowerCount n s a).MemInv := by
  unfold lowerCount
  split
  · exact logDevice_inv h _ _ _
  · simp only
    split
    · exact failSuccessor_inv h _ _
    · exact ite_inv (startNode_inv (deviceWrite_inv h _ _ _ _) _ _ _ _ _ _) (deviceWrite_inv h _ _ _ _)
theorem lowerCounts_inv (n : Node) {s : State} (h : s.MemInv) (as : List DWord) : (lowerCounts n s as).MemInv := by
  induction as generalizing s with
  | nil => exact h
  | cons a as ih => exact ih (lowerCount_inv n h a)
theorem finishNode_inv {s : State} (h : s.MemInv) (n : Node) : (finishNode s n).MemInv := by
  have h1 := (setStatus_inv n.die (h.of_mem (walkerRelease_mem s)) n.ctx n.addr 2).of_mem (State.dropNode_mem _ n)
  exact lowerCounts_inv n (deviceReads_inv _ (ite_inv (h1.of_mem (addCompletion_mem _ _ _ _ _ _)) h1) _ _ _) _
theorem signalNode_inv {s : State} (h : s.MemInv) (ctx : Nat) (a : DWord) (pa : Nat) : (signalNode s ctx a pa).1.MemInv := by
  unfold signalNode
  split
  · exact h
  · split
    · exact h
    · simp only
      split
      · exact finishNode_inv h _
      · exact h
    · exact h
theorem signalLane_inv (d a : Code) {s : State} (h : s.MemInv) (l : Nat) : (signalLane d a s l).MemInv := by
  unfold signalLane
  simp only
  split
  · exact (signalNode_inv (h.of_mem (noteHome_mem _ _)) _ _ _).of_mem (State.put_mem _ _ _ _ _ _)
  · exact h
  · exact h
theorem endNode_inv {s : State} (h : s.MemInv) (ctx : Nat) (a : DWord) : (endNode s ctx a).MemInv := by
  unfold endNode
  split
  · exact h
  · split
    · exact h
    · exact ite_inv (finishNode_inv h _) (failNode_inv h _ _)

/-! ### Block tables -/

theorem bindTable_inv {s : State} (h : s.MemInv) (tid k : Nat) (a : DWord) (w : Word) : (bindTable s tid k a w).1.MemInv := by
  unfold bindTable
  simp only
  split
  · exact h
  · split
    · next pa _ =>
      have h0 : (noteHome s (.phys pa)).MemInv := h.of_mem (noteHome_mem _ _)
      split
      · exact h0
      · split
        · exact h0
        · split
          · exact h0
          · refine State.MemInv.of_mem (writeNat_inv ?_ _ _ _) (State.modTeam_mem _ _ _)
            split
            · exact writeNat_inv h0 _ _ _
            · exact h0
    · exact h
theorem retireTable_inv {s : State} (h : s.MemInv) (tid k : Nat) : (retireTable s tid k).1.MemInv := by
  unfold retireTable
  split
  · exact retireSlot_inv h _ _
  · exact h

/-! ### System registers, system calls, event rings -/

theorem movsysLane_inv (d a : Code) {s : State} (h : s.MemInv) (l : Nat) : (movsysLane d a s l).MemInv :=
  fenceGroup_inv ((fenceGroup_inv h 2 3).of_mem (State.put64_mem _ _ _ _ _ _)) 2 3
theorem appendRegister_inv {s : State} (h : s.MemInv) (q : Nat) (r : DWord) : (appendRegister s q r).MemInv :=
  appendSlot_inv (deviceReads_inv ⟨6, 0⟩ (h.of_mem (farRelease_mem s)) _ _ _) _ _ _ _ _
theorem trapTogether_inv (n : Nat) {s : State} (h : s.MemInv) (fs : List (Nat × TrapInfo)) : (trapTogether n s fs).MemInv := by
  induction n generalizing s fs with
  | zero => exact h
  | succ n ih =>
    cases fs with
    | nil => exact h
    | cons f fs => exact ih (takeTrap_inv h _ _) _
theorem answerReplay_inv {s : State} (h : s.MemInv) (die : Nat) (v : DWord) : (answerReplay s die v).MemInv := by
  have hw (ls : List Nat) : (eachLane (fun s l => s.modThread l Thread.wake) s ls).MemInv := eachLane_inv (fun _ ht l => ht.of_mem (State.modThread_mem _ l _)) h ls
  have hf (es : List (Nat × MEntry)) {t : State} (ht : t.MemInv) : (es.foldl (fun s e => s.modEntry e.1 e.2.id (fun e => { e with held := none })) t).MemInv := by
    refine foldl_inv (fun s hs e => ?_) ht es
    exact hs.of_mem (State.modEntry_mem s e.1 e.2.id _)
  unfold answerReplay
  simp only
  split
  · refine hf _ ?_
    exact hw _
  · refine foldl_inv (fun _ hs e => kill_inv (hs.of_mem (dropReplay_mem _ _ _)) _ _) ?_ _
    refine foldl_inv (fun _ hs i => hs.of_mem (failRequest_mem _ i)) ?_ _
    refine trapTogether_inv _ (hf _ ?_) _
    exact hw _
theorem writeReg_inv {s : State} (h : s.MemInv) (n : Nat) (v : DWord) : (writeReg s n v).MemInv := by
  have hp : (plainWrite s n v).MemInv := h.of_mem (plainWrite_mem _ _ _)
  unfold writeReg
  simp only
  refine ite_inv (h.of_mem (writeContext_mem _ _ _)) (ite_inv (h.of_mem (writeQueue_mem _ _ _ _)) (ite_inv (appendRegister_inv h _ _) (ite_inv ?_ (ite_inv (h.of_mem (writeEvictreq_mem _ _)) hp))))
  split
  · exact answerReplay_inv h _ _
  · exact flushReports_inv hp _
  · exact flushReports_inv hp _
  · exact h.of_mem (placeDgev_mem _ _ _)
  · exact hp
theorem movsysWLane_inv (d a : Code) {s : State} (h : s.MemInv) (l : Nat) : (movsysWLane d a s l).MemInv := fenceGroup_inv (writeReg_inv (fenceGroup_inv h 2 3) _ _) 2 3
theorem syscallTurn_inv {s : State} (h : s.MemInv) (tid : Nat) : (syscallTurn s tid).MemInv := by
  have hb (f : Thread → Thread) (g : Nat) (fs : List (Nat × TrapInfo)) : (takeTrap (s.modThread tid f) g fs).MemInv := takeTrap_inv (h.of_mem (State.modThread_mem _ _ _)) _ _
  unfold syscallTurn
  split
  · split
    · exact h
    · simp only
      split
      · exact hb _ _ _
      · exact hb _ _ _
      · split
        · exact h.of_mem (noteHomeReads_mem _ _ _)
        · split
          · exact hb _ _ _
          · exact deviceOut_inv (deviceOut_inv (deviceOut_inv h _ _) _ _) _ _
  · exact h
theorem syscallLanes_inv (d a : Code) (x : BitVec 6) {s : State} (h : s.MemInv) (ls : List Nat) : (syscallLanes d a x s ls).MemInv :=
  eachLane_inv (fun _ => syscallTurn_inv) (eachLane_inv (fun _ ht _ => ht.of_mem (State.modThread_mem _ _ _)) ((releaseGroup_inv h _ _).of_mem (invalidate_mem _ ls)) ls) ls
theorem syscallWake_inv {s : State} (h : s.MemInv) (tid : Nat) : (syscallWake s tid).MemInv := by
  unfold syscallWake
  split
  · split
    · exact logWalk_inv h _ _ _
    · exact ite_inv (h.of_mem (by simp)) (h.of_mem (noteHomeReads_mem _ _ _))
  · exact syscallTurn_inv h _
theorem waitevTurn_inv {s : State} (h : s.MemInv) (tid : Nat) : (waitevTurn s tid).MemInv := by
  unfold waitevTurn
  split
  · split
    · exact h
    · split
      · exact logWalk_inv h _ _ _
      · exact ite_inv (h.of_mem (noteHomeReads_mem _ _ _)) (h.of_mem (by simp))
  · exact h
theorem waitevLanes_inv (d a : Code) {s : State} (h : s.MemInv) (ls : List Nat) : (waitevLanes d a s ls).MemInv :=
  eachLane_inv (fun _ => waitevTurn_inv) (eachLane_inv (fun _ ht _ => ht.of_mem (by simp)) (h.of_mem (invalidate_mem s ls)) ls) ls
theorem drainDevice_inv {s : State} (h : s.MemInv) : (drainDevice s).MemInv := finishViews_inv (applyContributions_inv (eachLane_inv (fun _ => drainQueue_inv) h _) _) _
theorem tlbinvLane_inv (d a : Code) {s : State} (h : s.MemInv) (l : Nat) : (tlbinvLane d a s l).MemInv := (drainDevice_inv (releaseGroup_inv h _ _)).of_mem (dropAll_mem _ _)

/-! ### Proof runs -/

theorem retireAcc_inv (u : UnitId) (lost : Bool) {s : State} (h : s.MemInv) (line : Nat) : (retireAcc u lost s line).MemInv := by
  unfold retireAcc
  split
  · exact accEvict_inv h _
  · exact accEvict_inv (logError_inv (s := { s with acc := mmod s.acc line (fun l => { l with poisoned := true }) }) h _ _ _ _ _) _
theorem retireSlice_inv (s0 : State) {s : State} (h : s.MemInv) (die k : Nat) : (retireSlice s0 s die k).MemInv := by
  unfold retireSlice
  refine State.MemInv.of_mem (foldl_inv (fun _ ht line => retireAcc_inv _ _ ht line) ?_ _) (capPins_mem _)
  exact State.MemInv.of_mem (s := s) h (poisonGranules_mem _ _)
theorem retireUnit_inv {s : State} (h : s.MemInv) (u : UnitId) : (retireUnit s u).MemInv := by
  have h1 := logError_inv (h.of_mem (clearUnit_mem s u)) 7 u 0 none 0
  unfold retireUnit
  simp only
  split
  · exact eachLane_inv (fun _ ht _ => kill_inv ht _ _) h1 _
  · exact retireSlice_inv s h1 _ _
  · exact h1
  · exact h1
theorem endProof_inv {s : State} (h : s.MemInv) (u : UnitId) (pass : Bool) : (endProof s u pass).MemInv := by
  have h1 : { s with proofs := s.proofs.filter (fun v => decide (v ≠ u)) }.MemInv := h
  unfold endProof
  exact ite_inv (logError_inv h1 _ _ _ _ _) (retireUnit_inv h1 u)
theorem proofLane_inv (d a : Code) {s : State} (h : s.MemInv) (l : Nat) : (proofLane d a s l).MemInv := by
  unfold proofLane
  simp only
  refine ite_inv h (ite_inv h ?_)
  exact State.MemInv.of_mem (endProof_inv (s := { s with freeCount := s.freeCount + 1 }) h _ _) (State.put_mem _ _ _ _ _ _)

/-! ### The issue of a word -/

theorem stopLanes_inv {s : State} (h : s.MemInv) (vs : List (Nat × Verdict)) : (stopLanes s vs).MemInv := by
  refine takeTrap_inv (foldl_inv (fun _ ht p => ?_) h vs) _ _
  split
  · exact holdThread_inv ht _ _ _ _ _
  · exact ht
theorem stopFetch_inv {s : State} (h : s.MemInv) (g : Nat) (vs : List (Nat × Verdict)) : (stopFetch s g vs).MemInv := by
  refine takeTrap_inv (foldl_inv (fun _ ht p => ?_) h vs) _ _
  split
  · exact holdThread_inv ht _ _ _ _ _
  · exact ht
theorem stopChain_inv {s : State} (h : s.MemInv) (g : Nat) (ls : List Nat) (fetch access : List (Nat × Verdict)) : (stopChain s g ls fetch access).MemInv := by
  refine takeTrap_inv (foldl_inv (fun _ ht l => ?_) h ls) _ _
  split
  · exact holdThread_inv ht _ _ _ _ _
  · exact holdThread_inv ht _ _ _ _ _
  · exact ht
theorem trapLanes_inv (v : State → Nat → Verdict) {s : State} (h : s.MemInv) (ls : List Nat) : (trapLanes v s ls).MemInv := stopLanes_inv h _

/-- A word keeps the form if its effect on the lanes that pass does. -/
theorem issueWord_inv (i : Instr) {eff : State → List Nat → State} (heff : ∀ {s : State}, s.MemInv → ∀ ls, (eff s ls).MemInv) {s : State} (h : s.MemInv) : (issueWord i s eff).MemInv :=
  stopLanes_inv (ite_inv h (heff h _)) _

end Sys2Proof.Machine
end

section
/-! SUPPORT. The canonical form of memory is kept by the matrix engine: its entries, drains, rows and adapters. -/

namespace Sys2Proof.Machine

/-- What every branch keeps, a choice of results keeps. -/
theorem ite_fst_inv {α : Type} {c : Prop} [Decidable c] {x y : State × α} (hx : x.1.MemInv) (hy : y.1.MemInv) : (if c then x else y).1.MemInv := by
  split
  · exact hx
  · exact hy

/-! ### Entries of the matrix queue -/

theorem settleBank_inv {s : State} (h : s.MemInv) (e : MEntry) (off n : Nat) : (settleBank s e off n).MemInv := leaveN_inv _ h _
theorem entryAcquire_inv {s : State} (h : s.MemInv) (e : MEntry) (scope : Nat) : (entryAcquire s e scope).MemInv := (leaveN_inv _ h _).of_mem (engineAcquire_mem _ _ _)
theorem startOp_inv {s : State} (h : s.MemInv) (e : MEntry) : (startOp s e).MemInv := by
  unfold startOp
  simp only
  split
  · exact h
  · exact ite_inv (entryAcquire_inv h _ _) h
  · exact h
  · exact ite_inv (entryAcquire_inv h _ _) h
  · exact h
  · exact h
  · exact h
theorem startEntry_inv {s : State} (h : s.MemInv) (id : Nat) : (startEntry s id).MemInv := by
  unfold startEntry
  split
  · exact ite_inv h (startOp_inv (h.of_mem (State.modEntry_mem _ _ _ _)) _)
  · exact h
theorem endLoad_inv {s : State} (h : s.MemInv) (e : MEntry) (tile k n : Nat) (tag : Word) : (endLoad s e tile k n tag).MemInv := by
  unfold endLoad
  exact ((settleBank_inv h e tile _).of_mem (reportBank_mem _ _ _ _)).of_mem (State.modTeam_mem _ _ _)

/-- A message acts at its home or is logged there. -/
theorem sendMessage_inv {act : State → State} (hact : ∀ s, s.MemInv → (act s).MemInv) {s : State} (h : s.MemInv) (e : MEntry) (pa : Nat) : (sendMessage s e pa act).MemInv :=
  ite_inv (logStale_inv h _ _) (hact s h)
theorem armLine_inv (e : MEntry) (ctl : DWord) {s : State} (h : s.MemInv) (x : DWord × Nat × Nat) : (armLine e ctl s x).MemInv := by
  refine sendMessage_inv (fun t ht => ?_) h _ _
  exact (ht.of_mem (setAcc_mem _ _ _)).of_mem (pinRun_mem _ _ _)
theorem clearLine_inv (e : MEntry) {s : State} (h : s.MemInv) (x : DWord × Nat × Nat) : (clearLine e s x).MemInv := by
  refine sendMessage_inv (fun t ht => ?_) h _ _
  exact (ht.of_mem (setAcc_mem _ _ _)).of_mem (unpinRun_mem _ _ _)
theorem armRun_inv {s : State} (h : s.MemInv) (e : MEntry) (ctl : DWord) (run : AccRun) : (armRun s e ctl run).MemInv := foldl_inv (fun _ => armLine_inv e ctl) h _
theorem clearRun_inv {s : State} (h : s.MemInv) (e : MEntry) (run : AccRun) : (clearRun s e run).MemInv := foldl_inv (fun _ => clearLine_inv e) h _

/-! ### Drains -/

theorem drainLine_inv {s : State} (h : s.MemInv) (u : Nat) (w : Word) (a : DWord) (pa r : Nat) (o : Drained) : (drainLine s u w a pa r o).1.MemInv := by
  have h2 : (if (accLine s pa r).poisoned then logError (setAcc s pa (accLine s pa r)) 9 ⟨1, (s.team u).coreId⟩ pa (some (s.team u).ctx) (s.team u).teamIx
      else setAcc s pa (accLine s pa r)).MemInv := ite_inv (logError_inv (h.of_mem (setAcc_mem _ _ _)) _ _ _ _ _) (h.of_mem (setAcc_mem _ _ _))
  exact ite_fst_inv h2 (ite_fst_inv h2 h2)
theorem drainLines_inv (u : Nat) (w : Word) {s : State} (h : s.MemInv) (o : Drained) (run : AccRun) : (drainLines u w s o run).1.MemInv := by
  induction run generalizing s o with
  | nil => exact h
  | cons x run ih => exact ih (drainLine_inv h _ _ _ _ _ _) _
theorem drainSend_inv {act : State → State} (hact : ∀ s, s.MemInv → (act s).MemInv) {s : State} (h : s.MemInv) (e : MEntry) (d : DrainDesc) (a : Nat) : (drainSend s e d a act).MemInv :=
  ite_inv (hact s h) (sendMessage_inv hact h _ _)
theorem drainBytes_inv {s : State} (h : s.MemInv) (u : Nat) (d : DrainDesc) (a : Nat) (bs : List Byte) (bad : Bool) : (drainBytes s u d a bs bad).MemInv := by
  unfold drainBytes
  split
  · next l _ =>
    have h1 : (if drainHome d a then noteHome s l else noteWrite s (s.team u).die l).MemInv := ite_inv (h.of_mem (noteHome_mem _ _)) (h.of_mem (noteWrite_mem _ _ _))
    exact ite_inv (setPoison_inv h1 _ _) (writeBeat_inv h1 _ _ _)
  · exact h
theorem drainGranule_inv (u : Nat) (d : DrainDesc) (g : Nat) {s : State} (h : s.MemInv) (segs : List Seg) : (drainGranule u d g s segs).MemInv := by
  refine foldl_inv (fun t ht x => ?_) h segs
  exact ite_inv (drainBytes_inv ht _ _ _ _ _) ht
theorem endDrain_inv {s : State} (h : s.MemInv) (e : MEntry) (run : AccRun) (d : DrainDesc) : (endDrain s e run d).MemInv := by
  have hgran (segs : List Seg) (gs : List Nat) {t : State} (ht : t.MemInv) :
      (gs.foldl (fun s g => drainSend s e d (max d.dest.toNat (32 * g)) (fun s => drainGranule e.team d g s segs)) t).MemInv := by
    refine foldl_inv (fun u hu g => ?_) ht gs
    exact drainSend_inv (fun _ hv => drainGranule_inv _ _ _ hv _) hu _ _ _
  have hsend {t : State} (ht : t.MemInv) (bs : List Byte) : (drainSend t e d d.counter.toNat (fun s => drainBytes s e.team d d.counter.toNat bs false)).MemInv :=
    drainSend_inv (fun _ hv => drainBytes_inv hv _ _ _ _ _) ht _ _ _
  have hlast {t : State} (ht : t.MemInv) (a : Option DWord) : (match a with
      | some a => entryFault t e 0x14 a .global
      | none => t).MemInv := by cases a <;> exact ht
  have hpriv {t : State} (ht : t.MemInv) (c : Bool) (core scope : Nat) : (if c then endPrivatised t core scope else t).MemInv := ite_inv (ht.of_mem (endPrivatised_mem _ _ _)) ht
  exact hlast (hpriv (raiseMatrix_inv (hsend (hgran _ _ (drainLines_inv _ _ h _ _)) _) _ _ _ _) _ _ _) _
theorem endEntry_inv {s : State} (h : s.MemInv) (e : MEntry) : (endEntry s e).MemInv := by
  unfold endEntry
  split
  · exact endLoad_inv h _ _ _ _ _
  · exact armRun_inv h _ _ _
  · exact clearRun_inv h _ _
  · exact endDrain_inv h _ _ _
  · next d _ _ =>
    have h0 : (if d.flags.testBit 1 then endPrivatised s (s.team e.team).coreId (bits d.flags 4 2) else s).MemInv := ite_inv (h.of_mem (endPrivatised_mem _ _ _)) h
    simp only
    split
    · exact h0
    · exact ite_inv (h0.of_mem (countMember_mem _ _ _ _)) (h0.of_mem (entryFault_mem _ _ _ _ _))
  · exact h
  · exact h
theorem completeEntry_inv {s : State} (h : s.MemInv) (id : Nat) : (completeEntry s id).MemInv := by
  unfold completeEntry
  split
  · exact h
  · exact ite_inv h ((endEntry_inv h _).of_mem (State.modTeam_mem _ _ _))

/-! ### Parts of entries -/

theorem readBank_inv {s : State} (h : s.MemInv) (e : MEntry) (off n i : Nat) : (readBank s e off n i).MemInv := ite_inv ((settleBank_inv h _ _ _).of_mem (State.modEntry_mem _ _ _ _)) h
theorem drainNext_inv {s : State} (h : s.MemInv) (e : MEntry) (run : AccRun) (d : DrainDesc) : (drainNext s e run d).MemInv := by
  unfold drainNext
  split
  · exact h
  · exact (drainLine_inv h _ _ _ _ _ _).of_mem (State.modEntry_mem _ _ _ _)
theorem drainBeat_inv {s : State} (h : s.MemInv) (e : MEntry) (run : AccRun) (d : DrainDesc) (g : Nat) : (drainBeat s e run d g).MemInv := by
  unfold drainBeat
  simp only
  refine ite_inv h (State.MemInv.of_mem ?_ (State.modEntry_mem _ _ _ _))
  exact drainSend_inv (fun _ ht => drainGranule_inv _ _ _ ht _) h _ _ _
theorem entryPart_inv {s : State} (h : s.MemInv) (id part : Nat) : (entryPart s id part).MemInv := by
  unfold entryPart
  split
  · exact h
  · refine ite_inv h ?_
    split
    · exact readBank_inv h _ _ _ _
    · refine ite_inv h (ite_inv ?_ (readBank_inv h _ _ _ _))
      exact (settleBank_inv h _ _ _).of_mem (State.modEntry_mem _ _ _ _)
    · split
      · exact (armLine_inv _ _ h _).of_mem (State.modEntry_mem _ _ _ _)
      · exact h
    · split
      · exact (clearLine_inv _ h _).of_mem (State.modEntry_mem _ _ _ _)
      · exact h
    · exact ite_inv (drainNext_inv h _ _ _) (drainBeat_inv h _ _ _ _)
    · exact h

/-! ### Rows and adapters -/

theorem settleRow_inv {s : State} (h : s.MemInv) (e : MEntry) (d : StreamDesc) (n : Nat) : (settleRow s e d n).MemInv := by
  have h1 := settleBank_inv h e (d.act + e.row * d.stride) n
  unfold settleRow
  simp only
  split
  · exact settleBank_inv h1 _ _ _
  · exact h1
theorem adapterFault_inv {s : State} (h : s.MemInv) (u : Nat) (q : Replay) (f : TrapInfo) : (adapterFault s u q f).MemInv := (logMet_inv h _).of_mem (pendFault_mem _ _ _)
theorem adapterReport_inv {s : State} (h : s.MemInv) (u : Nat) (q : Replay) (c : Nat) (a : DWord) : (adapterReport s u q c a).MemInv := adapterFault_inv h _ _ _
theorem adapterPoison_inv {s : State} (h : s.MemInv) (u : Nat) (q : Replay) (a : Option Nat) : (adapterPoison s u q a).MemInv := by
  cases a with
  | none => exact h
  | some a => exact adapterFault_inv h _ _ _
theorem computePart_inv {s : State} (h : s.MemInv) (u : Nat) (q : Replay) (x : AdapterRec) (sl : List Slice) : (computePart s u q x sl).MemInv :=
  State.MemInv.of_mem (State.MemInv.of_mem (raiseMatrix_inv h _ _ _ _) (State.modTeam_mem _ _ _)) (sendRow_mem _ _ _ _ _ _ _ _ _ _)
theorem underFirst_inv {α : Type} {f : State → State × α} (hf : ∀ s, s.MemInv → (f s).1.MemInv) {s : State} (h : s.MemInv) (g k : Nat) : (underFirst s g k f).1.MemInv :=
  (hf _ (h.of_mem (State.modGroup_mem _ _ _))).of_mem (State.modGroup_mem _ _ _)
theorem burinView_inv {s : State} (h : s.MemInv) (u a n : Nat) : (burinView s u a n).1.MemInv := by
  unfold burinView
  split
  · exact h
  · exact viewLoad_inv (h.of_mem (fillView_mem _ _ _ _)) _ _ _
  · exact h
theorem burinPiece_inv {s : State} (h : s.MemInv) (u a n : Nat) : (burinPiece s u a n).1.MemInv := by
  unfold burinPiece
  simp only
  split
  · exact burinView_inv h _ _ _
  · split
    · exact h
    · exact noteVirt_inv (ownGranules_inv _ _ h _ _) _ _ _ _
theorem burinPieces_inv {s : State} (h : s.MemInv) (u : Nat) (ps : List (Nat × Nat)) : (burinPieces s u ps).1.MemInv := by
  induction ps generalizing s with
  | nil => exact h
  | cons p ps ih =>
    obtain ⟨a, n⟩ := p
    have h1 := burinPiece_inv h u a n
    unfold burinPieces
    split
    · next s1 bs bad e =>
      have h2 := ih (show s1.MemInv by rw [e] at h1; exact h1)
      split
      · next s2 cs worse e2 =>
        rw [e2] at h2
        exact h2
      · exact h
    · exact h
theorem burinRead_inv {s : State} (h : s.MemInv) (u id : Nat) (ps : List (Nat × Nat)) : (burinRead s u id ps).1.MemInv := by
  unfold burinRead
  split
  · exact underFirst_inv (fun _ ht => burinPieces_inv ht _ _) h _ _
  · exact burinPieces_inv h _ _

/-- What has come of a row leaves memory in its canonical form. -/
def Part.MemInv : Part → Prop
  | .done s => s.MemInv
  | .wait s _ => s.MemInv

theorem tryPart_inv {s : State} (h : s.MemInv) (u : Nat) (q : Replay) : (tryPart s u q).MemInv := by
  have hrest {t : State} (ht : t.MemInv) (raw : List Byte) : (match adapterBad t u q raw with
      | some (c, a) => Part.done (adapterReport t u q c a)
      | none => if (haveSlices (t.team u) q ((readAdapter raw).sliceCount q.k)).all Option.isSome
        then .done (computePart t u q (readAdapter raw) ((haveSlices (t.team u) q ((readAdapter raw).sliceCount q.k)).filterMap id))
        else .wait t { q with desc := some raw }).MemInv := by
    split
    · exact adapterReport_inv ht _ _ _ _
    · split
      · exact computePart_inv ht _ _ _ _
      · exact ht
  unfold tryPart
  split
  · exact hrest h _
  · split
    · exact adapterReport_inv h _ _ _ _
    · have hr := burinRead_inv h u q.entry (pieces ((s.team u).adapter + dw (32 * q.id)).toNat 32)
      simp only
      split
      · exact adapterFault_inv h _ _ _
      · exact h
      · next s1 raw bad e =>
        rw [e] at hr
        exact hrest (adapterPoison_inv hr _ _ _) _
theorem tryPart_done_inv {s t : State} (h : s.MemInv) {u : Nat} {q : Replay} (e : tryPart s u q = .done t) : t.MemInv := by
  have := tryPart_inv h u q
  rwa [e] at this
theorem tryPart_wait_inv {s t : State} (h : s.MemInv) {u : Nat} {q r : Replay} (e : tryPart s u q = .wait t r) : t.MemInv := by
  have := tryPart_inv h u q
  rwa [e] at this

/-- A row that has issued: its poison reported, its events counted, its outputs sent. -/
theorem rowSent_inv {s : State} (h : s.MemInv) (e : MEntry) (d : StreamDesc) (p : Plate) (id c : Nat) (cs : List Nat) (f : MEntry → MEntry) (g : Core → Core) (acc : DWord)
    (pa r pa2 r2 : Nat) (ws : List Word) :
    (sendRow (((raiseMatrix none e.team e.word (countUnits (rowPoison s e d p) e.team true 1) cs).modEntry e.team id f).modCore c g) e.team id e.word acc pa r pa2 r2 ws).MemInv := by
  have hc : (countUnits (rowPoison s e d p) e.team true 1).MemInv := (h.of_mem (rowPoison_mem _ _ _ _)).of_mem (countUnits_mem _ _ _ _)
  exact (((raiseMatrix_inv hc _ _ _ _).of_mem (State.modEntry_mem _ _ _ _)).of_mem (State.modCore_mem _ _ _)).of_mem (sendRow_mem _ _ _ _ _ _ _ _ _ _)
theorem issueRow_inv {s : State} (h : s.MemInv) (id : Nat) : (issueRow s id).MemInv := by
  unfold issueRow
  split
  · exact h
  · split
    · simp only
      split
      · exact h
      · have hs (e : MEntry) (d : StreamDesc) (n : Nat) : (settleRow s e d n).MemInv := settleRow_inv h e d n
        split
        · exact rowSent_inv (hs _ _ _) _ _ _ _ _ _ _ _ _ _ _ _ _ _
        · split
          · next e4 => exact tryPart_done_inv (rowSent_inv (hs _ _ _) _ _ _ _ _ _ _ _ _ _ _ _ _ _) e4
          · next e4 => exact (tryPart_wait_inv (rowSent_inv (hs _ _ _) _ _ _ _ _ _ _ _ _ _ _ _ _ _) e4).of_mem (State.modTeam_mem _ _ _)
    · exact h
theorem replayRows_inv (u : Nat) {s : State} (h : s.MemInv) (qs : List Replay) : (replayRows u s qs).MemInv := by
  induction qs generalizing s with
  | nil => exact h
  | cons q qs ih =>
    unfold replayRows
    split
    · exact ih h
    · split
      · next s1 e => exact ih ((tryPart_done_inv h e).of_mem (State.modTeam_mem _ _ _))
      · next s1 r e => exact ih (tryPart_wait_inv h e)
theorem sliceArrives_inv {s : State} (h : s.MemInv) (u n : Nat) : (sliceArrives s u n).MemInv := by
  unfold sliceArrives
  simp only
  split
  · exact h
  · next q _ =>
    have hold (p : DWord) : ((reportReplay s (s.team u).die (s.team u).ctx p 1 1 0).modEntry u q.entry (fun e => { e with held := some p })).MemInv :=
      (reportReplay_inv h _ _ _ _ _ _).of_mem (State.modEntry_mem _ _ _ _)
    have drop {t : State} (ht : t.MemInv) : (t.modTeam u (fun t => { t with replays := t.replays.filter (fun r => decide (r ≠ q)) })).MemInv := ht.of_mem (State.modTeam_mem _ _ _)
    split
    · exact h
    · split
      · split
        · next s1 e => exact drop (tryPart_done_inv h e)
        · next s1 r e =>
          have h1 := tryPart_wait_inv h e
          split
          · exact h1.of_mem (State.modTeam_mem _ _ _)
          · split
            · exact hold _
            · exact h
      · split
        · exact replayRows_inv u h _
        · split
          · exact h
          · next raw _ _ i _ _ =>
            have h2 (ps rs : List (Nat × Nat)) : (burinRead (burinRead s u q.entry ps).1 u q.entry rs).1.MemInv := burinRead_inv (burinRead_inv h _ _ _) _ _ _
            split
            · exact drop (adapterFault_inv h _ _ _)
            · exact hold _
            · exact drop (adapterFault_inv h _ _ _)
            · exact hold _
            · split
              · exact h
              · exact replayRows_inv u (adapterPoison_inv ((h2 _ _).of_mem (State.modTeam_mem _ _ _)) _ _ _) _

end Sys2Proof.Machine
end

section
/-! SUPPORT. The canonical form of memory is kept by placement, by the events of teams, by moves of pages, errors and agents outside. -/

namespace Sys2Proof.Machine

/-! ### Launches and graphs -/

theorem noteRing_inv (u : UnitId) {s : State} (h : s.MemInv) (ctx : Nat) : (noteRing u s ctx).MemInv := ite_inv h (deviceSees_inv u h _ _ _)
theorem noteLaunch_inv {s : State} (h : s.MemInv) (die q key : Nat) (r : List Byte) : (noteLaunch s die q key r).MemInv := by
  unfold noteLaunch
  simp only
  refine ite_inv h ?_
  split
  · exact logDevice_inv h _ _ _
  · have h1 (p : Nat) : (noteHomeReads s (.phys p) 64).MemInv := h.of_mem (noteHomeReads_mem _ _ _)
    split
    · exact h1 _
    · exact foldl_inv (fun t ht x => ite_inv ht (logDevice_inv ht _ _ _)) (h1 _) _
    · exact noteRing_inv _ (h1 _) _
    · exact noteRing_inv _ (h1 _) _
    · exact h1 _
theorem takeLaunch_inv {s : State} (h : s.MemInv) (die q : Nat) : (takeLaunch s die q).MemInv := by
  have h1 (t : State) (ht : t.MemInv) (key : Nat) (r : List Byte) : (takeSlot (noteLaunch t die q key r) q).MemInv := (noteLaunch_inv ht die q key r).of_mem (takeSlot_mem _ _)
  have h0 := deviceSees_inv (placementUnit die) h (qOwner s q) (slotAddr s q (qTail s q)) 128
  generalize hs : deviceSees (placementUnit die) s (qOwner s q) (slotAddr s q (qTail s q)) 128 = t at h0
  unfold takeLaunch
  simp only
  rw [hs]
  split
  · exact State.MemInv.of_mem (h1 t h0 _ _) (passTurn_mem _ _ _ _)
  · exact State.MemInv.of_mem (h1 t h0 _ _) (settleTargets_mem _)
theorem takeArea_inv (die : Nat) {s : State} (h : s.MemInv) (ctx : Nat) : (takeArea die s ctx).1.MemInv := by
  unfold takeArea
  split
  · exact deviceOut_inv (deviceSees_inv _ (noteRing_inv _ h _) _ _ _) _ _
  · exact noteRing_inv _ h _
theorem startTeam_inv {s : State} (h : s.MemInv) (gid : Nat) (g : Grid) (rank die core : Nat) : (startTeam s gid g rank die core).MemInv := by
  have ha := takeArea_inv die h g.ctx
  unfold startTeam
  simp only
  refine State.MemInv.of_mem ha ((acquire_mem _ _ _).trans ((dropStale_mem _ _).trans ?_))
  split
  · exact (addThreads_mem _ _ _ _).trans (addGroups_mem _ _ _ _)
  · exact (addThreads_mem _ _ _ _).trans ((addThreads_mem _ _ _ _).trans (addGroups_mem _ _ _ _))
theorem startTeams_inv (gid : Nat) (g : Grid) (die : Nat) {s : State} (h : s.MemInv) (cs : List (Nat × Nat)) : (startTeams gid g die s cs).MemInv := by
  induction cs generalizing s with
  | nil => exact h
  | cons c cs ih => exact ih (startTeam_inv h _ _ _ _ _)
theorem startCluster_inv {s : State} (h : s.MemInv) (die gid : Nat) : (startCluster s die gid).MemInv := by
  unfold startCluster
  split
  · exact h
  · next g _ =>
    have hp : { passTurn s die g.prio g.q with freeCount := s.freeCount + 1 }.MemInv := h.of_mem (passTurn_mem s die g.prio g.q)
    split
    · exact h
    · exact State.MemInv.of_mem (startTeams_inv gid g die hp _) ((settleTargets_mem _).trans (State.modGrid_mem _ _ _))
theorem writeCompletion_inv {s : State} (h : s.MemInv) (q : Nat) : (writeCompletion s q).MemInv := by
  have hw {t : State} (ht : t.MemInv) (v : Nat) (cs : List Completion) (tk : SMap Nat) (n : Option (Nat × DWord)) (st : Nat) : (match n with
      | some n => markNode { (t.setQd q 4 v) with completions := cs, taken := tk } n.1 n.2 st
      | none => { (t.setQd q 4 v) with completions := cs, taken := tk }).MemInv := by cases n <;> exact ht
  unfold writeCompletion
  split
  · exact h
  · simp only
    split
    · exact h
    · exact hw ((deviceWrite_inv h _ _ _ _).of_mem (farRelease_mem _)) _ _ _ _ _
theorem takeGraph_inv {s : State} (h : s.MemInv) (die q : Nat) : (takeGraph s die q).MemInv := by
  have h1 := (deviceSees_inv (walkerUnit die) h (qOwner s q) (slotAddr s q (qTail s q)) 64).of_mem (takeSlot_mem _ q)
  exact ite_inv (h1.of_mem (addCompletion_mem _ _ _ _ _ _)) (startNode_inv h1 _ _ _ _ _ _)

/-! ### The ends of teams, evictions and returns -/

theorem returnArea_inv (die : Nat) {s : State} (h : s.MemInv) (ctx : Nat) (a : DWord) : (returnArea die s ctx a).MemInv := by
  unfold returnArea
  split
  · exact deviceOut_inv (deviceWrite_inv (noteRing_inv _ h _) _ _ _ _) _ _
  · exact noteRing_inv _ h _
theorem removeTeam_inv {s : State} (h : s.MemInv) (u : Nat) (k : Bool) : (removeTeam s u k).MemInv := by
  have h1 := (returnArea_inv (s.team u).die (h.of_mem (endEvictreq_mem s u 3)) (s.team u).ctx (s.team u).area).of_mem (dropStack_mem _ u)
  unfold removeTeam
  exact State.MemInv.of_mem h1 ((settleTargets_mem _).trans (endInGrid_mem _ _ _))
theorem settleTeam_inv {s : State} (h : s.MemInv) (u : Nat) : (settleTeam s u).MemInv := applyContributions_inv h _
theorem endKill_inv {s : State} (h : s.MemInv) (u : Nat) : (endKill s u).MemInv := by
  unfold endKill
  split
  · next t _ =>
    have h1 : (if t.closed then s else tryClose s u).MemInv := ite_inv h (tryClose_inv h u)
    exact ite_inv (ite_inv (removeTeam_inv (settleTeam_inv h1 _) _ _) h1) h
  · exact h
theorem retireTeam_inv {s : State} (h : s.MemInv) (u : Nat) : (retireTeam s u).MemInv := by
  have h1 := settleTeam_inv (drainTeam_inv h u) u
  have h2 := runRequests_inv h1 ((teamRequests (settleTeam (drainTeam s u) u) u).map (fun r => r.id))
  generalize hs : runRequests (settleTeam (drainTeam s u) u) ((teamRequests (settleTeam (drainTeam s u) u) u).map (fun r => r.id)) = t at h2
  have h3 := windUp_inv (endTeamBinds_inv h2 u) u
  unfold retireTeam
  simp only
  rw [hs]
  refine ite_inv h (ite_inv h1 (ite_inv h2 (ite_inv h3 (removeTeam_inv ?_ _ _))))
  exact (giveUp_inv h3 u).of_mem (endPrivatised_mem _ _ _)
theorem settleForSave_inv {s : State} (h : s.MemInv) (u : Nat) : (settleForSave s u).MemInv := runRequests_inv (returnLoads_inv (settleTeam_inv (drainTeam_inv h u) u) _) _
theorem saveTeam_inv {s : State} (h : s.MemInv) (u : Nat) : (saveTeam s u).MemInv := by
  have h1 := endTeamBinds_inv h u
  unfold saveTeam
  simp only
  refine State.MemInv.of_mem h1 ((State.modTeam_mem _ _ _).trans ((endEvictreq_mem _ _ _).trans ((State.modCore_mem _ _ _).trans (dropStack_mem _ _))))
theorem evict_inv {s : State} (h : s.MemInv) (u : Nat) : (evict s u).MemInv := by
  have h1 : ((together s u .running).foldl settleForSave s).MemInv := foldl_inv (fun _ => settleForSave_inv) h _
  unfold evict
  refine ite_inv h (ite_inv h1 (State.MemInv.of_mem (foldl_inv (fun _ => saveTeam_inv) h1 _) (settleTargets_mem _)))
theorem rebind_inv (u : Nat) {s : State} (h : s.MemInv) (m : Nat × DWord) : (rebind u s m).MemInv := by
  unfold rebind
  simp only
  split
  · exact ite_inv h (h.of_mem (makeBind_mem _ _ _ _ _ _ _))
  · exact logUnits_inv h _ _ _ _
theorem restoreTeam_inv {s : State} (h : s.MemInv) (u : Nat) (p : Place) : (restoreTeam s u p).MemInv := by
  have h2 (ms : SMap DWord) (f : Team → Team) : (ms.foldl (rebind u) (s.modTeam u f)).MemInv := foldl_inv (fun _ => rebind_inv u) (h.of_mem (State.modTeam_mem _ _ _)) ms
  have h5 {t : State} (ht : t.MemInv) (f : Team → Team) (n : Nat) : { (t.modTeam u f) with nextId := n }.MemInv := ht
  unfold restoreTeam
  simp only
  refine State.MemInv.of_mem (State.MemInv.of_mem (State.MemInv.of_mem (h5 ?_ _ _) (placeGroups_mem _ _ _)) (dropStale_mem _ _)) (acquire_mem _ _ _)
  exact ite_inv (h2 _ _) (h2 _ _)
theorem resume_inv {s : State} (h : s.MemInv) (u : Nat) (ps : List Place) : (resume s u ps).MemInv := by
  unfold resume
  split
  · exact h
  · simp only
    refine ite_inv ?_ h
    refine foldl_inv (fun t ht x => eachLane_inv (fun _ => waitevTurn_inv) (restoreTeam_inv ht _ _) _) ?_ _
    split
    · exact h.of_mem (passTurn_mem _ _ _ _)
    · exact h

/-! ### Page moves and versions -/

theorem settlePage_inv {s : State} (h : s.MemInv) (old size : Nat) : (settlePage s old size).MemInv :=
  foldl_inv (fun _ => accEvict_inv) (applyContributions_inv (drainDevice_inv h) _) _
theorem moveFound_inv {s : State} (h : s.MemInv) (m : MoveRec) (e : DWord) (size : Nat) : (moveFound s m e size).1.MemInv := by
  have h1 (old : Nat) : (settlePage { s with freeCount := s.freeCount + 1 } old size).MemInv := settlePage_inv (s := { s with freeCount := s.freeCount + 1 }) h _ _
  have h3 (old : Nat) (f : DWord) (gs : List Nat) : (poisonGranules (followMove (carryLost (copyPage (settlePage { s with freeCount := s.freeCount + 1 } old size) old size m.base)
      old size m.base) old size m.base e f) gs).MemInv :=
    (((copyPage_inv (h1 old) old size m.base).of_mem (carryLost_mem _ _ _ _)).of_mem (followMove_mem _ _ _ _ _ _)).of_mem (poisonGranules_mem _ _)
  unfold moveFound
  simp only
  refine ite_fst_inv h (ite_fst_inv h (ite_fst_inv h ?_))
  exact State.MemInv.of_mem (deviceOut_inv (h3 _ _ _) _ _) ((carryHome_mem _ _ _ _ _).trans (dropAll_mem _ _))
theorem movePage_inv {s : State} (h : s.MemInv) (m : MoveRec) (ks : List Nat) : (movePage s m ks).1.MemInv := by
  unfold movePage
  split
  · exact h
  · exact moveFound_inv h _ _ _
theorem runMove_inv {s : State} (h : s.MemInv) (base index : Nat) (ks : List Nat) (f : MoveRec → Bool) : (runMove s base index ks f).MemInv := by
  unfold runMove
  split
  · exact h
  · refine ite_inv h (State.MemInv.of_mem (deviceOut_inv (movePage_inv (h.of_mem (noteMove_mem _ _ _ _)) _ _) _ _) (State.setSys_mem _ _ _))
theorem freeVersion_inv {s : State} (h : s.MemInv) (ctx : Nat) (base : DWord) (w : Word) : (freeVersion s ctx base w).MemInv := by
  unfold freeVersion
  split
  · exact h
  · next v _ =>
    simp only
    refine ite_inv h (foldl_inv (fun _ ht c => ht.of_mem (State.modCore_mem _ c _)) ?_ _)
    exact deviceOut_inv (s := { s with versions := s.versions.filter (fun x => decide (x ≠ v)) }) h _ _

/-! ### Requests of system cores, errors, losses -/

theorem carryDgev_inv {s : State} (h : s.MemInv) (die : Nat) : (carryDgev s die).MemInv := by
  unfold carryDgev
  split
  · exact h
  · simp only
    refine State.MemInv.of_mem ?_ (State.modDie_mem _ _ _)
    split
    · exact signalNode_inv (h.of_mem (noteHome_mem _ _)) _ _ _
    · exact logDevice_inv h _ _ _
theorem meetError_inv {s : State} (h : s.MemInv) (u : UnitId) (e : SoftErr) : (meetError s u e).MemInv := by
  have he (a : Nat) : (if e.corrected then (s, 1, a) else errorEffect s u e.place).1.MemInv := ite_fst_inv h (h.of_mem (errorEffect_mem _ _ _))
  have hl (a : Nat) (k n : Nat) (c : Option Nat) (w : Word) := logError_inv (he a) k u n c w
  unfold meetError
  refine ite_inv h (ite_inv (hl _ _ _ _ _) (hl _ _ _ _ _))
theorem losePeer_inv {s : State} (h : s.MemInv) (p : Nat) : (losePeer s p).MemInv :=
  ite_inv h (logError_inv (s := { s with lost := sadd s.lost p, freeCount := s.freeCount + 1 }) h _ _ _ _ _)

/-! ### Agents outside -/

theorem takeSend_inv {s : State} (h : s.MemInv) (c : Nat) (p : List Byte) : (takeSend s c p).MemInv := by
  have hx := appendSlot_inv ((h.of_mem (State.setConn_mem s c 1 (dw (fld p 8 8)))).of_mem (farRelease_mem _)) (fld p 6 2) .network (connCtx s c) (p.drop 64) none
  exact ite_inv (h.of_mem (countDropped_mem _ _)) (ite_inv (h.of_mem (countDropped_mem _ _)) (ite_inv hx (hx.of_mem (countRefused_mem _ _))))
theorem writePieces_inv {s : State} (h : s.MemInv) (ps : List (Nat × Nat)) (bs : List Byte) : (writePieces s ps bs).MemInv := by
  induction ps generalizing s bs with
  | nil => exact h
  | cons p ps ih =>
    obtain ⟨a, n⟩ := p
    exact ih ((writeOut_inv (h.of_mem (noteHomes_mem _ _ _)) _ _).of_mem (writeFar_mem _ _ _)) _
theorem refuseNet_inv {s : State} (h : s.MemInv) (c : Nat) (w : Bool) (ps : List (Nat × Nat)) : (refuseNet s c w ps).MemInv := by
  unfold refuseNet
  refine State.MemInv.of_mem ?_ (State.answer_mem _ _)
  split
  · exact logDevice_inv h _ _ _
  · exact h
theorem outsideAt_inv {s : State} (h : s.MemInv) (who : Nat) (l : Loc) (a : OutsideAccess) : (outsideAt s who l a).MemInv := by
  unfold outsideAt
  split
  · exact (h.of_mem (noteHomeReads_mem _ _ _)).of_mem (State.answer_mem _ _)
  · exact writeOut_inv (h.of_mem (noteHomes_mem _ _ _)) _ _
  · exact (writeNat_inv (h.of_mem (noteAtomic_mem _ _)) _ _ _).of_mem (State.answer_mem _ _)
theorem systemAccess_inv {s : State} (h : s.MemInv) (ctx : Nat) (a : OutsideAccess) : (systemAccess s ctx a).MemInv := by
  unfold systemAccess
  split
  · exact outsideAt_inv h _ _ _
  · exact (logDevice_inv h _ _ _).of_mem (State.answer_mem _ _)
theorem barWrite_inv {s : State} (h : s.MemInv) (n : Nat) (v : DWord) : (barWrite s n v).MemInv := by
  unfold barWrite
  split
  · exact writeReg_inv h _ _
  · exact h
theorem afterReset_inv (s : State) : (afterReset s).MemInv := rfl

end Sys2Proof.Machine
end

section
/-! PROOF. O58: every word, every event and every step keeps the canonical form of memory. -/

namespace Sys2Proof.Machine

/-- A next state, where there is one, has memory in its canonical form. -/
def KeepsForm (o : Host.Outcome State Fault Refusal) : Prop := ∀ t, o = .next t → t.MemInv

theorem keepsForm_next {t : State} (h : t.MemInv) : KeepsForm (.next t) := by
  rintro u ⟨⟩
  exact h

/-! ### Words -/

section
variable {i : Instr} {s : State} (h : s.MemInv)
include h

theorem issued_form {eff : State → List Nat → State} (heff : ∀ s, s.MemInv → ∀ ls, (eff s ls).MemInv) : KeepsForm (issued i s eff) :=
  keepsForm_next (issueWord_inv i (fun ht ls => heff _ ht ls) h)
/-- A word whose effect leaves memory alone. -/
theorem issued_alone {eff : State → List Nat → State} (heff : ∀ s ls, (eff s ls).mem = s.mem) : KeepsForm (issued i s eff) := issued_form h (fun s ht ls => ht.of_mem (heff s ls))
theorem lanes_form {f : State → Nat → State} (hf : ∀ s, s.MemInv → ∀ l, (f s l).MemInv) : KeepsForm (issued i s (eachLane f)) := issued_form h (fun _ ht ls => eachLane_inv hf ht ls)
/-- A word whose effect on each lane leaves memory alone. -/
theorem lanes_alone {f : State → Nat → State} (hf : ∀ s l, (f s l).mem = s.mem) : KeepsForm (issued i s (eachLane f)) := issued_alone h (eachLane_mem hf)
/-- A word that takes its lanes' stale copies away first. -/
theorem fresh_alone {f : State → Nat → State} (hf : ∀ s l, (f s l).mem = s.mem) : KeepsForm (issued i s (fun s ls => eachLane f (invalidate s ls) ls)) :=
  issued_alone h (fun s ls => (eachLane_mem hf _ ls).trans (invalidate_mem s ls))
/-- A word that empties its group's queue first. -/
theorem drained_form {f : State → Nat → State} (hf : ∀ s, s.MemInv → ∀ l, (f s l).MemInv) : KeepsForm (issued i s (fun s ls => eachLane f (drainQueue s s.issue.group) ls)) :=
  issued_form h (fun _ ht ls => eachLane_inv hf (drainQueue_inv ht _) ls)

theorem aluWord_form (n : Bool) (d : Code) (f : (w : Nat) → (Code → BitVec w) → BitVec w) : KeepsForm (aluWord i n d f s) := by
  refine lanes_alone h (fun s l => ?_)
  split <;> rfl
theorem pairWord_form (n : Bool) (d : Code) (f : State → Nat → DWord) : KeepsForm (pairWord i n d f s) := lanes_alone h (fun s l => State.put64_mem s .i l n d (f s l))
theorem testWord_form (n : Bool) (d : Code) (f : State → Nat → Bool) : KeepsForm (testWord i n d f s) := lanes_alone h (fun s l => State.put_mem s .i l n d (flagWord (f s l)))
theorem crossWord_form (n : Bool) (d : Code) (f : State → List Nat → Nat → Word) : KeepsForm (crossWord i n d f s) :=
  issued_alone h (fun s ls => eachLane_mem (fun t l => State.put_mem t .x l n d (f s ls l)) s ls)
theorem floatWord_form (p : Pipe) (n : Bool) (d : Code) (slot : Option (BitVec 3)) (f : State → Nat → FRes) : KeepsForm (floatWord i p n d slot f s) :=
  issued_form h (fun _ ht _ => raiseEvents_inv (ht.of_mem (putAll_mem _ _ _ _ _)) _ _ _ _)
theorem atomicWord_form (g n : Bool) (fn : BitVec 3) (d a b : Code) : KeepsForm (atomicWord i g n fn d a b s) :=
  issued_alone h (fun _ _ => (enqueue_mem _ _ _).trans ((atomicIssue_mem _ _ _ _ _ _ _ _ _ _).trans (invalidate_mem _ _)))
theorem redfWord_form (fn : BitVec 3) (a b : Code) : KeepsForm (redfWord i fn a b s) :=
  issued_alone h (fun s ls => eachLane_mem (fun t l => noteTrans_mem t l (t.src64 l a)) s ls)

end

theorem exec_form (i : Instr) {s : State} (h : s.MemInv) : KeepsForm (exec i s) := by
  cases i
  case add | sub | mul | mulhiI | mulhiN | mad | minI | maxI | minN | maxN | absInt | addsatI | subsatI | clz | popc | brev | andW | orW | xorW | andn | orn | xnor | sel | mov
      | shl | shr | sar | rol | bfx | bfi | cmpEq | cmpNe | ltI | leI | ltN | leN | tst | addi | andi | ori | xori | shli | shri | sari | roli | cmpiEq | cmpiNe | cmpiLtI | cmpiLeI
      | cmpiLtN | cmpiLeN | cmpiGtI | cmpiGeI | movi | movhi =>
    simp only [exec_add, exec_sub, exec_mul, exec_mulhiI, exec_mulhiN, exec_mad, exec_minI, exec_maxI, exec_minN, exec_maxN, exec_absInt, exec_addsatI,
      exec_subsatI, exec_clz, exec_popc, exec_brev, exec_andW, exec_orW, exec_xorW, exec_andn, exec_orn, exec_xnor, exec_sel, exec_mov, exec_shl, exec_shr, exec_sar,
      exec_rol, exec_bfx, exec_bfi, exec_cmpEq, exec_cmpNe, exec_ltI, exec_leI, exec_ltN, exec_leN, exec_tst, exec_addi, exec_andi, exec_ori, exec_xori, exec_shli,
      exec_shri, exec_sari, exec_roli, exec_cmpiEq, exec_cmpiNe, exec_cmpiLtI, exec_cmpiLeI, exec_cmpiLtN, exec_cmpiLeN, exec_cmpiGtI, exec_cmpiGeI, exec_movi,
      exec_movhi]
    exact aluWord_form h _ _ _
  case shl64 | shr64 | add64 | sub64 | addxI | addxN | mov64 => exact pairWord_form h _ _ _
  case cmplt64 | cmpeq64 => exact testWord_form h _ _ _
  case voteAny | voteAll | voteBal | matchLanes | actmask | xbPerm | xbPerm2 | xbShfl | xbBcast | xbRot | xbTrn => exact crossWord_form h _ _ _
  case fclass | fabs | fneg | frcp | frsq | fsqrt | fexp2 | flog2 | ftanh | fsin | fcos | cvtF2i | cvtF2n | cvtI2f | cvtN2f | cvtF2bf | cvtBf2f | cvtF2h | cvtH2f | cvtFrnd | fadd
      | fsub | fmul | fmin | fmax | fcpsgn | feq | flt | fle | funord | hadd2 | hsub2 | hmul2 | hmin2 | hmax2 | ffma | ffms | hfma2 | hdot2 | cvtEnc | cvtDec | narrowPack
      | narrowUnpack => exact floatWord_form h _ _ _ _ _
  case atomgAdd | atomgMinI | atomgMaxI | atomgAnd | atomgOr | atomgXor | atomgXchg | atomgCas | atomsAdd | atomsMinI | atomsMaxI | atomsAnd | atomsOr | atomsXor | atomsXchg
      | atomsCas => exact atomicWord_form h _ _ _ _ _ _
  case redfFadd | redfFmin | redfFmax | redfHadd2 | redfAddI => exact redfWord_form h _ _ _
  case redfAccred a b => exact issued_alone h (fun s ls => eachLane_mem (fun t l => noteTrans_mem t l (t.src64 l a)) s ls)
  -- words that change threads and groups alone
  case movs d imm => exact lanes_alone h (fun s l => captureCycles_mem s l imm.toNat)
  case rjQuery | spadd | spget | spset | phStat | shWin | vwGet | gaStat | movtsysSlim => exact lanes_alone h (fun _ _ => rfl)
  case bnz hint a slot dline => exact issued_alone h (branchLanes_mem hint a slot dline false)
  case bz hint a slot dline => exact issued_alone h (branchLanes_mem hint a slot dline true)
  case jmp | jmpi => exact lanes_alone h (fun _ _ => rfl)
  case call | calli => exact lanes_alone h (fun _ _ => rfl)
  case ret => exact lanes_alone h retLane_mem
  case exit => exact issued_alone h exitLanes_mem
  case yield =>
    refine issued_alone h (fun s ls => (eachLane_mem ?_ _ _).trans (invalidate_mem s _))
    exact fun _ _ => rfl
  case nop | mxWait => exact issued_alone h (fun _ _ => rfl)
  case rjEnrol => exact issued_alone h (fun _ _ => rfl)
  case rjWait k => exact issued_alone h (waitLanes_mem k.toNat)
  case rjStrike => exact issued_alone h (fun _ _ => strikeFrom_mem _ _ _ _)
  case brk | trap | illegalInstruction => exact issued_form h (fun _ ht ls => trapLanes_inv _ ht ls)
  case eret => exact issued_form h (fun _ ht ls => returnTrap_inv ht _ ls)
  -- loads, stores, fences
  case ldg n d a r sz off =>
    refine issued_form h (fun s ht ls => eachLane_inv (fun _ hu l => ldgLane_inv s n d a r sz off hu l) (State.MemInv.of_mem ?_ (invalidate_mem _ _)) _)
    exact ht.of_mem (eachLane_mem (fun t l => fillView_mem _ t l _) s ls)
  case stg d a r sz off => exact issued_alone h (fun s ls => eachLane_mem (stgLane_mem s d a r sz off) s ls)
  case lds n d a sz off => exact lanes_form h (fun _ ht l => ldsLane_inv n d a sz off ht l)
  case sts d a sz off => exact lanes_alone h (stsLane_mem d a sz off)
  case ldp n d a sz off => exact issued_alone h (fun s ls => (eachLane_mem (ldpLane_mem n d a sz off) _ ls).trans (invalidate_mem s ls))
  case stp d a sz off => exact lanes_alone h (stpLane_mem d a sz off)
  case fence => exact issued_form h (fun _ ht _ => fenceGroup_inv ht _ _)
  -- barriers, copies, maintenance, sharing
  case phInit d a k => exact lanes_alone h (phInitLane_mem d a k.toNat)
  case phArrive d k => exact lanes_alone h (arriveLane_mem d k.toNat false)
  case phEnd d k => exact lanes_alone h (arriveLane_mem d k.toNat true)
  case phWait a k => exact fresh_alone h (waitPhase_mem a k.toNat)
  case phTest d a k => exact lanes_alone h (testPhase_mem d a k.toNat)
  case phInval d k => exact lanes_alone h (invalPhase_mem d k.toNat)
  case cpIssue d a x => exact fresh_alone h (copyLane_mem d a x [1, 2])
  case cpMcast d a x => exact fresh_alone h (copyLane_mem d a x [3, 4])
  case cpCancel d a => exact lanes_alone h (fun s l => cancelRequest_mem s (teamOf l) (s.src l a))
  case pref a x => exact lanes_form h (fun _ ht l => prefLane_inv a x ht l)
  case pin d a x => exact lanes_form h (fun _ ht l => pinLane_inv d a x ht l)
  case unpin a x => exact lanes_form h (fun _ ht l => unpinLane_inv a x ht l)
  case cwb | cinv | iinv => exact lanes_alone h (fun _ _ => rfl)
  case fetchb =>
    refine drained_form h (fun s ht l => ht.of_mem ?_)
    exact State.modThread_mem s l _
  case xbTload a k => exact lanes_form h (fun _ ht l => tloadLane_inv a k ht l)
  case shJoin | movtsysRunclr => exact issued_alone h (fun _ _ => rfl)
  case shLeave => exact issued_form h (fun _ ht _ => leaveSharing_inv ht _)
  case launch d a => exact issued_form h (fun _ ht ls => eachLane_inv (fun _ hu l => launchLane_inv d a hu l) (releaseGroup_inv ht _ _) ls)
  case dgSignal d a => exact lanes_form h (fun _ ht l => signalLane_inv d a ht l)
  case spmap d a => exact lanes_form h (fun _ ht l => spmapLane_inv d a ht l)
  case spunmap d => exact lanes_form h (fun _ ht l => mapLane_inv endBind_inv d ht l)
  case spwb d => exact lanes_form h (fun _ ht l => mapLane_inv writeBack_inv d ht l)
  -- the matrix queue, views, block tables
  case mxLoad a => exact lanes_alone h (fun s l => pushLoad_mem s l (s.gsrc l a).toNat)
  case mxSwap => exact lanes_alone h pushSwap_mem
  case mxStream a => exact lanes_alone h (fun s l => pushStream_mem s l (s.gsrc l a).toNat)
  case mxAdapt => exact lanes_alone h (fun _ _ => rfl)
  case accArm d a => exact lanes_alone h (fun s l => pushArm_mem s l (s.gsrc l d) (s.gsrc l a))
  case accDrain a x => exact lanes_alone h (fun s l => pushDrain_mem s l (s.gsrc l a).toNat x.toNat)
  case accClear | accStat => exact lanes_alone h (fun _ _ => rfl)
  case vwSet d a k =>
    refine issued_form h (fun s ht ls => State.MemInv.of_mem (drainQueue_inv ?_ _) (setViews_mem _ _ _ _))
    exact ht.of_mem (eachLane_mem (fun t l => notePoison_mem t l _ _ _ _ _) s ls)
  case vwRefresh d k => exact drained_form h (fun s ht l => ht.of_mem (refreshView_mem s l k.toNat))
  case vwClear d k => exact lanes_alone h (fun s l => unbindView_mem s (teamOf l) k.toNat)
  case gaWalk d a x => exact fresh_alone h (walkLane_mem d a x)
  case btBind d a k => exact drained_form h (fun s ht l => bindTable_inv ht l k.toNat (s.src64 l a) (s.src l d))
  case btRetire d k => exact drained_form h (fun s ht l => retireTable_inv ht l k.toNat)
  -- system words
  case movsys d a => exact lanes_form h (fun _ ht l => movsysLane_inv d a ht l)
  case movsysW d a => exact lanes_form h (fun _ ht l => movsysWLane_inv d a ht l)
  case syscall d a x => exact issued_form h (fun _ ht ls => syscallLanes_inv d a x ht ls)
  case waitev d a => exact issued_form h (fun _ ht ls => waitevLanes_inv d a ht ls)
  case tlbinv d a => exact lanes_form h (fun _ ht l => tlbinvLane_inv d a ht l)
  case halt d a => exact lanes_alone h (haltLane_mem true d a)
  case haltRes d a => exact lanes_alone h (haltLane_mem false d a)
  case proof d a => exact lanes_form h (fun _ ht l => proofLane_inv d a ht l)
  -- placement, queues, graphs
  case takeLaunchSlot => exact keepsForm_next (ite_inv (takeLaunch_inv h _ _) h)
  case ageingExpiry => exact keepsForm_next (h.of_mem (fixTarget_mem _ _))
  case clusterStart => exact keepsForm_next (startCluster_inv h _ _)
  case runLimitKill => exact keepsForm_next (ite_inv (kill_inv h _ _) h)
  case completionEntryWrite => exact keepsForm_next (writeCompletion_inv h _)
  case graphSlotTake => exact keepsForm_next (ite_inv (takeGraph_inv h _ _) h)
  case nodeFinish => exact keepsForm_next (endNode_inv h _ _)
  -- what words have begun
  case loadDataReturn => exact keepsForm_next (returnLoad_inv h _)
  case storeQueueLeave => exact keepsForm_next (ite_inv h (leaveHead_inv h _))
  case arrivalCounted => exact keepsForm_next (ite_inv (leaveHead_inv h _) h)
  case streamerBeat => exact keepsForm_next (landBeat_inv h _ _)
  case copyComplete => exact keepsForm_next (endRequest_inv h _)
  case matrixEntryStart => exact keepsForm_next (startEntry_inv h _)
  case matrixEntryComplete => exact keepsForm_next (completeEntry_inv h _)
  case mainRowIssue => exact keepsForm_next (issueRow_inv h _)
  case governorWindow => exact keepsForm_next (h.of_mem (nextWindow_mem _ _))
  case accContribution => exact keepsForm_next (applyContribution_inv h _)
  case adapterSliceArrival => exact keepsForm_next (sliceArrives_inv h _ _)
  case accLineEvict => exact keepsForm_next (accEvict_inv h _)
  case numericWindowClose => exact keepsForm_next (h.of_mem (closeWindow_mem _ _ _ _))
  case afterIssueFaultDelivery => exact keepsForm_next (deliverFault_inv h _)
  case syscallAnswered => exact keepsForm_next (syscallWake_inv h _)
  case waitevWake => exact keepsForm_next (waitevTurn_inv h _)
  -- teams, registers, reliability, the world outside
  case killComplete => exact keepsForm_next (endKill_inv h _)
  case teamRetire => exact keepsForm_next (retireTeam_inv h _)
  case eviction => exact keepsForm_next (evict_inv h _)
  case teamResume => exact keepsForm_next (resume_inv h _ _)
  case moveRehome | moveToPool | moveFromPool => exact keepsForm_next (runMove_inv h _ _ _ _)
  case versionFreed => exact keepsForm_next (freeVersion_inv h _ _ _)
  case qappAppend => exact keepsForm_next (appendRegister_inv h _ _)
  case queueEnable | queueDisable => exact keepsForm_next (h.of_mem (writeQd1_mem _ _ _))
  case systemRegisterWrite => exact keepsForm_next (writeReg_inv h _ _)
  case dgevRequest => exact keepsForm_next (carryDgev_inv (h.of_mem (placeDgev_mem _ _ _)) _)
  case evictreqWrite => exact keepsForm_next (h.of_mem (writeEvictreq_mem _ _))
  case replayAnswer => exact keepsForm_next (answerReplay_inv h _ _)
  case contextValidClear => exact keepsForm_next (h.of_mem (writeContext_mem _ _ _))
  case repack => exact keepsForm_next h
  case agentDeadScrub => exact keepsForm_next (h.of_mem (declareDead_mem _ _))
  case softError => exact keepsForm_next (meetError_inv h _ _)
  case proofRunComplete => exact keepsForm_next (ite_inv (endProof_inv h _ _) h)
  case staleIncarnation => exact keepsForm_next (ite_inv h (logError_inv h _ _ _ _ _))
  case cacheLineEviction => exact keepsForm_next (h.of_mem (evictLine_mem _ _ _))
  case sendEvent => exact keepsForm_next (takeSend_inv h _ _)
  case rdmaWrite =>
    refine keepsForm_next ?_
    split
    · exact writePieces_inv h _ _
    · exact refuseNet_inv h _ _ _
  case rdmaRead =>
    refine keepsForm_next ?_
    split
    · exact State.MemInv.of_mem (foldl_inv (fun _ ht p => ht.of_mem (noteHomeReads_mem _ (.phys p.1) p.2)) h _) (State.answer_mem _ _)
    · exact refuseNet_inv h _ _ _
  case rdmaAtomic | quote => exact keepsForm_next h
  case systemCoreAccess => exact keepsForm_next (systemAccess_inv h _ _)
  case hostAccess => exact keepsForm_next ((outsideAt_inv h _ _ _).of_mem (hostHolds_mem _ _ _))
  case peerAccess => exact keepsForm_next (ite_inv h (outsideAt_inv h _ _ _))
  case peerLinkLoss => exact keepsForm_next (losePeer_inv h _)
  case thermalThreshold => exact keepsForm_next h
  case hbmWindow => exact keepsForm_next (h.of_mem (closeHbm_mem _))
  case resetEvent => exact keepsForm_next ((afterReset_inv s).of_mem (bootStages_mem _ _ _ _))
  case criticalTemperature => exact keepsForm_next (afterReset_inv s)

end Sys2Proof.Machine
end

section
/-! PROOF. O58: a step is a move or a default and then the bookkeeping, and each keeps the form. -/

namespace Sys2Proof.Machine

/-! ### Chains and moves -/

theorem runWords_form (ws : List (DWord × Word)) {s : State} (h : s.MemInv) : KeepsForm (runWords s ws) := by
  induction ws generalizing s with
  | nil => exact keepsForm_next h
  | cons p ws ih =>
    obtain ⟨t, ht⟩ := exec_next (decodeWord p.2) (s.atWord p.1 p.2)
    have h1 : t.MemInv := exec_form _ (h.of_mem (State.atWord_mem _ p.1 p.2)) t ht
    have h2 := ih (h1.of_mem (wordDone_mem t (decodeWord p.2)))
    rw [runWords, ht]
    exact h2

theorem advanceLanes_mem (s : State) (next : DWord) (ls : List Nat) : (eachLane (fun s l => s.modThread l (fun t => t.advance next s.clock)) s ls).mem = s.mem := by
  refine eachLane_mem ?_ s ls
  exact fun s l => State.modThread_mem s l _

theorem noteLines_mem (s : State) (a : DWord) (ls : List Nat) : (eachLane (fun s l => s.modThread l (fun t => { t with line := some a })) s ls).mem = s.mem := by
  refine eachLane_mem ?_ s ls
  exact fun s l => State.modThread_mem s l _

/-! Fields beside memory. -/

theorem State.MemInv.withIssue {s : State} (h : s.MemInv) (i : Issue) : { s with issue := i }.MemInv := h
theorem State.MemInv.withAgenda {s : State} (h : s.MemInv) (ms : List Move) : { s with agenda := ms }.MemInv := h
theorem State.MemInv.withWaiting {s : State} (h : s.MemInv) (ms : List Move) : { s with waiting := ms }.MemInv := h
theorem State.MemInv.withTurn {s : State} (h : s.MemInv) (n : Nat) : { s with turn := n }.MemInv := h
theorem State.MemInv.withFreeCount {s : State} (h : s.MemInv) (n : Nat) : { s with freeCount := n }.MemInv := h
theorem State.MemInv.newCycle {s : State} (h : s.MemInv) (n : Nat) : { s with issue := ({} : Issue), clock := n }.MemInv := h

theorem issueChain_form {s : State} (h : s.MemInv) (g : Nat) (ls : List Nat) (c : Chain) (pc : DWord) : KeepsForm (issueChain s g ls c pc) := by
  have hrun (b : Bool) (ws : List (DWord × Word)) (u : State) (hu : u.MemInv) : KeepsForm (if b then .next u else runWords u ws) := by
    cases b
    · exact runWords_form ws hu
    · exact keepsForm_next hu
  have hchecked (seen : List Nat) (good : List Nat) :
      (runChecks (beginIssue (eachLane (fun s l => s.modThread l (fun t => { t with line := some (lineBase pc) })) (finishLanes s ls) seen) g good pc c.next)
        (checkOrder c.words)).1.MemInv :=
    (finishLanes_inv h ls).of_mem ((runChecks_mem _ _).trans ((beginIssue_mem _ _ _ _ _).trans (noteLines_mem _ _ _)))
  unfold issueChain
  simp only
  split
  · next t ht =>
    have h3 : t.MemInv := hrun _ _ _ (((hchecked _ _).withIssue _).of_mem (advanceLanes_mem _ _ _)) t ht
    refine keepsForm_next ?_
    split
    · exact ((stopChain_inv h3 _ _ _ _).withIssue _).of_mem (exchange_mem _ _ _)
    · exact (stopChain_inv h3 _ _ _ _).withIssue _
  · next o hne =>
    intro t ht
    exact absurd ht (hne t)

theorem issueSet_form {s : State} (h : s.MemInv) (g : Nat) (ls : List Nat) : KeepsForm (issueSet s g ls) := by
  unfold issueSet
  split
  · exact keepsForm_next h
  · split
    · exact keepsForm_next (deliverFault_inv h _)
    · simp only
      split
      · exact keepsForm_next (stopFetch_inv h _ _)
      · exact issueChain_form (h.of_mem (fillTrans_mem _ _ _ _)) _ _ _ _

theorem issueOf_form {s : State} (h : s.MemInv) (o : Option (List Nat)) : KeepsForm (issueOf s o) := by
  unfold issueOf
  split
  · exact issueSet_form h _ _
  · exact keepsForm_next h

theorem moveOf_form {s : State} (h : s.MemInv) (m : Move) : KeepsForm (moveOf s m) := by
  cases m with
  | issue | burin => exact issueOf_form h _
  | event i =>
    simp only [moveOf]
    split
    · exact exec_form i h
    · exact keepsForm_next h
  | tick die => exact keepsForm_next (h.of_mem (tick_mem s die))
  | fetchAhead die core line => exact keepsForm_next (h.of_mem (fetchAhead_mem s _ line))
  | fetchWord die core line slot => exact keepsForm_next (h.of_mem (fetchWord_mem s _ line slot))
  | aheadWord tid word => exact keepsForm_next (h.of_mem (aheadWord_mem s tid word))
  | aheadDrop tid => exact keepsForm_next (h.of_mem (aheadDrop_mem s tid))
  | entryPart entry part => exact keepsForm_next (entryPart_inv h entry part)
  | latentPart id granule => exact keepsForm_next (latentPart_inv h id granule)
  | cycle die core => exact keepsForm_next (h.of_mem (cycle_mem s _))
  | barRead offset => exact keepsForm_next (h.of_mem (State.answer_mem s _))
  | barWrite offset v => exact keepsForm_next (barWrite_inv h offset v)
  | connWrite c w v => exact keepsForm_next (h.of_mem (writeConn_mem s c w v))
  | connRead c w => exact keepsForm_next (h.of_mem (State.answer_mem s _))
  | pageFull ctx va => exact keepsForm_next (h.of_mem (pageFull_mem s ctx va))
  | dropTrans die core i => exact keepsForm_next (h.of_mem (dropTrans_mem s die core i))
  | walkStart die ctx va => exact keepsForm_next (h.of_mem (walkStart_mem s die ctx va))
  | walkStep die i => exact keepsForm_next (h.of_mem (walkStep_mem s die i))

theorem attempt_form {s : State} (h : s.MemInv) (m : Move) : KeepsForm (attempt s m) := by
  unfold attempt
  split
  · exact keepsForm_next (h.of_mem (State.await_mem s m))
  · exact moveOf_form h m

/-! ### What the machine does of itself -/

/-- A possible next state, where there is one, has memory in its canonical form. -/
def MayKeepForm (o : Option State) : Prop := ∀ t, o = some t → t.MemInv

theorem mayKeepForm_none : MayKeepForm none := nofun
theorem mayKeepForm_some {t : State} (h : t.MemInv) : MayKeepForm (some t) := by
  rintro u ⟨⟩
  exact h
theorem MayKeepForm.or {o p : Option State} (ho : MayKeepForm o) (hp : MayKeepForm p) : MayKeepForm (o.or p) := by
  cases o with
  | none => exact hp
  | some t => exact ho
theorem mayKeepForm_map {β : Type} {f : β → State} (hf : ∀ x, (f x).MemInv) (o : Option β) : MayKeepForm (o.map f) := by
  cases o with
  | none => exact mayKeepForm_none
  | some x => exact mayKeepForm_some (hf x)
theorem mayKeepForm_findSome? {β : Type} {f : β → Option State} (hf : ∀ x, MayKeepForm (f x)) (xs : List β) : MayKeepForm (xs.findSome? f) := by
  intro t ht
  obtain ⟨x, _, hx⟩ := List.exists_of_findSome?_eq_some ht
  exact hf x t hx

theorem tryEvent_form {s : State} (h : s.MemInv) (i : Instr) : MayKeepForm (tryEvent s i) := by
  unfold tryEvent
  split
  · next t ht =>
    split
    · exact mayKeepForm_none
    · split
      · split
        · exact mayKeepForm_none
        · exact mayKeepForm_some (h.of_mem (State.await_mem s _))
      · exact mayKeepForm_some (exec_form i h t ht)
  · exact mayKeepForm_none

theorem oneEvent_form {s : State} (h : s.MemInv) : MayKeepForm (oneEvent s) :=
  (mayKeepForm_map (fun _ => carryDgev_inv h _) _).or ((mayKeepForm_findSome? (tryEvent_form h) _).or
    ((mayKeepForm_map (fun die => h.of_mem (walkStep_mem s die 0)) _).or ((mayKeepForm_map (fun r : Nat × DWord => h.of_mem (repackPage_mem s r.1 r.2)) _).or
      (mayKeepForm_map (fun u => endProof_inv (h.withFreeCount (s.freeCount + 1)) u _) _))))

theorem byDefault_form {s : State} (h : s.MemInv) : KeepsForm (byDefault s) := by
  have h0 := h.withTurn (s.turn + 1)
  have hevent : KeepsForm (match oneEvent { s with turn := s.turn + 1 } with
      | some t => .next t
      | none => .next (tick { s with turn := s.turn + 1 } ((s.turn + 1) / 3 % 2))) := by
    split
    · next t ht => exact keepsForm_next (oneEvent_form h0 t ht)
    · exact keepsForm_next (h0.of_mem (tick_mem _ _))
  unfold byDefault
  simp only
  split
  · split
    · exact attempt_form h0 _
    · exact hevent
  · exact hevent
  · exact keepsForm_next (h0.of_mem (tick_mem _ _))

theorem act_form {s : State} (h : s.MemInv) : KeepsForm (act s) := by
  unfold act
  split
  · split
    · exact exec_form _ h
    · split
      · exact moveOf_form (h.withWaiting _) _
      · exact attempt_form (h.withAgenda _) _
      · exact byDefault_form h
  · next images r _ _ => exact exec_form (.resetEvent images) (h.withAgenda r)
  · rintro t ⟨⟩
  · split
    · exact moveOf_form (h.withAgenda _) _
    · exact keepsForm_next (h.withAgenda _)
  · exact keepsForm_next h

/-! ### The bookkeeping -/

theorem shrinkL1_form {s : State} (h : s.MemInv) : MayKeepForm (shrinkL1 s) := by
  unfold shrinkL1
  split
  · exact mayKeepForm_none
  · exact mayKeepForm_map (fun core => h.of_mem (evictLine_mem s _ _)) _

theorem shrinkSet_form {s : State} (h : s.MemInv) (die line : Nat) : MayKeepForm (shrinkSet s die line) := by
  unfold shrinkSet
  split
  · exact mayKeepForm_none
  · split
    · exact mayKeepForm_map (fun l => accEvict_inv h l) _
    · exact mayKeepForm_some (h.of_mem (evictLine_mem s _ _))

theorem shrinkOne_form {s : State} (h : s.MemInv) : MayKeepForm (shrinkOne s) :=
  (shrinkL1_form h).or (mayKeepForm_findSome? (fun die => mayKeepForm_findSome? (shrinkSet_form h die) _) _)

theorem shrink_inv (n : Nat) {s : State} (h : s.MemInv) : (shrink n s).MemInv := by
  induction n generalizing s with
  | zero => exact h
  | succ n ih =>
    unfold shrink
    split
    · next t ht => exact ih (shrinkOne_form h t ht)
    · exact h

theorem fitCaches_inv {s : State} (h : s.MemInv) : (fitCaches s).MemInv := ite_inv h (shrink_inv _ h)

theorem settle_inv {s : State} (h : s.MemInv) : (settle s).MemInv := by
  have h1 := fitCaches_inv (h.newCycle (s.clock + 1))
  exact h1.of_mem ((settleSchedule_mem _).trans ((restartRuns_mem _).trans (settleTargets_mem _)))

theorem settled_form {o : Host.Outcome State Fault Refusal} (h : KeepsForm o) : KeepsForm (settled o) := by
  cases o with
  | next u => exact keepsForm_next (settle_inv (h u rfl))
  | fault | refused => exact nofun

/-- Settles O58: what a step does keeps the form, and so does the bookkeeping after it. -/
theorem stepKeepsMemoryForm : Obligations.StepKeepsMemoryForm := fun _ t h ht => settled_form (act_form h) t ht

end Sys2Proof.Machine
end

section
/-! PROOF. O34 fails: an acquire at system scope merges the privatised copies of far lines. -/

namespace Sys2Proof.Machine

/-- The first line of a peer, outside HBM5 (R441). -/
def FarFence.line : Nat := 2 ^ 49

/-- One vector thread of a team on core 0 of die 0 issues a word that has passed its checks; core 0 holds the line with its first byte privatised. -/
def FarFence.state : State :=
  { State.reset with
    boot := .running, teams := [(1, { noTeam with life := .running })], threads := [(tidOf 1 0 0, {})], dir := [(line, { privatised := [(0, 1)] })]
    issue := { group := grpOf (tidOf 1 0 0), lanes := [tidOf 1 0 0], snap := [(tidOf 1 0 0, {})], checked := true } }

open FarFence

theorem runs_farFence (i : Instr) : Runs i state := ⟨⟨by decide, by decide, by decide⟩, .inl rfl⟩

/-- Dropping the clean copies of the far line recalls the privatised one first, and nothing is left to say of the line (R259, R266). -/
theorem dir_fence_farFence : (fenceGroup state 0 4).dir = [] := by decide +kernel

/-- Refutes O34: its first clause says that a fence of kind acquire leaves every privatised copy alone, but at system scope it drops the clean copies of far
lines and merges their privatised ones for it (R266). -/
theorem not_fencesOrder : ¬ Obligations.FencesOrder := by
  unfold Obligations.FencesOrder
  intro h
  obtain ⟨t, ht, hacquire, -⟩ := h 4 state (runs_farFence _)
  have hempty : (state.group state.issue.group).queue = [] := by decide
  obtain ⟨-, -, -, hkept⟩ := hacquire rfl (by simp [hempty])
  have he : t = fenceGroup state 0 4 := by
    rw [exec_fence, execFence, issued_eq (runs_farFence _)] at ht
    exact (Host.Outcome.next.inj ht).symm
  obtain ⟨y, hy, -⟩ := hkept (line, { privatised := [(0, 1)] }) (List.mem_singleton_self _) (List.cons_ne_nil _ _)
  rw [he, dir_fence_farFence] at hy
  cases hy

end Sys2Proof.Machine
end

section
/-! PROOF. O38 fails: a prefetch may record a malformed page-table entry. -/

namespace Sys2Proof.Machine

/-- One vector thread of a team of context 0, whose registers are 0, issues PREF. The error ring is on at 0x20000, and the root table of the context begins at
0x10000 with a valid entry whose zero field [7:2] is 1. -/
def MalformedPrefetch.state : State :=
  { State.reset with
    boot := .running, sys := [(0, 0x10000), (0x6012, 0x20004)], mem := [(0x10000, 5)], teams := [(1, { noTeam with life := .running })], threads := [(tidOf 1 0 0, {})]
    issue := { group := grpOf (tidOf 1 0 0), lanes := [tidOf 1 0 0], snap := [(tidOf 1 0 0, {})], checked := true } }

open MalformedPrefetch

theorem runs_malformedPrefetch (i : Instr) : Runs i state := ⟨⟨by decide, by decide, by decide⟩, .inl rfl⟩

theorem mem_malformedPrefetch : mget unwritten state.mem 0x20000 = 0 := by decide +kernel

/-- The first byte of the error ring is the kind of its record, 4 (R201, R418). -/
theorem prefLane_malformedPrefetch_mem : mget unwritten (prefLane 4 0 state (tidOf 1 0 0)).mem 0x20000 = 4 := by decide +kernel

/-- Refutes O38: its first clause says that PREF leaves memory as it was, but a malformed entry that its walk meets is written to the error ring. -/
theorem not_prefetchAndPins : ¬ Obligations.PrefetchAndPins := by
  unfold Obligations.PrefetchAndPins
  intro h
  obtain ⟨hpref, -⟩ := h 0 4 0 0
  obtain ⟨t, ht, hmem, -⟩ := hpref state (runs_malformedPrefetch _)
  have he : t = prefLane 4 0 state (tidOf 1 0 0) := by
    rw [exec_pref, execPref, issued_eq (runs_malformedPrefetch _)] at ht
    exact (Host.Outcome.next.inj ht).symm
  have hring := prefLane_malformedPrefetch_mem
  rw [← he, hmem, mem_malformedPrefetch] at hring
  cases hring

end Sys2Proof.Machine
end

section
/-! PROOF. O40: SH.JOIN, SH.LEAVE and SH.WIN. -/

namespace Sys2Proof.Machine

/-- The teams after a change of a listed one. -/
theorem State.team_modTeam {s : State} {uid : Nat} (h : (mfind s.teams uid).isSome = true) (f : Team → Team) (u : Nat) :
    (s.modTeam uid f).team u = if u = uid then f (s.team u) else s.team u := by
  split
  · next hu => rw [hu, State.team_modTeam_same _ _ _ h]
  · next hu => exact State.team_modTeam_other _ _ _ _ hu

theorem State.modTeam_eq (s : State) (uid : Nat) (f : Team → Team) : s.modTeam uid f = { s with teams := (s.modTeam uid f).teams } := rfl

/-- Where no store waits, no window access does. -/
theorem drainWindows_of_empty {s : State} (h : ∀ p ∈ s.groups, p.2.queue = []) (uid : Nat) : drainWindows s uid = s := by
  have hfold : ∀ gs : SMap Group, (∀ p ∈ gs, p.2.queue = []) → gs.foldl (fun s p => leaveN (windowEntries uid (p.1 / 64) p.2.queue) s p.1) s = s := by
    intro gs hgs
    induction gs with
    | nil => rfl
    | cons p gs ih =>
      obtain ⟨hp, hgs⟩ := List.forall_mem_cons.1 hgs
      rw [List.foldl_cons, hp]
      exact ih hgs
  exact hfold s.groups h

theorem windowCopies_of_none {s : State} (h : s.requests = []) (uid : Nat) : windowCopies s uid = [] := by
  simp [windowCopies, h]

/-- A leave has nothing to wind up where no store waits and no copy runs. -/
theorem windUp_of_idle {s : State} (hreq : s.requests = []) (hq : ∀ p ∈ s.groups, p.2.queue = []) (uid : Nat) : windUp s uid = s := by
  unfold windUp
  split
  · simp only [drainWindows_of_empty hq, windowCopies_of_none hreq, runRequests]
  · rfl

/-- A team outside its sharing group leaves nothing. -/
theorem leaveSharing_of_not_joined {s : State} {uid : Nat} (h : (s.team uid).joined = false) : leaveSharing s uid = s := by
  simp [leaveSharing, h]

/-- A team leaves at once where no store waits and no copy runs. -/
theorem leaveSharing_of_idle {s : State} {uid : Nat} (hj : (s.team uid).joined = true) (hreq : s.requests = []) (hq : ∀ p ∈ s.groups, p.2.queue = []) :
    leaveSharing s uid = s.modTeam uid (fun t => { t with joined := false }) := by
  simp only [leaveSharing, hj, windUp_of_idle hreq hq, hreq, List.filter_nil, List.foldl_nil]
  rfl

theorem shJoin_gives : Completes .shJoin (fun s t => (mfind s.teams s.issueTeam).isSome = true → t = { s with teams := t.teams } ∧
    ∀ u, t.team u = if u = s.issueTeam then { (s.team u) with joined := true } else s.team u) := by
  intro s hr
  refine ⟨_, issued_eq hr _, fun hteam => ⟨State.modTeam_eq s _ _, State.team_modTeam hteam _⟩⟩

theorem shLeave_gives : Completes .shLeave (fun s t => ((s.team s.issueTeam).joined = false → t = s) ∧
    ((mfind s.teams s.issueTeam).isSome = true → s.requests = [] → (∀ p ∈ s.groups, p.2.queue = []) → t = { s with teams := t.teams } ∧
      ∀ u, t.team u = if u = s.issueTeam then { (s.team u) with joined := false } else s.team u)) := by
  intro s hr
  refine ⟨_, issued_eq hr _, leaveSharing_of_not_joined, fun hteam hreq hq => ?_⟩
  cases hj : (s.team s.issueTeam).joined with
  | true =>
    rw [leaveSharing_of_idle hj hreq hq]
    exact ⟨State.modTeam_eq s _ _, State.team_modTeam hteam _⟩
  | false =>
    rw [leaveSharing_of_not_joined hj]
    refine ⟨rfl, fun u => ?_⟩
    split
    · next hu => rw [hu, ← hj]
    · rfl

theorem shWin_gives (d a : Code) (r : BitVec 4) : LaneGives (.shWin d a r) (fun s l th =>
    let v : DWord := BitVec.ofNat 64 ((s.src64 l a).toNat + r.toNat * 2 ^ 21)
    th = if isBurin l then (s.thread l).gdst false d v else (s.thread l).dst64 .m false d v) := by
  refine laneGives_of _ _ (fun s l => s.put64 .m l false d (s.src64 l a + dw (r.toNat * 2 ^ 21))) (fun _ => rfl) (fun s l => ?_) (fun s l m hm x => ?_)
  · have hv : s.src64 l a + dw (r.toNat * 2 ^ 21) = BitVec.ofNat 64 ((s.src64 l a).toNat + r.toNat * 2 ^ 21) := by
      rw [BitVec.ofNat_add, BitVec.ofNat_toNat, BitVec.setWidth_eq]
      rfl
    simp only [State.put64, State.modThread, hv]
  · simp only [State.src64, State.pre_setThread_other _ _ _ hm, State.thread_setThread_other _ _ _ _ hm]

/-- Settles O40: joining sets one bit, leaving clears it where nothing waits, and a window's address is a sum. -/
theorem sharingWords : Obligations.SharingWords := ⟨shJoin_gives, shLeave_gives, shWin_gives⟩

end Sys2Proof.Machine
end

section
/-! SUPPORT. Performing an entry of a store queue takes no entry from any queue and adds none. -/

namespace Sys2Proof.Machine

/-! ### Operations that leave the groups alone -/

theorem eachLane_groups {f : State → Nat → State} (hf : ∀ s l, (f s l).groups = s.groups) (s : State) (ls : List Nat) : (eachLane f s ls).groups = s.groups :=
  eachLane_keeps (p := fun t => t.groups = s.groups) (fun t l h => (hf t l).trans h) s ls rfl

theorem Logged.groups {s t : State} (h : Logged s t) : t.groups = s.groups := by rw [h.rest]
theorem Counted.groups {own : Nat → Prop} {s t : State} (h : Counted own s t) : t.groups = s.groups := by rw [h.rest]
theorem DirOnly.groups {s t : State} (h : DirOnly s t) : t.groups = s.groups := h.performs none |>.groups

theorem raiseEvents_counted (s : State) (u : Nat) (sl : Option Word) (evs : List ((Nat × Nat) × List Nat)) (w : Word) :
    Counted (fun _ => True) s (raiseEvents s u sl evs w) := by
  refine eachLane_keeps (p := Counted (fun _ => True) s) (fun t c ht => ?_) s _ (.refl s)
  simp only
  split
  · exact ht.trans (sumEvents_counted _ _ _ _)
  · exact ht.trans (countEvents_counted _ _ _ _ _ _ (fun _ _ => trivial) (fun _ => trivial))

theorem noteHeld_groups (s t : State) (rt : BitVec 2) (l : Loc) (bs : List Byte) : (noteHeld s t rt l bs).groups = t.groups := by rw [noteHeld_held]
theorem writeBytes_groups (s : State) (l : Loc) (vs : List Byte) : (writeBytes s l vs).groups = s.groups := (writeBytes_logged s l vs).groups

theorem atomicLanes_groups (fn : BitVec 3) (l : Loc) (s : State) (xs : List (Nat × Word × Word)) : (atomicLanes fn l s xs).groups = s.groups := by
  induction xs generalizing s with
  | nil => rfl
  | cons x xs ih => exact (ih _).trans (writeBytes_groups _ _ _)

theorem redfLanes_groups (fn : BitVec 3) (l : Loc) (s : State) (xs : List (Nat × Word)) : (redfLanes fn l s xs).1.groups = s.groups := by
  induction xs generalizing s with
  | nil => rfl
  | cons x xs ih => exact (ih _).trans (writeBytes_groups _ _ _)

theorem dirWriteBack_groups (s : State) (core scope line : Nat) : (dirWriteBack s core scope line).groups = s.groups := by
  unfold dirWriteBack
  split <;> rfl

theorem wakePhase_groups (s : State) (u k : Nat) : (wakePhase s u k).groups = s.groups := by
  unfold wakePhase
  simp only
  split <;> rfl

theorem tryComplete_groups (s : State) (u k : Nat) : (tryComplete s u k).groups = s.groups := by
  unfold tryComplete
  split
  · exact wakePhase_groups _ _ _
  · rfl

theorem countMember_groups (s : State) (u k : Nat) (b : Bool) : (countMember s u k b).groups = s.groups := tryComplete_groups _ _ _

theorem tryGroup_groups (s : State) (g k : Nat) : (tryGroup s g k).groups = s.groups := by
  unfold tryGroup
  simp only
  split
  · exact countMember_groups _ _ _ _
  · rfl

theorem landArrival_groups (s : State) (tid k : Nat) (w : Word) (b : Bool) : (landArrival s tid k w b).groups = s.groups := by
  unfold landArrival
  simp only
  split
  · split
    · exact countMember_groups _ _ _ _
    · exact tryGroup_groups _ _ _
  · split
    · exact countMember_groups _ _ _ _
    · rfl

/-! ### Contributions -/

theorem accRefuse_groups (s : State) (c : Contribution) (l : AccLine) (a : DWord) : (accRefuse s c l a).groups = s.groups := by
  unfold accRefuse
  split <;> rfl

theorem accGive_groups (s : State) (c : Contribution) (pa : Nat) (l : AccLine) (cs : List (Nat × Word)) : (accGive s c pa l cs).groups = s.groups := by
  unfold accGive
  split
  · rfl
  · exact (raiseMatrix_counted _ _ _ _ _).groups

theorem accApply_groups (s : State) (c : Contribution) : (accApply s c).1.groups = s.groups := by
  unfold accApply
  simp only
  split
  · exact accRefuse_groups _ _ _ _
  · split
    · simp only
      split
      · exact accRefuse_groups _ _ _ _
      · exact accGive_groups _ _ _ _ _
    · split
      · exact accGive_groups _ _ _ _ _
      · split <;> exact accGive_groups _ _ _ _ _

theorem applyContribution_groups (s : State) (i : Nat) : (applyContribution s i).groups = s.groups := by
  unfold applyContribution
  split
  · rfl
  · next c _ =>
    simp only
    split
    · exact (logError_logged _ _ _ _ _ _).groups
    · exact accApply_groups { s with contributions := s.contributions.filter (fun c => decide (c.id ≠ i)) } c

theorem applyContributions_groups (s : State) (is : List Nat) : (applyContributions s is).groups = s.groups := by
  induction is generalizing s with
  | nil => rfl
  | cons i is ih => exact (ih _).trans ((applyContribution_groups _ _).trans (applyContribution_groups _ _))

theorem settleGroup_groups (s : State) (g : Nat) : (settleGroup s g).groups = s.groups := applyContributions_groups _ _

/-! ### Entries of a store queue -/

theorem queue_of_groups {s t : State} (h : t.groups = s.groups) (g : Nat) : (t.group g).queue = (s.group g).queue := by
  rw [State.group, State.group, h]

/-- The events that a reduction leaves with its group are beside its queue. -/
theorem queue_withEvents (s : State) (g : Nat) (evs : List ((Nat × Nat) × List Nat)) (x : Nat) :
    ((s.modGroup g (fun y => { y with events := evs })).group x).queue = (s.group x).queue := by
  by_cases hx : x = g
  · rw [hx, State.group_modGroup_same]
  · rw [State.group_modGroup_other _ _ _ _ hx]

theorem performLive_queue (s : State) (g : Nat) (e : QEntry) (x : Nat) : ((performLive s g e).group x).queue = (s.group x).queue := by
  unfold performLive
  simp only
  split
  · exact queue_of_groups ((writeBytes_groups _ _ _).trans ((noteHeld_groups _ _ _ _ _).trans (noteStore_dirOnly _ _ _ _ _ _ _).groups)) x
  · exact queue_of_groups ((atomicLanes_groups _ _ _ _).trans (noteAtomic_dirOnly _ _).groups) x
  · next fn ls last _ =>
    have hr := (redfLanes_groups fn e.loc (noteAtomic s e.loc) ls).trans (noteAtomic_dirOnly _ _).groups
    split
    · rw [queue_of_groups (raiseEvents_counted _ _ _ _ _).groups, queue_withEvents, queue_of_groups hr]
    · rw [queue_withEvents, queue_of_groups hr]
  · rfl
  · exact queue_of_groups (eachLane_groups (fun t l => dirWriteBack_groups t _ _ l) _ _) x
  · refine queue_of_groups (eachLane_groups ?_ _ _) x
    exact fun _ _ => rfl
  · rfl
  · exact queue_of_groups ((landArrival_groups _ _ _ _ _).trans (settleGroup_groups _ _)) x
  · exact queue_of_groups ((eachLane_groups (fun t k => tryGroup_groups t g k) _ _).trans (settleGroup_groups _ _)) x

theorem dropLoads_groups (s : State) (e : QEntry) : (dropLoads s e).groups = s.groups := by
  unfold dropLoads
  split <;> rfl

theorem performEntry_queue (s : State) (g : Nat) (e : QEntry) (x : Nat) : ((performEntry s g e).group x).queue = (s.group x).queue := by
  unfold performEntry
  simp only
  split
  · exact queue_of_groups ((logError_logged _ _ _ _ _ _).groups.trans (dropLoads_groups _ _)) x
  · exact performLive_queue s g e x

/-- The oldest entry leaves its queue, whatever it does, and the others stay. -/
theorem leaveHead_queue (s : State) (g : Nat) : ((leaveHead s g).group g).queue = (s.group g).queue.tail := by
  unfold leaveHead
  split
  · next h => rw [h, List.tail_nil]
  · next e q h => rw [performEntry_queue, State.group_modGroup_same, h, List.tail_cons]

theorem leaveN_queue (n : Nat) (s : State) (g : Nat) : ((leaveN n s g).group g).queue = (s.group g).queue.drop n := by
  induction n generalizing s with
  | zero => rfl
  | succ n ih => rw [leaveN, ih, leaveHead_queue, List.drop_tail]

/-- Behind the last entry that a test holds of, it holds of none. -/
theorem not_of_mem_drop_throughLast (f : QEntry → Bool) (es : List QEntry) : ∀ e ∈ es.drop (throughLast f es), f e = false := by
  induction es with
  | nil => nofun
  | cons x es ih =>
    unfold throughLast
    simp only
    split
    · exact ih
    · next h =>
      have hrest : ∀ e ∈ es, f e = false := by
        have h0 : throughLast f es = 0 := not_not.1 h
        rw [h0] at ih
        exact ih
      split
      · exact hrest
      · next hx => exact List.forall_mem_cons.2 ⟨Bool.eq_false_iff.2 hx, hrest⟩

/-- What is left in a queue once the entries through the last of a kind have left is of another kind. -/
theorem leaveThrough_queue (s : State) (g : Nat) (f : QEntry → Bool) : ∀ e ∈ ((leaveThrough s g f).group g).queue, f e = false := by
  unfold leaveThrough
  rw [leaveN_queue]
  exact not_of_mem_drop_throughLast f _

/-- An empty queue has no entry to leave. -/
theorem leaveThrough_empty {s : State} {g : Nat} (h : (s.group g).queue = []) (f : QEntry → Bool) : leaveThrough s g f = s := by
  rw [leaveThrough, h]
  rfl

end Sys2Proof.Machine
end

section
/-! SUPPORT. The bytes of a binding: written back to memory, and filled from it. -/

namespace Sys2Proof.Machine

/-! ### A word's result of 32 bits -/

theorem thread_put (s : State) (p : Pipe) (l : Nat) (n : Bool) (d : Code) (v : Word) : (s.put p l n d v).thread l = withResult s l p n d v :=
  State.thread_setThread_same _ _ _

theorem thread_put_other (s : State) (p : Pipe) {l y : Nat} (h : y ≠ l) (n : Bool) (d : Code) (v : Word) : (s.put p l n d v).thread y = s.thread y :=
  State.thread_setThread_other _ _ _ _ h

theorem thread_of_threads {s t : State} (h : t.threads = s.threads) (l : Nat) : t.thread l = s.thread l := by rw [State.thread, State.thread, h]

theorem withResult_of_threads {s t : State} (h : t.threads = s.threads) (l : Nat) (p : Pipe) (n : Bool) (d : Code) (v : Word) :
    withResult t l p n d v = withResult s l p n d v := by
  unfold withResult
  rw [thread_of_threads h]

theorem answersWith_put (s : State) (l : Nat) (d : Code) (v : Word) : AnswersWith s l d v id (s.put .m l false d v) := by
  refine ⟨thread_put _ _ _ _ _ _, fun x hx => thread_put_other _ _ hx _ _ _, rfl, rfl, rfl, fun u => ?_⟩
  split <;> rfl

/-! ### Written back (R215) -/

/-- Two states of which nothing differs but memory, its poison and the lines held back. -/
def OnlyMemory (s t : State) : Prop := t = { s with mem := t.mem, poison := t.poison, confined := t.confined }

theorem OnlyMemory.refl (s : State) : OnlyMemory s s := rfl
theorem OnlyMemory.trans {s t r : State} (h : OnlyMemory s t) (k : OnlyMemory t r) : OnlyMemory s r := by
  unfold OnlyMemory at *
  rw [k, h]
theorem OnlyMemory.threads {s t : State} (h : OnlyMemory s t) : t.threads = s.threads := by rw [h]
theorem OnlyMemory.teams {s t : State} (h : OnlyMemory s t) : t.teams = s.teams := by rw [h]
theorem OnlyMemory.sys {s t : State} (h : OnlyMemory s t) : t.sys = s.sys := by rw [h]
theorem OnlyMemory.binds {s t : State} (h : OnlyMemory s t) : t.binds = s.binds := by rw [h]

theorem copyUnits_only (s : State) (team off pa n : Nat) : OnlyMemory s (copyUnits s team off pa n) := by
  induction n with
  | zero => exact .refl s
  | succ n ih => exact ih.trans rfl

theorem copyPoison_only (s : State) (team off pa n : Nat) : OnlyMemory s (copyPoison s team off pa n) := by
  induction n with
  | zero => exact .refl s
  | succ n ih => exact ih.trans rfl

theorem copyUnits_mem (s : State) (team off pa n x : Nat) :
    mget 0 (copyUnits s team off pa n).mem x = if pa ≤ x ∧ x < pa + n then mget 0 (s.team team).scratch (off + (x - pa)) else mget 0 s.mem x := by
  induction n with
  | zero => rw [if_neg (by omega), copyUnits]
  | succ n ih =>
    have hteam : (copyUnits s team off pa n).team team = s.team team := by rw [State.team, State.team, (copyUnits_only s team off pa n).teams]
    simp only [copyUnits, unwritten, mget_mset, rawByte, hteam, ih]
    by_cases hx : x = pa + n
    · rw [if_pos hx, if_pos (by omega), hx, Nat.add_sub_cancel_left]
    · rw [if_neg hx]
      by_cases hin : pa ≤ x ∧ x < pa + n
      · rw [if_pos hin, if_pos (by omega)]
      · rw [if_neg hin, if_neg (by omega)]

theorem copyUnit_only (s : State) (team off pa : Nat) : OnlyMemory s (copyUnit s team off pa) := by
  unfold copyUnit
  exact (copyUnits_only s team off pa _).trans (copyPoison_only _ _ _ _ _)

theorem copyUnit_mem (s : State) (team off pa x : Nat) :
    mget 0 (copyUnit s team off pa).mem x = if pa ≤ x ∧ x < pa + 4096 then mget 0 (s.team team).scratch (off + (x - pa)) else mget 0 s.mem x := by
  unfold copyUnit
  rw [copyPoison_mem, copyUnits_mem]

theorem writeBackUnits_only (s : State) (team off : Nat) (us : List Nat) : OnlyMemory s (writeBackUnits s team off us) := by
  induction us generalizing s off with
  | nil => exact .refl s
  | cons u us ih => exact (copyUnit_only s team off (u * 4096)).trans (ih _ _)

/-- Memory outside the units is as it was. -/
theorem writeBackUnits_off (s : State) (team off : Nat) (us : List Nat) {x : Nat} (h : x / 4096 ∉ us) :
    mget 0 (writeBackUnits s team off us).mem x = mget 0 s.mem x := by
  induction us generalizing s off with
  | nil => rfl
  | cons u us ih =>
    have hu : x / 4096 ≠ u := List.ne_of_not_mem_cons h
    rw [writeBackUnits, ih _ _ (List.not_mem_of_not_mem_cons h), copyUnit_mem, if_neg (by omega)]

/-- The units hold the bytes of the scratchpad, one unit after the other. -/
theorem writeBackUnits_at (s : State) (team off : Nat) {us : List Nat} (h : us.Nodup) {i j : Nat} (hi : i < us.length) (hj : j < 4096) :
    mget 0 (writeBackUnits s team off us).mem (us.getD i 0 * 4096 + j) = mget 0 (s.team team).scratch (off + i * 4096 + j) := by
  induction us generalizing s off i with
  | nil => exact absurd hi (Nat.not_lt_zero _)
  | cons u us ih =>
    obtain ⟨hu, hus⟩ := List.nodup_cons.1 h
    rw [writeBackUnits]
    cases i with
    | zero =>
      have hout : (u * 4096 + j) / 4096 ∉ us := by
        rw [show (u * 4096 + j) / 4096 = u by omega]
        exact hu
      rw [List.getD_cons_zero, writeBackUnits_off _ _ _ _ hout, copyUnit_mem, if_pos (by omega)]
      congr 1
      omega
    | succ i =>
      have hteam : (copyUnit s team off (u * 4096)).team team = s.team team := by rw [State.team, State.team, (copyUnit_only s team off _).teams]
      rw [List.getD_cons_succ, ih _ _ hus (Nat.lt_of_succ_lt_succ hi), hteam]
      congr 1
      omega

/-! ### Filled (R214, R308) -/

/-- Two states of which nothing differs but the teams, each still listed. -/
structure OnlyTeams (s t : State) : Prop where
  rest : t = { s with teams := t.teams }
  present : ∀ u, (mfind t.teams u).isSome = (mfind s.teams u).isSome

theorem OnlyTeams.refl (s : State) : OnlyTeams s s := ⟨rfl, fun _ => rfl⟩
theorem OnlyTeams.trans {s t r : State} (h : OnlyTeams s t) (k : OnlyTeams t r) : OnlyTeams s r :=
  ⟨by rw [k.rest, h.rest], fun u => (k.present u).trans (h.present u)⟩
theorem OnlyTeams.modTeam (s : State) (u : Nat) (f : Team → Team) : OnlyTeams s (s.modTeam u f) := ⟨rfl, fun x => isSome_modTeam s u x f⟩
theorem OnlyTeams.mem {s t : State} (h : OnlyTeams s t) : t.mem = s.mem := by rw [h.rest]
theorem OnlyTeams.threads {s t : State} (h : OnlyTeams s t) : t.threads = s.threads := by rw [h.rest]
theorem OnlyTeams.binds {s t : State} (h : OnlyTeams s t) : t.binds = s.binds := by rw [h.rest]

theorem fillBytesFrom_only (s : State) (team off pa n : Nat) : OnlyTeams s (fillBytesFrom s team off pa n) := by
  induction n with
  | zero => exact .refl s
  | succ n ih => exact ih.trans (.modTeam _ _ _)

theorem fillPoison_only (s : State) (team off pa n : Nat) : OnlyTeams s (fillPoison s team off pa n) := by
  induction n with
  | zero => exact .refl s
  | succ n ih => exact ih.trans (.modTeam _ _ _)

theorem fillBytesFrom_scratch {s : State} {team : Nat} (h : (mfind s.teams team).isSome = true) (off pa n x : Nat) :
    mget 0 ((fillBytesFrom s team off pa n).team team).scratch x =
      if off ≤ x ∧ x < off + n then mget 0 s.mem (pa + (x - off)) else mget 0 (s.team team).scratch x := by
  induction n with
  | zero => rw [if_neg (by omega), fillBytesFrom]
  | succ n ih =>
    have honly := fillBytesFrom_only s team off pa n
    rw [fillBytesFrom, State.team_modTeam_same _ _ _ ((honly.present team).trans h), mget_mset, ih, honly.mem]
    by_cases hx : x = off + n
    · rw [if_pos hx, if_pos (by omega), hx, Nat.add_sub_cancel_left]
      rfl
    · rw [if_neg hx]
      by_cases hin : off ≤ x ∧ x < off + n
      · rw [if_pos hin, if_pos (by omega)]
      · rw [if_neg hin, if_neg (by omega)]

theorem fillPoison_scratch {s : State} {team : Nat} (h : (mfind s.teams team).isSome = true) (off pa n : Nat) :
    ((fillPoison s team off pa n).team team).scratch = (s.team team).scratch := by
  induction n with
  | zero => rfl
  | succ n ih => rw [fillPoison, State.team_modTeam_same _ _ _ (((fillPoison_only s team off pa n).present team).trans h), ih]

/-- One unit filled, its poison with it. -/
@[irreducible] def fillUnit (s : State) (team off u : Nat) : State := fillPoison (fillBytesFrom s team off (u * 4096) 4096) team off (u * 4096) 128

theorem fillUnits_cons (s : State) (team off u : Nat) (us : List Nat) : fillUnits s team off (u :: us) = fillUnits (fillUnit s team off u) team (off + 4096) us := by
  unfold fillUnit
  conv_lhs => unfold fillUnits

theorem fillUnit_only (s : State) (team off u : Nat) : OnlyTeams s (fillUnit s team off u) := by
  unfold fillUnit
  exact (fillBytesFrom_only s team off _ _).trans (fillPoison_only _ _ _ _ _)

theorem fillUnit_scratch {s : State} {team : Nat} (h : (mfind s.teams team).isSome = true) (off u x : Nat) :
    mget 0 ((fillUnit s team off u).team team).scratch x =
      if off ≤ x ∧ x < off + 4096 then mget 0 s.mem (u * 4096 + (x - off)) else mget 0 (s.team team).scratch x := by
  unfold fillUnit
  rw [fillPoison_scratch (((fillBytesFrom_only s team off _ _).present team).trans h), fillBytesFrom_scratch h]

theorem fillUnits_only (s : State) (team off : Nat) (us : List Nat) : OnlyTeams s (fillUnits s team off us) := by
  induction us generalizing s off with
  | nil => exact .refl s
  | cons u us ih =>
    rw [fillUnits_cons]
    exact (fillUnit_only s team off u).trans (ih _ _)

/-- What lies before the units is as it was. -/
theorem fillUnits_before {s : State} {team off : Nat} (us : List Nat) (h : (mfind s.teams team).isSome = true) {x : Nat} (hx : x < off) :
    mget 0 ((fillUnits s team off us).team team).scratch x = mget 0 (s.team team).scratch x := by
  induction us generalizing s off with
  | nil => rfl
  | cons u us ih =>
    rw [fillUnits_cons, ih (((fillUnit_only s team off u).present team).trans h) (by omega), fillUnit_scratch h, if_neg (by omega)]

/-- The scratchpad holds the bytes of the units, one unit after the other. -/
theorem fillUnits_at {s : State} {team off : Nat} {us : List Nat} (h : (mfind s.teams team).isSome = true) {i j : Nat} (hi : i < us.length) (hj : j < 4096) :
    mget 0 ((fillUnits s team off us).team team).scratch (off + i * 4096 + j) = mget 0 s.mem (us.getD i 0 * 4096 + j) := by
  induction us generalizing s off i with
  | nil => exact absurd hi (Nat.not_lt_zero _)
  | cons u us ih =>
    have honly := fillUnit_only s team off u
    have hlisted := (honly.present team).trans h
    rw [fillUnits_cons]
    cases i with
    | zero =>
      rw [List.getD_cons_zero, fillUnits_before us hlisted (by omega), fillUnit_scratch h, if_pos (by omega)]
      congr 1
      omega
    | succ i =>
      rw [List.getD_cons_succ, show off + (i + 1) * 4096 + j = off + 4096 + i * 4096 + j by omega, ih hlisted (Nat.lt_of_succ_lt_succ hi), honly.mem]

end Sys2Proof.Machine
end

section
/-! PROOF. O41: SPMAP, SPUNMAP and SPWB. -/

namespace Sys2Proof.Machine

/-! ### The control word and the free entry (R308) -/

theorem readMapCtl_unit (c : Nat) : (readMapCtl c).unit = c % 128 := by simp [readMapCtl, bits]
theorem readMapCtl_count (c : Nat) : (readMapCtl c).count = c / 2 ^ 8 % 128 + 1 := by simp [readMapCtl, bits]
theorem readMapCtl_fill (c : Nat) : (readMapCtl c).fill = c.testBit 16 := rfl

theorem readMapCtl_legal {c : Nat} (h : c < 2 ^ 32) : (readMapCtl c).legal = false ↔ c.testBit 7 = true ∨ c.testBit 15 = true ∨ c / 2 ^ 17 ≠ 0 := by
  have hbits : bits c 31 17 = c / 2 ^ 17 := by
    unfold bits
    omega
  simp only [readMapCtl, hbits, decide_eq_false_iff_not, not_and_or, Bool.not_eq_false]

theorem freeEntry_none {s : State} {core : Nat} (h : ∀ i, i < 16 → (mfind (s.core core).spmap i).isSome = true) : freeEntry s core = none := by
  rw [freeEntry, List.find?_eq_none]
  intro i hi
  have hsome := h i (List.mem_range.1 hi)
  simp only [← Option.not_isSome, hsome, Bool.not_true]
  exact Bool.false_ne_true

theorem freeEntry_lowest {s : State} {core : Nat} (h : ¬∀ i, i < 16 → (mfind (s.core core).spmap i).isSome = true) :
    ∃ e, freeEntry s core = some e ∧ e < 16 ∧ ¬(mfind (s.core core).spmap e).isSome = true ∧ ∀ i, i < e → (mfind (s.core core).spmap i).isSome = true := by
  cases hfree : freeEntry s core with
  | none =>
    rw [freeEntry, List.find?_eq_none] at hfree
    refine absurd (fun i hi => ?_) h
    have hsome := hfree i (List.mem_range.2 hi)
    rwa [Option.isNone_iff_eq_none, ← ne_eq, Option.ne_none_iff_isSome] at hsome
  | some e =>
    rw [freeEntry, List.find?_range_eq_some] at hfree
    obtain ⟨hnone, hmem, hbefore⟩ := hfree
    exact ⟨e, rfl, List.mem_range.1 hmem, by simpa using hnone, fun i hi => by simpa using hbefore i hi⟩

/-! ### SPMAP by its status -/

theorem State.team_of_teams {s t : State} (h : t.teams = s.teams) (u : Nat) : t.team u = s.team u := by rw [State.team, State.team, h]


section
variable {s : State} {l : Nat} {d a : Code}

variable (hq : (s.group (grpOf l)).queue = [])
include hq

/-- SPMAP of a group with an empty queue, where it makes no binding. -/
theorem spmapLane_refused {st : Nat} (hst : mapStatus s (teamOf l) (readMapCtl (s.src l d).toNat) (s.src64 l a) = st) (h0 : st ≠ 0) :
    spmapLane d a s l = (if st = 3 then logUnits s (s.team (teamOf l)).coreId (s.team (teamOf l)).ctx (s.src64 l a).toNat (readMapCtl (s.src l d).toNat).count
      else s).put .m l false d (wd st) := by
  unfold spmapLane
  cases hus : bindUnits s (s.team (teamOf l)).coreId (s.team (teamOf l)).ctx (s.src64 l a).toNat (readMapCtl (s.src l d).toNat).count with
  | none =>
    simp only [hus, hst]
    split
    · exact absurd rfl h0
    · rfl
  | some us =>
    simp only [hus, settleUnits, leaveThrough_empty hq, hst]
    split
    · exact absurd rfl h0
    · rfl

theorem spmapLane_bound (hst : mapStatus s (teamOf l) (readMapCtl (s.src l d).toNat) (s.src64 l a) = 0) {e : Nat} {us : List Nat}
    (he : freeEntry s (s.team (teamOf l)).coreId = some e)
    (hus : bindUnits s (s.team (teamOf l)).coreId (s.team (teamOf l)).ctx (s.src64 l a).toNat (readMapCtl (s.src l d).toNat).count = some us) :
    spmapLane d a s l = (makeBind s (teamOf l) e (mapEntry (s.team (teamOf l)) (readMapCtl (s.src l d).toNat) (s.src64 l a))
      (readMapCtl (s.src l d).toNat).fill ((readMapCtl (s.src l d).toNat).unit * 4096) us).put .m l false d (wd (16 * e)) := by
  unfold spmapLane
  simp only [hus, settleUnits, leaveThrough_empty hq, hst, he]

end

/-- What the malformed entries of a run of units leave in the error ring (R201). -/
theorem logUnits_logged (s : State) (core ctx va n : Nat) : Logged s (logUnits s core ctx va n) := by
  unfold logUnits logEntry
  split
  · exact logError_logged _ _ _ _ _ _
  · exact .refl s

theorem Logged.binds {s t : State} (h : Logged s t) : t.binds = s.binds := by rw [h.rest]

/-- Where no entry is malformed there is nothing to record. -/
theorem logUnits_none {s : State} {core ctx va n : Nat} (h : ∀ i, i < n → metBad s core ctx (dw (va + 4096 * i)) = none) : logUnits s core ctx va n = s := by
  have hnone : (List.range n).findSome? (fun i => metBad s core ctx (dw (va + 4096 * i))) = none := by
    rw [List.findSome?_eq_none_iff]
    exact fun i hi => h i (List.mem_range.1 hi)
  rw [logUnits, hnone, logEntry]

/-- A binding that has been made: its entry is listed, memory is as it was, and its bytes are filled in where the control word says so. -/
theorem makeBind_gives (s : State) (uid entry : Nat) (word : DWord) (fill : Bool) (off : Nat) (us : List Nat) :
    (makeBind s uid entry word fill off us).threads = s.threads ∧ (makeBind s uid entry word fill off us).mem = s.mem ∧
    (makeBind s uid entry word fill off us).binds = s.binds ++ [{ core := (s.team uid).coreId, entry := entry, team := uid, off := off, units := us }] ∧
    (makeBind s uid entry word fill off us).teams = (if fill then fillUnits s uid off us else s).teams := by
  cases fill with
  | false => exact ⟨rfl, rfl, rfl, rfl⟩
  | true =>
    have h := fillUnits_only s uid off us
    refine ⟨h.threads, h.mem, ?_, rfl⟩
    exact congrArg (· ++ _) h.binds

theorem spmap_gives (d a : Code) : AloneGives (.spmap d a) (fun s l t => (s.group (grpOf l)).queue = [] →
    let team := s.team (teamOf l)
    let c := (s.src l d).toNat
    let unit := c % 128
    let count := c / 2 ^ 8 % 128 + 1
    let taken (i : Nat) : Prop := (mfind (s.core team.coreId).spmap i).isSome = true
    if ∀ i, i < 16 → taken i then AnswersWith s l d 1 id t
    else if team.kern.scratch < (unit + count) * 4096 then AnswersWith s l d 2 id t
    else match bindUnits s team.coreId team.ctx (s.src64 l a).toNat count with
      | none => t.thread l = withResult s l .m false d 3 ∧ t.binds = s.binds ∧
        ((∀ i, i < count → metBad s team.coreId team.ctx (BitVec.ofNat 64 ((s.src64 l a).toNat + 4096 * i)) = none) → AnswersWith s l d 3 id t)
      | some us =>
        if ∃ u ∈ us, ∃ b ∈ s.binds, u ∈ b.units then AnswersWith s l d 4 id t
        else if c.testBit 7 = true ∨ c.testBit 15 = true ∨ c / 2 ^ 17 ≠ 0 then AnswersWith s l d 5 id t
        else ∃ e, e < 16 ∧ ¬taken e ∧ (∀ i, i < e → taken i) ∧
          t.thread l = withResult s l .m false d (BitVec.ofNat 32 (16 * e)) ∧ t.mem = s.mem ∧
          t.binds = s.binds ++ [{ core := team.coreId, entry := e, team := teamOf l, off := unit * 4096, units := us }] ∧
          (c.testBit 16 = false → t.teams = s.teams) ∧
          (c.testBit 16 = true → (mfind s.teams (teamOf l)).isSome = true → ∀ i j, i < us.length → j < 4096 →
            mget 0 (t.team (teamOf l)).scratch (unit * 4096 + i * 4096 + j) = mget 0 s.mem (us.getD i 0 * 4096 + j))) := by
  intro s l h
  refine ⟨_, h.issued _, fun hq => ?_⟩
  have hunit := readMapCtl_unit (s.src l d).toNat
  have hcount := readMapCtl_count (s.src l d).toNat
  have hlegal := readMapCtl_legal (s.src l d).isLt
  have hrefused {st : Nat} (hst : mapStatus s (teamOf l) (readMapCtl (s.src l d).toNat) (s.src64 l a) = st) (h0 : st ≠ 0) (h3 : st ≠ 3) :
      AnswersWith s l d (wd st) id (spmapLane d a s l) := by
    rw [spmapLane_refused hq hst h0, if_neg h3]
    exact answersWith_put _ _ _ _
  simp only [eachLane]
  rw [← hunit, ← hcount]
  split
  · next hfull => exact hrefused (st := 1) (by simp [mapStatus, freeEntry_none hfull]) (by decide) (by decide)
  next hfree =>
  obtain ⟨e, he, hlt, hnot, hbefore⟩ := freeEntry_lowest hfree
  split
  · next hroom => exact hrefused (st := 2) (by simp [mapStatus, he, hroom]) (by decide) (by decide)
  next hroom =>
  cases hus : bindUnits s (s.team (teamOf l)).coreId (s.team (teamOf l)).ctx (s.src64 l a).toNat (readMapCtl (s.src l d).toNat).count with
  | none =>
    rw [spmapLane_refused (st := 3) hq (by simp [mapStatus, he, hroom, hus]) (by decide), if_pos rfl]
    have hlog := logUnits_logged s (s.team (teamOf l)).coreId (s.team (teamOf l)).ctx (s.src64 l a).toNat (readMapCtl (s.src l d).toNat).count
    refine ⟨(thread_put _ _ _ _ _ _).trans (withResult_of_threads hlog.threads _ _ _ _ _), hlog.binds, fun hgood => ?_⟩
    rw [logUnits_none hgood]
    exact answersWith_put _ _ _ _
  | some us =>
    have hany : us.any (fun u => s.binds.any (fun b => b.units.contains u)) = true ↔ ∃ u ∈ us, ∃ b ∈ s.binds, u ∈ b.units := by simp
    simp only
    split
    · next htaken => exact hrefused (st := 4) (by simp only [mapStatus, he, hroom, hus, hany.2 htaken]; rfl) (by decide) (by decide)
    next htaken =>
    have hclear := Bool.eq_false_iff.2 (mt hany.1 htaken)
    split
    · next hbad => exact hrefused (st := 5) (by simp only [mapStatus, he, hroom, hus, hclear, hlegal.2 hbad]; rfl) (by decide) (by decide)
    next hgood =>
    have hok : (readMapCtl (s.src l d).toNat).legal = true := Bool.eq_true_of_not_eq_false (mt hlegal.1 hgood)
    rw [spmapLane_bound hq (by simp only [mapStatus, he, hroom, hus, hclear, hok]; rfl) he hus, readMapCtl_fill]
    obtain ⟨hthreads, hmem, hbinds, hteams⟩ := makeBind_gives s (teamOf l) e (mapEntry (s.team (teamOf l)) (readMapCtl (s.src l d).toNat) (s.src64 l a))
      ((s.src l d).toNat.testBit 16) ((readMapCtl (s.src l d).toNat).unit * 4096) us
    refine ⟨e, hlt, hnot, hbefore, (thread_put _ _ _ _ _ _).trans (withResult_of_threads hthreads _ _ _ _ _), hmem, hbinds, fun hfill => ?_,
      fun hfill hlisted i j hi hj => ?_⟩
    · rw [if_neg (by rw [hfill]; exact Bool.false_ne_true)] at hteams
      exact hteams
    · rw [if_pos hfill] at hteams
      rw [← fillUnits_at hlisted hi hj, ← State.team_of_teams hteams]
      rfl

/-! ### SPUNMAP and SPWB -/

/-- What the end and the write-back of a binding have in common: its bytes go to memory. -/
structure WritesBack (s : State) (b : Bind) (t : State) : Prop where
  threads : t.threads = s.threads
  teams : t.teams = s.teams
  sys : t.sys = s.sys
  mem : t.mem = (writeBackUnits s b.team b.off b.units).mem

theorem writeBack_writesBack (s : State) (b : Bind) : WritesBack s b (writeBack s b) :=
  have h := writeBackUnits_only s b.team b.off b.units
  ⟨h.threads, h.teams, h.sys, rfl⟩

theorem endBind_writesBack (s : State) (b : Bind) : WritesBack s b (endBind s b) :=
  have h := writeBackUnits_only s b.team b.off b.units
  ⟨h.threads, h.teams, h.sys, rfl⟩

theorem writeBack_binds (s : State) (b : Bind) : (writeBack s b).binds = s.binds := (writeBackUnits_only s b.team b.off b.units).binds

theorem endBind_binds (s : State) (b : Bind) :
    (endBind s b).binds = s.binds.filter (fun x => !(decide (x.core = b.core) && decide (x.entry = b.entry))) :=
  congrArg (List.filter _) (writeBack_binds s b)

/-- A word that writes a binding back, whatever it makes of the table of bindings. -/
theorem mapLane_gives {i : Instr} {d : Code} {act : State → Bind → State} {binds : State → Bind → List Bind}
    (hi : ∀ s, exec i s = issued i s (eachLane (mapLane act d)))
    (hact : ∀ s b, WritesBack s b (act s b)) (hbinds : ∀ s b, (act s b).binds = binds s b) (hgroups : ∀ s b, (act s b).groups = s.groups) :
    AloneGives i (fun s l t =>
      let found := s.binds.find? (fun b => decide (b.core = (s.team (teamOf l)).coreId ∧ b.entry = (s.src l d).toNat ∧ b.team = teamOf l))
      (found = none → AnswersWith s l d 1 id t ∧ t.binds = s.binds) ∧
      (∀ b, found = some b → ∀ e ∈ (t.group (grpOf l)).queue, e.writes s (.scratch (teamOf l) b.off) (4096 * b.units.length) = false) ∧
      ∀ b, found = some b → (s.group (grpOf l)).queue = [] → t.thread l = withResult s l .m false d 0 ∧ (∀ u, u ≠ l → t.thread u = s.thread u) ∧ t.teams = s.teams ∧ t.sys = s.sys ∧
        (b.units.Nodup → ∀ i j, i < b.units.length → j < 4096 →
          mget 0 t.mem (b.units.getD i 0 * 4096 + j) = mget 0 (s.team b.team).scratch (b.off + i * 4096 + j)) ∧
        (∀ x, x / 4096 ∉ b.units → mget 0 t.mem x = mget 0 s.mem x) ∧
        t.binds = binds s b) := by
  intro s l h
  refine ⟨_, (hi s).trans (h.issued _), ?_⟩
  have hteam : grpOf l / 64 = teamOf l := by rw [grpOf, teamOf, Nat.div_div_eq_div_mul]
  simp only [eachLane]
  rw [mapLane, bindOf]
  refine ⟨fun hnone => ?_, fun b hb e he => ?_, fun b hb hq => ?_⟩
  · rw [hnone]
    exact ⟨answersWith_put _ _ _ _, rfl⟩
  · rw [hb] at he
    have hqueue := leaveThrough_queue s (grpOf l)
      (fun e => e.writes s (.scratch (grpOf l / 64) b.off) (4096 * b.units.length) || b.units.any (fun u => e.writes s (.phys (u * 4096)) 4096)) e
      (queue_of_groups (hgroups _ b) (grpOf l) ▸ he)
    rw [hteam] at hqueue
    exact (Bool.or_eq_false_iff.1 hqueue).1
  · obtain ⟨hthreads, hteams, hsys, hmem⟩ := hact s b
    rw [hb]
    simp only [settleUnits, leaveThrough_empty hq]
    refine ⟨(thread_put _ _ _ _ _ _).trans (withResult_of_threads hthreads _ _ _ _ _), fun u hu => (thread_put_other _ _ hu _ _ _).trans (thread_of_threads hthreads u),
      hteams, hsys, fun hn i j hi hj => ?_, fun x hx => ?_, hbinds s b⟩
    · rw [← writeBackUnits_at s b.team b.off hn hi hj, ← hmem]
      rfl
    · rw [← writeBackUnits_off s b.team b.off b.units hx, ← hmem]
      rfl

theorem writeBackUnits_groups (s : State) (team off : Nat) (us : List Nat) : (writeBackUnits s team off us).groups = s.groups := by
  have h : OnlyMemory s (writeBackUnits s team off us) := writeBackUnits_only s team off us
  rw [h]

/-- Settles O41: SPMAP answers by its status, and SPUNMAP and SPWB write the bound bytes back. -/
theorem scratchpadBindings : Obligations.ScratchpadBindings := by
  intro d a
  refine ⟨spmap_gives d a, fun q hq => ?_⟩
  simp only [List.mem_cons, List.not_mem_nil, or_false] at hq
  obtain rfl | rfl := hq
  · exact mapLane_gives (binds := fun s b => s.binds.filter (fun x => !(decide (x.core = b.core) && decide (x.entry = b.entry)))) (fun _ => rfl)
      endBind_writesBack endBind_binds (fun s b => writeBackUnits_groups s b.team b.off b.units)
  · exact mapLane_gives (binds := fun s _ => s.binds) (fun _ => rfl) writeBack_writesBack writeBack_binds (fun s b => writeBackUnits_groups s b.team b.off b.units)

end Sys2Proof.Machine
end

section
/-! PROOF. O51 fails: where a walk's row has been kept shorter than it is, the bytes behind it are not written. -/

namespace Sys2Proof.Machine

/-- A view of blocks without columns: a walk's row of it, not through the view, is its scale and twelve zero bytes. -/
def ShortRow.view : ViewReg :=
  { matrix := 0, rows := 0, cols := 0, mslot := 0, lslot := 0, bf16 := false, flags := 0, aperture := 0, latentBase := 0, latentStride := 0, tslot := none, data := [], binding := 0 }

/-- A walk of token 0, whose block lies at 0, to the scratchpad's offset 0. Its one row has been formed, with no byte in it. -/
def ShortRow.walk : Request :=
  { id := 6, team := 1, ctx := 0, tid := tidOf 1 0 0, rid := 1, die := 0, core := 0, cls := 1, op := .walk 0 0 [(0, 0)] 0 view 0 false, acquire := false, release := false,
    scope := 0, record := 0, multicast := false, mask := 0, failed := 0, regs := [], before := 0, ready := true, done := [], total := 2, rows := [(0, ([], []))],
    pages := [(0, (0x63, 2 ^ 30))], held := none, node := none, table := none, order := 0 }

/-- The first byte of the scratchpad is 1. -/
def ShortRow.state : State :=
  { State.reset with boot := .running, teams := [(1, { noTeam with life := .running, scratch := [(0, 1)] })], requests := [walk] }

open ShortRow

theorem request_shortRow : state.request 6 = some walk := by decide +kernel

/-- The first of the row's beats moves its sixteen bytes. -/
theorem granule_shortRow : granule (0 + (0 - 0) * 0) (walkLen (walk.fmt state) view false) (0 % rowBeats (walkLen (walk.fmt state) view false)) = (0, 16) := by decide +kernel

theorem token_shortRow : ([(0, 0)] : List (Nat × DWord))[0 / rowBeats (walkLen (walk.fmt state) view false)]? = some (0, 0) := by decide +kernel

theorem keptRow_shortRow : mfind walk.rows (0 / rowBeats (walkLen (walk.fmt state) view false)) = some ([], []) := by decide +kernel

theorem blockBytes_shortRow : 128 + 16 * rowPitch view.cols (viewEs (walk.fmt state)) = 128 := by decide +kernel

/-- The block's pages have been translated. -/
theorem mapped_shortRow : 2 ^ 30 % 32 = 0 ∧ ∀ k, k < 128 + 16 * rowPitch view.cols (viewEs (walk.fmt state)) →
    mfind walk.pages (((0 : DWord).toNat + k) % 2 ^ 64 / 65536) = some (0x63, 2 ^ 30) ∧
    leafPhys 0x63 (2 ^ 30) (((0 : DWord).toNat + k) % 2 ^ 64) = leafPhys 0x63 (2 ^ 30) (0 : DWord).toNat + k := by
  rw [blockBytes_shortRow]
  decide +kernel

theorem poisonAt_shortRow : ∀ o, o < 128 + 16 * rowPitch view.cols (viewEs (walk.fmt state)) →
    poisonAt state (.phys (leafPhys 0x63 (2 ^ 30) (0 : DWord).toNat + o)) = false := by
  rw [blockBytes_shortRow]
  decide +kernel

/-- The first byte of the row's place is as it was. -/
theorem landBeat_shortRow_byte : readByte (landBeat state 6 0) (.scratch 1 0) = 1 := by decide +kernel

/-- Refutes O51: its clause on walks puts a row that has been formed, byte by byte, at its place, and zeros where the row ends before its beat; it bounds what a
request has read by its length, but not the rows that it has formed, and behind the end of a kept row nothing is written. -/
theorem not_streamerSteps : ¬ Obligations.StreamerSteps := by
  unfold Obligations.StreamerSteps
  intro h
  obtain ⟨-, -, -, -, -, -, -, hwalk, -⟩ := h
  obtain ⟨t, ht, hrow⟩ := hwalk 6 0 state ⟨walk, 0, 0, [(0, 0)], 0, view, 0, false, 0, 0, 0x63, 2 ^ 30,
    ⟨request_shortRow, rfl, rfl, by decide, by decide, by decide +kernel, rfl, rfl, rfl, rfl⟩, rfl, token_shortRow, by rw [granule_shortRow]; decide, rfl,
    mapped_shortRow, by decide +kernel, poisonAt_shortRow, by decide +kernel, by decide +kernel, by decide +kernel, by decide +kernel⟩
  have he : t = landBeat state 6 0 := by
    rw [exec_streamerBeat, execStreamerBeat] at ht
    exact (Host.Outcome.next.inj ht).symm
  have hpast : (readByte state (.phys (leafPhys 0x63 (2 ^ 30) (0 : DWord).toNat + 4))).toNat ≤ 0 % 16 := by decide +kernel
  obtain ⟨-, -, hbytes, -, -⟩ := hrow walk 0 0 [(0, 0)] 0 view 0 false 0 0 0x63 (2 ^ 30) request_shortRow rfl token_shortRow mapped_shortRow
    0x3F800000 (List.replicate (rowPitch view.cols (viewEs (walk.fmt state))) 0) [] (fun _ => ⟨rfl, rfl⟩) (fun h => absurd hpast h)
    (by rw [keptRow_shortRow])
  rw [granule_shortRow] at hbytes
  have hzero : readByte t (.scratch 1 0) = 0 := hbytes 0 (by decide)
  rw [he, landBeat_shortRow_byte] at hzero
  cases hzero

end Sys2Proof.Machine
end
